-- ==== Sys2Proof/Word.lean ====
section
/-!
DEFINITION. Word types of the part (R2, R118): bits, lane words and scalar words.
-/

namespace Sys2Proof

/-- One byte. -/
abbrev Byte := BitVec 8

/-- A lane value (R118). -/
abbrev Word := BitVec 32

/-- A scalar, handle, address or mask of 64 bits. -/
abbrev DWord := BitVec 64

/-- The field `hi:lo` of a word, as a number of `hi - lo + 1` bits (R2). -/
abbrev field {n : Nat} (w : BitVec n) (lo len : Nat) : BitVec len := w.extractLsb' lo len

end Sys2Proof
end

