-- ==== Sys2Proof/Machine/Maps.lean ====
section
/-!
DEFINITION. Sparse maps and sets of numbers: sorted lists in one canonical form, the shape in which the state
holds register windows, tables and memory.
-/

namespace Sys2Proof.Machine

/-- Keys with values, keys strictly rising. -/
abbrev Map (α : Type) := List (Nat × α)

/-- The value at a key, if one is listed. -/
def Map.find {α : Type} : Map α → Nat → Option α
  | [], _ => none
  | (k, v) :: m, a => if a < k then none else if a = k then some v else Map.find m a

/-- The value at a key, or the default of an unlisted key. -/
def Map.getD {α : Type} (m : Map α) (a : Nat) (d : α) : α := (Map.find m a).getD d

/-- Remove a key. -/
def Map.erase {α : Type} : Map α → Nat → Map α
  | [], _ => []
  | (k, v) :: m, a => if a < k then (k, v) :: m else if a = k then m else (k, v) :: Map.erase m a

/-- List a key with a value. -/
def Map.insert {α : Type} : Map α → Nat → α → Map α
  | [], a, x => [(a, x)]
  | (k, v) :: m, a, x =>
    if a < k then (a, x) :: (k, v) :: m
    else if a = k then (a, x) :: m
    else (k, v) :: Map.insert m a x

/-- Write a value in the canonical form for the default `d`: the default is never listed. -/
def Map.put {α : Type} [DecidableEq α] (m : Map α) (a : Nat) (x d : α) : Map α :=
  if x = d then Map.erase m a else Map.insert m a x

/-- Keys strictly rising from a bound on. -/
def Map.sortedFrom {α : Type} : Nat → Map α → Bool
  | _, [] => true
  | b, (k, _) :: m => decide (b ≤ k) && Map.sortedFrom (k + 1) m

/-- The canonical form of a map: keys strictly rising. -/
def Map.sorted {α : Type} (m : Map α) : Bool := Map.sortedFrom 0 m

/-- The canonical form for a default: keys strictly rising, the default never listed. -/
def Map.canon {α : Type} [DecidableEq α] (m : Map α) (d : α) : Bool :=
  Map.sorted m && m.all (fun e => decide (e.2 ≠ d))

/-- A set of numbers, strictly rising. -/
abbrev NatSet := List Nat

/-- Membership. -/
def NatSet.mem : NatSet → Nat → Bool
  | [], _ => false
  | k :: m, a => if a < k then false else if a = k then true else NatSet.mem m a

/-- Add a member. -/
def NatSet.add : NatSet → Nat → NatSet
  | [], a => [a]
  | k :: m, a => if a < k then a :: k :: m else if a = k then k :: m else k :: NatSet.add m a

/-- Remove a member. -/
def NatSet.del : NatSet → Nat → NatSet
  | [], _ => []
  | k :: m, a => if a < k then k :: m else if a = k then m else k :: NatSet.del m a

/-- Replace the elements of a list that satisfy a test. -/
def mapWhere {α : Type} (p : α → Bool) (f : α → α) (l : List α) : List α :=
  l.map (fun x => if p x then f x else x)

/-- The least element under a measure, the earlier of equals. -/
def leastBy {α : Type} (m : α → Nat) : List α → Option α
  | [] => none
  | x :: l =>
    match leastBy m l with
    | none => some x
    | some y => if m y < m x then some y else some x

/-- Insert before the first element that does not come before it. -/
def insertBy {α : Type} (le : α → α → Bool) (x : α) : List α → List α
  | [] => [x]
  | y :: l => if le x y then x :: y :: l else y :: insertBy le x l

/-- Sort; equals keep their order. -/
def sortBy {α : Type} (le : α → α → Bool) (l : List α) : List α := l.foldr (insertBy le) []

/-- Sum of a measure. -/
def sumBy {α : Type} (m : α → Nat) : List α → Nat
  | [] => 0
  | x :: l => m x + sumBy m l

/-- Rounding up to a quotient. -/
def ceilDiv (a b : Nat) : Nat := (a + b - 1) / b

end Sys2Proof.Machine
end

