-- ==== Sys2Proof/Machine/Types.lean ====
section
/-!
DEFINITION. The records the machine state is made of: parties and their runs, messages, tables at the homes, teams
and grids, host structures and fabric links. Plain data only.
-/

namespace Sys2Proof.Machine

/-! ## Homes and locations -/

/-- Where accesses to a byte are applied and which outbox FIFO leads there: a core of a module (a slice's home core,
or a scratchpad's receiving core, R7, R8) or a host port of this module (R15). -/
inductive Home where
  | core (dev : BitVec 20) (core : Nat)
  | port (p : Nat)
deriving DecidableEq, Repr

/-- A physical byte: a module and a flat number. DRAM is its DPA (R313); scratchpad is `2^40 + cluster * 2^23 + offset`;
the second tier is `2^41 + stack * 2^37 + offset`; host memory is `2^53 + port * 2^52 + host physical address`. -/
structure Loc where
  dev : BitVec 20
  pa  : Nat
deriving DecidableEq, Repr

/-- What a leaf maps to (R316 LOC, R67, R288). -/
inductive Target where
  | dram (dev : BitVec 20) (stack slice off : Nat)
  | scratch (cluster off : Nat)
  | tier (stack page : Nat)
  | host (port hpa : Nat)
  | window (dev : BitVec 20) (core : Nat) (grid : BitVec 32) (va : Nat) -- a page of a window of another module's launch (R17)
  | none                       -- a window-stack page with no frame attached (R288)
deriving DecidableEq, Repr

/-- A page as translated (R315, R316), with the format entry it names (R315, R317). -/
structure Leaf where
  asid   : BitVec 16
  base   : Nat                 -- virtual address of the page
  bits   : Nat                 -- log2 of the page size: 16, 21 or 30
  span   : Nat
  r      : Bool
  w      : Bool
  x      : Bool
  fmt    : Nat                 -- format index
  fent   : BitVec 256          -- the format entry, 0 for index 0
  target : Target
deriving DecidableEq, Repr

/-! ## Parties -/

/-- Where a long-latency result or a pushed value goes. Vector registers are numbered in the window space; temporary
`tn` is number `8192 + n`. -/
inductive Dest where
  | v (reg lane : Nat)
  | s (n : Nat)
  | h (n : Nat)
  | push (lane : Nat)
  | fp (lane : Nat)            -- conditions for FPFLAGS (R127)
  | fill (reg lane : Nat)      -- an outer register read back from the window stack (R290)
  | cb
  | drop
deriving DecidableEq, Repr

/-- The party, bundle and lane an answer goes to. -/
structure Asker where
  dev    : BitVec 20
  core   : Nat
  party  : Nat
  bundle : Nat
  lane   : Nat                 -- 64 for the whole bundle
  req    : Nat
deriving DecidableEq, Repr

/-- What a long-latency operation has under way elsewhere: nothing that an abandoned run takes back, a ticket fetch (R28), or
the claim of a ticket (R91). -/
inductive OpRole where
  | plain
  | fetch
  | claim (t : DWord) (who : Asker)
  | frame (who : Asker)        -- the claim of a word of the SPEC family (R274)
deriving DecidableEq, Repr

/-- A long-latency operation of a party whose result has not been written (R25, R26, R104, R229). -/
structure PendOp where
  id        : Nat
  bundle    : Nat
  lanes     : DWord
  exec      : Bool             -- execution class; otherwise memory class
  flag      : Option Nat
  committed : Bool
  late      : Bool             -- its write arrives after its own run (R104, R229)
  acquire   : Bool
  ready     : Bool
  poison    : Bool
  va        : Nat              -- address read, or 0 (R344)
  pa        : Nat              -- its physical number, or 0
  role      : OpRole
  pc        : DWord            -- the word that issued it
  trap      : Option (Nat × DWord) -- the trap that its claim was answered with (R91)
  dests     : List Dest
  vals      : List Nat
deriving DecidableEq, Repr

/-- A body word as read (R132, R133, R149). -/
structure FWord where
  addr : DWord
  w    : Word
  govr : Option (BitVec 4)     -- GOVR of a code, when it replaces the guard
  bad  : Bool                  -- the code's INDEX names no entry, or GOVR breaks R149
deriving DecidableEq, Repr

/-- A party-wide write of a run (R157). -/
inductive PItem where
  | s (n : Nat) (x : DWord)
  | h (n : Nat) (x : DWord)
  | cb (book : Option (BitVec 256))
  | frame (x : DWord)
  | limbCtl (x : Word)
  | limbFlags (mask x : DWord)
  | rngKey (lo hi : DWord)
  | rngStream (x : Word)
  | fpflags (x : BitVec 16)
deriving DecidableEq, Repr

/-- Atomic operations (R232, R233). -/
inductive AtomOp where
  | add | min | max | minu | maxu | and | or | xor | exch | cas | fadd
deriving DecidableEq, Repr

/-- Where an element of a formatted page lies and how it is coded (R71, R72). -/
structure ElemRef where
  fmt   : Nat
  data  : Loc
  sub   : Nat                  -- first bit of the element in its data byte
  comp  : Option (Loc × Nat)   -- companion byte and first bit, for FP6
  scale : Option Loc
  book  : Option (BitVec 256)  -- codebook, for CB4
deriving DecidableEq, Repr

/-- A ticket request (R87 to R89). -/
structure Fetch where
  loc     : Loc
  len     : Nat
  wcode   : Nat                -- WIDTH code, for the extension of R87
  block   : Bool
  launch  : BitVec 32
  asid    : BitVec 16
  frame   : DWord
  lease   : Nat
  op      : Nat                -- the pending write of the ticket value
deriving DecidableEq, Repr

/-- Kinds of memory-side operation (R76, R242). -/
inductive MsoKind where
  | cas2 (e0 e1 n0 n1 : DWord)
  | cas4 (e0 e1 e2 e3 n0 n1 n2 n3 : DWord)
  | enq (payload : DWord)
  | chase (p k : Nat)
  | rowput (data : List Byte) (poison : Bool)
  | rowputFrom (src : List (Loc × Nat)) -- before it is sent: the source is read at commit (R79)
deriving DecidableEq, Repr

/-- A barrier (R175). -/
inductive BarRef where
  | named (dev : BitVec 20) (core n : Nat)
  | team (team n : Nat)
deriving DecidableEq, Repr

/-- How an arrival came (R176, R263). -/
inductive ArrKind where
  | bar | barw | arrive | msig | msync
deriving DecidableEq, Repr

/-- An arrival at a barrier (R176, R177). -/
structure Arrival where
  kind    : ArrKind
  who     : Asker
  count   : Nat
  timeout : DWord
  op      : Nat                -- pending write of the phase, for `arrive`
  team    : Nat
deriving DecidableEq, Repr

/-- An operand tile of `mput` (R259). -/
structure Tile where
  fmt  : Nat
  regs : List Word             -- consecutive registers, 64 words each
  book : Option (BitVec 256)
deriving DecidableEq, Repr

/-- A launch record (R308). -/
structure LaunchRec where
  image   : Nat
  matrix  : Nat
  param   : DWord
  compl   : Nat
  handler : DWord
  scratchWin : Nat
  wstackWin  : Nat
  teams   : Nat
  parties : Nat
  win     : Nat
  accum   : Nat
  mask    : BitVec 16
  scratch : Nat
  prio    : BitVec 2
  power   : BitVec 2
  replay  : Bool
  ivOff   : Bool
  sfmt    : Nat
  dlimit  : Nat
  asid    : BitVec 16
  launch  : BitVec 32
  lease   : Nat
  keyLo   : DWord
  keyHi   : DWord
  stream  : Word
  resv    : Bool               -- some reserved bit is 1
deriving DecidableEq, Repr

/-- What the launch of a party gives it wherever it stands: its record and its dictionary (R17, R18, R97, R149; log 116). -/
structure Visit where
  rcd  : LaunchRec
  dict : List Word
  homes : Map Nat              -- ORIGIN_CORE of its teams that have been here, by number
deriving DecidableEq, Repr

/-- What a message does at its home. -/
inductive MsgBody where
  | write (loc : Loc) (data : List Byte) (mask : List Byte)
  | elem (e : ElemRef) (x : Word) (mode : Nat) (sat : Bool) (draw : Word)
  | atomic (loc : Loc) (op : AtomOp) (dbl : Bool) (x y : DWord) (ret : Option Nat)
  | fetch (f : Fetch)
  | att (f : Fetch) (op : AtomOp) (dbl : Bool) (x y : DWord)
  | mso (loc : Loc) (k : MsoKind) (f : Option Fetch) (f2 : Option Fetch)
  | claim (t : DWord) (who : Asker) (launch : BitVec 32) (asid : BitVec 16) (frame : DWord)
  | test (t : DWord) (who : Asker) (launch : BitVec 32) (asid : BitVec 16) (frame : DWord)
  | confirm (t : DWord) (who : Asker)
  | cancel (t : DWord) (who : Asker)
  | trel (t : DWord) (launch : BitVec 32)
  | arrival (b : BarRef) (a : Arrival)
  | withdraw (b : BarRef) (who : Asker) (req : Nat)
  | barq (b : BarRef) (phase : DWord) (op : Nat)
  | version (loc : Loc) (va : Nat) (frame : DWord) (pos : Nat) (data : List Byte)
  | context (party : Nat)
  | lineage (key : Nat) (delta : Int)
  | lineageQ (key : Nat) (who : Asker)
  | seedTrap (slot key cause : Nat) (addr : DWord)
  | slotAsk (key : Nat) (cause lanes addr pc : DWord) (who : Asker) -- a trap at another module asks for its lineage's slot (R42)
  | slotHold (key : Nat) (delta : Int) -- a change of the parties that hold the delivered record (R44)
  | outcome (grid : BitVec 32) (o : Nat) -- a failure of a party that stands at another module (R325)
  | away (grid : BitVec 32) (dev : BitVec 20) (frame : Bool) (delta : Int) -- work of a grid at another module (R32, R273)
  | frameEnd (dev : BitVec 20) (grid : BitVec 32) -- the frames of a grid of another module are dropped (R32, R273)
  | lock (owner : Nat) (wr : Bool) (leaf : Leaf) (lo hi : Nat) -- a range lock at another module (R82)
  | unlock (owner : Nat)
  | undo (team : Nat)          -- a rollback takes back a team's parties at another module (R338)
  | phaseQ (b : BarRef) (phase : DWord) (who : Asker) -- a read of a phase before commit, and whether a sequencer has STOPPED (R176, R266)
  | launch (va : DWord) (party : Nat) (team : Nat) (grid : BitVec 32) (seed : Bool) (asid : BitVec 16) (depth : Nat)
      (prio : Nat)
  | engCancel (handle : DWord)
  | handleQ (handle : DWord) (who : Asker) (launch : BitVec 32) (wait : Bool)
  | block (loc : Loc) (data : List Byte) (op : Nat) (poison : Bool)
  | tileAsk (team slot : Nat) (who : Asker)
  | tilePush (team slot : Nat) (t : Tile)
  | tileDrop (team slot : Nat)
  | tileRead (team tile op : Nat)
  | spill (va : Nat) (loc : Option Loc) (data : List Byte) (mask : List Byte) (poison : Bool)
  | fill (va n op : Nat)
  | heldRead (loc : Loc) (n : Nat) (wcode : Nat) (frame : DWord) (op : Nat)
  | heldElem (e : ElemRef) (frame : DWord) (op : Nat)
  | hostRead (loc : Loc) (n : Nat) (who : Asker)
  | frameReq (kind : Nat) (id : DWord) (arg : DWord) (who : Asker) (launch : BitVec 32) (asid : BitVec 16)
      (grid : BitVec 32)
  | frameConfirm (kind : Nat) (id : DWord) (arg : DWord) (who : Asker)
  | frameCancel (id : DWord) (who : Asker)
  | ticketValue (op : Nat) (party : Nat) (t : DWord)
  | slots (n : Nat)
  | lenQ (t : DWord) (who : Asker)
  | slotQ (va : Nat) (who : Asker)
  | claimAns (who : Asker) (t : DWord) (ans : Option (List Byte)) (code : Nat) (poison : Bool)
deriving DecidableEq, Repr

/-- A message being prepared: it is sent when its run commits. -/
structure Draft where
  home    : Home
  body    : MsgBody
  release : Option Nat         -- scope of its release component (R106)
  sync    : Bool               -- its lanes begin no run before it is acknowledged (R15, R63)
  posted  : Bool               -- an atomic, post or memory-side operation (R337)
  acq     : Bool               -- an acquire: what the party sends or reads after it waits for its result (R107)
  old     : Bool               -- translated before the invalidation in progress (R318)
deriving DecidableEq, Repr

/-- What a run does besides register writes, in program order (R28). -/
inductive EffItem where
  | send (d : Draft)
  | fence (order scope : Nat)
  | child (lane : Nat) (pc : DWord) (wb : Nat) (preds : BitVec 16) (regs : List (Nat × Word))
  | fend
  | exit
  | tret (skip : Bool)
  | yield
  | engine (eng seq : Nat)
  | tile (slot : Nat) (t : Tile)
  | fetched (t : DWord)        -- a ticket the run has received: released if the run is abandoned (R28)
deriving DecidableEq, Repr

/-- An effect with the lanes it belongs to. -/
structure Eff where
  lanes : DWord
  item  : EffItem
deriving DecidableEq, Repr

/-- The uncommitted writes of a run (R27). -/
structure Overlay where
  v     : Map Word             -- window-space register (or 8192 + temporary) * 64 + lane
  preds : Map (BitVec 16)      -- by lane
  wb    : Map Nat              -- by lane
  pw    : List (DWord × Nat × PItem) -- party-wide writes in order: the lanes that made them, and their issue number (R157)
  fp    : Map (BitVec 16)      -- FPFLAGS contributions, (number of the last write of FPFLAGS before them) * 64 + lane (R127)
  marks : NatSet               -- `last` marks, register * 64 + lane (R294)
  fills : Map Nat              -- by lane, outer registers still off the core after a `leave` (R290)
deriving DecidableEq, Repr

/-- A run that a bundle has read (R24, R47, R143, R146). -/
structure Run where
  header : DWord               -- H of the original run (R142)
  start  : DWord               -- restart point: H, or the first instruction of a continuation run
  cont   : Bool
  coded  : Bool
  wait   : BitVec 12
  seta   : Option Nat
  setb   : Option Nat
  words  : List FWord          -- the body from the restart point on
  next   : DWord               -- address of the word after the run
  idx    : Nat                 -- instructions executed
  imm    : Option (BitVec 22)
  modh   : Option (BitVec 22)
  imm0   : Option (BitVec 22)  -- the hints in force where a continuation run begins
  modh0  : Option (BitVec 22)
  live0  : Option (BitVec 56)
  last0  : List Nat
  live   : Option (BitVec 56)
  last   : List Nat
  ov     : Overlay
  eff    : List Eff
  taken  : Map Nat             -- by lane, the target of a taken branch
  wb0    : Map Nat             -- by lane, the window bases where a continuation run begins, where they are not the bundle's
  skip   : Option DWord        -- instruction skipped by `tret.skip`
  snap   : Map DWord           -- special registers at the start of the run, by number (R170)
deriving DecidableEq, Repr

/-- Why a bundle waits inside a run or outside of one. -/
inductive Why where
  | asked                      -- for answers to requests it has sent
  | barrier (b : BarRef) (req : Nat)
  | rejoin (core n : Nat)
  | watch (deadline : Option Nat)
  | handle (h : DWord)
  | grid                       -- gridwait
  | halted
  | trapSlot (since rank : Nat)  -- the time at which it trapped and the rank of its cause (R42)
  | pageIn (asid : BitVec 16) (va : Nat)
  | event (code : Nat) (addr pc : DWord)
  | owed (since code : Nat) (addr pc lanes : DWord) -- a trap delivered, of these lanes, for the lineage's slot (R42, R320, R344)
deriving DecidableEq, Repr

/-- Where a bundle stands. -/
inductive Phase where
  | waiting                    -- at a header it has not read
  | fetched                    -- run read and checked, waiting for its flags
  | running
  | executed                   -- every instruction executed, not committed
  | departing (h : Home)       -- committed up to its migration-capable instruction
  | held (w : Why)
deriving DecidableEq, Repr

/-- An answer received for a lane, or for the bundle under number 64. -/
inductive Answer where
  | data (b : List Byte) (poison : Bool)
  | val (x : DWord)
  | flag (b : Bool)
  | trap (code : Nat) (addr : DWord)
  | go
  | expired
  | due (t : Nat)
deriving DecidableEq, Repr

/-- A watched word: where it lies, the lane that watches it under a frame binding, and the value it is compared with. -/
structure Watch where
  loc   : Loc
  n     : Nat
  lane  : Nat
  cmp   : Nat
  frame : DWord
deriving DecidableEq, Repr

/-- A bundle (R20). -/
structure Bundle where
  id      : Nat
  mask    : DWord
  pc      : DWord
  wb      : Nat
  since   : Nat                -- clk at which it became eligible at its header (R36)
  phase   : Phase
  run     : Option Run
  skip    : Option DWord       -- instruction that the next run skips (R174)
  jump    : DWord              -- lanes that came to its header otherwise than by continuing after a run (R145)
  gates   : List Nat           -- operations that hold back its next run (R26, R229)
  yieldTo : Option Nat         -- clk after which a delayed run may begin (R169)
  yieldOn : List Nat           -- parties that have yet to begin a run (R169)
  stalled : Bool
  stallAt : Nat
  asked   : List Nat           -- messages whose answers are outstanding
  ans     : Map Answer
  watched : List Watch         -- watched words (R81, R179)
deriving DecidableEq, Repr

/-- The trap record and the window base at the trap (R41, R173, R174). -/
structure TrapRec where
  cause : DWord
  lanes : DWord
  addr  : DWord
  pc    : DWord
  base  : Nat
  resume : Option Run          -- the continuation run that `tret` restarts, if the restart point began one
  apart  : List Bundle         -- lanes of its integers that stood in other bundles, at their own restart points (R204; log 132)
deriving DecidableEq, Repr

/-- The window base of a lane at the trap (R174). -/
def TrapRec.baseOf (t : TrapRec) (l : Nat) : Nat :=
  match t.resume with
  | some r => Map.getD r.wb0 l t.base
  | none => t.base

/-- State of a lane slot with a live fibre: predicates, and the lowest window register held on the core. -/
structure Lane where
  preds : BitVec 16
  lo    : Nat
  dfrom : Nat                  -- every register from this number on is dirty (R289)
deriving DecidableEq, Repr

/-- A lane slot without a fibre, or of a new fibre: every register clean (R289). -/
def Lane.init : Lane := { preds := 0, lo := 0, dfrom := 8192 }

/-- Slot states of R23. -/
inductive SlotState where
  | active | ready | blocked
deriving DecidableEq, Repr

/-- Where a party is (R17, R23). -/
inductive Place where
  | slot (core : Nat) (st : SlotState)
  | flight (core : Nat)
  | queued (core : Nat)
  | parked (stack slot : Nat)
deriving DecidableEq, Repr

/-- A pending rejoin (R52, R60). -/
structure RejoinPend where
  core  : Nat
  bar   : Nat
  dev   : BitVec 20
  timed : Bool
  timeout : DWord
deriving DecidableEq, Repr

/-- A party (R18, R22, R23, R51, R52). -/
structure Party where
  partyId  : BitVec 7
  teamId   : BitVec 32
  gridId   : BitVec 32
  launchId : BitVec 32
  lineage  : BitVec 32
  asid     : BitVec 16
  originDev  : BitVec 20
  originCore : BitVec 9
  depth    : BitVec 4
  priority : BitVec 2
  power    : BitVec 2
  winSize  : Nat
  wstack   : Nat               -- first byte of its window-stack region (R288)
  seed     : Option Nat        -- seed slot, for a seed (R307)
  handler  : DWord
  place    : Place
  vregs    : Map Word          -- window register * 64 + lane
  dirty    : NatSet            -- same keys (R289)
  lanes    : Map Lane
  scal     : Map DWord
  hand     : Map DWord
  cb       : Option (BitVec 256)
  fpflags  : BitVec 16
  limbCtl  : Word
  limbFlags : DWord
  wseq     : Map Nat           -- issue number of the last write committed to each party-wide register (R157)
  frame    : DWord
  rngLo    : DWord
  rngHi    : DWord
  rngStream : Word
  trap     : Option TrapRec
  nested   : Bool              -- nested trap party of R44
  outer    : Option TrapRec    -- the record of the outer trap, which the lineage's slot keeps (R44)
  spillPos : BitVec 32
  rejoin   : Option RejoinPend
  bundles  : List Bundle
  pend     : List PendOp
  fenceW   : List Nat          -- messages that hold back later writes of the party (R108)
  fenceR   : List Nat          -- messages that hold back its later reads (R108)
  poison   : NatSet            -- poisoned registers, same keys as vregs
  readyAt  : Nat               -- clk at which it last became READY (R35)
  beganAt  : Nat               -- clk from which R35 and R37 count
  level    : Nat               -- levels added by R35
  starving : Bool
  blockedAt : Nat
  blockedNs : Nat × Nat        -- the clk of `blockedAt` and the time at which it began, once time has passed (R59)
  formedAt : Nat               -- number of the step that formed it (R338)
  homeCore : Nat               -- the core it last stood on (R59, R62)
  returned : Bool              -- returned from a module with no context for its ASID (R62)
  recQ     : Nat               -- order of arrival in its queue (R57)
  qAt      : Nat               -- first slot of its record in that queue (R57)
  flagAt   : Map Nat           -- clk at which each completion flag last cleared (R36)
  behind   : List Nat          -- groups of its split whose records come before its own (R53)
  counted  : Bool              -- its lineage counts the records that parking makes of its bundles (R54)
  live     : BitVec 56         -- LIVE_MAP of its record (R52)
  stopBy   : Bool              -- BLOCKED by DBG_STOP (R333)
  haltBy   : Bool              -- BLOCKED at a `halt` (R169, R332)
  wantPark : Bool              -- a park request waits for it (R38)
deriving DecidableEq, Repr

/-! ## Messages -/

/-- Packet classes (R361). -/
inductive PClass where
  | context | posted | fetch | data | redeem | mso | ack | mgmt
deriving DecidableEq, Repr

/-- A message in an outbox FIFO, travelling, held at its home, or applied and not acknowledged (R56, R75). -/
structure Msg where
  id      : Nat
  srcDev  : BitVec 20
  src     : Nat
  dst     : Home
  party   : Nat
  lin     : Nat                -- lineage key + 1 of its party, or 0
  lanes   : DWord
  grid    : BitVec 32
  team    : Nat                -- team key + 1, or 0
  asid    : BitVec 16
  after   : List Nat           -- messages it waits for (R106, R108)
  applied : Bool
  sent    : Bool               -- a head record whose slots are reserved (R57)
  waited  : Nat                -- clk at which a head record began to wait (R279)
  orig    : Nat                -- its number at the module it came from, when that one awaits an acknowledgement
  asked   : Bool               -- slots at another module have been asked for (R57, R361), or it waits as a head record (R279)
  old     : Bool               -- translated before the invalidation in progress (R318)
  qAt     : Nat                -- first slot it has reserved in an arrival queue (R57)
  body    : MsgBody
deriving DecidableEq, Repr

/-- The body of a packet between modules (R361). -/
inductive PktBody where
  | request (m : Msg)
  | record (m : Msg) (p : Party) (v : Option Visit)
  | ack (msg : Nat)
  | reserve (msg : Nat) (slots : Nat)
  | granted (msg : Nat)
  | returned (msg : Nat)
  | unslot (msg : Nat)
  | opValue (party op : Nat) (vals : List Nat) (poison : Bool)
  | report (port : Nat) (fseq : Nat)
deriving DecidableEq, Repr

/-- A packet (R361). -/
structure Packet where
  dstDev  : BitVec 20
  srcDev  : BitVec 20
  dstCore : Nat
  srcCore : Nat
  cls     : PClass
  stage   : Nat
  len     : Nat
  valiant : Bool
  mid     : Nat
  tag     : Nat
  hops    : Nat                -- hops made, which a drain does not reset (R375)
  body    : PktBody
deriving DecidableEq, Repr

/-! ## Tables at the homes -/

/-- States of a ticket entry (R90). -/
inductive TState where
  | free | pending | ready | orphaned | expired
deriving DecidableEq, Repr

/-- How the previous generation of an entry ended (R87, R90). -/
inductive Fate where
  | redeemed | released | reclaimed
deriving DecidableEq, Repr

/-- A ticket entry (R87, R90, R91). -/
structure Ticket where
  st       : TState
  gen      : BitVec 8
  fate     : Fate
  launch   : BitVec 32
  asid     : BitVec 16
  frame    : DWord
  deadline : Nat
  remain   : Nat               -- time left while a claim suspends the deadline
  len      : Nat
  block    : Bool
  data     : List Byte
  claim    : Option Asker
  poison   : Bool
  src      : Option Loc        -- where an outstanding fetch reads (R239)
  team     : Nat               -- team key + 1 of the issuing team, or 0
  grid     : BitVec 32
  since    : Nat               -- number of the step that allocated it (R338)
deriving DecidableEq, Repr

/-- A range lock (R82). -/
structure Lock where
  dev   : BitVec 20            -- module whose operation it belongs to
  owner : Nat                  -- operation number
  wr    : Bool
  leaf  : Leaf
  lo    : Nat                  -- first virtual byte
  hi    : Nat                  -- last virtual byte
deriving DecidableEq, Repr

/-- States of a frame (R273). -/
inductive FState where
  | free | opened | closing
deriving DecidableEq, Repr

/-- A frame table entry (R272 to R277). -/
structure FrameEnt where
  st      : FState
  gen     : BitVec 8
  launch  : BitVec 32
  asid    : BitVec 16
  grid    : BitVec 32
  base    : Nat
  claim   : Option Asker       -- request that claims it
  isDrop  : Bool               -- closing by `spdrop`
  n       : Nat
  toAnswer : List Nat          -- slices with a prepare outstanding
  answered : List Nat          -- slices that have answered
  refusal : Bool               -- some slice answered refused
  toStep  : List Nat           -- slices with a step outstanding
  refused : NatSet             -- slices at which the frame is marked refused
  lastGen : BitVec 8           -- most recently closed generation
  lastVal : DWord              -- what `wait` writes for it
  lastBad : Bool               -- it was dropped by refusal
  unit    : Nat                -- replay unit + 1, or 0
  dev     : BitVec 20          -- module that launched its grid
deriving DecidableEq, Repr

/-- A tentative version (R275). -/
structure Version where
  frame : Nat
  gen   : BitVec 8
  pos   : Nat
  pa    : Nat
  bytes : List (Option Byte)
  slice : Nat
deriving DecidableEq, Repr

/-- Kinds of engine operation (R247). -/
inductive EngKind where
  | cpy | cpys | cpyg | cpyr
deriving DecidableEq, Repr

/-- An engine operation (R248 to R252). -/
structure EngOp where
  op      : Nat                -- operation number, owner of its locks
  seq     : Nat
  kind    : EngKind
  bf16    : Bool
  dst     : Nat
  src     : Nat
  len     : Nat                -- bytes of `cpy` and `cpyr`; bytes per row otherwise
  rows    : Nat
  dstStep : Int
  srcStep : Int
  list    : List Nat           -- source rows of `cpyg`
  leaves  : List Leaf          -- translations made at issue
  party   : Nat
  lin     : Nat                -- lineage key + 1 of its party
  grid    : BitVec 32
  team    : Nat
  lcheck  : BitVec 7
  committed : Bool
  after   : List Nat           -- messages its issue waits for, as a release (R111, R248)
  started : Bool
  limit   : Option Nat         -- bytes at which a cancelled operation stops
  sent    : Bool               -- its steps are made, and its writes to other modules are under way
deriving DecidableEq, Repr

/-- A copy engine (R246, R248, R251): next SEQ, queue with the running operation first, counts of completed ones. -/
structure Engine where
  next : Nat
  ops  : List EngOp
  done : Map Nat
deriving DecidableEq, Repr

/-- A rejoin round (R60, R61). -/
structure RejoinRound where
  key     : Nat                -- lineage key
  count   : Nat
  parties : List (Nat × Bool)  -- arrived parties, with how they came
  expiry  : Option Nat
deriving DecidableEq, Repr

/-- What waits at a barrier that another round holds (R60). -/
inductive HeldArr where
  | arr (a : Arrival)
  | rejoin (party : Nat) (timed : Bool) (timeout : DWord)
deriving DecidableEq, Repr

/-- A barrier (R60, R176, R177). -/
structure Barrier where
  phase   : Word
  count   : Nat                -- count of the open round, 0 when none is open
  arrived : List Arrival
  expiry  : Option Nat
  rejoin  : Option RejoinRound
  held    : List HeldArr
deriving DecidableEq, Repr

/-- A lineage entry (R42, R54). -/
structure Lineage where
  count : Nat
  slot  : Option TrapRec       -- the delivered trap's record while the slot is held
  holders : Nat                -- parties that hold that record (R42, R44)
  rounds : List (Nat × Nat)    -- cores and barriers of its open rejoin rounds here (R54)
  far   : List Asker           -- rejoin rounds of other modules that follow the count (R54)
  team  : Nat                  -- key + 1 of its team, or 0 for a lineage of another module
deriving DecidableEq, Repr

/-! ## Teams and grids -/

/-- Sequencer states (R256). -/
inductive SeqState where
  | running | waitQueue | waitBar | stopped | ended
deriving DecidableEq, Repr

/-- A step or tile word that has been issued and not completed (R261, R262, R267). -/
structure MWord where
  op   : Nat                   -- owner of its locks
  ends : List Nat              -- the owners whose locks clear when it completes (R267)
  acc  : Nat
  tile : List Word             -- the tile it writes, empty for `msta`
  mem  : List (Nat × List Byte) -- the bytes it writes, for `msta`
deriving DecidableEq, Repr

/-- A matrix sequencer (R256 to R266). -/
structure Seqr where
  st     : SeqState
  pc     : DWord
  last   : DWord
  m      : Map DWord
  loops  : List (DWord × Nat)
  book   : Option (BitVec 256)
  queues : Map (List Tile)
  booked : Map Nat             -- slots of its queues reserved from other modules (R17, R259)
  work   : List MWord
  step   : Nat                 -- steps already issued of the word in hand
  fault  : Nat
  freed  : Bool                -- released from the barrier it waited at
  owners : List Nat            -- owners of the locks of the steps already issued of the word in hand (R267)
  page   : Option Nat          -- a second-tier page it waits for (R68)
deriving DecidableEq, Repr

/-- A snapshot at an interval boundary and the log of the interval (R336 to R338). -/
structure Interval where
  since     : Nat              -- step number of the boundary
  snap      : List (Nat × Party)
  log       : Map (List Byte × Bool) -- granule number within the team's allocation, prior contents and whether they were poisoned
  sites     : List (BitVec 20) -- other modules where parties of the team have stood since the boundary (log 130)
  given     : List DWord       -- tickets of other modules that the team's parties have been given since it
  published : Bool
  rollbacks : Nat
  counts    : Map Nat          -- lineage counts at the boundary
deriving DecidableEq, Repr

/-- A granule that a replay unit has written (R339): by byte, the value below the unit's shadow where it has written the byte,
and whether the granule was poisoned before. -/
structure Shadow where
  old    : List (Option Byte)
  poison : Bool
deriving DecidableEq, Repr

/-- A placed team (R29, R32, R67, R288). -/
structure Team where
  grid     : BitVec 32
  id       : BitVec 32
  stack    : Nat
  cluster  : Nat               -- 0 to 127
  blocks   : List Nat          -- 64 KiB blocks of the scratchpad, by page
  tiles    : List Nat          -- accumulator tiles of the cluster, by number
  frames   : Map Nat           -- window-stack pages attached: virtual page number, DPA of the frame
  bars     : Map Barrier
  seqr     : Option Seqr
  interval : Option Interval
  saved    : Option Nat        -- parking block of a wholly parked team
  movedAt  : Option Nat        -- time of the last thermal move
  moving   : Option Nat        -- thermal move in progress: the cluster named plus 1, or 0 where none is named
  wantSave : Bool
  wantPlace : Bool             -- a saved team that is to be placed anew (R39, R328)
  queue    : List (Nat × Nat × Nat) -- parties, bundles and words whose accesses to its scratchpad are held, in arrival order (R39)
deriving DecidableEq, Repr

/-- A grid (R31, R32, R309, R310, R325, R339 to R343). -/
structure Grid where
  id       : BitVec 32
  launch   : BitVec 32
  asid     : BitVec 16
  rcd      : LaunchRec
  depth    : Nat
  parent   : Option (BitVec 32)
  byAsid   : BitVec 16         -- ASID under which the completion word is written
  byParty  : Nat
  byLin    : Nat               -- lineage key + 1 of the launching party, or 0 (R32)
  dict     : List Word
  entry    : DWord
  order    : Nat               -- launch order
  nextTeam : Nat
  lineages : Nat               -- lineages numbered so far
  outcome  : Nat
  failAt   : Nat               -- clk of the failure recorded, of the core of
  failCore : Nat               -- this number (R325)
  replays  : Nat
  ending   : Bool              -- the END action or a replay runs
  relaunch : Bool              -- it is launched again once it has ended
  prot     : Bool              -- still protected as a replay unit
  undo     : Map Shadow        -- shadows by granule number: what lies below them
  foreign  : Bool              -- some granule's foreign-read bit is set
  discard  : Bool              -- its shadows are discarded when it has ended (R341, R342)
  spent    : Map Nat           -- window-stack pages of teams that have retired, with their frames (R288, R323)
  farOps   : Int               -- engine operations that its parties have at other modules (R32)
  farFrames : Map Int          -- frames that its parties have at other modules, by module (R32, R273)
  framesTold : Bool            -- those modules have been told to drop them
deriving DecidableEq, Repr

/-! ## Cores, stacks, hosts -/

/-- State of a core beside its parties (R6, R57, R58, R149, R315, R348, R354). -/
structure Core where
  tlb     : List Leaf
  dicts   : List Nat           -- grids whose dictionaries it holds, latest first
  blocks  : Nat                -- pool blocks added to its arrival queue
  dead    : Bool               -- out of service (R354)
  stopped : Bool               -- DBG_STOP
  mhz     : Nat
  clkBase : Nat
  clkAt   : Nat
  next    : Nat                -- round-robin position
deriving DecidableEq, Repr

/-- Power of a stack's logic layers as an access of the debug port finds it (R334). -/
inductive LayerPower where
  | on | gated | fused
deriving DecidableEq, Repr

/-- State of a stack (R10, R58, R59, R69, R322, R323, R357, R358). -/
structure Stack where
  poolUsed : Nat
  parked   : List (Nat × Nat)  -- parties parked by the steward with their cores, oldest first
  evalAt   : Nat
  qfull    : Bool              -- a QUEUE_FULL event is unanswered
  wspBase  : DWord
  wspCount : DWord
  wspUsed  : NatSet            -- window-stack frames attached, by index
  parkBase : DWord
  parkCnt  : DWord
  slots    : NatSet            -- parking slots in use
  blocks   : NatSet            -- parking blocks in use by whole-team saves
  absent   : BitVec 32
  noTier   : Bool
  refd     : NatSet            -- 64 KiB frames, by number, whose reference bit is set (R69)
  layer    : LayerPower        -- power of its logic layers (R334)
  hand     : Nat               -- rotating frame pointer
  sweepAt  : Nat               -- time of the last reference sweep
  hot      : Bool
  moveAt   : Option Nat
  throttle : Bool              -- hot, and no team is moved off it (R358)
  cap      : Nat               -- MHz that the power limit leaves its cores (R357)
deriving DecidableEq, Repr

/-- A seed slot (R306). -/
structure Seed where
  bytes : Map Byte
  copy  : List Byte
  state : Nat
  core  : Nat
  cause : Nat
  fault : DWord
  party : Option Nat           -- lineage of the seed that it has accepted and that has not ended (R307)
deriving DecidableEq, Repr

/-- A host access that is held (R304): a read, or a write with its data. -/
structure HostAcc where
  tag  : Nat
  hpa  : Nat
  data : Option (List Byte)
deriving DecidableEq, Repr

/-- On whose behalf the part reads bytes of another module: a message at its home, an access of a host port, an engine
operation, a team's sequencer, or a launch that is being validated. -/
inductive Reader where
  | msg (id : Nat)
  | host (port tag : Nat)
  | engine (op : Nat)
  | stream (team : Nat)
  | launch (msg : Nat)
deriving DecidableEq, Repr

/-- An access of the part to another module, with the message that makes it, and a read's bytes once they have come. -/
structure FarAcc where
  by_ : Reader
  loc : Loc
  n   : Nat
  req : Nat
  ans : Option (List Byte × Bool)
deriving DecidableEq, Repr

/-- A host port (R303, R304). -/
structure Port where
  hdm       : Map (BitVec 256)
  faults    : DWord
  faultAddr : DWord
  pending   : List HostAcc     -- held accesses in order of arrival
deriving DecidableEq, Repr

/-- Subjects of events that await a response (R319 to R322, R346, R358, R372). -/
inductive EvSubject where
  | tier (asid : BitVec 16) (va : Nat)
  | page (party : Nat) (bundle : Nat)
  | queue (stack : Nat)
  | ticket (slice entry : Nat) (gen : BitVec 8)
  | place (grid : BitVec 32) (team : Nat)
  | contain (grid : BitVec 32) (idx : Nat)
  | thermal (team : Nat)
  | link (port : Nat) (remote : BitVec 16) (rspeed : Nat)
deriving DecidableEq, Repr

/-- An event record (R321). -/
structure Event where
  type : Nat
  asid : BitVec 16
  core : Nat
  addr : DWord
  aux  : DWord
  subj : EvSubject
deriving DecidableEq, Repr

/-- A consumption of poisoned data that has not been acted on (R335, R338). -/
structure Consume where
  party : Nat
  bundle : Nat
  lanes : DWord
  team  : Nat                  -- team key + 1, or 0
  grid  : BitVec 32
  core  : Nat
  pa    : Nat                  -- first byte of the poisoned granule, or 0
  va    : DWord
  asked : Bool                 -- a CONTAIN event is unanswered
  pc    : DWord
  lin   : Nat                  -- lineage key + 1 of its party, or 0
  unit  : Option (BitVec 32)   -- the replay unit that it has come to (R341, R342)
  esc   : Option Nat           -- it is to be escalated to that unit: COUNT of the log entry (R347)
  granted : Bool               -- the driver has answered RESUME to the next step (R346)
deriving DecidableEq, Repr

/-- A containment log entry (R347). -/
structure CLog where
  type   : Nat
  count  : Nat
  core   : Nat
  launch : BitVec 32
  team   : BitVec 32
  addr   : Nat
  time   : Nat
deriving DecidableEq, Repr

/-- An entry of the boot record (R350). -/
structure BootEnt where
  result : Nat
  method : Nat
  fails  : Nat
  skips  : Nat
deriving DecidableEq, Repr

/-- A firmware image in a slot of flash: its security version, and whether its signature verifies under the key whose
digest the fuses hold (R355; log 136). -/
structure Image where
  version : BitVec 16
  signed  : Bool
deriving DecidableEq, Repr

/-- What the boot steps find (R349, R350, R355, R377): outcomes of the attempts in order, slices that fail, the fabric plan
and the far ends of the global links, the step during which power is lost (0: none), and how many of the latest copies of
the telemetry in flash fail their CRC-32. -/
structure BootInput where
  pass   : List Bool
  slices : List (Nat × BitVec 32) -- that step 3 remaps
  cores  : List (Nat × BitVec 32) -- whose attached cores fail step 5
  plan   : Map (BitVec 16)
  peers  : Map (BitVec 20 × Nat)
  lost   : Nat
  bad    : Nat
deriving DecidableEq, Repr

/-- Where an uncorrectable error is detected (R335). -/
inductive PoisonSite where
  | mem (pa : Nat)
  | ticket (slice entry : Nat)
  | reg (party key : Nat)
deriving DecidableEq, Repr

/-! ## Fabric -/

/-- A flit: flit `k` of a packet, or idle; a header flit's first 16 bytes (R361). -/
structure Flit where
  pkt  : Option Packet
  k    : Nat
  head : BitVec 128
deriving DecidableEq, Repr

/-- A link frame: 15 data flits and the control flit's fields (R367). -/
structure LinkFrame where
  fseq  : Nat
  ack   : Nat
  nak   : Bool
  train : Bool
  good  : BitVec 16
  speed : Nat
  credits : List (Nat × Nat)
  time  : BitVec 32
  crcOk : Bool
  flits : List Flit
deriving DecidableEq, Repr

/-- A packet chosen for a port: its flits already sent, and the input queue and channel whose buffers it holds until
then (1055 and above for a queue of another kind). -/
structure OutPkt where
  pkt  : Packet
  sent : Nat
  src  : Nat
  chan : Nat
deriving DecidableEq, Repr

/-- Link states (R373). -/
inductive LinkSt where
  | down | training | up | disabled
deriving DecidableEq, Repr

/-- A fabric port (R362, R363, R367 to R371, R373). -/
structure Link where
  st     : LinkSt
  speed  : Nat
  lanes  : BitVec 16
  good   : BitVec 16
  mism   : Nat
  fseq   : Nat                 -- next frame number
  acc    : Nat                 -- last frame accepted
  nak    : Bool
  replay : List LinkFrame      -- frames not acknowledged, oldest first
  resend : Nat                 -- frames of the replay buffer to be sent again
  out    : List OutPkt         -- packets chosen for this port, in order
  drain  : List Packet
  inq    : List Packet         -- packets received whole
  credits : Map Nat            -- credits spent per channel
  back   : Map Nat             -- credits to return per channel
  reported : Bool              -- the neighbour's report has arrived
  early  : Option Nat          -- a report that came before this end was disabled (R369)
deriving DecidableEq, Repr

/-- The route of a pair of modules (R365). -/
structure Route where
  valiant : Bool
  mid     : Nat
  open_   : Nat                -- ordered packets unanswered
  port    : Nat                -- port on which the unanswered ones left
  at_     : Nat
deriving DecidableEq, Repr

/-- A shadow-latch unit (R348). -/
structure ShadowUnit where
  window : Nat                 -- events in the window
  since  : Nat                 -- time of the window's start
  quiet  : Nat                 -- time from which it has not exceeded
  mhz    : Nat
deriving DecidableEq, Repr

/-- What the module has sent to the outside. -/
inductive Out where
  | readData (port tag : Nat) (data : List Byte) (poison : Bool)
  | writeDone (port tag : Nat)
  | spdm (code : Nat) (body : List Nat)
  | pldm (code : Nat) (body : List Nat)
  | mctp (code : Nat) (body : List Nat)
  | cxlAbsent (port : Nat)
  | frame (port : Nat) (f : LinkFrame)
  | linkReport (port fseq : Nat)
deriving DecidableEq, Repr

end Sys2Proof.Machine
end

