-- ==== Sys2Proof/Syntax.lean ====
section
/-!
DEFINITION. The one syntax of the part: a constructor for each row of the opcode table (R134, R150, R151, and the
events of 95_what_each_step_holds.md). Constructors of words carry the fields of their encoding; constructors of
events name their subject and carry what the outside supplies.
-/

namespace Sys2Proof

open Sys2Proof.Machine

/-- The instructions and events of the opcode table. -/
inductive Instr where
  /-- NOP, R169. Does nothing. -/
  | nop (g : BitVec 4)
  /-- YIELD, R169. Ends the run and delays the bundle's next run until other READY parties of equal or higher priority have begun a run, or 256 clk have passed. -/
  | yield (g : BitVec 4)
  /-- TRAP, R171. Raises SOFTWARE on the active lanes, with TRAP_ADDR = k. -/
  | trap (g : BitVec 4) (k : BitVec 6)
  /-- TRET_RETRY, R174. Clears the trap record, releases the pending-trap slot, and restarts the party at the restart point. -/
  | tretRetry (g : BitVec 4)
  /-- TRET_SKIP, R174. Returns from a trap as tret.retry does, but the trapping instruction has no effect on the re-execution. -/
  | tretSkip (g : BitVec 4)
  /-- MFS, R170. Reads a special register into a scalar. -/
  | mfs (g : BitVec 4) (d a b : BitVec 6)
  /-- MTS, R170. Writes a scalar into a writable special register at commit; other registers trap PRIV. -/
  | mts (g : BitVec 4) (d a b : BitVec 6)
  /-- TBR, R163. Sends each active lane to s[B] + 4 × vA. -/
  | tbr (g : BitVec 4) (a b : BitVec 6)
  /-- HALT, R169. Blocks the party and notifies the debug port when the core is halt-enabled; otherwise traps DEBUG. -/
  | halt (g : BitVec 4)
  /-- BR, R162. Branches to the header-relative target. -/
  | br (g : BitVec 4) (o : BitVec 22)
  /-- CALL, R162. Branches to the target and writes the return address into v54:v55. -/
  | call (g : BitVec 4) (o : BitVec 22)
  /-- RET, R163. Sends each lane to the target held in its pair. -/
  | ret (g : BitVec 4) (a : BitVec 6)
  /-- CALLR, R163. Indirect call to each lane's pair target; writes the return address. -/
  | callr (g : BitVec 4) (a : BitVec 6)
  /-- BRR, R163. Indirect branch to each lane's pair target. -/
  | brr (g : BitVec 4) (a : BitVec 6)
  /-- ENTER, R165. Raises the window base by n, trapping WINDOW if the space is exceeded. -/
  | enter (g : BitVec 4) (n : BitVec 6)
  /-- LEAVE, R165. Lowers the window base by n, filling outer registers from the window stack after a departure. -/
  | leave (g : BitVec 4) (n : BitVec 6)
  /-- FORK, R166. Creates child fibres in free lane slots at commit. -/
  | fork (g : BitVec 4) (d a : BitVec 6)
  /-- FEND, R167. Ends the active fibres at commit. -/
  | fend (g : BitVec 4)
  /-- EXIT, R168. Ends every fibre of the party at commit. -/
  | exit (g : BitVec 4)
  /-- BAR, R176. Commits up to itself, sends an arrival to a barrier, and waits for the round. -/
  | bar (g : BitVec 4) (a b : BitVec 6)
  /-- BARW, R177. Arrives and waits at a barrier with a timeout. -/
  | barw (g : BitVec 4) (d a b : BitVec 6)
  /-- REJOIN, R60. Migrates the bundle to the barrier's core and arrives in its lineage's rejoin round. -/
  | rejoin (g : BitVec 4) (a : BitVec 6)
  /-- REJOINW, R61. Arrives at a rejoin round with a timeout. -/
  | rejoinw (g : BitVec 4) (a b : BitVec 6)
  /-- ARRIVE, R176. Sends a barrier arrival at commit without waiting; the phase returns later. -/
  | arrive (g : BitVec 4) (d a b : BitVec 6)
  /-- BARQ, R176. Queries a barrier's phase and pushes whether it differs from sB. -/
  | barq (g : BitVec 4) (a b : BitVec 6)
  /-- LAUNCH, R178. Sends a child-grid launch record at commit, as a package release. -/
  | launch (g : BitVec 4) (a : BitVec 6)
  /-- GRIDWAIT, R179. Blocks until a completion word is nonzero, then writes it as a system acquire. -/
  | gridwait (g : BitVec 4) (d a : BitVec 6)
  /-- GRIDQ, R179. Reads a completion word once and pushes whether it is nonzero. -/
  | gridq (g : BitVec 4) (d a : BitVec 6)
  /-- CMP, R159. Compares 32-bit lane values and pushes the result. -/
  | cmp (g : BitVec 4) (a b : BitVec 6) (c : BitVec 4)
  /-- CMP_D, R159. Compares 64-bit pair values and pushes the result. -/
  | cmpD (g : BitVec 4) (a b : BitVec 6) (c : BitVec 4)
  /-- CMPI, R159. Compares a lane value with an immediate and pushes the result. -/
  | cmpi (g : BitVec 4) (c a : BitVec 6) (i : BitVec 10)
  /-- FCMP, R160. Compares floating-point values and pushes the result. -/
  | fcmp (g : BitVec 4) (f a b : BitVec 6) (c : BitVec 4)
  /-- PPOP, R161. Pops the predicate shift register n times. -/
  | ppop (g : BitVec 4) (n : BitVec 6)
  /-- PDUP, R161. Pushes the predicate at a depth. -/
  | pdup (g : BitVec 4) (a : BitVec 6)
  /-- PAND, R161. Pushes the AND of two depths. -/
  | pand (g : BitVec 4) (a b : BitVec 6)
  /-- POR, R161. Pushes the OR of two depths. -/
  | por (g : BitVec 4) (a b : BitVec 6)
  /-- PXOR, R161. Pushes the XOR of two depths. -/
  | pxor (g : BitVec 4) (a b : BitVec 6)
  /-- PNOT, R161. Pushes the NOT of a depth. -/
  | pnot (g : BitVec 4) (a : BitVec 6)
  /-- PANY, R161. Pushes in every active lane the OR of a depth over the active lanes. -/
  | pany (g : BitVec 4) (a : BitVec 6)
  /-- PALL, R161. Pushes in every active lane the AND of a depth over the active lanes. -/
  | pall (g : BitVec 4) (a : BitVec 6)
  /-- PCNT, R161. Writes the count of active lanes whose depth a is true. -/
  | pcnt (g : BitVec 4) (d a : BitVec 6)
  /-- PGET, R161. Writes the 16 predicate bits into a register. -/
  | pget (g : BitVec 4) (d : BitVec 6)
  /-- PSET, R161. Sets the 16 predicate bits from a register. -/
  | pset (g : BitVec 4) (a : BitVec 6)
  /-- PFIRST, R161. Finds the first active lane with a false predicate, writes it and pushes lane < f. -/
  | pfirst (g : BitVec 4) (d a : BitVec 6)
  /-- PSWAP, R161. Exchanges two predicate depths. -/
  | pswap (g : BitVec 4) (a b : BitVec 6)
  /-- ADD, R181. Integer add. -/
  | add (g : BitVec 4) (d a b : BitVec 6)
  /-- SUB, R181. Integer subtract. -/
  | sub (g : BitVec 4) (d a b : BitVec 6)
  /-- MUL, R181. Low half of an integer product. -/
  | mul (g : BitVec 4) (d a b : BitVec 6)
  /-- MULH, R181. High half of a signed product. -/
  | mulh (g : BitVec 4) (d a b : BitVec 6)
  /-- MULHU, R181. High half of an unsigned product. -/
  | mulhu (g : BitVec 4) (d a b : BitVec 6)
  /-- AND, R181. Bitwise AND. -/
  | and (g : BitVec 4) (d a b : BitVec 6)
  /-- OR, R181. Bitwise OR. -/
  | or (g : BitVec 4) (d a b : BitVec 6)
  /-- XOR, R181. Bitwise XOR. -/
  | xor (g : BitVec 4) (d a b : BitVec 6)
  /-- SHL, R182. Shift left. -/
  | shl (g : BitVec 4) (d a b : BitVec 6)
  /-- SHR, R182. Logical shift right. -/
  | shr (g : BitVec 4) (d a b : BitVec 6)
  /-- SAR, R182. Arithmetic shift right. -/
  | sar (g : BitVec 4) (d a b : BitVec 6)
  /-- ROT, R182. Rotate left. -/
  | rot (g : BitVec 4) (d a b : BitVec 6)
  /-- MIN, R181. Signed minimum. -/
  | min (g : BitVec 4) (d a b : BitVec 6)
  /-- MAX, R181. Signed maximum. -/
  | max (g : BitVec 4) (d a b : BitVec 6)
  /-- MINU, R181. Unsigned minimum. -/
  | minu (g : BitVec 4) (d a b : BitVec 6)
  /-- MAXU, R181. Unsigned maximum. -/
  | maxu (g : BitVec 4) (d a b : BitVec 6)
  /-- ADDI, R184. Adds an immediate. -/
  | addi (g : BitVec 4) (d a : BitVec 6) (i : BitVec 10)
  /-- ANDI, R184. ANDs with an immediate. -/
  | andi (g : BitVec 4) (d a : BitVec 6) (i : BitVec 10)
  /-- ORI, R184. ORs with an immediate. -/
  | ori (g : BitVec 4) (d a : BitVec 6) (i : BitVec 10)
  /-- XORI, R184. XORs with an immediate. -/
  | xori (g : BitVec 4) (d a : BitVec 6) (i : BitVec 10)
  /-- SHI, R185. Shifts or rotates 32 bits by a constant count. -/
  | shi (g : BitVec 4) (d a : BitVec 6) (o : BitVec 2) (c : BitVec 5)
  /-- MOVI, R184. Writes an immediate. -/
  | movi (g : BitVec 4) (d : BitVec 6) (i : BitVec 10)
  /-- MOVHI, R184. Writes an immediate into the upper 16 bits, keeping the lower 16. -/
  | movhi (g : BitVec 4) (d : BitVec 6) (i : BitVec 10)
  /-- MAD, R186. Multiply-add, low half. -/
  | mad (g : BitVec 4) (d a b : BitVec 6)
  /-- MADH, R186. Multiply-add, high half. -/
  | madh (g : BitVec 4) (d a b : BitVec 6)
  /-- ABS, R186. Absolute value. -/
  | abs (g : BitVec 4) (d a : BitVec 6)
  /-- NEG, R186. Negation. -/
  | neg (g : BitVec 4) (d a : BitVec 6)
  /-- CLZ, R186. Counts leading zeros. -/
  | clz (g : BitVec 4) (d a : BitVec 6)
  /-- POPC, R186. Counts set bits. -/
  | popc (g : BitVec 4) (d a : BitVec 6)
  /-- BREV, R186. Reverses bits. -/
  | brev (g : BitVec 4) (d a : BitVec 6)
  /-- BFE, R189. Extracts a bit field. -/
  | bfe (g : BitVec 4) (d a b : BitVec 6)
  /-- BFI, R189. Inserts a bit field. -/
  | bfi (g : BitVec 4) (d a b : BitVec 6)
  /-- SEL, R186. Selects a or b by the predicate at depth 0. -/
  | sel (g : BitVec 4) (d a b : BitVec 6)
  /-- MOV, R186. Copies a register. -/
  | mov (g : BitVec 4) (d a : BitVec 6)
  /-- ADDC, R188. Adds with carry through the predicate register. -/
  | addc (g : BitVec 4) (d a b : BitVec 6)
  /-- SUBB, R188. Subtracts with borrow through the predicate register. -/
  | subb (g : BitVec 4) (d a b : BitVec 6)
  /-- DIVU, R187. Unsigned division. -/
  | divu (g : BitVec 4) (d a b : BitVec 6)
  /-- DIVS, R187. Signed division. -/
  | divs (g : BitVec 4) (d a b : BitVec 6)
  /-- REM, R187. Remainder. -/
  | rem (g : BitVec 4) (d a b : BitVec 6)
  /-- FADD, R206. FP32 add. -/
  | fadd (g : BitVec 4) (d a b : BitVec 6)
  /-- FSUB, R206. FP32 subtract. -/
  | fsub (g : BitVec 4) (d a b : BitVec 6)
  /-- FMUL, R206. FP32 multiply. -/
  | fmul (g : BitVec 4) (d a b : BitVec 6)
  /-- FFMA, R206. FP32 fused multiply-add. -/
  | ffma (g : BitVec 4) (d a b : BitVec 6)
  /-- FMIN, R207. FP32 minimum. -/
  | fmin (g : BitVec 4) (d a b : BitVec 6)
  /-- FMAX, R207. FP32 maximum. -/
  | fmax (g : BitVec 4) (d a b : BitVec 6)
  /-- FABS, R206. FP32 absolute value. -/
  | fabs (g : BitVec 4) (d a : BitVec 6)
  /-- FNEG, R206. FP32 negation. -/
  | fneg (g : BitVec 4) (d a : BitVec 6)
  /-- FRCP, R208. Correctly rounded reciprocal. -/
  | frcp (g : BitVec 4) (d a : BitVec 6)
  /-- FSQRT, R208. Correctly rounded square root. -/
  | fsqrt (g : BitVec 4) (d a : BitVec 6)
  /-- FRSQ, R208. Correctly rounded reciprocal square root. -/
  | frsq (g : BitVec 4) (d a : BitVec 6)
  /-- FEXP2, R208. Correctly rounded 2^a. -/
  | fexp2 (g : BitVec 4) (d a : BitVec 6)
  /-- FLOG2, R208. Correctly rounded log2 a. -/
  | flog2 (g : BitVec 4) (d a : BitVec 6)
  /-- FTANH, R208. Correctly rounded tanh a. -/
  | ftanh (g : BitVec 4) (d a : BitVec 6)
  /-- FDIV, R208. Correctly rounded division. -/
  | fdiv (g : BitVec 4) (d a b : BitVec 6)
  /-- FCLS, R209. Writes a one-hot class word. -/
  | fcls (g : BitVec 4) (d a : BitVec 6)
  /-- HADD_BF16, R210. Packed BF16 add. -/
  | haddBf16 (g : BitVec 4) (d a b : BitVec 6)
  /-- HSUB_BF16, R210. Packed BF16 subtract. -/
  | hsubBf16 (g : BitVec 4) (d a b : BitVec 6)
  /-- HMUL_BF16, R210. Packed BF16 multiply. -/
  | hmulBf16 (g : BitVec 4) (d a b : BitVec 6)
  /-- HFMA_BF16, R210. Packed BF16 fused multiply-add. -/
  | hfmaBf16 (g : BitVec 4) (d a b : BitVec 6)
  /-- HMIN_BF16, R210. Packed BF16 minimum. -/
  | hminBf16 (g : BitVec 4) (d a b : BitVec 6)
  /-- HMAX_BF16, R210. Packed BF16 maximum. -/
  | hmaxBf16 (g : BitVec 4) (d a b : BitVec 6)
  /-- HDOT2_BF16, R211. BF16 two-term dot product accumulated to FP32. -/
  | hdot2Bf16 (g : BitVec 4) (d a b : BitVec 6)
  /-- HADD_FP16, R210. Packed FP16 add. -/
  | haddFp16 (g : BitVec 4) (d a b : BitVec 6)
  /-- HSUB_FP16, R210. Packed FP16 subtract. -/
  | hsubFp16 (g : BitVec 4) (d a b : BitVec 6)
  /-- HMUL_FP16, R210. Packed FP16 multiply. -/
  | hmulFp16 (g : BitVec 4) (d a b : BitVec 6)
  /-- HFMA_FP16, R210. Packed FP16 fused multiply-add. -/
  | hfmaFp16 (g : BitVec 4) (d a b : BitVec 6)
  /-- HMIN_FP16, R210. Packed FP16 minimum. -/
  | hminFp16 (g : BitVec 4) (d a b : BitVec 6)
  /-- HMAX_FP16, R210. Packed FP16 maximum. -/
  | hmaxFp16 (g : BitVec 4) (d a b : BitVec 6)
  /-- HDOT2_FP16, R211. FP16 two-term dot product accumulated to FP32. -/
  | hdot2Fp16 (g : BitVec 4) (d a b : BitVec 6)
  /-- I2F, R212. Converts a signed integer to float. -/
  | i2f (g : BitVec 4) (d a b : BitVec 6)
  /-- U2F, R212. Converts an unsigned integer to float. -/
  | u2f (g : BitVec 4) (d a b : BitVec 6)
  /-- F2I, R212. Converts a float to a signed integer under the mode. -/
  | f2i (g : BitVec 4) (d a b : BitVec 6)
  /-- F2IZ, R212. Converts a float to a signed integer, truncating. -/
  | f2iz (g : BitVec 4) (d a b : BitVec 6)
  /-- F2U, R212. Converts a float to an unsigned integer. -/
  | f2u (g : BitVec 4) (d a b : BitVec 6)
  /-- F2BF, R212. Converts FP32 to BF16. -/
  | f2bf (g : BitVec 4) (d a : BitVec 6)
  /-- BF2F, R212. Converts BF16 to FP32 exactly. -/
  | bf2f (g : BitVec 4) (d a : BitVec 6)
  /-- F2H, R212. Converts FP32 to FP16. -/
  | f2h (g : BitVec 4) (d a : BitVec 6)
  /-- H2F, R212. Converts FP16 to FP32 exactly. -/
  | h2f (g : BitVec 4) (d a : BitVec 6)
  /-- F2N, R213. Encodes FP32 into an unscaled narrow code. -/
  | f2n (g : BitVec 4) (d a b : BitVec 6)
  /-- N2F, R213. Decodes an unscaled narrow code to FP32. -/
  | n2f (g : BitVec 4) (d a b : BitVec 6)
  /-- MXSCALE, R215. Computes one E8M0 scale per 32-lane block. -/
  | mxscale (g : BitVec 4) (d a : BitVec 6)
  /-- MXQ, R216. Quantises a value under a block scale. -/
  | mxq (g : BitVec 4) (d a b : BitVec 6)
  /-- MXDQ, R216. Dequantises a code under a block scale. -/
  | mxdq (g : BitVec 4) (d a b : BitVec 6)
  /-- MXPACK, R217. Packs per-lane codes into plane words. -/
  | mxpack (g : BitVec 4) (d a b : BitVec 6)
  /-- MXUNP, R217. Unpacks plane words into per-lane codes. -/
  | mxunp (g : BitVec 4) (d a b : BitVec 6)
  /-- SHFL, R219. Reads from the lane that vB names. -/
  | shfl (g : BitVec 4) (d a b : BitVec 6)
  /-- SHFUP, R219. Shuffles up by a distance. -/
  | shfup (g : BitVec 4) (d a b : BitVec 6)
  /-- SHFDN, R219. Shuffles down by a distance. -/
  | shfdn (g : BitVec 4) (d a b : BitVec 6)
  /-- SHFXOR, R219. Reads from lane l XOR k. -/
  | shfxor (g : BitVec 4) (d a b : BitVec 6)
  /-- BCAST, R219. Broadcasts lane k. -/
  | bcast (g : BitVec 4) (d a b : BitVec 6)
  /-- REDLOG, R220. Reduces over the active lanes in log steps. -/
  | redlog (g : BitVec 4) (d a b : BitVec 6)
  /-- SCAN, R220. Forms a prefix over the lanes. -/
  | scan (g : BitVec 4) (d a b : BitVec 6)
  /-- ARGMAX, R221. Writes the greatest value and its lowest lane. -/
  | argmax (g : BitVec 4) (d a : BitVec 6)
  /-- KTH, R222. Writes the k-th largest value over the active lanes. -/
  | kth (g : BitVec 4) (d a b : BitVec 6)
  /-- BALLOT, R223. Writes the mask of active lanes whose depth a is true. -/
  | ballot (g : BitVec 4) (d a : BitVec 6)
  /-- PERMB, R223. Byte lookup within the lane's own quad. -/
  | permb (g : BitVec 4) (d a b : BitVec 6)
  /-- VTOS, R223. Moves one lane's value to a scalar. -/
  | vtos (g : BitVec 4) (d a b : BitVec 6)
  /-- STOV, R223. Broadcasts a scalar to the active lanes. -/
  | stov (g : BitVec 4) (d a : BitVec 6)
  /-- CBLD, R225. Loads or clears the party's codebook. -/
  | cbld (g : BitVec 4) (a : BitVec 6)
  /-- CBDEC, R226. Decodes a codebook entry to FP32. -/
  | cbdec (g : BitVec 4) (d a : BitVec 6)
  /-- CBENC, R226. Encodes a value to its nearest codebook index. -/
  | cbenc (g : BitVec 4) (d a : BitVec 6)
  /-- CBRD, R226. Reads the raw BF16 bits of a codebook entry. -/
  | cbrd (g : BitVec 4) (d a : BitVec 6)
  /-- LBIND, R195. Binds the party's lanes into long integers of 2^n lanes. -/
  | lbind (g : BitVec 4) (n : BitVec 6)
  /-- LUNBIND, R195. Unbinds the party and clears the limb flags. -/
  | lunbind (g : BitVec 4)
  /-- LADD, R197. Long-integer add. -/
  | ladd (g : BitVec 4) (d a b : BitVec 6)
  /-- LSUB, R197. Long-integer subtract. -/
  | lsub (g : BitVec 4) (d a b : BitVec 6)
  /-- LSHL, R198. Long-integer shift left. -/
  | lshl (g : BitVec 4) (d a b : BitVec 6)
  /-- LSHR, R198. Long-integer logical shift right. -/
  | lshr (g : BitVec 4) (d a b : BitVec 6)
  /-- LSAR, R198. Long-integer arithmetic shift right. -/
  | lsar (g : BitVec 4) (d a b : BitVec 6)
  /-- LCMP, R199. Compares long integers and pushes the result. -/
  | lcmp (g : BitVec 4) (c a b : BitVec 6)
  /-- LMAC, R200. Multiplies a long integer by a 64-bit multiplier and accumulates. -/
  | lmac (g : BitVec 4) (d a b : BitVec 6)
  /-- LCARRY, R201. Writes C + 2V of each integer. -/
  | lcarry (g : BitVec 4) (d : BitVec 6)
  /-- LNEG, R197. Long-integer negation. -/
  | lneg (g : BitVec 4) (d a : BitVec 6)
  /-- SADD, R190. Scalar add. -/
  | sadd (g : BitVec 4) (d a b : BitVec 6)
  /-- SSUB, R190. Scalar subtract. -/
  | ssub (g : BitVec 4) (d a b : BitVec 6)
  /-- SMUL, R190. Scalar multiply, low half. -/
  | smul (g : BitVec 4) (d a b : BitVec 6)
  /-- SMULH, R190. Scalar signed multiply, high half. -/
  | smulh (g : BitVec 4) (d a b : BitVec 6)
  /-- SMULHU, R190. Scalar unsigned multiply, high half. -/
  | smulhu (g : BitVec 4) (d a b : BitVec 6)
  /-- SAND, R190. Scalar AND. -/
  | sand (g : BitVec 4) (d a b : BitVec 6)
  /-- SOR, R190. Scalar OR. -/
  | sor (g : BitVec 4) (d a b : BitVec 6)
  /-- SXOR, R190. Scalar XOR. -/
  | sxor (g : BitVec 4) (d a b : BitVec 6)
  /-- SSHL, R190. Scalar shift left. -/
  | sshl (g : BitVec 4) (d a b : BitVec 6)
  /-- SSHR, R190. Scalar logical shift right. -/
  | sshr (g : BitVec 4) (d a b : BitVec 6)
  /-- SSAR, R190. Scalar arithmetic shift right. -/
  | ssar (g : BitVec 4) (d a b : BitVec 6)
  /-- SROT, R190. Scalar rotate left. -/
  | srot (g : BitVec 4) (d a b : BitVec 6)
  /-- SMIN, R190. Scalar signed minimum. -/
  | smin (g : BitVec 4) (d a b : BitVec 6)
  /-- SMAX, R190. Scalar signed maximum. -/
  | smax (g : BitVec 4) (d a b : BitVec 6)
  /-- SMINU, R190. Scalar unsigned minimum. -/
  | sminu (g : BitVec 4) (d a b : BitVec 6)
  /-- SMAXU, R190. Scalar unsigned maximum. -/
  | smaxu (g : BitVec 4) (d a b : BitVec 6)
  /-- SADDI, R190. Adds a sign-extended immediate to a scalar. -/
  | saddi (g : BitVec 4) (d a : BitVec 6) (i : BitVec 10)
  /-- SMOVI, R190. Writes a sign-extended immediate to a scalar. -/
  | smovi (g : BitVec 4) (d : BitVec 6) (i : BitVec 10)
  /-- SMOV, R191. Copies a scalar. -/
  | smov (g : BitVec 4) (d a : BitVec 6)
  /-- HGET, R191. Copies a handle register to a scalar. -/
  | hget (g : BitVec 4) (d a : BitVec 6)
  /-- HPUT, R191. Copies a scalar to a handle register. -/
  | hput (g : BitVec 4) (d a : BitVec 6)
  /-- HNULL, R191. Writes 0 to a handle register. -/
  | hnull (g : BitVec 4) (d : BitVec 6)
  /-- SCMP, R159. Compares two scalars and pushes the result into every active lane. -/
  | scmp (g : BitVec 4) (a b : BitVec 6) (c : BitVec 4)
  /-- LD, R230. Loads at the home, departing to it when it is remote. -/
  | ld (g : BitVec 4) (d a : BitVec 6) (s : BitVec 5) (w : BitVec 3) (o : BitVec 2)
  /-- ST, R230. Stores at the home at commit, departing to it when it is remote. -/
  | st (g : BitVec 4) (d a : BitVec 6) (s : BitVec 5) (w : BitVec 3) (o : BitVec 2)
  /-- ATOM, R233. Atomic read-modify-write at the home, applied at commit. -/
  | atom (g : BitVec 4) (d a : BitVec 6) (s : BitVec 5) (w : BitVec 3)
  /-- LDT, R235. Issues one lane ticket per lane for a read. -/
  | ldt (g : BitVec 4) (d a : BitVec 6) (s : BitVec 5) (w : BitVec 3) (o : BitVec 2)
  /-- LDTB, R236. Issues one block ticket per bundle execution. -/
  | ldtb (g : BitVec 4) (d a : BitVec 6) (s : BitVec 5) (o : BitVec 2)
  /-- ATT, R237. Atomic at service whose old value is held as a ticket. -/
  | att (g : BitVec 4) (d a : BitVec 6) (s : BitVec 5) (w : BitVec 3)
  /-- RDM, R240. Redeems lane tickets into registers. -/
  | rdm (g : BitVec 4) (d a b : BitVec 6)
  /-- RDMB, R93. Redeems a block ticket into the scratchpad at commit. -/
  | rdmb (g : BitVec 4) (d a : BitVec 6)
  /-- TREL, R95. Releases lane tickets, posted at commit. -/
  | trel (g : BitVec 4) (a : BitVec 6)
  /-- TRELB, R95. Releases a block ticket. -/
  | trelb (g : BitVec 4) (a : BitVec 6)
  /-- TTEST, R94. Pushes whether lane tickets are ready. -/
  | ttest (g : BitVec 4) (a : BitVec 6)
  /-- TTESTB, R94. Pushes whether a block ticket is ready. -/
  | ttestb (g : BitVec 4) (a : BitVec 6)
  /-- STP, R241. Posted store, sent at commit. -/
  | stp (g : BitVec 4) (d a : BitVec 6) (s : BitVec 5) (w : BitVec 3)
  /-- ATP, R241. Posted atomic, sent at commit. -/
  | atp (g : BitVec 4) (d a : BitVec 6) (s : BitVec 5) (w : BitVec 3)
  /-- MSO_CAS2, R76. Memory-side 16 B compare-and-swap. -/
  | msoCas2 (g : BitVec 4) (d a : BitVec 6)
  /-- MSO_CAS4, R76. Memory-side 32 B compare-and-swap. -/
  | msoCas4 (g : BitVec 4) (d a : BitVec 6)
  /-- MSO_ENQ, R77. Memory-side ring append. -/
  | msoEnq (g : BitVec 4) (d a : BitVec 6)
  /-- MSO_CHASE, R78. Memory-side pointer chase within one slice. -/
  | msoChase (g : BitVec 4) (d a : BitVec 6)
  /-- MSO_ROWPUT, R79. Memory-side write of a scratchpad row. -/
  | msoRowput (g : BitVec 4) (a : BitVec 6)
  /-- EGATH, R80. Reads a table descriptor and issues one row ticket per lane. -/
  | egath (g : BitVec 4) (d a : BitVec 6) (s : BitVec 5)
  /-- FENCE, R108. Fence of the kind and scope of the mod hint. -/
  | fence (g : BitVec 4)
  /-- WATCH, R81. Departs to a word's home and blocks until it differs or times out. -/
  | watch (g : BitVec 4) (d a : BitVec 6) (o : BitVec 1) (b : BitVec 5)
  /-- CPY, R247. Issues a linear copy-engine operation. -/
  | cpy (g : BitVec 4) (d a : BitVec 6)
  /-- CPYS, R249. Issues a strided copy. -/
  | cpys (g : BitVec 4) (d a : BitVec 6)
  /-- CPYG, R247. Issues a gathered copy. -/
  | cpyg (g : BitVec 4) (d a : BitVec 6)
  /-- CPYR, R250. Issues a reducing copy. -/
  | cpyr (g : BitVec 4) (d a : BitVec 6)
  /-- WAIT, R251. Blocks until an engine operation completes and writes its count. -/
  | wait (g : BitVec 4) (d a : BitVec 6)
  /-- TEST, R251. Pushes whether an engine operation has completed. -/
  | test (g : BitVec 4) (a : BitVec 6)
  /-- CANCEL, R252. Posts a cancel to an engine operation. -/
  | cancel (g : BitVec 4) (a : BitVec 6)
  /-- SPOPEN, R274. Claims and opens a speculation frame. -/
  | spopen (g : BitVec 4) (d a : BitVec 6)
  /-- STX, R275. Posts a tentative version of the bound frame. -/
  | stx (g : BitVec 4) (d a b : BitVec 6)
  /-- SPACC, R277. Accepts n positions of a frame. -/
  | spacc (g : BitVec 4) (d a b : BitVec 6)
  /-- SPDROP, R277. Drops every version of a frame. -/
  | spdrop (g : BitVec 4) (d a : BitVec 6)
  /-- SPBIND, R276. Binds the party to a frame, or unbinds it. -/
  | spbind (g : BitVec 4) (a : BitVec 6)
  /-- RNGU, R270. Writes a Galrel word. -/
  | rngu (g : BitVec 4) (d a : BitVec 6)
  /-- RNGKEY, R270. Sets the RNG key. -/
  | rngkey (g : BitVec 4) (a : BitVec 6)
  /-- RNGSTRM, R270. Sets the RNG stream. -/
  | rngstrm (g : BitVec 4) (a : BitVec 6)
  /-- UNIF, R270. Writes a uniform FP32 from a Galrel word. -/
  | unif (g : BitVec 4) (d a : BitVec 6)
  /-- GUMB, R270. Writes a Gumbel sample from a Galrel word. -/
  | gumb (g : BitVec 4) (d a : BitVec 6)
  /-- SLD, R231. Scalar load, departing to the home. -/
  | sld (g : BitVec 4) (d a : BitVec 6) (s : BitVec 5) (w : BitVec 3) (o : BitVec 2)
  /-- SST, R231. Scalar store, departing to the home. -/
  | sst (g : BitVec 4) (d a : BitVec 6) (s : BitVec 5) (w : BitVec 3) (o : BitVec 2)
  /-- MPUT, R259. Pushes an operand tile into the party's queue at commit. -/
  | mput (g : BitVec 4) (a : BitVec 6)
  /-- MGET, R260. Copies an accumulator tile into 16 registers. -/
  | mget (g : BitVec 4) (d a : BitVec 6)
  /-- IMM, R146. Hint supplying an immediate payload to the next instruction. -/
  | imm (p : BitVec 22)
  /-- LIVE, R49. Hint naming vector registers to travel at the next migration-capable instruction. -/
  | live (b : BitVec 2) (m : BitVec 16)
  /-- MOD, R147. Hint setting scope, order, rounding, saturate and format. -/
  | mod (s : BitVec 3) (o r : BitVec 2) (t : BitVec 1) (f : BitVec 6)
  /-- LAST, R148. Hint marking last reads of registers. -/
  | last (c b a : BitVec 6)
  /-- RUN_HEADER, R143. Run header word naming length, form, WAIT mask and flags. -/
  | runHeader (l : BitVec 5) (c : BitVec 1) (w : BitVec 12) (a b : BitVec 4)
  /-- MMA, R261. Matrix word: KREP + 1 multiply-accumulate steps on a tile. -/
  | mma (c : BitVec 10) (a b : BitVec 4) (z : BitVec 1) (k : BitVec 3) (t u : BitVec 1)
  /-- MZERO, R262. Matrix word: zeroes an accumulator tile. -/
  | mzero (c : BitVec 10)
  /-- MLDA, R262. Matrix word: loads a tile from scratchpad. -/
  | mlda (c : BitVec 10) (p : BitVec 3)
  /-- MSTA, R262. Matrix word: stores a tile to scratchpad in the page's format. -/
  | msta (c : BitVec 10) (p : BitVec 3) (s : BitVec 1)
  /-- MSIG, R263. Matrix word: waits for earlier work, then arrives at a team barrier. -/
  | msig (b : BitVec 4) (n : BitVec 16)
  /-- MSYNC, R263. Matrix word: arrives at a team barrier and waits. -/
  | msync (b : BitVec 4) (n : BitVec 16)
  /-- MSET, R264. Matrix word: loads a sequencer register from the parameter block. -/
  | mset (m : BitVec 4) (v : BitVec 20)
  /-- MSET_ADD, R264. Matrix word: adds a signed constant to a sequencer register. -/
  | msetAdd (m : BitVec 4) (v : BitVec 20)
  /-- MSET_SET, R264. Matrix word: sets a sequencer register to a constant. -/
  | msetSet (m : BitVec 4) (v : BitVec 20)
  /-- MSET_CB, R264. Matrix word: loads the sequencer codebook. -/
  | msetCb (v : BitVec 20)
  /-- MLOOP, R265. Matrix word: pushes a loop entry. -/
  | mloop (n : BitVec 20)
  /-- MNEXT, R265. Matrix word: decrements the loop count and loops or pops. -/
  | mnext
  /-- MEND, R265. Matrix word: the sequencer becomes ENDED. -/
  | mend
  /-- RUN_BEGIN, R24. A bundle begins a run once its WAIT flags are clear and it is chosen for issue. -/
  | runBegin (pid bid : Nat)
  /-- RUN_COMMIT, R27. A run commits for a lane once every instruction has executed and its attributed operations allow. -/
  | runCommit (pid bid : Nat)
  /-- REGROUPING_PASS, R20. Every 4 clk the core merges waiting fibres of equal PC and window base into bundles. -/
  | regroupingPass (core : Nat)
  /-- ACTIVE_SET_FILL, R35. A free active-set slot, or a run boundary facing a higher-priority READY party, is filled from the READY parties. -/
  | activeSetFill (core : Nat)
  /-- PRIORITY_AGING, R35. Each full 4,096 clk without beginning a run raises a party's effective priority by one. -/
  | priorityAging (pid : Nat)
  /-- STARVATION_MARK, R37. A party READY or ACTIVE for 61,440 clk without beginning a run is marked starving. -/
  | starvationMark (pid : Nat)
  /-- STALL_BLOCK, R23. A bundle stalled inside a run for more than 256 clk makes its party BLOCKED. -/
  | stallBlock (pid : Nat)
  /-- YIELD_EXPIRY, R169. 256 clk after yield, the delayed run becomes eligible. -/
  | yieldExpiry (pid bid : Nat)
  /-- LONG_OP_COMPLETE, R26. A long-latency result is written to its register and its completion flag may clear. -/
  | longOpComplete (pid op : Nat)
  /-- DEPART_RECORD, R46. Once flags are clear and earlier operations are acknowledged, the context record is formed and placed in the outbox. -/
  | departRecord (pid : Nat)
  /-- OUTBOX_HEAD_SEND, R57. The head record of an outbox FIFO is sent once its destination queue has reserved slots. -/
  | outboxHeadSend (msg : Nat)
  /-- ARRIVAL_ACCEPT, R57. A context record is accepted into a core's arrival queue and the party becomes QUEUED. -/
  | arrivalAccept (msg : Nat)
  /-- ARRIVAL_ADMIT, R57. A queued record enters a freed party slot by priority and arrival order. -/
  | arrivalAdmit (core : Nat)
  /-- STEWARD_EVALUATION, R58. Every 1 µs the steward checks for a fully blocked stack with a full arrival queue. -/
  | stewardEvaluation (stack : Nat)
  /-- STEWARD_RESUME, R59. A steward-parked party resumes once its former core has a free slot and an empty queue. -/
  | stewardResume (stack : Nat)
  /-- LINEAGE_COUNT_MSG, R54. A posted member-count change is applied at the lineage entry and forwarded to an open rejoin round. -/
  | lineageCountMsg (msg : Nat)
  /-- REJOIN_EXPIRY, R61. At a rejoin round's expiry, rejoinw arrivals are released unmerged with false pushed. -/
  | rejoinExpiry (core bar : Nat)
  /-- PARK_WRITE, R38. Once its runs commit, abandon or depart, a party's record is written to its parking area. -/
  | parkWrite (pid : Nat)
  /-- TEAM_SAVE, R39. After engines and sequencer stop, a whole team's sequencer, scratchpad and tiles are saved. -/
  | teamSave (team : Nat)
  /-- POSTED_OP_APPLY, R75. A posted operation is applied at its home as one step and acknowledged. -/
  | postedOpApply (msg : Nat)
  /-- WATCH_TIMEOUT, R81. A watch's timeout expires and it completes with false pushed. -/
  | watchTimeout (pid bid : Nat)
  /-- ACK_RECEIVE, R56. An acknowledgement from a home or host port reaches the issuing core. -/
  | ackReceive (msg : Nat)
  /-- TICKET_SERVICE, R89. A ticket request is served at its home when an entry and buffer units are free. -/
  | ticketService (msg : Nat)
  /-- TICKET_FETCH_COMPLETE, R90. An outstanding fetch completes and its entry becomes READY, or an orphaned entry frees. -/
  | ticketFetchComplete (slice entry : Nat) (data : List Byte)
  /-- TICKET_VALUE_RETURN, R88. A ticket value reaches the issuing core and is written to its register. -/
  | ticketValueReturn (msg : Nat)
  /-- CLAIM_AT_HOME, R91. A redemption claim is checked at the entry's home and answered. -/
  | claimAtHome (msg : Nat)
  /-- CLAIM_ANSWER, R91. A claim answer, and its data, reach the redeemer's core. -/
  | claimAnswer (msg : Nat)
  /-- CLAIM_CONFIRM, R90. A confirmation ends the entry's generation as REDEEMED. -/
  | claimConfirm (msg : Nat)
  /-- CLAIM_CANCEL, R91. A cancellation returns the entry to its unclaimed state. -/
  | claimCancel (msg : Nat)
  /-- TREL_AT_HOME, R95. A ticket release is applied at the entry's home. -/
  | trelAtHome (msg : Nat)
  /-- TICKET_DEADLINE, R97. An entry's deadline expires and it is reclaimed or made EXPIRED. -/
  | ticketDeadline (slice entry : Nat)
  /-- MSO_APPLY, R76. The slice agent applies a memory-side operation as one step. -/
  | msoApply (msg : Nat)
  /-- PAGE_IN, R68. The steward moves a second-tier page into stacked DRAM and releases the waiting bundle. -/
  | pageIn (asid : BitVec 16) (va frame : Nat)
  /-- REFERENCE_SWEEP, R69. Every 1 ms the reference bits of resident pages are cleared. -/
  | referenceSweep (stack : Nat)
  /-- HOST_MEM_READ, R304. A host CXL.mem read is translated and applied at its home. -/
  | hostMemRead (port tag hpa : Nat)
  /-- HOST_MEM_WRITE, R304. A host CXL.mem write is translated and applied at its home. -/
  | hostMemWrite (port tag hpa : Nat) (data : List Byte)
  /-- HOST_WINDOW_RESPONSE, R15. Data or acknowledgement of a device access to a host window returns from the port. -/
  | hostWindowResponse (msg : Nat) (fresh : List Byte)
  /-- ENGINE_START, R248. A queued copy operation starts on its engine after its run has committed. -/
  | engineStart (eng : Nat)
  /-- ENGINE_COMPLETE, R250. A copy operation completes, clears its locks and releases its writes. -/
  | engineComplete (eng : Nat)
  /-- CANCEL_ARRIVE, R252. A cancel reaches its engine and shortens or ends the operation. -/
  | cancelArrive (msg written : Nat)
  /-- BARRIER_ARRIVAL, R176. An arrival reaches a barrier and may complete its round. -/
  | barrierArrival (msg : Nat)
  /-- BARW_EXPIRY, R177. A barw round's expiry withdraws its barw arrivals with false pushed. -/
  | barwExpiry (bar : BarRef)
  /-- LAUNCH_VALIDATE, R309. A received launch record is validated and rejected or accepted. -/
  | launchValidate (msg : Nat)
  /-- TEAM_PLACE, R33. The steward places a waiting team on a cluster with room. -/
  | teamPlace
  /-- TEAM_RETIRE, R32. A team retires and frees its resources once its parties, sequencer and engines are done. -/
  | teamRetire (team : Nat)
  /-- GRID_RETIRE, R32. A grid retires and its completion word is written. -/
  | gridRetire (grid : BitVec 32)
  /-- FRAME_CLAIM, R274. A spopen, spacc or spdrop claim is checked at the frame table and answered. -/
  | frameClaim (msg : Nat)
  /-- STX_VERSION_APPLY, R275. A tentative version is recorded, held, discarded or refused at its home. -/
  | stxVersionApply (msg : Nat)
  /-- FRAME_PREPARE, R277. A slice receives a frame prepare and answers ready or refused. -/
  | framePrepare (frame slice : Nat)
  /-- FRAME_PREPARE_ANSWER, R277. The steward collects prepare answers and sends the accept or drop step. -/
  | framePrepareAnswer (frame slice : Nat)
  /-- FRAME_STEP_APPLY, R277. A home applies a frame's accept or drop step; the last one completes the handle. -/
  | frameStepApply (frame slice : Nat)
  /-- UNCORRECTABLE_DETECT, R335. An uncorrectable error poisons its data. -/
  | uncorrectableDetect (site : PoisonSite)
  /-- POISON_CONSUME, R338. Poisoned data reaches a consumer and the team rolls back, the unit replays, or lanes trap. -/
  | poisonConsume (idx : Nat)
  /-- SHADOW_LATCH_EVENT, R348. A late transition is replayed at half clock and counted. -/
  | shadowLatchEvent (unit : Nat)
  /-- DERATE_WINDOW_END, R348. At the end of a 1 ms window a unit is derated or restored. -/
  | derateWindowEnd (unit : Nat)
  /-- POWER_LIMIT_ENFORCE, R357. Every 100 µs stewards lower or raise clocks to keep the power limit. -/
  | powerLimitEnforce (watts : Nat)
  /-- THERMAL_HOT, R358. A stack above 95 °C moves a team or is throttled. -/
  | thermalHot (stack celsius team : Nat)
  /-- HDM_WINDOW_WRITE, R303. A write to an HDM window descriptor, checked before enabling. -/
  | hdmWindowWrite (port win dword : Nat) (val : DWord)
  /-- SEED_SUBMIT, R306. A GO write copies a seed record and marks the slot SUBMITTED. -/
  | seedSubmit (slot : Nat) (val : DWord)
  /-- SEED_ACCEPT, R307. A submitted seed is placed in its core's arrival queue or refused. -/
  | seedAccept (slot : Nat)
  /-- INVAL_PAGE, R318. Invalidates translations of one page of an ASID. -/
  | invalPage (val : DWord)
  /-- INVAL_ASID, R318. Invalidates every translation and format entry of an ASID. -/
  | invalAsid (val : DWord)
  /-- INVAL_ALL, R318. Invalidates translations of every ASID. -/
  | invalAll (val : DWord)
  /-- INVAL_COMPLETE, R318. Once every buffer has dropped the entries and dependent accesses are applied, BUSY clears. -/
  | invalComplete
  /-- FUNC_APPLY, R319. An APPLY write copies requested function modes when no launch is resident, or defers them. -/
  | funcApply (val : DWord)
  /-- EVQ_HEAD_WRITE, R321. The driver advances EVQ_HEAD, letting waiting events be written. -/
  | evqHeadWrite (val : DWord)
  /-- EV_RESUME, R321. Event response RESUME takes the hardware step. -/
  | evResume (val : DWord)
  /-- EV_DELIVER, R320. Event response DELIVER delivers the trap. -/
  | evDeliver (val : DWord)
  /-- EV_ENLARGE, R322. Event response ENLARGE enlarges the full queue. -/
  | evEnlarge (val : DWord)
  /-- EV_PARK_OLDEST, R322. Event response PARK_OLDEST parks the longest-BLOCKED party. -/
  | evParkOldest (val : DWord)
  /-- EV_NONE, R322. Event response NONE takes no step. -/
  | evNone (val : DWord)
  /-- EV_RECLAIM, R322. Event response RECLAIM reclaims an EXPIRED ticket entry. -/
  | evReclaim (val : DWord)
  /-- EV_PLACE, R322. Event response PLACE places or moves a team on a named cluster. -/
  | evPlace (val : DWord)
  /-- EV_DEFER, R322. Event response DEFER postpones placement, throttles, or disables a link. -/
  | evDefer (val : DWord)
  /-- EV_BAD_RESP_CLEAR, R312. Write-1-to-clear of the ignored-response count. -/
  | evBadRespClear (val : DWord)
  /-- PREEMPT_PARK, R328. Parks every party of a launch and its descendants. -/
  | preemptPark (val : DWord)
  /-- PREEMPT_RESUME, R328. Places every parked record of a launch in arrival queues. -/
  | preemptResume (val : DWord)
  /-- PREEMPT_END, R328. Ends a launch and writes ENDED_BY_DRIVER once its engines complete. -/
  | preemptEnd (val : DWord)
  /-- DBG_CONTINUE, R332. Releases the oldest halted party, completing its halt as nop. -/
  | dbgContinue
  /-- DBG_DELIVER_DEBUG, R332. Releases the oldest halted party with a DEBUG trap. -/
  | dbgDeliverDebug
  /-- DBG_STOP, R333. Stops issue on a core at run boundaries. -/
  | dbgStop (val : DWord)
  /-- DBG_STOP_DRAINED, R333. All runs in progress on the stopped core have ended and BUSY clears. -/
  | dbgStopDrained
  /-- DBG_START, R333. Writing STOP = 0 restores issue on a core. -/
  | dbgStart (val : DWord)
  /-- DBG_MEM_READ, R334. One 4 B physical read at a DPA's home. -/
  | dbgMemRead (val : DWord)
  /-- DBG_MEM_WRITE, R334. One 4 B physical write at a DPA's home. -/
  | dbgMemWrite (val : DWord)
  /-- REGISTER_WRITE, R3. A write to a register with no behaviour of its own. -/
  | registerWrite (off : Nat) (val : DWord)
  /-- POWER_ON, R349. Numilis runs the boot steps in order from the boot record. -/
  | powerOn (inp : BootInput)
  /-- BOOT_RETRY, R352. BOOT_CTL retries the stopped step with the same method. -/
  | bootRetry (inp : BootInput)
  /-- BOOT_NEXT_ALTERNATE, R352. BOOT_CTL retries the stopped step with the next alternate. -/
  | bootNextAlternate (inp : BootInput)
  /-- BOOT_SKIP, R352. BOOT_CTL skips a stopped optional step. -/
  | bootSkip (inp : BootInput)
  /-- BOOT_ENTER_RECOVERY, R352. BOOT_CTL stops the boot and enters RECOVERY. -/
  | bootEnterRecovery
  /-- GET_VERSION, R356. SPDM request answered with version 1.3. -/
  | getVersion
  /-- GET_CAPABILITIES, R356. SPDM request for capabilities. -/
  | getCapabilities
  /-- NEGOTIATE_ALGORITHMS, R356. SPDM algorithm negotiation, Ed25519 and SHA-512. -/
  | negotiateAlgorithms
  /-- GET_DIGESTS, R356. SPDM request for certificate digests. -/
  | getDigests
  /-- GET_CERTIFICATE, R356. SPDM request for the slot 0 certificate chain. -/
  | getCertificate (slot off len : Nat)
  /-- CHALLENGE, R356. SPDM signed challenge. -/
  | challenge (slot : Nat)
  /-- GET_MEASUREMENTS, R356. SPDM signed measurements. -/
  | getMeasurements (idx : Nat)
  /-- SPDM_UNSUPPORTED, R356. Sessions, key exchange, PSK and mutual authentication are answered UnsupportedRequest. -/
  | spdmUnsupported (code : Nat)
  /-- GET_SNAPSHOT, R378. Latches a telemetry snapshot and returns its identity. -/
  | getSnapshot
  /-- READ_SNAPSHOT, R378. Returns bytes of the held snapshot. -/
  | readSnapshot (id off len : Nat)
  /-- CLEAR_BOOT_RECORD, R380. Clears the boot record's step entries. -/
  | clearBootRecord
  /-- SET_POWER_LIMIT, R378. Sets the module power limit. -/
  | setPowerLimit (watts : Nat)
  /-- SET_SLICE_RETIRE, R353. Stores a stack's slice retire mask for the next boot. -/
  | setSliceRetire (stack : Nat) (mask : BitVec 32)
  /-- SENSOR_READ, R378. A PLDM numeric sensor read returns a live counter. -/
  | sensorRead (id : Nat)
  /-- TELEMETRY_SAVE, R377. Every 10 min the lifetime set is written to flash. -/
  | telemetrySave
  /-- ORDERLY_POWER_DOWN, R377. An orderly power-down writes the lifetime set to flash. -/
  | orderlyPowerDown
  /-- LINK_FRAME_RECEIVE, R368. A link frame is checked and accepted, discarded or answered with NAK, with credits and time samples taken. -/
  | linkFrameReceive (port : Nat) (fr : LinkFrame)
  /-- LINK_FRAME_SEND, R367. A frame of 15 data flits and a control flit is sent when the replay buffer has room. -/
  | linkFrameSend (port : Nat)
  /-- PACKET_FORWARD, R364. A router forwards a packet on its route, or moves it into a disabled link's drain. -/
  | packetForward (port : Nat)
  /-- LANE_LOSS, R371. A lost lane starts retraining of its link. -/
  | laneLoss (port lane : Nat)
  /-- TRAINING_EXCHANGE, R371. Training control flits are compared and the link comes up, retrains or is disabled. -/
  | trainingExchange (port : Nat) (mine remote : BitVec 16) (rspeed : Nat)
  /-- LINK_REPORT_RECEIVE, R369. A last-accepted report lets the transmitter discard acknowledged frames and drain the rest. -/
  | linkReportReceive (port fseq : Nat)
  /-- ROUTE_REEVALUATE, R365. At most every 10 µs a pair's ordered route is re-chosen. -/
  | routeReevaluate (dst : BitVec 20)
  /-- FRAME_CLAIM_CONFIRM, R274. The confirmation of an spopen, spacc or spdrop claim reaches the frame table at commit and makes the FREE-to-OPEN or OPEN-to-CLOSING transition, starting the prepare or drop. -/
  | frameClaimConfirm (msg : Nat)
  /-- FRAME_CLAIM_CANCEL, R274. The cancellation of a frame claim, sent when its run is abandoned, reaches the frame table and leaves the entry unchanged and unclaimed. -/
  | frameClaimCancel (msg : Nat)
  /-- MATRIX_WORD_COMPLETE, R267. A matrix step or tile word completes its 2-clk engine work, clears its range locks and lets a waiting msig proceed. -/
  | matrixWordComplete (team : Nat)
  /-- POWER_LOSS, R377. Supply is lost without an orderly power-down, losing telemetry counted since the last save and leaving a boot step's RESULT as at the previous boot. -/
  | powerLoss
  /-- CXL_CACHE_REQUEST, R302. A CXL.cache request arriving at a host port is answered as the standard prescribes for an absent feature. -/
  | cxlCacheRequest (port : Nat)
deriving DecidableEq, Repr

end Sys2Proof
end

