-- ==== Sys2Proof/WellFormed.lean ====
section
/-!
DEFINITION. Well-formed instructions: the field values that do not depend on the hints in force. Register codes
belong to the class of their operand (R139, R140; where a format widens an operand to a pair, the codes of class V),
selector fields hold an accepted value (R135), guards are not 0b1111 (R136). Events name subjects that exist.
-/

namespace Sys2Proof

open Sys2Proof.Machine

/-- A guard that executes (R136). -/
def guardCode (g : BitVec 4) : Bool := decide (g ≠ 15)

/-- A field value from `lo` to `hi`. -/
def codeIn {n : Nat} (c : BitVec n) (lo hi : Nat) : Bool := decide (lo ≤ c.toNat) && decide (c.toNat ≤ hi)

/-- A field value among those listed. -/
def codeOf {n : Nat} (c : BitVec n) (l : List Nat) : Bool := l.contains c.toNat

/-- Class V as a source (R139). -/
def vSrcCode (c : BitVec 6) : Bool := decide (c ≠ 63)

/-- Class V as a destination (R139). -/
def vDstCode (c : BitVec 6) : Bool := codeIn c 0 60

/-- A pair as a destination (R140). -/
def pairDstCode (c : BitVec 6) : Bool := codeIn c 0 60 && decide (c.toNat % 2 = 0)

/-- A pair as a source (R140). -/
def pairSrcCode (c : BitVec 6) : Bool := pairDstCode c || decide (c = 61) || decide (c = 62)

/-- A quad as a destination, and as a source (R140). -/
def quadDstCode (c : BitVec 6) : Bool := codeIn c 0 60 && decide (c.toNat % 4 = 0)

/-- A quad as a source (R140). -/
def quadSrcCode (c : BitVec 6) : Bool := quadDstCode c

/-- Class S (R139). -/
def scalarCode (c : BitVec 6) : Bool := codeIn c 0 31

/-- Class H (R139). -/
def handleCode (c : BitVec 6) : Bool := codeIn c 0 15

/-- A distance code (R152). -/
def distCode (c : BitVec 6) : Bool := !(c.getLsbD 5) || decide (field c 3 2 = 0)

/-- An operation code of `redlog` and `scan` (R220). -/
def redOpCode (c : BitVec 6) : Bool :=
  codeIn (field c 0 4) 0 10 && (!(c.getLsbD 4) || codeIn (field c 0 4) 0 7)

/-- A defined format code (R117). -/
def formatCode (c : BitVec 6) : Bool := codeIn c 0 10 || codeIn c 16 23

/-- The A field of an F-M word: a class V code, or a pair in pointer-pair mode; never code 62 (R138, R227). -/
def memAddrCode (base : BitVec 5) (a : BitVec 6) : Bool :=
  decide (a ≠ 62) && (if base = 31 then pairSrcCode a else vSrcCode a)

/-- The destination of a load by WIDTH (R228). -/
def memDstCode (w : BitVec 3) (d : BitVec 6) : Bool :=
  if w = 5 then pairDstCode d else if w = 6 then quadDstCode d else vDstCode d

/-- The source of a store by WIDTH (R227, R228). -/
def memSrcCode (w : BitVec 3) (d : BitVec 6) : Bool :=
  decide (d ≠ 62) && (if w = 5 then pairSrcCode d else if w = 6 then quadSrcCode d else vSrcCode d)

/-- The destination of `rdm` by its B field (R240). -/
def redeemDstCode (b d : BitVec 6) : Bool :=
  if b = 4 then vDstCode d else if b = 5 then pairDstCode d else quadDstCode d

/-- Well-formed instructions. -/
def Instr.wf : Instr → Bool
  | .nop g => guardCode g
  | .yield g => guardCode g
  | .trap g _ => guardCode g
  | .tretRetry g => guardCode g
  | .tretSkip g => guardCode g
  | .mfs g d _ _ => guardCode g && scalarCode d
  | .mts g d _ _ => guardCode g && scalarCode d
  | .tbr g a b => guardCode g && vSrcCode a && scalarCode b
  | .halt g => guardCode g
  | .br g _ => guardCode g
  | .call g _ => guardCode g
  | .ret g a => guardCode g && pairSrcCode a
  | .callr g a => guardCode g && pairSrcCode a
  | .brr g a => guardCode g && pairSrcCode a
  | .enter g n => guardCode g && codeIn n 1 56
  | .leave g n => guardCode g && codeIn n 1 56
  | .fork g d a => guardCode g && vDstCode d && pairSrcCode a
  | .fend g => guardCode g
  | .exit g => guardCode g
  | .bar g a b => guardCode g && scalarCode a && scalarCode b
  | .barw g d a b => guardCode g && scalarCode d && scalarCode a && scalarCode b
  | .rejoin g a => guardCode g && scalarCode a
  | .rejoinw g a b => guardCode g && scalarCode a && scalarCode b
  | .arrive g d a b => guardCode g && scalarCode d && scalarCode a && scalarCode b
  | .barq g a b => guardCode g && scalarCode a && scalarCode b
  | .launch g a => guardCode g && scalarCode a
  | .gridwait g d a => guardCode g && scalarCode d && scalarCode a
  | .gridq g d a => guardCode g && scalarCode d && scalarCode a
  | .cmp g a b c => guardCode g && vSrcCode a && vSrcCode b && codeIn c 0 11
  | .cmpD g a b c => guardCode g && pairSrcCode a && pairSrcCode b && codeIn c 0 11
  | .cmpi g c a _ => guardCode g && vSrcCode a && codeIn c 0 11
  | .fcmp g f a b c => guardCode g && codeIn f 0 2 && vSrcCode a && vSrcCode b && codeIn c 0 13
  | .ppop g n => guardCode g && codeIn n 1 16
  | .pdup g a => guardCode g && codeIn a 0 15
  | .pand g a b => guardCode g && codeIn a 0 15 && codeIn b 0 15
  | .por g a b => guardCode g && codeIn a 0 15 && codeIn b 0 15
  | .pxor g a b => guardCode g && codeIn a 0 15 && codeIn b 0 15
  | .pnot g a => guardCode g && codeIn a 0 15
  | .pany g a => guardCode g && codeIn a 0 15
  | .pall g a => guardCode g && codeIn a 0 15
  | .pcnt g d a => guardCode g && vDstCode d && codeIn a 0 15
  | .pget g d => guardCode g && vDstCode d
  | .pset g a => guardCode g && vSrcCode a
  | .pfirst g d a => guardCode g && vDstCode d && codeIn a 0 15
  | .pswap g a b => guardCode g && codeIn a 0 15 && codeIn b 0 15
  | .add g d a b => guardCode g && vDstCode d && vSrcCode a && vSrcCode b
  | .sub g d a b => guardCode g && vDstCode d && vSrcCode a && vSrcCode b
  | .mul g d a b => guardCode g && vDstCode d && vSrcCode a && vSrcCode b
  | .mulh g d a b => guardCode g && vDstCode d && vSrcCode a && vSrcCode b
  | .mulhu g d a b => guardCode g && vDstCode d && vSrcCode a && vSrcCode b
  | .and g d a b => guardCode g && vDstCode d && vSrcCode a && vSrcCode b
  | .or g d a b => guardCode g && vDstCode d && vSrcCode a && vSrcCode b
  | .xor g d a b => guardCode g && vDstCode d && vSrcCode a && vSrcCode b
  | .shl g d a b => guardCode g && vDstCode d && vSrcCode a && vSrcCode b
  | .shr g d a b => guardCode g && vDstCode d && vSrcCode a && vSrcCode b
  | .sar g d a b => guardCode g && vDstCode d && vSrcCode a && vSrcCode b
  | .rot g d a b => guardCode g && vDstCode d && vSrcCode a && vSrcCode b
  | .min g d a b => guardCode g && vDstCode d && vSrcCode a && vSrcCode b
  | .max g d a b => guardCode g && vDstCode d && vSrcCode a && vSrcCode b
  | .minu g d a b => guardCode g && vDstCode d && vSrcCode a && vSrcCode b
  | .maxu g d a b => guardCode g && vDstCode d && vSrcCode a && vSrcCode b
  | .addi g d a _ => guardCode g && vDstCode d && vSrcCode a
  | .andi g d a _ => guardCode g && vDstCode d && vSrcCode a
  | .ori g d a _ => guardCode g && vDstCode d && vSrcCode a
  | .xori g d a _ => guardCode g && vDstCode d && vSrcCode a
  | .shi g d a _ _ => guardCode g && vDstCode d && vSrcCode a
  | .movi g d _ => guardCode g && vDstCode d
  | .movhi g d _ => guardCode g && vDstCode d
  | .mad g d a b => guardCode g && vDstCode d && vSrcCode a && vSrcCode b
  | .madh g d a b => guardCode g && vDstCode d && vSrcCode a && vSrcCode b
  | .abs g d a => guardCode g && vDstCode d && vSrcCode a
  | .neg g d a => guardCode g && vDstCode d && vSrcCode a
  | .clz g d a => guardCode g && vDstCode d && vSrcCode a
  | .popc g d a => guardCode g && vDstCode d && vSrcCode a
  | .brev g d a => guardCode g && vDstCode d && vSrcCode a
  | .bfe g d a b => guardCode g && vDstCode d && vSrcCode a && vSrcCode b
  | .bfi g d a b => guardCode g && vDstCode d && vSrcCode a && vSrcCode b
  | .sel g d a b => guardCode g && vDstCode d && vSrcCode a && vSrcCode b
  | .mov g d a => guardCode g && vDstCode d && vSrcCode a
  | .addc g d a b => guardCode g && vDstCode d && vSrcCode a && vSrcCode b
  | .subb g d a b => guardCode g && vDstCode d && vSrcCode a && vSrcCode b
  | .divu g d a b => guardCode g && vDstCode d && vSrcCode a && vSrcCode b
  | .divs g d a b => guardCode g && vDstCode d && vSrcCode a && vSrcCode b
  | .rem g d a b => guardCode g && vDstCode d && vSrcCode a && vSrcCode b
  | .fadd g d a b => guardCode g && vDstCode d && vSrcCode a && vSrcCode b
  | .fsub g d a b => guardCode g && vDstCode d && vSrcCode a && vSrcCode b
  | .fmul g d a b => guardCode g && vDstCode d && vSrcCode a && vSrcCode b
  | .ffma g d a b => guardCode g && vDstCode d && vSrcCode a && vSrcCode b
  | .fmin g d a b => guardCode g && vDstCode d && vSrcCode a && vSrcCode b
  | .fmax g d a b => guardCode g && vDstCode d && vSrcCode a && vSrcCode b
  | .fabs g d a => guardCode g && vDstCode d && vSrcCode a
  | .fneg g d a => guardCode g && vDstCode d && vSrcCode a
  | .frcp g d a => guardCode g && vDstCode d && vSrcCode a
  | .fsqrt g d a => guardCode g && vDstCode d && vSrcCode a
  | .frsq g d a => guardCode g && vDstCode d && vSrcCode a
  | .fexp2 g d a => guardCode g && vDstCode d && vSrcCode a
  | .flog2 g d a => guardCode g && vDstCode d && vSrcCode a
  | .ftanh g d a => guardCode g && vDstCode d && vSrcCode a
  | .fdiv g d a b => guardCode g && vDstCode d && vSrcCode a && vSrcCode b
  | .fcls g d a => guardCode g && vDstCode d && vSrcCode a
  | .haddBf16 g d a b => guardCode g && vDstCode d && vSrcCode a && vSrcCode b
  | .hsubBf16 g d a b => guardCode g && vDstCode d && vSrcCode a && vSrcCode b
  | .hmulBf16 g d a b => guardCode g && vDstCode d && vSrcCode a && vSrcCode b
  | .hfmaBf16 g d a b => guardCode g && vDstCode d && vSrcCode a && vSrcCode b
  | .hminBf16 g d a b => guardCode g && vDstCode d && vSrcCode a && vSrcCode b
  | .hmaxBf16 g d a b => guardCode g && vDstCode d && vSrcCode a && vSrcCode b
  | .hdot2Bf16 g d a b => guardCode g && vDstCode d && vSrcCode a && vSrcCode b
  | .haddFp16 g d a b => guardCode g && vDstCode d && vSrcCode a && vSrcCode b
  | .hsubFp16 g d a b => guardCode g && vDstCode d && vSrcCode a && vSrcCode b
  | .hmulFp16 g d a b => guardCode g && vDstCode d && vSrcCode a && vSrcCode b
  | .hfmaFp16 g d a b => guardCode g && vDstCode d && vSrcCode a && vSrcCode b
  | .hminFp16 g d a b => guardCode g && vDstCode d && vSrcCode a && vSrcCode b
  | .hmaxFp16 g d a b => guardCode g && vDstCode d && vSrcCode a && vSrcCode b
  | .hdot2Fp16 g d a b => guardCode g && vDstCode d && vSrcCode a && vSrcCode b
  | .i2f g d a b => guardCode g && vDstCode d && vSrcCode a && codeOf b [16, 18, 20, 22]
  | .u2f g d a b => guardCode g && vDstCode d && vSrcCode a && codeOf b [17, 19, 21, 23]
  | .f2i g d a b => guardCode g && vDstCode d && vSrcCode a && codeOf b [16, 18, 20, 22]
  | .f2iz g d a b => guardCode g && vDstCode d && vSrcCode a && codeOf b [16, 18, 20, 22]
  | .f2u g d a b => guardCode g && vDstCode d && vSrcCode a && codeOf b [17, 19, 21, 23]
  | .f2bf g d a => guardCode g && vDstCode d && vSrcCode a
  | .bf2f g d a => guardCode g && vDstCode d && vSrcCode a
  | .f2h g d a => guardCode g && vDstCode d && vSrcCode a
  | .h2f g d a => guardCode g && vDstCode d && vSrcCode a
  | .f2n g d a b => guardCode g && vDstCode d && vSrcCode a && codeIn b 3 9
  | .n2f g d a b => guardCode g && vDstCode d && vSrcCode a && codeIn b 3 9
  | .mxscale g d a => guardCode g && vDstCode d && vSrcCode a
  | .mxq g d a b => guardCode g && vDstCode d && vSrcCode a && vSrcCode b
  | .mxdq g d a b => guardCode g && vDstCode d && vSrcCode a && vSrcCode b
  | .mxpack g d a b => guardCode g && vDstCode d && vSrcCode a && codeIn b 0 1
  | .mxunp g d a b => guardCode g && vDstCode d && vSrcCode a && codeIn b 0 1
  | .shfl g d a b => guardCode g && vDstCode d && vSrcCode a && vSrcCode b
  | .shfup g d a b => guardCode g && vDstCode d && vSrcCode a && distCode b
  | .shfdn g d a b => guardCode g && vDstCode d && vSrcCode a && distCode b
  | .shfxor g d a b => guardCode g && vDstCode d && vSrcCode a && distCode b
  | .bcast g d a b => guardCode g && vDstCode d && vSrcCode a && distCode b
  | .redlog g d a b => guardCode g && vDstCode d && vSrcCode a && redOpCode b && !(b.getLsbD 5)
  | .scan g d a b => guardCode g && vDstCode d && vSrcCode a && redOpCode b
  | .argmax g d a => guardCode g && pairDstCode d && vSrcCode a
  | .kth g d a b => guardCode g && vDstCode d && vSrcCode a && scalarCode b
  | .ballot g d a => guardCode g && pairDstCode d && codeIn a 0 15
  | .permb g d a b => guardCode g && vDstCode d && quadSrcCode a && vSrcCode b
  | .vtos g d a b => guardCode g && scalarCode d && vSrcCode a && scalarCode b
  | .stov g d a => guardCode g && vDstCode d && scalarCode a
  | .cbld g a => guardCode g && scalarCode a
  | .cbdec g d a => guardCode g && vDstCode d && vSrcCode a
  | .cbenc g d a => guardCode g && vDstCode d && vSrcCode a
  | .cbrd g d a => guardCode g && vDstCode d && vSrcCode a
  | .lbind g n => guardCode g && codeIn n 1 6
  | .lunbind g => guardCode g
  | .ladd g d a b => guardCode g && pairDstCode d && pairSrcCode a && pairSrcCode b
  | .lsub g d a b => guardCode g && pairDstCode d && pairSrcCode a && pairSrcCode b
  | .lshl g d a b => guardCode g && pairDstCode d && pairSrcCode a && vSrcCode b
  | .lshr g d a b => guardCode g && pairDstCode d && pairSrcCode a && vSrcCode b
  | .lsar g d a b => guardCode g && pairDstCode d && pairSrcCode a && vSrcCode b
  | .lcmp g c a b => guardCode g && codeIn c 0 11 && pairSrcCode a && pairSrcCode b
  | .lmac g d a b => guardCode g && pairDstCode d && pairSrcCode a && pairSrcCode b
  | .lcarry g d => guardCode g && vDstCode d
  | .lneg g d a => guardCode g && pairDstCode d && pairSrcCode a
  | .sadd g d a b => guardCode g && scalarCode d && scalarCode a && scalarCode b
  | .ssub g d a b => guardCode g && scalarCode d && scalarCode a && scalarCode b
  | .smul g d a b => guardCode g && scalarCode d && scalarCode a && scalarCode b
  | .smulh g d a b => guardCode g && scalarCode d && scalarCode a && scalarCode b
  | .smulhu g d a b => guardCode g && scalarCode d && scalarCode a && scalarCode b
  | .sand g d a b => guardCode g && scalarCode d && scalarCode a && scalarCode b
  | .sor g d a b => guardCode g && scalarCode d && scalarCode a && scalarCode b
  | .sxor g d a b => guardCode g && scalarCode d && scalarCode a && scalarCode b
  | .sshl g d a b => guardCode g && scalarCode d && scalarCode a && scalarCode b
  | .sshr g d a b => guardCode g && scalarCode d && scalarCode a && scalarCode b
  | .ssar g d a b => guardCode g && scalarCode d && scalarCode a && scalarCode b
  | .srot g d a b => guardCode g && scalarCode d && scalarCode a && scalarCode b
  | .smin g d a b => guardCode g && scalarCode d && scalarCode a && scalarCode b
  | .smax g d a b => guardCode g && scalarCode d && scalarCode a && scalarCode b
  | .sminu g d a b => guardCode g && scalarCode d && scalarCode a && scalarCode b
  | .smaxu g d a b => guardCode g && scalarCode d && scalarCode a && scalarCode b
  | .saddi g d a _ => guardCode g && scalarCode d && scalarCode a
  | .smovi g d _ => guardCode g && scalarCode d
  | .smov g d a => guardCode g && scalarCode d && scalarCode a
  | .hget g d a => guardCode g && scalarCode d && handleCode a
  | .hput g d a => guardCode g && handleCode d && scalarCode a
  | .hnull g d => guardCode g && handleCode d
  | .scmp g a b c => guardCode g && scalarCode a && scalarCode b && codeIn c 0 11
  | .ld g d a s w o => guardCode g && decide (o ≠ 3) && (decide (w ≠ 7) || decide (o = 0)) && memAddrCode s a && memDstCode w d
  | .st g d a s w o => guardCode g && decide (o ≠ 3) && (decide (w ≠ 7) || decide (o = 0)) && codeOf w [0, 2, 4, 5, 6, 7] && memAddrCode s a && memSrcCode w d
  | .atom g d a s _ => guardCode g && memAddrCode s a && vDstCode d
  | .ldt g d a s w o => guardCode g && decide (o ≠ 3) && codeIn w 0 6 && memAddrCode s a && pairDstCode d
  | .ldtb g d a s o => guardCode g && handleCode d && scalarCode a && codeIn s 0 30 && decide (o ≠ 3)
  | .att g d a s _ => guardCode g && memAddrCode s a && pairDstCode d
  | .rdm g d a b => guardCode g && codeOf b [4, 5, 6] && redeemDstCode b d && pairSrcCode a
  | .rdmb g d a => guardCode g && scalarCode d && handleCode a
  | .trel g a => guardCode g && pairSrcCode a
  | .trelb g a => guardCode g && handleCode a
  | .ttest g a => guardCode g && pairSrcCode a
  | .ttestb g a => guardCode g && handleCode a
  | .stp g d a s w => guardCode g && codeOf w [0, 2, 4, 5, 6] && memAddrCode s a && memSrcCode w d
  | .atp g d a s _ => guardCode g && memAddrCode s a && vSrcCode d && decide (d ≠ 62)
  | .msoCas2 g d a => guardCode g && codeIn a 0 44 && decide (a.toNat % 4 = 0) && pairDstCode d
  | .msoCas4 g d a => guardCode g && codeIn a 0 36 && decide (a.toNat % 4 = 0) && quadDstCode d
  | .msoEnq g d a => guardCode g && codeIn a 0 52 && decide (a.toNat % 2 = 0) && pairDstCode d
  | .msoChase g d a => guardCode g && codeIn a 0 52 && decide (a.toNat % 2 = 0) && pairDstCode d
  | .msoRowput g a => guardCode g && codeIn a 0 50 && decide (a.toNat % 2 = 0)
  | .egath g d a s => guardCode g && pairDstCode d && vSrcCode a && decide (a ≠ 62) && codeIn s 0 30
  | .fence g => guardCode g
  | .watch g d a _ _ => guardCode g && vSrcCode d && pairSrcCode a
  | .cpy g d a => guardCode g && handleCode d && codeIn a 0 28
  | .cpys g d a => guardCode g && handleCode d && scalarCode a
  | .cpyg g d a => guardCode g && handleCode d && codeIn a 0 28
  | .cpyr g d a => guardCode g && handleCode d && codeIn a 0 28
  | .wait g d a => guardCode g && scalarCode d && handleCode a
  | .test g a => guardCode g && handleCode a
  | .cancel g a => guardCode g && handleCode a
  | .spopen g d a => guardCode g && handleCode d && scalarCode a
  | .stx g d a b => guardCode g && vSrcCode d && pairSrcCode a && vSrcCode b
  | .spacc g d a b => guardCode g && handleCode d && handleCode a && scalarCode b
  | .spdrop g d a => guardCode g && handleCode d && handleCode a
  | .spbind g a => guardCode g && handleCode a
  | .rngu g d a => guardCode g && vDstCode d && pairSrcCode a
  | .rngkey g a => guardCode g && codeIn a 0 30
  | .rngstrm g a => guardCode g && scalarCode a
  | .unif g d a => guardCode g && vDstCode d && pairSrcCode a
  | .gumb g d a => guardCode g && vDstCode d && pairSrcCode a
  | .sld g d a s w o => guardCode g && scalarCode d && scalarCode a && codeIn s 0 30 && codeIn w 0 5 && decide (o ≠ 3)
  | .sst g d a s w o => guardCode g && scalarCode d && scalarCode a && codeIn s 0 30 && codeOf w [0, 2, 4, 5] && decide (o ≠ 3)
  | .mput g a => guardCode g && codeIn a 0 55
  | .mget g d a => guardCode g && codeIn d 0 40 && scalarCode a
  | .imm _ => true
  | .live b m => (decide (b ≠ 3) || decide (field m 8 8 = 0))
  | .mod s _ r _ f => decide (s.toNat ≤ 4) && decide (r ≠ 3) && formatCode f
  | .last c b a => (codeIn c 0 55 || decide (c = 60)) && (codeIn b 0 55 || decide (b = 60)) && (codeIn a 0 55 || decide (a = 60))
  | .runHeader l _ _ _ _ => codeIn l 1 24
  | .mma _ _ _ _ _ _ _ => true
  | .mzero _ => true
  | .mlda _ _ => true
  | .msta _ _ _ => true
  | .msig _ _ => true
  | .msync _ _ => true
  | .mset _ _ => true
  | .msetAdd _ _ => true
  | .msetSet _ _ => true
  | .msetCb v => decide (v.toNat % 4 = 0)
  | .mloop n => decide (n ≠ 0)
  | .mnext => true
  | .mend => true
  | .runBegin _ _ => true
  | .runCommit _ _ => true
  | .regroupingPass core => decide (core < 512)
  | .activeSetFill core => decide (core < 512)
  | .priorityAging _ => true
  | .starvationMark _ => true
  | .stallBlock _ => true
  | .yieldExpiry _ _ => true
  | .longOpComplete _ _ => true
  | .departRecord _ => true
  | .outboxHeadSend _ => true
  | .arrivalAccept _ => true
  | .arrivalAdmit core => decide (core < 512)
  | .stewardEvaluation stack => decide (stack < 16)
  | .stewardResume stack => decide (stack < 16)
  | .lineageCountMsg _ => true
  | .rejoinExpiry core _ => decide (core < 512)
  | .parkWrite _ => true
  | .teamSave _ => true
  | .postedOpApply _ => true
  | .watchTimeout _ _ => true
  | .ackReceive _ => true
  | .ticketService _ => true
  | .ticketFetchComplete slice entry _ => decide (slice < 512) && decide (entry < 4096)
  | .ticketValueReturn _ => true
  | .claimAtHome _ => true
  | .claimAnswer _ => true
  | .claimConfirm _ => true
  | .claimCancel _ => true
  | .trelAtHome _ => true
  | .ticketDeadline slice entry => decide (slice < 512) && decide (entry < 4096)
  | .msoApply _ => true
  | .pageIn _ _ _ => true
  | .referenceSweep stack => decide (stack < 16)
  | .hostMemRead port _ _ => decide (port < 1055)
  | .hostMemWrite port _ _ _ => decide (port < 1055)
  | .hostWindowResponse _ _ => true
  | .engineStart eng => decide (eng < 256)
  | .engineComplete eng => decide (eng < 256)
  | .cancelArrive _ _ => true
  | .barrierArrival _ => true
  | .barwExpiry _ => true
  | .launchValidate _ => true
  | .teamPlace => true
  | .teamRetire _ => true
  | .gridRetire _ => true
  | .frameClaim _ => true
  | .stxVersionApply _ => true
  | .framePrepare frame slice => decide (frame < 4096) && decide (slice < 512)
  | .framePrepareAnswer frame slice => decide (frame < 4096) && decide (slice < 512)
  | .frameStepApply frame slice => decide (frame < 4096) && decide (slice < 512)
  | .uncorrectableDetect _ => true
  | .poisonConsume _ => true
  | .shadowLatchEvent unit => decide (unit < 1168)
  | .derateWindowEnd unit => decide (unit < 1168)
  | .powerLimitEnforce _ => true
  | .thermalHot stack _ _ => decide (stack < 16)
  | .hdmWindowWrite port _ _ _ => decide (port < 1055)
  | .seedSubmit _ _ => true
  | .seedAccept _ => true
  | .invalPage _ => true
  | .invalAsid _ => true
  | .invalAll _ => true
  | .invalComplete => true
  | .funcApply _ => true
  | .evqHeadWrite _ => true
  | .evResume _ => true
  | .evDeliver _ => true
  | .evEnlarge _ => true
  | .evParkOldest _ => true
  | .evNone _ => true
  | .evReclaim _ => true
  | .evPlace _ => true
  | .evDefer _ => true
  | .evBadRespClear _ => true
  | .preemptPark _ => true
  | .preemptResume _ => true
  | .preemptEnd _ => true
  | .dbgContinue => true
  | .dbgDeliverDebug => true
  | .dbgStop _ => true
  | .dbgStopDrained => true
  | .dbgStart _ => true
  | .dbgMemRead _ => true
  | .dbgMemWrite _ => true
  | .registerWrite _ _ => true
  | .powerOn _ => true
  | .bootRetry _ => true
  | .bootNextAlternate _ => true
  | .bootSkip _ => true
  | .bootEnterRecovery => true
  | .getVersion => true
  | .getCapabilities => true
  | .negotiateAlgorithms => true
  | .getDigests => true
  | .getCertificate _ _ _ => true
  | .challenge _ => true
  | .getMeasurements _ => true
  | .spdmUnsupported _ => true
  | .getSnapshot => true
  | .readSnapshot _ _ _ => true
  | .clearBootRecord => true
  | .setPowerLimit _ => true
  | .setSliceRetire stack _ => decide (stack < 16)
  | .sensorRead _ => true
  | .telemetrySave => true
  | .orderlyPowerDown => true
  | .linkFrameReceive port _ => decide (port < 1055)
  | .linkFrameSend port => decide (port < 1055)
  | .packetForward port => decide (port < 1055)
  | .laneLoss port _ => decide (port < 1055)
  | .trainingExchange port _ _ _ => decide (port < 1055)
  | .linkReportReceive port _ => decide (port < 1055)
  | .routeReevaluate _ => true
  | .frameClaimConfirm _ => true
  | .frameClaimCancel _ => true
  | .matrixWordComplete _ => true
  | .powerLoss => true
  | .cxlCacheRequest port => decide (port < 1055)

end Sys2Proof
end

