-- ==== Sys2Proof/Decode.lean ====
section
/-!
DEFINITION. Decoding and encoding of the 32-bit words of the party stream and of the matrix stream (R132, R134, R137,
R150, R151). A word that matches no row of the opcode table decodes to nothing; the machine then raises what R134,
R135 and R146 say of it. Field values a row admits but its instruction does not accept are met at issue.
-/

namespace Sys2Proof

open Sys2Proof.Machine

/-- Major 0x00 (R150, R151). -/
def decSys (w : Word) : Option Instr :=
  match (field w 0 4).toNat with
  | 0 => if field w 4 18 = 0 then some (.nop (field w 22 4)) else none
  | 1 => if field w 4 18 = 0 then some (.yield (field w 22 4)) else none
  | 2 => if field w 4 12 = 0 then some (.trap (field w 22 4) (field w 16 6)) else none
  | 3 => if field w 4 18 = 0 then some (.tretRetry (field w 22 4)) else if field w 4 18 = 4096 then some (.tretSkip (field w 22 4)) else none
  | 4 => some (.mfs (field w 22 4) (field w 16 6) (field w 10 6) (field w 4 6))
  | 5 => some (.mts (field w 22 4) (field w 16 6) (field w 10 6) (field w 4 6))
  | 6 => if field w 16 6 = 0 then some (.tbr (field w 22 4) (field w 10 6) (field w 4 6)) else none
  | 7 => if field w 4 18 = 0 then some (.halt (field w 22 4)) else none
  | _ => none

/-- Major 0x03 (R150, R151). -/
def decCtl (w : Word) : Option Instr :=
  match (field w 0 4).toNat with
  | 0 => if field w 4 6 = 0 ∧ field w 16 6 = 0 then some (.ret (field w 22 4) (field w 10 6)) else none
  | 1 => if field w 4 6 = 0 ∧ field w 16 6 = 0 then some (.callr (field w 22 4) (field w 10 6)) else none
  | 2 => if field w 4 6 = 0 ∧ field w 16 6 = 0 then some (.brr (field w 22 4) (field w 10 6)) else none
  | 3 => if field w 10 12 = 0 then some (.enter (field w 22 4) (field w 4 6)) else none
  | 4 => if field w 10 12 = 0 then some (.leave (field w 22 4) (field w 4 6)) else none
  | 5 => if field w 4 6 = 0 then some (.fork (field w 22 4) (field w 16 6) (field w 10 6)) else none
  | 6 => if field w 4 18 = 0 then some (.fend (field w 22 4)) else none
  | 7 => if field w 4 18 = 0 then some (.exit (field w 22 4)) else none
  | _ => none

/-- Major 0x04 (R150, R151). -/
def decBarr (w : Word) : Option Instr :=
  match (field w 0 4).toNat with
  | 0 => if field w 16 6 = 0 then some (.bar (field w 22 4) (field w 10 6) (field w 4 6)) else none
  | 1 => some (.barw (field w 22 4) (field w 16 6) (field w 10 6) (field w 4 6))
  | 2 => if field w 4 6 = 0 ∧ field w 16 6 = 0 then some (.rejoin (field w 22 4) (field w 10 6)) else none
  | 3 => if field w 16 6 = 0 then some (.rejoinw (field w 22 4) (field w 10 6) (field w 4 6)) else none
  | 4 => some (.arrive (field w 22 4) (field w 16 6) (field w 10 6) (field w 4 6))
  | 5 => if field w 16 6 = 0 then some (.barq (field w 22 4) (field w 10 6) (field w 4 6)) else none
  | _ => none

/-- Major 0x05 (R150, R151). -/
def decGrid (w : Word) : Option Instr :=
  match (field w 0 4).toNat with
  | 0 => if field w 4 6 = 0 ∧ field w 16 6 = 0 then some (.launch (field w 22 4) (field w 10 6)) else none
  | 1 => if field w 4 6 = 0 then some (.gridwait (field w 22 4) (field w 16 6) (field w 10 6)) else none
  | 2 => if field w 4 6 = 0 then some (.gridq (field w 22 4) (field w 16 6) (field w 10 6)) else none
  | _ => none

/-- Major 0x06 (R150, R151). -/
def decCmp (w : Word) : Option Instr :=
  match (field w 16 6).toNat with
  | 0 => some (.cmp (field w 22 4) (field w 10 6) (field w 4 6) (field w 0 4))
  | 1 => some (.cmpD (field w 22 4) (field w 10 6) (field w 4 6) (field w 0 4))
  | _ => none

/-- Major 0x09 (R150, R151). -/
def decPred (w : Word) : Option Instr :=
  match (field w 0 4).toNat with
  | 0 => if field w 10 12 = 0 then some (.ppop (field w 22 4) (field w 4 6)) else none
  | 1 => if field w 4 6 = 0 ∧ field w 16 6 = 0 then some (.pdup (field w 22 4) (field w 10 6)) else none
  | 2 => if field w 16 6 = 0 then some (.pand (field w 22 4) (field w 10 6) (field w 4 6)) else none
  | 3 => if field w 16 6 = 0 then some (.por (field w 22 4) (field w 10 6) (field w 4 6)) else none
  | 4 => if field w 16 6 = 0 then some (.pxor (field w 22 4) (field w 10 6) (field w 4 6)) else none
  | 5 => if field w 4 6 = 0 ∧ field w 16 6 = 0 then some (.pnot (field w 22 4) (field w 10 6)) else none
  | 6 => if field w 4 6 = 0 ∧ field w 16 6 = 0 then some (.pany (field w 22 4) (field w 10 6)) else none
  | 7 => if field w 4 6 = 0 ∧ field w 16 6 = 0 then some (.pall (field w 22 4) (field w 10 6)) else none
  | 8 => if field w 4 6 = 0 then some (.pcnt (field w 22 4) (field w 16 6) (field w 10 6)) else none
  | 9 => if field w 4 12 = 0 then some (.pget (field w 22 4) (field w 16 6)) else none
  | 10 => if field w 4 6 = 0 ∧ field w 16 6 = 0 then some (.pset (field w 22 4) (field w 10 6)) else none
  | 11 => if field w 4 6 = 0 then some (.pfirst (field w 22 4) (field w 16 6) (field w 10 6)) else none
  | 12 => if field w 16 6 = 0 then some (.pswap (field w 22 4) (field w 10 6) (field w 4 6)) else none
  | _ => none

/-- Major 0x0A (R150, R151). -/
def decInt (w : Word) : Option Instr :=
  match (field w 0 4).toNat with
  | 0 => some (.add (field w 22 4) (field w 16 6) (field w 10 6) (field w 4 6))
  | 1 => some (.sub (field w 22 4) (field w 16 6) (field w 10 6) (field w 4 6))
  | 2 => some (.mul (field w 22 4) (field w 16 6) (field w 10 6) (field w 4 6))
  | 3 => some (.mulh (field w 22 4) (field w 16 6) (field w 10 6) (field w 4 6))
  | 4 => some (.mulhu (field w 22 4) (field w 16 6) (field w 10 6) (field w 4 6))
  | 5 => some (.and (field w 22 4) (field w 16 6) (field w 10 6) (field w 4 6))
  | 6 => some (.or (field w 22 4) (field w 16 6) (field w 10 6) (field w 4 6))
  | 7 => some (.xor (field w 22 4) (field w 16 6) (field w 10 6) (field w 4 6))
  | 8 => some (.shl (field w 22 4) (field w 16 6) (field w 10 6) (field w 4 6))
  | 9 => some (.shr (field w 22 4) (field w 16 6) (field w 10 6) (field w 4 6))
  | 10 => some (.sar (field w 22 4) (field w 16 6) (field w 10 6) (field w 4 6))
  | 11 => some (.rot (field w 22 4) (field w 16 6) (field w 10 6) (field w 4 6))
  | 12 => some (.min (field w 22 4) (field w 16 6) (field w 10 6) (field w 4 6))
  | 13 => some (.max (field w 22 4) (field w 16 6) (field w 10 6) (field w 4 6))
  | 14 => some (.minu (field w 22 4) (field w 16 6) (field w 10 6) (field w 4 6))
  | 15 => some (.maxu (field w 22 4) (field w 16 6) (field w 10 6) (field w 4 6))
  | _ => none

/-- Major 0x12 (R150, R151). -/
def decIntx (w : Word) : Option Instr :=
  match (field w 0 4).toNat with
  | 0 => some (.mad (field w 22 4) (field w 16 6) (field w 10 6) (field w 4 6))
  | 1 => some (.madh (field w 22 4) (field w 16 6) (field w 10 6) (field w 4 6))
  | 2 => if field w 4 6 = 0 then some (.abs (field w 22 4) (field w 16 6) (field w 10 6)) else none
  | 3 => if field w 4 6 = 0 then some (.neg (field w 22 4) (field w 16 6) (field w 10 6)) else none
  | 4 => if field w 4 6 = 0 then some (.clz (field w 22 4) (field w 16 6) (field w 10 6)) else none
  | 5 => if field w 4 6 = 0 then some (.popc (field w 22 4) (field w 16 6) (field w 10 6)) else none
  | 6 => if field w 4 6 = 0 then some (.brev (field w 22 4) (field w 16 6) (field w 10 6)) else none
  | 7 => some (.bfe (field w 22 4) (field w 16 6) (field w 10 6) (field w 4 6))
  | 8 => some (.bfi (field w 22 4) (field w 16 6) (field w 10 6) (field w 4 6))
  | 9 => some (.sel (field w 22 4) (field w 16 6) (field w 10 6) (field w 4 6))
  | 10 => if field w 4 6 = 0 then some (.mov (field w 22 4) (field w 16 6) (field w 10 6)) else none
  | 11 => some (.addc (field w 22 4) (field w 16 6) (field w 10 6) (field w 4 6))
  | 12 => some (.subb (field w 22 4) (field w 16 6) (field w 10 6) (field w 4 6))
  | 13 => some (.divu (field w 22 4) (field w 16 6) (field w 10 6) (field w 4 6))
  | 14 => some (.divs (field w 22 4) (field w 16 6) (field w 10 6) (field w 4 6))
  | 15 => some (.rem (field w 22 4) (field w 16 6) (field w 10 6) (field w 4 6))
  | _ => none

/-- Major 0x13 (R150, R151). -/
def decFp (w : Word) : Option Instr :=
  match (field w 0 4).toNat with
  | 0 => some (.fadd (field w 22 4) (field w 16 6) (field w 10 6) (field w 4 6))
  | 1 => some (.fsub (field w 22 4) (field w 16 6) (field w 10 6) (field w 4 6))
  | 2 => some (.fmul (field w 22 4) (field w 16 6) (field w 10 6) (field w 4 6))
  | 3 => some (.ffma (field w 22 4) (field w 16 6) (field w 10 6) (field w 4 6))
  | 4 => some (.fmin (field w 22 4) (field w 16 6) (field w 10 6) (field w 4 6))
  | 5 => some (.fmax (field w 22 4) (field w 16 6) (field w 10 6) (field w 4 6))
  | 6 => if field w 4 6 = 0 then some (.fabs (field w 22 4) (field w 16 6) (field w 10 6)) else none
  | 7 => if field w 4 6 = 0 then some (.fneg (field w 22 4) (field w 16 6) (field w 10 6)) else none
  | 8 => if field w 4 6 = 0 then some (.frcp (field w 22 4) (field w 16 6) (field w 10 6)) else none
  | 9 => if field w 4 6 = 0 then some (.fsqrt (field w 22 4) (field w 16 6) (field w 10 6)) else none
  | 10 => if field w 4 6 = 0 then some (.frsq (field w 22 4) (field w 16 6) (field w 10 6)) else none
  | 11 => if field w 4 6 = 0 then some (.fexp2 (field w 22 4) (field w 16 6) (field w 10 6)) else none
  | 12 => if field w 4 6 = 0 then some (.flog2 (field w 22 4) (field w 16 6) (field w 10 6)) else none
  | 13 => if field w 4 6 = 0 then some (.ftanh (field w 22 4) (field w 16 6) (field w 10 6)) else none
  | 14 => some (.fdiv (field w 22 4) (field w 16 6) (field w 10 6) (field w 4 6))
  | 15 => if field w 4 6 = 0 then some (.fcls (field w 22 4) (field w 16 6) (field w 10 6)) else none
  | _ => none

/-- Major 0x14 (R150, R151). -/
def decHfp (w : Word) : Option Instr :=
  match (field w 0 4).toNat with
  | 0 => some (.haddBf16 (field w 22 4) (field w 16 6) (field w 10 6) (field w 4 6))
  | 1 => some (.hsubBf16 (field w 22 4) (field w 16 6) (field w 10 6) (field w 4 6))
  | 2 => some (.hmulBf16 (field w 22 4) (field w 16 6) (field w 10 6) (field w 4 6))
  | 3 => some (.hfmaBf16 (field w 22 4) (field w 16 6) (field w 10 6) (field w 4 6))
  | 4 => some (.hminBf16 (field w 22 4) (field w 16 6) (field w 10 6) (field w 4 6))
  | 5 => some (.hmaxBf16 (field w 22 4) (field w 16 6) (field w 10 6) (field w 4 6))
  | 6 => some (.hdot2Bf16 (field w 22 4) (field w 16 6) (field w 10 6) (field w 4 6))
  | 8 => some (.haddFp16 (field w 22 4) (field w 16 6) (field w 10 6) (field w 4 6))
  | 9 => some (.hsubFp16 (field w 22 4) (field w 16 6) (field w 10 6) (field w 4 6))
  | 10 => some (.hmulFp16 (field w 22 4) (field w 16 6) (field w 10 6) (field w 4 6))
  | 11 => some (.hfmaFp16 (field w 22 4) (field w 16 6) (field w 10 6) (field w 4 6))
  | 12 => some (.hminFp16 (field w 22 4) (field w 16 6) (field w 10 6) (field w 4 6))
  | 13 => some (.hmaxFp16 (field w 22 4) (field w 16 6) (field w 10 6) (field w 4 6))
  | 14 => some (.hdot2Fp16 (field w 22 4) (field w 16 6) (field w 10 6) (field w 4 6))
  | _ => none

/-- Major 0x15 (R150, R151). -/
def decCvt (w : Word) : Option Instr :=
  match (field w 0 4).toNat with
  | 0 => some (.i2f (field w 22 4) (field w 16 6) (field w 10 6) (field w 4 6))
  | 1 => some (.u2f (field w 22 4) (field w 16 6) (field w 10 6) (field w 4 6))
  | 2 => some (.f2i (field w 22 4) (field w 16 6) (field w 10 6) (field w 4 6))
  | 3 => some (.f2iz (field w 22 4) (field w 16 6) (field w 10 6) (field w 4 6))
  | 4 => some (.f2u (field w 22 4) (field w 16 6) (field w 10 6) (field w 4 6))
  | 5 => if field w 4 6 = 0 then some (.f2bf (field w 22 4) (field w 16 6) (field w 10 6)) else none
  | 6 => if field w 4 6 = 0 then some (.bf2f (field w 22 4) (field w 16 6) (field w 10 6)) else none
  | 7 => if field w 4 6 = 0 then some (.f2h (field w 22 4) (field w 16 6) (field w 10 6)) else none
  | 8 => if field w 4 6 = 0 then some (.h2f (field w 22 4) (field w 16 6) (field w 10 6)) else none
  | 9 => some (.f2n (field w 22 4) (field w 16 6) (field w 10 6) (field w 4 6))
  | 10 => some (.n2f (field w 22 4) (field w 16 6) (field w 10 6) (field w 4 6))
  | _ => none

/-- Major 0x16 (R150, R151). -/
def decMx (w : Word) : Option Instr :=
  match (field w 0 4).toNat with
  | 0 => if field w 4 6 = 0 then some (.mxscale (field w 22 4) (field w 16 6) (field w 10 6)) else none
  | 1 => some (.mxq (field w 22 4) (field w 16 6) (field w 10 6) (field w 4 6))
  | 2 => some (.mxdq (field w 22 4) (field w 16 6) (field w 10 6) (field w 4 6))
  | 3 => some (.mxpack (field w 22 4) (field w 16 6) (field w 10 6) (field w 4 6))
  | 4 => some (.mxunp (field w 22 4) (field w 16 6) (field w 10 6) (field w 4 6))
  | _ => none

/-- Major 0x17 (R150, R151). -/
def decXlane (w : Word) : Option Instr :=
  match (field w 0 4).toNat with
  | 0 => some (.shfl (field w 22 4) (field w 16 6) (field w 10 6) (field w 4 6))
  | 1 => some (.shfup (field w 22 4) (field w 16 6) (field w 10 6) (field w 4 6))
  | 2 => some (.shfdn (field w 22 4) (field w 16 6) (field w 10 6) (field w 4 6))
  | 3 => some (.shfxor (field w 22 4) (field w 16 6) (field w 10 6) (field w 4 6))
  | 4 => some (.bcast (field w 22 4) (field w 16 6) (field w 10 6) (field w 4 6))
  | 5 => some (.redlog (field w 22 4) (field w 16 6) (field w 10 6) (field w 4 6))
  | 6 => some (.scan (field w 22 4) (field w 16 6) (field w 10 6) (field w 4 6))
  | 7 => if field w 4 6 = 0 then some (.argmax (field w 22 4) (field w 16 6) (field w 10 6)) else none
  | 8 => some (.kth (field w 22 4) (field w 16 6) (field w 10 6) (field w 4 6))
  | 9 => if field w 4 6 = 0 then some (.ballot (field w 22 4) (field w 16 6) (field w 10 6)) else none
  | 10 => some (.permb (field w 22 4) (field w 16 6) (field w 10 6) (field w 4 6))
  | 11 => some (.vtos (field w 22 4) (field w 16 6) (field w 10 6) (field w 4 6))
  | 12 => if field w 4 6 = 0 then some (.stov (field w 22 4) (field w 16 6) (field w 10 6)) else none
  | _ => none

/-- Major 0x18 (R150, R151). -/
def decCb (w : Word) : Option Instr :=
  match (field w 0 4).toNat with
  | 0 => if field w 4 6 = 0 ∧ field w 16 6 = 0 then some (.cbld (field w 22 4) (field w 10 6)) else none
  | 1 => if field w 4 6 = 0 then some (.cbdec (field w 22 4) (field w 16 6) (field w 10 6)) else none
  | 2 => if field w 4 6 = 0 then some (.cbenc (field w 22 4) (field w 16 6) (field w 10 6)) else none
  | 3 => if field w 4 6 = 0 then some (.cbrd (field w 22 4) (field w 16 6) (field w 10 6)) else none
  | _ => none

/-- Major 0x19 (R150, R151). -/
def decLimb (w : Word) : Option Instr :=
  match (field w 0 4).toNat with
  | 0 => if field w 10 12 = 0 then some (.lbind (field w 22 4) (field w 4 6)) else none
  | 1 => if field w 4 18 = 0 then some (.lunbind (field w 22 4)) else none
  | 2 => some (.ladd (field w 22 4) (field w 16 6) (field w 10 6) (field w 4 6))
  | 3 => some (.lsub (field w 22 4) (field w 16 6) (field w 10 6) (field w 4 6))
  | 4 => some (.lshl (field w 22 4) (field w 16 6) (field w 10 6) (field w 4 6))
  | 5 => some (.lshr (field w 22 4) (field w 16 6) (field w 10 6) (field w 4 6))
  | 6 => some (.lsar (field w 22 4) (field w 16 6) (field w 10 6) (field w 4 6))
  | 7 => some (.lcmp (field w 22 4) (field w 16 6) (field w 10 6) (field w 4 6))
  | 8 => some (.lmac (field w 22 4) (field w 16 6) (field w 10 6) (field w 4 6))
  | 9 => if field w 4 12 = 0 then some (.lcarry (field w 22 4) (field w 16 6)) else none
  | 10 => if field w 4 6 = 0 then some (.lneg (field w 22 4) (field w 16 6) (field w 10 6)) else none
  | _ => none

/-- Major 0x1A (R150, R151). -/
def decSalu (w : Word) : Option Instr :=
  match (field w 0 4).toNat with
  | 0 => some (.sadd (field w 22 4) (field w 16 6) (field w 10 6) (field w 4 6))
  | 1 => some (.ssub (field w 22 4) (field w 16 6) (field w 10 6) (field w 4 6))
  | 2 => some (.smul (field w 22 4) (field w 16 6) (field w 10 6) (field w 4 6))
  | 3 => some (.smulh (field w 22 4) (field w 16 6) (field w 10 6) (field w 4 6))
  | 4 => some (.smulhu (field w 22 4) (field w 16 6) (field w 10 6) (field w 4 6))
  | 5 => some (.sand (field w 22 4) (field w 16 6) (field w 10 6) (field w 4 6))
  | 6 => some (.sor (field w 22 4) (field w 16 6) (field w 10 6) (field w 4 6))
  | 7 => some (.sxor (field w 22 4) (field w 16 6) (field w 10 6) (field w 4 6))
  | 8 => some (.sshl (field w 22 4) (field w 16 6) (field w 10 6) (field w 4 6))
  | 9 => some (.sshr (field w 22 4) (field w 16 6) (field w 10 6) (field w 4 6))
  | 10 => some (.ssar (field w 22 4) (field w 16 6) (field w 10 6) (field w 4 6))
  | 11 => some (.srot (field w 22 4) (field w 16 6) (field w 10 6) (field w 4 6))
  | 12 => some (.smin (field w 22 4) (field w 16 6) (field w 10 6) (field w 4 6))
  | 13 => some (.smax (field w 22 4) (field w 16 6) (field w 10 6) (field w 4 6))
  | 14 => some (.sminu (field w 22 4) (field w 16 6) (field w 10 6) (field w 4 6))
  | 15 => some (.smaxu (field w 22 4) (field w 16 6) (field w 10 6) (field w 4 6))
  | _ => none

/-- Major 0x1D (R150, R151). -/
def decSmisc (w : Word) : Option Instr :=
  match (field w 0 4).toNat with
  | 0 => if field w 4 6 = 0 then some (.smov (field w 22 4) (field w 16 6) (field w 10 6)) else none
  | 1 => if field w 4 6 = 0 then some (.hget (field w 22 4) (field w 16 6) (field w 10 6)) else none
  | 2 => if field w 4 6 = 0 then some (.hput (field w 22 4) (field w 16 6) (field w 10 6)) else none
  | 3 => if field w 4 12 = 0 then some (.hnull (field w 22 4) (field w 16 6)) else none
  | _ => none

/-- Major 0x26 (R150, R151). -/
def decRedeem (w : Word) : Option Instr :=
  match (field w 0 4).toNat with
  | 0 => some (.rdm (field w 22 4) (field w 16 6) (field w 10 6) (field w 4 6))
  | 1 => if field w 4 6 = 0 then some (.rdmb (field w 22 4) (field w 16 6) (field w 10 6)) else none
  | 2 => if field w 4 6 = 0 ∧ field w 16 6 = 0 then some (.trel (field w 22 4) (field w 10 6)) else none
  | 3 => if field w 4 6 = 0 ∧ field w 16 6 = 0 then some (.trelb (field w 22 4) (field w 10 6)) else none
  | 4 => if field w 4 6 = 0 ∧ field w 16 6 = 0 then some (.ttest (field w 22 4) (field w 10 6)) else none
  | 5 => if field w 4 6 = 0 ∧ field w 16 6 = 0 then some (.ttestb (field w 22 4) (field w 10 6)) else none
  | _ => none

/-- Major 0x29 (R150, R151). -/
def decMso (w : Word) : Option Instr :=
  match (field w 2 3).toNat with
  | 0 => if field w 0 2 = 0 ∧ field w 5 5 = 31 then some (.msoCas2 (field w 22 4) (field w 16 6) (field w 10 6)) else none
  | 1 => if field w 0 2 = 0 ∧ field w 5 5 = 31 then some (.msoCas4 (field w 22 4) (field w 16 6) (field w 10 6)) else none
  | 2 => if field w 0 2 = 0 ∧ field w 5 5 = 31 then some (.msoEnq (field w 22 4) (field w 16 6) (field w 10 6)) else none
  | 3 => if field w 0 2 = 0 ∧ field w 5 5 = 31 then some (.msoChase (field w 22 4) (field w 16 6) (field w 10 6)) else none
  | 4 => if field w 0 2 = 0 ∧ field w 5 5 = 31 ∧ field w 16 6 = 60 then some (.msoRowput (field w 22 4) (field w 10 6)) else none
  | _ => none

/-- Major 0x2B (R150, R151). -/
def decSync (w : Word) : Option Instr :=
  match (field w 0 4).toNat with
  | 0 => if field w 4 18 = 0 then some (.fence (field w 22 4)) else none
  | 1 => some (.watch (field w 22 4) (field w 16 6) (field w 10 6) (field w 9 1) (field w 4 5))
  | _ => none

/-- Major 0x2C (R150, R151). -/
def decEng (w : Word) : Option Instr :=
  match (field w 0 4).toNat with
  | 0 => if field w 4 6 = 0 then some (.cpy (field w 22 4) (field w 16 6) (field w 10 6)) else none
  | 1 => if field w 4 6 = 0 then some (.cpys (field w 22 4) (field w 16 6) (field w 10 6)) else none
  | 2 => if field w 4 6 = 0 then some (.cpyg (field w 22 4) (field w 16 6) (field w 10 6)) else none
  | 3 => if field w 4 6 = 0 then some (.cpyr (field w 22 4) (field w 16 6) (field w 10 6)) else none
  | 4 => if field w 4 6 = 0 then some (.wait (field w 22 4) (field w 16 6) (field w 10 6)) else none
  | 5 => if field w 4 6 = 0 ∧ field w 16 6 = 0 then some (.test (field w 22 4) (field w 10 6)) else none
  | 6 => if field w 4 6 = 0 ∧ field w 16 6 = 0 then some (.cancel (field w 22 4) (field w 10 6)) else none
  | _ => none

/-- Major 0x2D (R150, R151). -/
def decSpec (w : Word) : Option Instr :=
  match (field w 0 4).toNat with
  | 0 => if field w 4 6 = 0 then some (.spopen (field w 22 4) (field w 16 6) (field w 10 6)) else none
  | 1 => some (.stx (field w 22 4) (field w 16 6) (field w 10 6) (field w 4 6))
  | 2 => some (.spacc (field w 22 4) (field w 16 6) (field w 10 6) (field w 4 6))
  | 3 => if field w 4 6 = 0 then some (.spdrop (field w 22 4) (field w 16 6) (field w 10 6)) else none
  | 4 => if field w 4 6 = 0 ∧ field w 16 6 = 0 then some (.spbind (field w 22 4) (field w 10 6)) else none
  | _ => none

/-- Major 0x2E (R150, R151). -/
def decRng (w : Word) : Option Instr :=
  match (field w 0 4).toNat with
  | 0 => if field w 4 6 = 0 then some (.rngu (field w 22 4) (field w 16 6) (field w 10 6)) else none
  | 1 => if field w 4 6 = 0 ∧ field w 16 6 = 0 then some (.rngkey (field w 22 4) (field w 10 6)) else none
  | 2 => if field w 4 6 = 0 ∧ field w 16 6 = 0 then some (.rngstrm (field w 22 4) (field w 10 6)) else none
  | 3 => if field w 4 6 = 0 then some (.unif (field w 22 4) (field w 16 6) (field w 10 6)) else none
  | 4 => if field w 4 6 = 0 then some (.gumb (field w 22 4) (field w 16 6) (field w 10 6)) else none
  | _ => none

/-- Major 0x3F (R150, R151). -/
def decHint (w : Word) : Option Instr :=
  match (field w 22 4).toNat with
  | 0 => some (.imm (field w 0 22))
  | 1 => if field w 0 4 = 0 then some (.live (field w 20 2) (field w 4 16)) else none
  | 2 => if field w 0 8 = 0 then some (.mod (field w 19 3) (field w 17 2) (field w 15 2) (field w 14 1) (field w 8 6)) else none
  | 3 => if field w 18 4 = 0 then some (.last (field w 12 6) (field w 6 6) (field w 0 6)) else none
  | _ => none

/-- Major 0x39 (R150, R151). -/
def decMacc (w : Word) : Option Instr :=
  match (field w 22 4).toNat with
  | 0 => if field w 0 12 = 0 then some (.mzero (field w 12 10)) else none
  | 1 => if field w 0 9 = 0 then some (.mlda (field w 12 10) (field w 9 3)) else none
  | 2 => if field w 0 8 = 0 then some (.msta (field w 12 10) (field w 9 3) (field w 8 1)) else none
  | _ => none

/-- Major 0x3A (R150, R151). -/
def decMbar (w : Word) : Option Instr :=
  match (field w 22 4).toNat with
  | 0 => if field w 16 2 = 0 then some (.msig (field w 18 4) (field w 0 16)) else none
  | 1 => if field w 16 2 = 0 then some (.msync (field w 18 4) (field w 0 16)) else none
  | _ => none

/-- Major 0x3B (R150, R151). -/
def decMset (w : Word) : Option Instr :=
  match (field w 20 2).toNat with
  | 0 => some (.mset (field w 22 4) (field w 0 20))
  | 1 => some (.msetAdd (field w 22 4) (field w 0 20))
  | 2 => some (.msetSet (field w 22 4) (field w 0 20))
  | 3 => if field w 22 4 = 0 then some (.msetCb (field w 0 20)) else none
  | _ => none

/-- Major 0x3C (R150, R151). -/
def decMloop (w : Word) : Option Instr :=
  match (field w 22 4).toNat with
  | 0 => if field w 20 2 = 0 then some (.mloop (field w 0 20)) else none
  | 1 => if field w 0 22 = 0 then some (.mnext) else none
  | _ => none

/-- The instruction a word encodes. -/
def decodeWord (w : Word) : Option Instr :=
  match (field w 26 6).toNat with
  | 0x0 => decSys w
  | 0x1 => some (.br (field w 22 4) (field w 0 22))
  | 0x2 => some (.call (field w 22 4) (field w 0 22))
  | 0x3 => decCtl w
  | 0x4 => decBarr w
  | 0x5 => decGrid w
  | 0x6 => decCmp w
  | 0x7 => some (.cmpi (field w 22 4) (field w 16 6) (field w 10 6) (field w 0 10))
  | 0x8 => some (.fcmp (field w 22 4) (field w 16 6) (field w 10 6) (field w 4 6) (field w 0 4))
  | 0x9 => decPred w
  | 0xa => decInt w
  | 0xb => some (.addi (field w 22 4) (field w 16 6) (field w 10 6) (field w 0 10))
  | 0xc => some (.andi (field w 22 4) (field w 16 6) (field w 10 6) (field w 0 10))
  | 0xd => some (.ori (field w 22 4) (field w 16 6) (field w 10 6) (field w 0 10))
  | 0xe => some (.xori (field w 22 4) (field w 16 6) (field w 10 6) (field w 0 10))
  | 0xf => if field w 5 3 = 0 then some (.shi (field w 22 4) (field w 16 6) (field w 10 6) (field w 8 2) (field w 0 5)) else none
  | 0x10 => if field w 10 6 = 0 then some (.movi (field w 22 4) (field w 16 6) (field w 0 10)) else none
  | 0x11 => if field w 10 6 = 0 then some (.movhi (field w 22 4) (field w 16 6) (field w 0 10)) else none
  | 0x12 => decIntx w
  | 0x13 => decFp w
  | 0x14 => decHfp w
  | 0x15 => decCvt w
  | 0x16 => decMx w
  | 0x17 => decXlane w
  | 0x18 => decCb w
  | 0x19 => decLimb w
  | 0x1a => decSalu w
  | 0x1b => some (.saddi (field w 22 4) (field w 16 6) (field w 10 6) (field w 0 10))
  | 0x1c => if field w 10 6 = 0 then some (.smovi (field w 22 4) (field w 16 6) (field w 0 10)) else none
  | 0x1d => decSmisc w
  | 0x1e => if field w 16 6 = 0 then some (.scmp (field w 22 4) (field w 10 6) (field w 4 6) (field w 0 4)) else none
  | 0x20 => some (.ld (field w 22 4) (field w 16 6) (field w 10 6) (field w 5 5) (field w 2 3) (field w 0 2))
  | 0x21 => some (.st (field w 22 4) (field w 16 6) (field w 10 6) (field w 5 5) (field w 2 3) (field w 0 2))
  | 0x22 => if field w 0 2 = 0 then some (.atom (field w 22 4) (field w 16 6) (field w 10 6) (field w 5 5) (field w 2 3)) else none
  | 0x23 => some (.ldt (field w 22 4) (field w 16 6) (field w 10 6) (field w 5 5) (field w 2 3) (field w 0 2))
  | 0x24 => if field w 2 3 = 0 then some (.ldtb (field w 22 4) (field w 16 6) (field w 10 6) (field w 5 5) (field w 0 2)) else none
  | 0x25 => if field w 0 2 = 0 then some (.att (field w 22 4) (field w 16 6) (field w 10 6) (field w 5 5) (field w 2 3)) else none
  | 0x26 => decRedeem w
  | 0x27 => if field w 0 2 = 0 then some (.stp (field w 22 4) (field w 16 6) (field w 10 6) (field w 5 5) (field w 2 3)) else none
  | 0x28 => if field w 0 2 = 0 then some (.atp (field w 22 4) (field w 16 6) (field w 10 6) (field w 5 5) (field w 2 3)) else none
  | 0x29 => decMso w
  | 0x2a => if field w 0 5 = 0 then some (.egath (field w 22 4) (field w 16 6) (field w 10 6) (field w 5 5)) else none
  | 0x2b => decSync w
  | 0x2c => decEng w
  | 0x2d => decSpec w
  | 0x2e => decRng w
  | 0x2f => some (.sld (field w 22 4) (field w 16 6) (field w 10 6) (field w 5 5) (field w 2 3) (field w 0 2))
  | 0x30 => some (.sst (field w 22 4) (field w 16 6) (field w 10 6) (field w 5 5) (field w 2 3) (field w 0 2))
  | 0x31 => if field w 0 10 = 0 ∧ field w 16 6 = 0 then some (.mput (field w 22 4) (field w 10 6)) else none
  | 0x32 => if field w 0 10 = 0 then some (.mget (field w 22 4) (field w 16 6) (field w 10 6)) else none
  | 0x3f => decHint w
  | 0x3e => some (.runHeader (field w 21 5) (field w 20 1) (field w 8 12) (field w 4 4) (field w 0 4))
  | 0x38 => if field w 0 2 = 0 then some (.mma (field w 16 10) (field w 12 4) (field w 8 4) (field w 7 1) (field w 4 3) (field w 3 1) (field w 2 1)) else none
  | 0x39 => decMacc w
  | 0x3a => decMbar w
  | 0x3b => decMset w
  | 0x3c => decMloop w
  | 0x3d => if field w 0 26 = 0 then some (.mend) else none
  | _ => none

/-- A word from its four bytes in memory order (R132). -/
def wordOfBytes (b0 b1 b2 b3 : Byte) : Word := b3 ++ b2 ++ b1 ++ b0

/-- Decode the instruction at the head of a byte list; the rest of the list follows. -/
def decodeBytes : List Byte → Option (Instr × List Byte)
  | b0 :: b1 :: b2 :: b3 :: rest =>
    match decodeWord (wordOfBytes b0 b1 b2 b3) with
    | some i => some (i, rest)
    | none => none
  | _ => none

/-- The bytes of a word in memory order (R132). -/
def bytesOfWord (w : Word) : List Byte := [field w 0 8, field w 8 8, field w 16 8, field w 24 8]

/-- The instruction read from the bits of an opcode-table row. Every row with an encoding has one 32-bit word. -/
def decodeTableWord (nbits w : Nat) : Option Instr :=
  (decodeBytes (bytesOfWord (BitVec.ofNat 32 (w % 2 ^ nbits)))).map Prod.fst

/-- The word of an instruction; an event has none. -/
def encode : Instr → Option Word
  | .nop g => some (0x0#6 ++ g ++ 0x0#22)
  | .yield g => some (0x0#6 ++ g ++ 0x1#22)
  | .trap g k => some (0x0#6 ++ g ++ k ++ 0x2#16)
  | .tretRetry g => some (0x0#6 ++ g ++ 0x3#22)
  | .tretSkip g => some (0x0#6 ++ g ++ 0x10003#22)
  | .mfs g d a b => some (0x0#6 ++ g ++ d ++ a ++ b ++ 0x4#4)
  | .mts g d a b => some (0x0#6 ++ g ++ d ++ a ++ b ++ 0x5#4)
  | .tbr g a b => some (0x0#6 ++ g ++ 0x0#6 ++ a ++ b ++ 0x6#4)
  | .halt g => some (0x0#6 ++ g ++ 0x7#22)
  | .br g o => some (0x1#6 ++ g ++ o)
  | .call g o => some (0x2#6 ++ g ++ o)
  | .ret g a => some (0x3#6 ++ g ++ 0x0#6 ++ a ++ 0x0#10)
  | .callr g a => some (0x3#6 ++ g ++ 0x0#6 ++ a ++ 0x1#10)
  | .brr g a => some (0x3#6 ++ g ++ 0x0#6 ++ a ++ 0x2#10)
  | .enter g n => some (0x3#6 ++ g ++ 0x0#12 ++ n ++ 0x3#4)
  | .leave g n => some (0x3#6 ++ g ++ 0x0#12 ++ n ++ 0x4#4)
  | .fork g d a => some (0x3#6 ++ g ++ d ++ a ++ 0x5#10)
  | .fend g => some (0x3#6 ++ g ++ 0x6#22)
  | .exit g => some (0x3#6 ++ g ++ 0x7#22)
  | .bar g a b => some (0x4#6 ++ g ++ 0x0#6 ++ a ++ b ++ 0x0#4)
  | .barw g d a b => some (0x4#6 ++ g ++ d ++ a ++ b ++ 0x1#4)
  | .rejoin g a => some (0x4#6 ++ g ++ 0x0#6 ++ a ++ 0x2#10)
  | .rejoinw g a b => some (0x4#6 ++ g ++ 0x0#6 ++ a ++ b ++ 0x3#4)
  | .arrive g d a b => some (0x4#6 ++ g ++ d ++ a ++ b ++ 0x4#4)
  | .barq g a b => some (0x4#6 ++ g ++ 0x0#6 ++ a ++ b ++ 0x5#4)
  | .launch g a => some (0x5#6 ++ g ++ 0x0#6 ++ a ++ 0x0#10)
  | .gridwait g d a => some (0x5#6 ++ g ++ d ++ a ++ 0x1#10)
  | .gridq g d a => some (0x5#6 ++ g ++ d ++ a ++ 0x2#10)
  | .cmp g a b c => some (0x6#6 ++ g ++ 0x0#6 ++ a ++ b ++ c)
  | .cmpD g a b c => some (0x6#6 ++ g ++ 0x1#6 ++ a ++ b ++ c)
  | .cmpi g c a i => some (0x7#6 ++ g ++ c ++ a ++ i)
  | .fcmp g f a b c => some (0x8#6 ++ g ++ f ++ a ++ b ++ c)
  | .ppop g n => some (0x9#6 ++ g ++ 0x0#12 ++ n ++ 0x0#4)
  | .pdup g a => some (0x9#6 ++ g ++ 0x0#6 ++ a ++ 0x1#10)
  | .pand g a b => some (0x9#6 ++ g ++ 0x0#6 ++ a ++ b ++ 0x2#4)
  | .por g a b => some (0x9#6 ++ g ++ 0x0#6 ++ a ++ b ++ 0x3#4)
  | .pxor g a b => some (0x9#6 ++ g ++ 0x0#6 ++ a ++ b ++ 0x4#4)
  | .pnot g a => some (0x9#6 ++ g ++ 0x0#6 ++ a ++ 0x5#10)
  | .pany g a => some (0x9#6 ++ g ++ 0x0#6 ++ a ++ 0x6#10)
  | .pall g a => some (0x9#6 ++ g ++ 0x0#6 ++ a ++ 0x7#10)
  | .pcnt g d a => some (0x9#6 ++ g ++ d ++ a ++ 0x8#10)
  | .pget g d => some (0x9#6 ++ g ++ d ++ 0x9#16)
  | .pset g a => some (0x9#6 ++ g ++ 0x0#6 ++ a ++ 0xa#10)
  | .pfirst g d a => some (0x9#6 ++ g ++ d ++ a ++ 0xb#10)
  | .pswap g a b => some (0x9#6 ++ g ++ 0x0#6 ++ a ++ b ++ 0xc#4)
  | .add g d a b => some (0xa#6 ++ g ++ d ++ a ++ b ++ 0x0#4)
  | .sub g d a b => some (0xa#6 ++ g ++ d ++ a ++ b ++ 0x1#4)
  | .mul g d a b => some (0xa#6 ++ g ++ d ++ a ++ b ++ 0x2#4)
  | .mulh g d a b => some (0xa#6 ++ g ++ d ++ a ++ b ++ 0x3#4)
  | .mulhu g d a b => some (0xa#6 ++ g ++ d ++ a ++ b ++ 0x4#4)
  | .and g d a b => some (0xa#6 ++ g ++ d ++ a ++ b ++ 0x5#4)
  | .or g d a b => some (0xa#6 ++ g ++ d ++ a ++ b ++ 0x6#4)
  | .xor g d a b => some (0xa#6 ++ g ++ d ++ a ++ b ++ 0x7#4)
  | .shl g d a b => some (0xa#6 ++ g ++ d ++ a ++ b ++ 0x8#4)
  | .shr g d a b => some (0xa#6 ++ g ++ d ++ a ++ b ++ 0x9#4)
  | .sar g d a b => some (0xa#6 ++ g ++ d ++ a ++ b ++ 0xa#4)
  | .rot g d a b => some (0xa#6 ++ g ++ d ++ a ++ b ++ 0xb#4)
  | .min g d a b => some (0xa#6 ++ g ++ d ++ a ++ b ++ 0xc#4)
  | .max g d a b => some (0xa#6 ++ g ++ d ++ a ++ b ++ 0xd#4)
  | .minu g d a b => some (0xa#6 ++ g ++ d ++ a ++ b ++ 0xe#4)
  | .maxu g d a b => some (0xa#6 ++ g ++ d ++ a ++ b ++ 0xf#4)
  | .addi g d a i => some (0xb#6 ++ g ++ d ++ a ++ i)
  | .andi g d a i => some (0xc#6 ++ g ++ d ++ a ++ i)
  | .ori g d a i => some (0xd#6 ++ g ++ d ++ a ++ i)
  | .xori g d a i => some (0xe#6 ++ g ++ d ++ a ++ i)
  | .shi g d a o c => some (0xf#6 ++ g ++ d ++ a ++ o ++ 0x0#3 ++ c)
  | .movi g d i => some (0x10#6 ++ g ++ d ++ 0x0#6 ++ i)
  | .movhi g d i => some (0x11#6 ++ g ++ d ++ 0x0#6 ++ i)
  | .mad g d a b => some (0x12#6 ++ g ++ d ++ a ++ b ++ 0x0#4)
  | .madh g d a b => some (0x12#6 ++ g ++ d ++ a ++ b ++ 0x1#4)
  | .abs g d a => some (0x12#6 ++ g ++ d ++ a ++ 0x2#10)
  | .neg g d a => some (0x12#6 ++ g ++ d ++ a ++ 0x3#10)
  | .clz g d a => some (0x12#6 ++ g ++ d ++ a ++ 0x4#10)
  | .popc g d a => some (0x12#6 ++ g ++ d ++ a ++ 0x5#10)
  | .brev g d a => some (0x12#6 ++ g ++ d ++ a ++ 0x6#10)
  | .bfe g d a b => some (0x12#6 ++ g ++ d ++ a ++ b ++ 0x7#4)
  | .bfi g d a b => some (0x12#6 ++ g ++ d ++ a ++ b ++ 0x8#4)
  | .sel g d a b => some (0x12#6 ++ g ++ d ++ a ++ b ++ 0x9#4)
  | .mov g d a => some (0x12#6 ++ g ++ d ++ a ++ 0xa#10)
  | .addc g d a b => some (0x12#6 ++ g ++ d ++ a ++ b ++ 0xb#4)
  | .subb g d a b => some (0x12#6 ++ g ++ d ++ a ++ b ++ 0xc#4)
  | .divu g d a b => some (0x12#6 ++ g ++ d ++ a ++ b ++ 0xd#4)
  | .divs g d a b => some (0x12#6 ++ g ++ d ++ a ++ b ++ 0xe#4)
  | .rem g d a b => some (0x12#6 ++ g ++ d ++ a ++ b ++ 0xf#4)
  | .fadd g d a b => some (0x13#6 ++ g ++ d ++ a ++ b ++ 0x0#4)
  | .fsub g d a b => some (0x13#6 ++ g ++ d ++ a ++ b ++ 0x1#4)
  | .fmul g d a b => some (0x13#6 ++ g ++ d ++ a ++ b ++ 0x2#4)
  | .ffma g d a b => some (0x13#6 ++ g ++ d ++ a ++ b ++ 0x3#4)
  | .fmin g d a b => some (0x13#6 ++ g ++ d ++ a ++ b ++ 0x4#4)
  | .fmax g d a b => some (0x13#6 ++ g ++ d ++ a ++ b ++ 0x5#4)
  | .fabs g d a => some (0x13#6 ++ g ++ d ++ a ++ 0x6#10)
  | .fneg g d a => some (0x13#6 ++ g ++ d ++ a ++ 0x7#10)
  | .frcp g d a => some (0x13#6 ++ g ++ d ++ a ++ 0x8#10)
  | .fsqrt g d a => some (0x13#6 ++ g ++ d ++ a ++ 0x9#10)
  | .frsq g d a => some (0x13#6 ++ g ++ d ++ a ++ 0xa#10)
  | .fexp2 g d a => some (0x13#6 ++ g ++ d ++ a ++ 0xb#10)
  | .flog2 g d a => some (0x13#6 ++ g ++ d ++ a ++ 0xc#10)
  | .ftanh g d a => some (0x13#6 ++ g ++ d ++ a ++ 0xd#10)
  | .fdiv g d a b => some (0x13#6 ++ g ++ d ++ a ++ b ++ 0xe#4)
  | .fcls g d a => some (0x13#6 ++ g ++ d ++ a ++ 0xf#10)
  | .haddBf16 g d a b => some (0x14#6 ++ g ++ d ++ a ++ b ++ 0x0#4)
  | .hsubBf16 g d a b => some (0x14#6 ++ g ++ d ++ a ++ b ++ 0x1#4)
  | .hmulBf16 g d a b => some (0x14#6 ++ g ++ d ++ a ++ b ++ 0x2#4)
  | .hfmaBf16 g d a b => some (0x14#6 ++ g ++ d ++ a ++ b ++ 0x3#4)
  | .hminBf16 g d a b => some (0x14#6 ++ g ++ d ++ a ++ b ++ 0x4#4)
  | .hmaxBf16 g d a b => some (0x14#6 ++ g ++ d ++ a ++ b ++ 0x5#4)
  | .hdot2Bf16 g d a b => some (0x14#6 ++ g ++ d ++ a ++ b ++ 0x6#4)
  | .haddFp16 g d a b => some (0x14#6 ++ g ++ d ++ a ++ b ++ 0x8#4)
  | .hsubFp16 g d a b => some (0x14#6 ++ g ++ d ++ a ++ b ++ 0x9#4)
  | .hmulFp16 g d a b => some (0x14#6 ++ g ++ d ++ a ++ b ++ 0xa#4)
  | .hfmaFp16 g d a b => some (0x14#6 ++ g ++ d ++ a ++ b ++ 0xb#4)
  | .hminFp16 g d a b => some (0x14#6 ++ g ++ d ++ a ++ b ++ 0xc#4)
  | .hmaxFp16 g d a b => some (0x14#6 ++ g ++ d ++ a ++ b ++ 0xd#4)
  | .hdot2Fp16 g d a b => some (0x14#6 ++ g ++ d ++ a ++ b ++ 0xe#4)
  | .i2f g d a b => some (0x15#6 ++ g ++ d ++ a ++ b ++ 0x0#4)
  | .u2f g d a b => some (0x15#6 ++ g ++ d ++ a ++ b ++ 0x1#4)
  | .f2i g d a b => some (0x15#6 ++ g ++ d ++ a ++ b ++ 0x2#4)
  | .f2iz g d a b => some (0x15#6 ++ g ++ d ++ a ++ b ++ 0x3#4)
  | .f2u g d a b => some (0x15#6 ++ g ++ d ++ a ++ b ++ 0x4#4)
  | .f2bf g d a => some (0x15#6 ++ g ++ d ++ a ++ 0x5#10)
  | .bf2f g d a => some (0x15#6 ++ g ++ d ++ a ++ 0x6#10)
  | .f2h g d a => some (0x15#6 ++ g ++ d ++ a ++ 0x7#10)
  | .h2f g d a => some (0x15#6 ++ g ++ d ++ a ++ 0x8#10)
  | .f2n g d a b => some (0x15#6 ++ g ++ d ++ a ++ b ++ 0x9#4)
  | .n2f g d a b => some (0x15#6 ++ g ++ d ++ a ++ b ++ 0xa#4)
  | .mxscale g d a => some (0x16#6 ++ g ++ d ++ a ++ 0x0#10)
  | .mxq g d a b => some (0x16#6 ++ g ++ d ++ a ++ b ++ 0x1#4)
  | .mxdq g d a b => some (0x16#6 ++ g ++ d ++ a ++ b ++ 0x2#4)
  | .mxpack g d a b => some (0x16#6 ++ g ++ d ++ a ++ b ++ 0x3#4)
  | .mxunp g d a b => some (0x16#6 ++ g ++ d ++ a ++ b ++ 0x4#4)
  | .shfl g d a b => some (0x17#6 ++ g ++ d ++ a ++ b ++ 0x0#4)
  | .shfup g d a b => some (0x17#6 ++ g ++ d ++ a ++ b ++ 0x1#4)
  | .shfdn g d a b => some (0x17#6 ++ g ++ d ++ a ++ b ++ 0x2#4)
  | .shfxor g d a b => some (0x17#6 ++ g ++ d ++ a ++ b ++ 0x3#4)
  | .bcast g d a b => some (0x17#6 ++ g ++ d ++ a ++ b ++ 0x4#4)
  | .redlog g d a b => some (0x17#6 ++ g ++ d ++ a ++ b ++ 0x5#4)
  | .scan g d a b => some (0x17#6 ++ g ++ d ++ a ++ b ++ 0x6#4)
  | .argmax g d a => some (0x17#6 ++ g ++ d ++ a ++ 0x7#10)
  | .kth g d a b => some (0x17#6 ++ g ++ d ++ a ++ b ++ 0x8#4)
  | .ballot g d a => some (0x17#6 ++ g ++ d ++ a ++ 0x9#10)
  | .permb g d a b => some (0x17#6 ++ g ++ d ++ a ++ b ++ 0xa#4)
  | .vtos g d a b => some (0x17#6 ++ g ++ d ++ a ++ b ++ 0xb#4)
  | .stov g d a => some (0x17#6 ++ g ++ d ++ a ++ 0xc#10)
  | .cbld g a => some (0x18#6 ++ g ++ 0x0#6 ++ a ++ 0x0#10)
  | .cbdec g d a => some (0x18#6 ++ g ++ d ++ a ++ 0x1#10)
  | .cbenc g d a => some (0x18#6 ++ g ++ d ++ a ++ 0x2#10)
  | .cbrd g d a => some (0x18#6 ++ g ++ d ++ a ++ 0x3#10)
  | .lbind g n => some (0x19#6 ++ g ++ 0x0#12 ++ n ++ 0x0#4)
  | .lunbind g => some (0x19#6 ++ g ++ 0x1#22)
  | .ladd g d a b => some (0x19#6 ++ g ++ d ++ a ++ b ++ 0x2#4)
  | .lsub g d a b => some (0x19#6 ++ g ++ d ++ a ++ b ++ 0x3#4)
  | .lshl g d a b => some (0x19#6 ++ g ++ d ++ a ++ b ++ 0x4#4)
  | .lshr g d a b => some (0x19#6 ++ g ++ d ++ a ++ b ++ 0x5#4)
  | .lsar g d a b => some (0x19#6 ++ g ++ d ++ a ++ b ++ 0x6#4)
  | .lcmp g c a b => some (0x19#6 ++ g ++ c ++ a ++ b ++ 0x7#4)
  | .lmac g d a b => some (0x19#6 ++ g ++ d ++ a ++ b ++ 0x8#4)
  | .lcarry g d => some (0x19#6 ++ g ++ d ++ 0x9#16)
  | .lneg g d a => some (0x19#6 ++ g ++ d ++ a ++ 0xa#10)
  | .sadd g d a b => some (0x1a#6 ++ g ++ d ++ a ++ b ++ 0x0#4)
  | .ssub g d a b => some (0x1a#6 ++ g ++ d ++ a ++ b ++ 0x1#4)
  | .smul g d a b => some (0x1a#6 ++ g ++ d ++ a ++ b ++ 0x2#4)
  | .smulh g d a b => some (0x1a#6 ++ g ++ d ++ a ++ b ++ 0x3#4)
  | .smulhu g d a b => some (0x1a#6 ++ g ++ d ++ a ++ b ++ 0x4#4)
  | .sand g d a b => some (0x1a#6 ++ g ++ d ++ a ++ b ++ 0x5#4)
  | .sor g d a b => some (0x1a#6 ++ g ++ d ++ a ++ b ++ 0x6#4)
  | .sxor g d a b => some (0x1a#6 ++ g ++ d ++ a ++ b ++ 0x7#4)
  | .sshl g d a b => some (0x1a#6 ++ g ++ d ++ a ++ b ++ 0x8#4)
  | .sshr g d a b => some (0x1a#6 ++ g ++ d ++ a ++ b ++ 0x9#4)
  | .ssar g d a b => some (0x1a#6 ++ g ++ d ++ a ++ b ++ 0xa#4)
  | .srot g d a b => some (0x1a#6 ++ g ++ d ++ a ++ b ++ 0xb#4)
  | .smin g d a b => some (0x1a#6 ++ g ++ d ++ a ++ b ++ 0xc#4)
  | .smax g d a b => some (0x1a#6 ++ g ++ d ++ a ++ b ++ 0xd#4)
  | .sminu g d a b => some (0x1a#6 ++ g ++ d ++ a ++ b ++ 0xe#4)
  | .smaxu g d a b => some (0x1a#6 ++ g ++ d ++ a ++ b ++ 0xf#4)
  | .saddi g d a i => some (0x1b#6 ++ g ++ d ++ a ++ i)
  | .smovi g d i => some (0x1c#6 ++ g ++ d ++ 0x0#6 ++ i)
  | .smov g d a => some (0x1d#6 ++ g ++ d ++ a ++ 0x0#10)
  | .hget g d a => some (0x1d#6 ++ g ++ d ++ a ++ 0x1#10)
  | .hput g d a => some (0x1d#6 ++ g ++ d ++ a ++ 0x2#10)
  | .hnull g d => some (0x1d#6 ++ g ++ d ++ 0x3#16)
  | .scmp g a b c => some (0x1e#6 ++ g ++ 0x0#6 ++ a ++ b ++ c)
  | .ld g d a s w o => some (0x20#6 ++ g ++ d ++ a ++ s ++ w ++ o)
  | .st g d a s w o => some (0x21#6 ++ g ++ d ++ a ++ s ++ w ++ o)
  | .atom g d a s w => some (0x22#6 ++ g ++ d ++ a ++ s ++ w ++ 0x0#2)
  | .ldt g d a s w o => some (0x23#6 ++ g ++ d ++ a ++ s ++ w ++ o)
  | .ldtb g d a s o => some (0x24#6 ++ g ++ d ++ a ++ s ++ 0x0#3 ++ o)
  | .att g d a s w => some (0x25#6 ++ g ++ d ++ a ++ s ++ w ++ 0x0#2)
  | .rdm g d a b => some (0x26#6 ++ g ++ d ++ a ++ b ++ 0x0#4)
  | .rdmb g d a => some (0x26#6 ++ g ++ d ++ a ++ 0x1#10)
  | .trel g a => some (0x26#6 ++ g ++ 0x0#6 ++ a ++ 0x2#10)
  | .trelb g a => some (0x26#6 ++ g ++ 0x0#6 ++ a ++ 0x3#10)
  | .ttest g a => some (0x26#6 ++ g ++ 0x0#6 ++ a ++ 0x4#10)
  | .ttestb g a => some (0x26#6 ++ g ++ 0x0#6 ++ a ++ 0x5#10)
  | .stp g d a s w => some (0x27#6 ++ g ++ d ++ a ++ s ++ w ++ 0x0#2)
  | .atp g d a s w => some (0x28#6 ++ g ++ d ++ a ++ s ++ w ++ 0x0#2)
  | .msoCas2 g d a => some (0x29#6 ++ g ++ d ++ a ++ 0x3e0#10)
  | .msoCas4 g d a => some (0x29#6 ++ g ++ d ++ a ++ 0x3e4#10)
  | .msoEnq g d a => some (0x29#6 ++ g ++ d ++ a ++ 0x3e8#10)
  | .msoChase g d a => some (0x29#6 ++ g ++ d ++ a ++ 0x3ec#10)
  | .msoRowput g a => some (0x29#6 ++ g ++ 0x3c#6 ++ a ++ 0x3f0#10)
  | .egath g d a s => some (0x2a#6 ++ g ++ d ++ a ++ s ++ 0x0#5)
  | .fence g => some (0x2b#6 ++ g ++ 0x0#22)
  | .watch g d a o b => some (0x2b#6 ++ g ++ d ++ a ++ o ++ b ++ 0x1#4)
  | .cpy g d a => some (0x2c#6 ++ g ++ d ++ a ++ 0x0#10)
  | .cpys g d a => some (0x2c#6 ++ g ++ d ++ a ++ 0x1#10)
  | .cpyg g d a => some (0x2c#6 ++ g ++ d ++ a ++ 0x2#10)
  | .cpyr g d a => some (0x2c#6 ++ g ++ d ++ a ++ 0x3#10)
  | .wait g d a => some (0x2c#6 ++ g ++ d ++ a ++ 0x4#10)
  | .test g a => some (0x2c#6 ++ g ++ 0x0#6 ++ a ++ 0x5#10)
  | .cancel g a => some (0x2c#6 ++ g ++ 0x0#6 ++ a ++ 0x6#10)
  | .spopen g d a => some (0x2d#6 ++ g ++ d ++ a ++ 0x0#10)
  | .stx g d a b => some (0x2d#6 ++ g ++ d ++ a ++ b ++ 0x1#4)
  | .spacc g d a b => some (0x2d#6 ++ g ++ d ++ a ++ b ++ 0x2#4)
  | .spdrop g d a => some (0x2d#6 ++ g ++ d ++ a ++ 0x3#10)
  | .spbind g a => some (0x2d#6 ++ g ++ 0x0#6 ++ a ++ 0x4#10)
  | .rngu g d a => some (0x2e#6 ++ g ++ d ++ a ++ 0x0#10)
  | .rngkey g a => some (0x2e#6 ++ g ++ 0x0#6 ++ a ++ 0x1#10)
  | .rngstrm g a => some (0x2e#6 ++ g ++ 0x0#6 ++ a ++ 0x2#10)
  | .unif g d a => some (0x2e#6 ++ g ++ d ++ a ++ 0x3#10)
  | .gumb g d a => some (0x2e#6 ++ g ++ d ++ a ++ 0x4#10)
  | .sld g d a s w o => some (0x2f#6 ++ g ++ d ++ a ++ s ++ w ++ o)
  | .sst g d a s w o => some (0x30#6 ++ g ++ d ++ a ++ s ++ w ++ o)
  | .mput g a => some (0x31#6 ++ g ++ 0x0#6 ++ a ++ 0x0#10)
  | .mget g d a => some (0x32#6 ++ g ++ d ++ a ++ 0x0#10)
  | .imm p => some (0x3f#6 ++ 0x0#4 ++ p)
  | .live b m => some (0x3f#6 ++ 0x1#4 ++ b ++ m ++ 0x0#4)
  | .mod s o r t f => some (0x3f#6 ++ 0x2#4 ++ s ++ o ++ r ++ t ++ f ++ 0x0#8)
  | .last c b a => some (0x3f#6 ++ 0x30#8 ++ c ++ b ++ a)
  | .runHeader l c w a b => some (0x3e#6 ++ l ++ c ++ w ++ a ++ b)
  | .mma c a b z k t u => some (0x38#6 ++ c ++ a ++ b ++ z ++ k ++ t ++ u ++ 0x0#2)
  | .mzero c => some (0x39#6 ++ 0x0#4 ++ c ++ 0x0#12)
  | .mlda c p => some (0x39#6 ++ 0x1#4 ++ c ++ p ++ 0x0#9)
  | .msta c p s => some (0x39#6 ++ 0x2#4 ++ c ++ p ++ s ++ 0x0#8)
  | .msig b n => some (0x3a#6 ++ 0x0#4 ++ b ++ 0x0#2 ++ n)
  | .msync b n => some (0x3a#6 ++ 0x1#4 ++ b ++ 0x0#2 ++ n)
  | .mset m v => some (0x3b#6 ++ m ++ 0x0#2 ++ v)
  | .msetAdd m v => some (0x3b#6 ++ m ++ 0x1#2 ++ v)
  | .msetSet m v => some (0x3b#6 ++ m ++ 0x2#2 ++ v)
  | .msetCb v => some (0x3b#6 ++ 0x3#6 ++ v)
  | .mloop n => some (0x3c#6 ++ 0x0#6 ++ n)
  | .mnext => some (0x3c#6 ++ 0x400000#26)
  | .mend => some (0x3d#6 ++ 0x0#26)
  | .runBegin _ _ => none
  | .runCommit _ _ => none
  | .regroupingPass _ => none
  | .activeSetFill _ => none
  | .priorityAging _ => none
  | .starvationMark _ => none
  | .stallBlock _ => none
  | .yieldExpiry _ _ => none
  | .longOpComplete _ _ => none
  | .departRecord _ => none
  | .outboxHeadSend _ => none
  | .arrivalAccept _ => none
  | .arrivalAdmit _ => none
  | .stewardEvaluation _ => none
  | .stewardResume _ => none
  | .lineageCountMsg _ => none
  | .rejoinExpiry _ _ => none
  | .parkWrite _ => none
  | .teamSave _ => none
  | .postedOpApply _ => none
  | .watchTimeout _ _ => none
  | .ackReceive _ => none
  | .ticketService _ => none
  | .ticketFetchComplete _ _ _ => none
  | .ticketValueReturn _ => none
  | .claimAtHome _ => none
  | .claimAnswer _ => none
  | .claimConfirm _ => none
  | .claimCancel _ => none
  | .trelAtHome _ => none
  | .ticketDeadline _ _ => none
  | .msoApply _ => none
  | .pageIn _ _ _ => none
  | .referenceSweep _ => none
  | .hostMemRead _ _ _ => none
  | .hostMemWrite _ _ _ _ => none
  | .hostWindowResponse _ _ => none
  | .engineStart _ => none
  | .engineComplete _ => none
  | .cancelArrive _ _ => none
  | .barrierArrival _ => none
  | .barwExpiry _ => none
  | .launchValidate _ => none
  | .teamPlace => none
  | .teamRetire _ => none
  | .gridRetire _ => none
  | .frameClaim _ => none
  | .stxVersionApply _ => none
  | .framePrepare _ _ => none
  | .framePrepareAnswer _ _ => none
  | .frameStepApply _ _ => none
  | .uncorrectableDetect _ => none
  | .poisonConsume _ => none
  | .shadowLatchEvent _ => none
  | .derateWindowEnd _ => none
  | .powerLimitEnforce _ => none
  | .thermalHot _ _ _ => none
  | .hdmWindowWrite _ _ _ _ => none
  | .seedSubmit _ _ => none
  | .seedAccept _ => none
  | .invalPage _ => none
  | .invalAsid _ => none
  | .invalAll _ => none
  | .invalComplete => none
  | .funcApply _ => none
  | .evqHeadWrite _ => none
  | .evResume _ => none
  | .evDeliver _ => none
  | .evEnlarge _ => none
  | .evParkOldest _ => none
  | .evNone _ => none
  | .evReclaim _ => none
  | .evPlace _ => none
  | .evDefer _ => none
  | .evBadRespClear _ => none
  | .preemptPark _ => none
  | .preemptResume _ => none
  | .preemptEnd _ => none
  | .dbgContinue => none
  | .dbgDeliverDebug => none
  | .dbgStop _ => none
  | .dbgStopDrained => none
  | .dbgStart _ => none
  | .dbgMemRead _ => none
  | .dbgMemWrite _ => none
  | .registerWrite _ _ => none
  | .powerOn _ => none
  | .bootRetry _ => none
  | .bootNextAlternate _ => none
  | .bootSkip _ => none
  | .bootEnterRecovery => none
  | .getVersion => none
  | .getCapabilities => none
  | .negotiateAlgorithms => none
  | .getDigests => none
  | .getCertificate _ _ _ => none
  | .challenge _ => none
  | .getMeasurements _ => none
  | .spdmUnsupported _ => none
  | .getSnapshot => none
  | .readSnapshot _ _ _ => none
  | .clearBootRecord => none
  | .setPowerLimit _ => none
  | .setSliceRetire _ _ => none
  | .sensorRead _ => none
  | .telemetrySave => none
  | .orderlyPowerDown => none
  | .linkFrameReceive _ _ => none
  | .linkFrameSend _ => none
  | .packetForward _ => none
  | .laneLoss _ _ => none
  | .trainingExchange _ _ _ _ => none
  | .linkReportReceive _ _ => none
  | .routeReevaluate _ => none
  | .frameClaimConfirm _ => none
  | .frameClaimCancel _ => none
  | .matrixWordComplete _ => none
  | .powerLoss => none
  | .cxlCacheRequest _ => none

end Sys2Proof
end

