-- ==== Sys2Proof/Config.lean ====
section
/-!
DEFINITION. Values the spec leaves open, as constants without a body: nothing can be proved of their values. Each is
applied to a counter of the state, so that every use draws a fresh one (log 8).
-/

namespace Sys2Proof.Config

/-- A byte of a certificate chain, a digest, a signature or a measurement, whose contents R356 does not give (log 19). -/
opaque spdmByte : Nat → Byte

/-- The group an evenly distributed draw of the source module's generator gives for a non-minimal route (R365, log 22). -/
opaque midGroup : Nat → Nat

/-- A byte of the image of a sequencer's state in a whole-team save, whose layout R327 does not give (log 27). -/
opaque seqImage : Nat → Byte

/-- A byte of a measurement, from its index, what it measures and the byte's place: R356 does not give the digest's form
(log 19). -/
opaque measureByte : Nat → List Nat → Nat → Byte

/-- Flits queued at a global port of another member of the group, which R365 compares and this module cannot see (log 22). -/
opaque farQueue : Nat → Nat

/-- The one-way delay that a link measures, in ns (R366, log 59). -/
opaque linkDelay : Nat → BitVec 32

/-- Length, in units of 16 B, of the block of zeros that `rdmb` of the null ticket writes: R86 gives it none (log 35). -/
opaque nullBlock : Nat → Nat

end Sys2Proof.Config
end

