-- ==== Sys2Proof/Machine/State.lean ====
section
/-!
DEFINITION. The state of one module, as plain data, and the state after reset. Sparse maps list only entries that
differ from the reset value of their kind.
-/

namespace Sys2Proof.Machine

/-- What a request of a peer of the SPDM protocol carries: its version, and the algorithms that it offers (R5, R356). -/
structure SpdmReq where
  version : Nat
  asym    : Nat
  hash    : Nat
deriving DecidableEq, Repr

/-- What the next scheduled step does (log 2): an event, the next instruction of a core, the next word of a team's
sequencer, the passing of time, the coming of an SPDM request (log 19), a PLDM or MCTP control request that the spec does
not name (R5), the writing of a firmware update (R355), or a read of a granule that ECC corrects (R375). -/
inductive Move where
  | event (i : Instr)
  | issue (core : Nat)
  | sequence (team : Nat)
  | pass (ns : Nat)
  | peer (r : SpdmReq)
  | foreign (mctp : Bool) (code : Nat)
  | update (x : Image)
  | corrected (pa : Nat)
deriving DecidableEq, Repr

/-- Whose instruction is being executed. -/
inductive Actor where
  | none
  | bundle (pid bid : Nat)
  | sequencer (team : Nat)
deriving DecidableEq, Repr

/-- Why the machine stops. -/
inductive Fault where
  /-- Raised by the meaning of a word of the party stream that is executed while no bundle stands at it, and of a
  matrix word while no sequencer does. Safe: `step` never does so, and the part has no such occurrence. -/
  | noActor
deriving DecidableEq, Repr

/-- Why an instruction has no meaning. -/
inductive Refusal where
  /-- An instruction that the model gives no meaning yet, by its mnemonic. Safe. -/
  | notModelled (mnemonic : String)
deriving DecidableEq, Repr

/-- Driver-visible registers without behaviour of their own in a read (R312, R326, R328, R331, R309). -/
structure Regs where
  asidTable : DWord
  invalCtl  : DWord
  invalVa   : DWord
  funcMode  : BitVec 9
  funcReq   : BitVec 9
  funcWait  : Bool             -- an APPLY waits for the last launch to retire (R319)
  evqBase   : DWord
  evqLog2   : DWord
  evqTail   : Word
  evqHead   : Word
  evBad     : DWord
  preempt   : DWord
  seqQuery  : DWord
  haltEn    : Map DWord
  dbgStop   : DWord
  dbgAddr   : DWord
  dbgData   : Word
  dbgCtl    : DWord
  invalMark : Nat              -- operations numbered below it hold up an invalidation (R318)
  launchDrops : DWord
  launchNext : Word
  gridNext  : Word
  powerLimit : Nat
  powerAt   : Nat
  placeHold : Bool             -- placement waits for a team to retire (R322)
deriving DecidableEq, Repr

/-- Boot state and the boot record in flash (R349 to R353). -/
structure Boot where
  ents    : Map BootEnt
  host    : Bool               -- BOOT_HOST
  retire  : Map (BitVec 32)
  step    : Nat                -- step in progress or stopped at
  waiting : Bool
  method  : Nat                -- method in use at the step
  booted  : Bool               -- BOOT_HOST as read at this boot
  slots   : Image × Image      -- slots A and B
  slot    : Nat                -- the slot in use
  minVersion : BitVec 16       -- fused minimum of the security version
  peer    : SpdmReq            -- the SPDM request that Numilis has in hand (log 19)
deriving DecidableEq, Repr

/-- Lifetime telemetry (R375 to R379). Counters are keyed by item, instance and bucket. -/
structure Telemetry where
  live   : Map Nat
  flash  : List (Map Nat)      -- copies, the latest first
  restored : Bool              -- the set of before has been taken up since power came (R377)
  mark   : Nat × Map Nat       -- a time, and the set as it stood before the first event counted at that time (R379)
  snap   : Option (Nat × Nat × Map Nat)
  snapNo : Nat
  savedAt : Nat
  units  : Map ShadowUnit
deriving DecidableEq, Repr

/-- The module's part of the fabric (R359 to R373). -/
structure Fabric where
  links  : Map Link
  routes : Map (BitVec 16)
  pairs  : Map Route
  egress : List Packet         -- packets of this module that wait for a route
  peers  : Map (BitVec 20 × Nat) -- far ends of the global links: device and port
  slew   : Int                 -- what the time base is still to be corrected by, in ns (R366)
  slewed : Nat                 -- ns since the last correction by 1 ns
  tags   : Nat
deriving DecidableEq, Repr

/-- The state of the machine. -/
structure State where
  schedule : List Move
  turn     : Nat
  actor    : Actor
  steps    : Nat               -- steps made
  keys     : Nat               -- next number for a party, bundle, message or operation
  free     : Nat               -- free values drawn (log 8)
  out      : List Out
  ns       : Nat               -- time base
  devId    : BitVec 20
  mode     : BitVec 3          -- MODULE_STATE (R116)
  regs     : Regs
  boot     : Boot
  parties  : Map Party
  cores    : Map Core
  stks     : Map Stack
  teams    : Map Team
  grids    : Map Grid
  lineages : Map Lineage
  visits   : Map Visit         -- launches of other modules whose parties have come here, device * 2^32 + grid
  bars     : Map Barrier       -- named barriers, core * 512 + number
  net      : List Msg
  mem      : List Host.Cell
  tiles    : Map Word          -- accumulator elements, (cluster * 512 + tile) * 1024 + element
  tickets  : Map Ticket        -- slice * 4096 + entry
  ticketPtr : Map Nat
  locks    : List Lock
  frames   : Map FrameEnt
  versions : List Version
  engines  : Map Engine        -- stack * 16 + engine
  poison   : NatSet            -- poisoned 64 B granules
  consumes : List Consume
  clog     : Map CLog          -- entries 0 to 15
  clogCount : Word
  ports    : Map Port
  seeds    : Map Seed          -- stack * 8 + slot
  evWait   : List Event        -- events raised and not written
  evOpen   : List (Nat × Event) -- events written and not answered
  wanted   : List (BitVec 16 × Nat) -- second-tier pages to be brought in: for the host, a launch, or a driver's RESUME (R68, R304, R309, R320)
  halts    : List (Nat × Nat)  -- halted parties and bundles, oldest first
  reads    : List FarAcc       -- accesses of the part to other modules
  dropped  : List (Nat × BitVec 32) -- ticket fetches of abandoned runs whose tickets have not come back (R28)
  fab      : Fabric
  tel      : Telemetry
deriving DecidableEq, Repr

/-! ## Values of unlisted entries -/

/-- A core after reset (R315, R58, R354, R11). -/
def Core.init : Core :=
  { tlb := [], dicts := [], blocks := 0, dead := false, stopped := false, mhz := 1700, clkBase := 0, clkAt := 0, next := 0 }

/-- A stack after reset (R58, R312, R327, R352). -/
def Stack.init : Stack :=
  { poolUsed := 0, parked := [], evalAt := 0, qfull := false, wspBase := 0, wspCount := 0, wspUsed := [], parkBase := 0,
    parkCnt := 0, slots := [], blocks := [], absent := 0, noTier := false, refd := [], layer := .on, hand := 0, sweepAt := 0, hot := false,
    moveAt := none, throttle := false, cap := 1700 }

/-- A ticket entry at boot: FREE, generation 1, LAST_FATE RECLAIMED (R90). -/
def Ticket.init : Ticket :=
  { st := .free, gen := 1, fate := .reclaimed, launch := 0, asid := 0, frame := 0, deadline := 0, remain := 0, len := 0,
    block := false, data := [], claim := none, poison := false, src := none, team := 0, grid := 0, since := 0 }

/-- A frame table entry at boot: FREE with GEN 1 (R273). -/
def FrameEnt.init : FrameEnt :=
  { st := .free, gen := 1, launch := 0, asid := 0, grid := 0, base := 0, claim := none, isDrop := false, n := 0,
    toAnswer := [], answered := [], refusal := false, toStep := [], refused := [], lastGen := 0, lastVal := 0,
    lastBad := false, unit := 0, dev := 0 }

/-- A copy engine at boot: SEQ 0 (R248). -/
def Engine.init : Engine := { next := 0, ops := [], done := [] }

/-- A barrier no arrival has reached; its phase at reset is the model's choice (log 5). -/
def Barrier.init : Barrier := { phase := 0, count := 0, arrived := [], expiry := none, rejoin := none, held := [] }

/-- A lineage entry without members: slot free (R42, R54). Placement lists the entries of the parties it forms. -/
def Lineage.init : Lineage := { count := 0, slot := none, holders := 0, rounds := [], far := [], team := 0 }

/-- A host port after reset (R303, R304). -/
def Port.init : Port := { hdm := [], faults := 0, faultAddr := 0, pending := [] }

/-- A seed slot after reset: EMPTY (R306). -/
def Seed.init : Seed := { bytes := [], copy := [], state := 0, core := 0, cause := 0, fault := 0, party := none }

/-- A fabric port after reset: down (R373). -/
def Link.init : Link :=
  { st := .down, speed := 0, lanes := 0, good := 0, mism := 0, fseq := 1, acc := 0, nak := false,
    replay := [], resend := 0, out := [], drain := [], inq := [], credits := [], back := [], reported := false, early := none }

/-- The route of a pair before any re-evaluation: minimal (R364, R365). -/
def Route.init : Route := { valiant := false, mid := 0, open_ := 0, port := 0, at_ := 0 }

/-- A shadow-latch unit after reset (R348). -/
def ShadowUnit.init : ShadowUnit := { window := 0, since := 0, quiet := 0, mhz := 1700 }

/-- A boot record entry that is clear (R350). -/
def BootEnt.init : BootEnt := { result := 0, method := 0, fails := 0, skips := 0 }

/-- The registers after reset (R312, R326, R328, R331), the launch and grid counters at 1 (R309), the power limit of
R357. -/
def Regs.init : Regs :=
  { asidTable := 0, invalCtl := 0, invalVa := 0, funcMode := 0, funcReq := 0, funcWait := false, evqBase := 0,
    evqLog2 := 0, evqTail := 0, evqHead := 0, evBad := 0, preempt := 0, seqQuery := 0, haltEn := [], dbgStop := 0,
    dbgAddr := 0, dbgData := 0, dbgCtl := 0, invalMark := 0, launchDrops := 0, launchNext := 1, gridNext := 1,
    powerLimit := 3200, powerAt := 0, placeHold := false }

/-- The state after reset: the registers at their reset values, no party, no message, memory listing nothing
(log 4, log 5, log 6, log 7). -/
def State.reset : State :=
  { schedule := [], turn := 0, actor := .none, steps := 0, keys := 1, free := 0, out := [], ns := 0, devId := 0, mode := 1,
    regs := Regs.init,
    boot := { ents := [], host := false, retire := [], step := 0, waiting := false, method := 0, booted := false,
              slots := (⟨0, true⟩, ⟨0, true⟩), slot := 0, minVersion := 0,
              peer := { version := 0x13, asym := 0x400, hash := 0x04 } },
    parties := [], cores := [], stks := [], teams := [], grids := [], lineages := [], visits := [], bars := [], net := [], mem := [],
    tiles := [], tickets := [], ticketPtr := [], locks := [], frames := [], versions := [], engines := [], poison := [],
    consumes := [], clog := [], clogCount := 0, ports := [], seeds := [], evWait := [], evOpen := [], wanted := [], halts := [], reads := [], dropped := [],
    fab := { links := [], routes := [], pairs := [], egress := [], peers := [], slew := 0, slewed := 0, tags := 0 },
    tel := { live := [], flash := [], restored := false, mark := (0, []), snap := none, snapNo := 0, savedAt := 0, units := [] } }

end Sys2Proof.Machine
end

