-- ==== Sys2Proof/Machine/Memory.lean ====
section
/-!
DEFINITION. Memory and translation: the flat byte memory in its canonical form, where a physical byte is homed
(R6 to R10, R65), the walk (R313 to R317), the windows the part maps (R67, R288), range locks (R82), and the one place
where bytes are written (with the interval log of R336, the shadows of R339 and the poison of R335).
-/

namespace Sys2Proof.Machine

/-! ## Bytes -/

/-- The canonical form of memory: addresses strictly rising, no entry equal to what an unlisted address reads as. -/
abbrev Memory.wf (m : List Host.Cell) : Bool := Map.canon m 0

/-- One byte; an unlisted byte reads 0 (log 4). -/
def memByte (m : List Host.Cell) (a : Nat) : Byte := Map.getD m a 0

/-- Write one byte, keeping the canonical form. -/
def memPut (m : List Host.Cell) (a : Nat) (x : Byte) : List Host.Cell := Map.put m a x 0

/-- Consecutive bytes. -/
def memBytes (m : List Host.Cell) (a : Nat) : Nat → List Byte
  | 0 => []
  | n + 1 => memByte m a :: memBytes m (a + 1) n

/-- Write consecutive bytes. -/
def memPuts (m : List Host.Cell) (a : Nat) : List Byte → List Host.Cell
  | [] => m
  | x :: l => memPuts (memPut m a x) (a + 1) l

/-- A little-endian number (R118). -/
def leNat : List Byte → Nat
  | [] => 0
  | x :: l => x.toNat + 256 * leNat l

/-- The low `n` bytes of a number, little-endian. -/
def leBytes : Nat → Nat → List Byte
  | 0, _ => []
  | n + 1, x => BitVec.ofNat 8 x :: leBytes n (x / 256)

/-- A little-endian number in memory. -/
def memNat (m : List Host.Cell) (a n : Nat) : Nat := leNat (memBytes m a n)

/-! ## Cores, stacks, slices (R6 to R8, R354) -/

/-- Core `c`. -/
def State.core (s : State) (c : Nat) : Core := Map.getD s.cores c Core.init

/-- Stack `k`. -/
def State.stk (s : State) (k : Nat) : Stack := Map.getD s.stks k Stack.init

/-- Replace core `c`. -/
def State.setCore (s : State) (c : Nat) (x : Core) : State := { s with cores := Map.put s.cores c x Core.init }

/-- Replace stack `k`. -/
def State.setStk (s : State) (k : Nat) (x : Stack) : State := { s with stks := Map.put s.stks k x Stack.init }

/-- Clock periods that core `c` has counted (R12). -/
def State.clk (s : State) (c : Nat) : Nat :=
  (s.core c).clkBase + (s.ns - (s.core c).clkAt) * (s.core c).mhz / 1000

/-- The absent slices of a stack of a module; those of another module are not known here and count as present (log 1). -/
def State.absentOf (s : State) (dev : BitVec 20) (k : Nat) : BitVec 32 := if dev = s.devId then (s.stk k).absent else 0

/-- The present slices of a stack of a module, ascending (R354). -/
def State.presentOf (s : State) (dev : BitVec 20) (k : Nat) : List Nat :=
  (List.range 32).filter (fun i => !((s.absentOf dev k).getLsbD i))

/-- The present slices of a stack of this module. -/
def State.present (s : State) (k : Nat) : List Nat := s.presentOf s.devId k

/-- The cores of a cluster, 0 to 127. -/
def clusterCores (cl : Nat) : List Nat := [4 * cl, 4 * cl + 1, 4 * cl + 2, 4 * cl + 3]

/-- The receiving core of a cluster's scratchpad (R8). -/
def State.receiving (s : State) (cl : Nat) : Nat :=
  match (clusterCores cl).find? (fun c => !(s.core c).dead) with
  | some c => c
  | none => 4 * cl

/-- The slice, 0 to 511, at which the ticket entries of a scratchpad stand (R8, R87). -/
def State.scratchSlice (s : State) (cl : Nat) : Nat :=
  let k := cl / 8
  if (s.stk k).absent.getLsbD (4 * cl % 32) then 32 * k + (s.present k).headD 0 else 4 * cl

/-! ## Physical numbers -/

/-- First flat number of the scratchpads. -/
def scratchBase : Nat := 2 ^ 40
/-- First flat number of the second tier. -/
def tierBase : Nat := 2 ^ 41
/-- First flat number of host memory. -/
def hostBase : Nat := 2 ^ 53

/-- First flat number by which pages of a launch's windows go while the module that holds them has still to say where they stand
(R17, R39). -/
def windowBase : Nat := 2 ^ 96

/-- The flat number of a byte of a launch's windows, by the core that is to hear of it. -/
def windowPa (core : Nat) (grid : BitVec 32) (va : Nat) : Nat := windowBase + (core * 2 ^ 32 + grid.toNat) * 2 ^ 64 + va % 2 ^ 64

/-- The core number under which accesses to a saved team's scratchpad are held (R39). -/
def heldCore (team : Nat) : Nat := 512 + team

/-- Where a flat number lies. -/
inductive Region where
  | dram (slice off : Nat)     -- slice 0 to 511
  | scratch (cluster off : Nat)
  | tier (stack off : Nat)
  | host (port hpa : Nat)
  | window (core : Nat) (grid : BitVec 32) (va : Nat)
deriving DecidableEq, Repr

/-- The region of a flat number. -/
def regionOf (pa : Nat) : Region :=
  if pa < scratchBase then .dram (pa / 2 ^ 31) (pa % 2 ^ 31)
  else if pa < tierBase then .scratch ((pa - scratchBase) / 2 ^ 23) (pa % 2 ^ 23)
  else if pa < hostBase then .tier ((pa - tierBase) / 2 ^ 37) (pa % 2 ^ 37)
  else if pa < windowBase then .host ((pa - hostBase) / 2 ^ 52) (pa % 2 ^ 52)
  else .window ((pa - windowBase) / 2 ^ 96) (BitVec.ofNat 32 ((pa - windowBase) / 2 ^ 64)) (pa % 2 ^ 64)

/-- The flat number of a DRAM byte (R313). -/
def dramPa (stack slice off : Nat) : Nat := stack * 2 ^ 36 + slice * 2 ^ 31 + off

/-- Where an access to a location is applied (R7, R8, R15). -/
def State.homeOf (s : State) (l : Loc) : Home :=
  match regionOf l.pa with
  | .dram sl _ => .core l.dev sl
  | .scratch cl _ => .core l.dev (if l.dev = s.devId then s.receiving cl else 4 * cl)
  | .tier k _ => .core l.dev (32 * k)
  | .host p _ => .port p
  | .window c _ _ => .core l.dev c

/-- The slice or the scratchpad that holds a location, as homes are compared (R65, R77, R78). -/
def Loc.seat (x : Loc) : BitVec 20 × Nat × Nat :=
  match regionOf x.pa with
  | .dram sl _ => (x.dev, 0, sl)
  | .scratch cl _ => (x.dev, 1, cl)
  | .tier k _ => (x.dev, 2, k)
  | .host p _ => (x.dev, 3, p)
  | .window c _ _ => (x.dev, 4, c)

/-- Whether a location is local to a core (R7). -/
def State.isLocal (s : State) (core : Nat) (l : Loc) : Bool :=
  decide (l.dev = s.devId) &&
  match regionOf l.pa with
  | .dram sl _ => decide (sl = core)
  | .scratch cl _ => decide (cl = core / 4)
  | _ => false

/-- The slice, 0 to 511, whose ticket table and version store serve a location (R87, log 23). -/
def State.tableSlice (s : State) (l : Loc) : Nat :=
  match regionOf l.pa with
  | .dram sl _ => sl
  | .scratch cl _ => s.scratchSlice cl
  | .tier k _ => 32 * k
  | .host _ _ => 0
  | .window c _ _ => c

/-! ## Reserved regions (R10, R354; log 9) -/

/-- Bytes at the top of a present slice that the part reserves: its share, in whole granules of 4 KiB, of the 2 GiB of the
hidden tier, 4 MiB of the version store, and on the lowest present slice the enlargement pool. -/
def State.reservedBytes (s : State) (dev : BitVec 20) (k sl : Nat) : Nat :=
  let p := s.presentOf dev k
  let n := max 1 p.length
  let i := p.idxOf sl
  4 * 2 ^ 20 + ((i + 1) * 2 ^ 19 / n - i * 2 ^ 19 / n) * 4096 + (if p.headD 0 = sl then 4 * 2 ^ 20 else 0)

/-- First offset of a slice that is not mappable. -/
def State.mapLimit (s : State) (dev : BitVec 20) (k sl : Nat) : Nat := 2 ^ 31 - s.reservedBytes dev k sl

/-- A DPA that names mappable or reserved DRAM of a present slice (R313, R349). -/
def State.dpaOk (s : State) (a : Nat) : Bool :=
  decide (a < 2 ^ 40) && !((s.stk (a / 2 ^ 36)).absent.getLsbD (a / 2 ^ 31 % 32))

/-- A DPA outside the reserved regions (R313). -/
def State.tableOk (s : State) (a : Nat) : Bool :=
  s.dpaOk a && decide (a % 2 ^ 31 < s.mapLimit s.devId (a / 2 ^ 36) (a / 2 ^ 31 % 32))

/-! ## Translation (R64, R67, R288, R313 to R317) -/

/-- The outcome of a translation. -/
inductive Xl where
  | ok (l : Leaf)
  | np                         -- NOT_PRESENT
  | prot                       -- PROTECTION
  | tier (stack : Nat) (l : Leaf) (entry : Nat)
  | parked (team : Nat)        -- the scratchpad of a parked team (R39)
deriving DecidableEq, Repr

/-- A doubleword in a translation table. -/
def State.tableWord (s : State) (a : Nat) : DWord := BitVec.ofNat 64 (memNat s.mem a 8)

/-- The context of an ASID is usable: root and format table (R314). -/
def State.asidCtx (s : State) (asid : BitVec 16) : Option (Nat × Nat) :=
  let a := s.regs.asidTable.toNat + 32 * asid.toNat
  if !(s.tableOk a) then none
  else if (s.tableWord (a + 16)).getLsbD 0 then
    some ((s.tableWord a).toNat, (s.tableWord (a + 8)).toNat)
  else none

/-- The module holds a translation context for an ASID (R62, R314). -/
def State.asidValid (s : State) (asid : BitVec 16) : Bool := (s.asidCtx asid).isSome

/-- Format entry `i` of a format table (R317); entry 0 is not read. -/
def State.fmtEntry (s : State) (table i : Nat) : BitVec 256 :=
  if i = 0 then 0 else BitVec.ofNat 256 (memNat s.mem (table + 32 * i) 32)

/-- The place of a format entry is one where a table may lie (R313); entry 0 is not read. -/
def State.fmtOk (s : State) (table i : Nat) : Bool :=
  decide (i = 0) || (s.tableOk (table + 32 * i) && s.tableOk (table + 32 * i + 31))

/-- Whether a span places every granule on mappable bytes of present slices (R10, R64). -/
def State.spanOk (s : State) (dev : BitVec 20) (span stack slice off bits : Nat) : Bool :=
  let size := 2 ^ bits
  if span = 0 then
    !((s.absentOf dev stack).getLsbD slice) && decide (off + size ≤ s.mapLimit dev stack slice)
  else if span = 1 then
    let p := s.presentOf dev stack
    let n := p.length
    let g := size / 4096
    let i0 := p.idxOf slice
    !((s.absentOf dev stack).getLsbD slice) &&
    (List.range n).all (fun j =>
      let g0 := (j + n - i0) % n
      if g ≤ g0 then true
      else
        let gm := g0 + (g - 1 - g0) / n * n
        decide (off + gm / n * 4096 + 4096 ≤ s.mapLimit dev stack (p.getD j 0)))
  else
    let chunks := size / 65536
    (List.range (min 16 chunks)).all (fun c =>
      let k := (stack + c) % 16
      let cm := c + (chunks - 1 - c) / 16 * 16
      !((s.absentOf dev k).getLsbD slice) && decide (off + cm / 16 * 65536 + 65536 ≤ s.mapLimit dev k slice))

/-- Read a leaf entry (R316): its page, or why it is rejected. -/
def State.leafOf (s : State) (asid : BitVec 16) (fmtTable va bits entry : Nat) (e : DWord) : Xl :=
  let x := e.toNat
  let base := va / 2 ^ bits * 2 ^ bits
  let span := x / 4 % 4
  let loc := x / 2 ^ 16 % 4
  let fmt := x / 2 ^ 8 % 64
  let hi := x / 2 ^ 18
  let mk (t : Target) : Leaf :=
    { asid := asid, base := base, bits := bits, span := span, r := e.getLsbD 4, w := e.getLsbD 5, x := e.getLsbD 6,
      fmt := fmt, fent := s.fmtEntry fmtTable fmt, target := t }
  if span = 3 ∨ e.getLsbD 7 ∨ !(s.fmtOk fmtTable fmt) then .prot
  else if loc = 0 then
    let off := hi % 2 ^ 15 * 65536
    let slice := hi / 2 ^ 15 % 32
    let stack := hi / 2 ^ 20 % 16
    let dev := BitVec.ofNat 20 (hi / 2 ^ 24 % 2 ^ 20)
    if hi / 2 ^ 44 ≠ 0 then .prot
    else if !(s.spanOk dev span stack slice off bits) then .prot
    else .ok (mk (.dram dev stack slice off))
  else if loc = 2 then
    let page := hi % 2 ^ 21
    let stack := hi / 2 ^ 21 % 16
    if hi / 2 ^ 25 ≠ 0 ∨ bits ≠ 16 ∨ span ≠ 0 ∨ (s.stk stack).noTier then .prot
    else .tier stack (mk (.tier stack page)) entry
  else if loc = 3 then
    if hi / 2 ^ 37 ≠ 0 ∨ span ≠ 0 then .prot
    else .ok (mk (.host (hi % 2) (hi / 2 % 2 ^ 36 * 65536)))
  else .prot

/-- The walk from level `l` at table `t` (R315). -/
def State.walkFrom (s : State) (asid : BitVec 16) (fmtTable va : Nat) : Nat → Nat → Nat → Xl
  | 0, _, _ => .prot
  | n + 1, l, t =>
    let idx := if l = 0 then va / 2 ^ 39 % 512 else if l = 1 then va / 2 ^ 30 % 512
      else if l = 2 then va / 2 ^ 21 % 512 else va / 2 ^ 16 % 32
    let al := if l = 3 then 256 else 4096
    let a := t + 8 * idx
    if t % al ≠ 0 ∨ !(s.tableOk a) then .prot
    else
      let e := s.tableWord a
      if !(e.getLsbD 0) then .np
      else if e.getLsbD 1 then
        if l = 0 then .prot
        else s.leafOf asid fmtTable va (if l = 1 then 30 else if l = 2 then 21 else 16) a e
      else if l = 3 then .prot
      else if e.toNat / 2 ^ 40 ≠ 0 ∨ e.toNat / 2 % 128 ≠ 0 then .prot
      else s.walkFrom asid fmtTable va n (l + 1) (e.toNat / 256 * 256)

/-- The key of a team, or of a lineage: its module, its grid and its number there. -/
def teamKey (dev : BitVec 20) (grid : BitVec 32) (id : Nat) : Nat := dev.toNat * 2 ^ 64 + grid.toNat * 2 ^ 32 + id

/-- The DPA of the leaf entry that a walk from level `l` at table `t` ends at. -/
def State.entryFrom (s : State) (va : Nat) : Nat → Nat → Nat → Option Nat
  | 0, _, _ => none
  | n + 1, l, t =>
    let idx := if l = 0 then va / 2 ^ 39 % 512 else if l = 1 then va / 2 ^ 30 % 512
      else if l = 2 then va / 2 ^ 21 % 512 else va / 2 ^ 16 % 32
    let a := t + 8 * idx
    let e := s.tableWord a
    if !(s.tableOk a) || !(e.getLsbD 0) then none
    else if e.getLsbD 1 then some a
    else s.entryFrom va n (l + 1) (e.toNat / 256 * 256)

/-- The entries that a walk from level `l` at table `t` reads. -/
def State.pathFrom (s : State) (va : Nat) : Nat → Nat → Nat → List Nat
  | 0, _, _ => []
  | n + 1, l, t =>
    let idx := if l = 0 then va / 2 ^ 39 % 512 else if l = 1 then va / 2 ^ 30 % 512
      else if l = 2 then va / 2 ^ 21 % 512 else va / 2 ^ 16 % 32
    let a := t + 8 * idx
    let e := s.tableWord a
    if !(s.tableOk a) || !(e.getLsbD 0) || e.getLsbD 1 then [a] else a :: s.pathFrom va n (l + 1) (e.toNat / 256 * 256)

/-- The DPA of the leaf entry that maps an address under an ASID. -/
def State.entryOf (s : State) (asid : BitVec 16) (va : Nat) : Option Nat :=
  (s.asidCtx asid).bind (fun c => s.entryFrom va 4 0 c.1)

/-- Bytes from one team's scratchpad to the next (R67). -/
def LaunchRec.stride (r : LaunchRec) : Nat := ceilDiv r.scratch 65536 * 65536

/-- Bytes of a window-stack region (R288). -/
def LaunchRec.region (r : LaunchRec) : Nat := r.win * 256

/-- A page that a window of a launch maps, with what its scratchpad pages and its window-stack pages stand at (R67, R288). -/
def LaunchRec.page (r : LaunchRec) (asid : BitVec 16) (fmt : Bool) (fent : BitVec 256) (va : Nat)
    (scratch : Nat → Nat → Except Xl Target) (wstack : Nat → Target) : Option Xl :=
  let leaf (f : Nat) (e : BitVec 256) (t : Target) : Xl := .ok {
    asid := asid, base := va / 65536 * 65536, bits := 16, span := 0, r := true, w := true, x := false, fmt := f, fent := e,
    target := t }
  if 0 < r.stride ∧ r.scratchWin ≤ va ∧ va < r.scratchWin + r.teams * r.stride then
    let off := (va - r.scratchWin) % r.stride
    match scratch ((va - r.scratchWin) / r.stride) off with
    | .error x => some (match x with
      | .parked k => if ceilDiv r.scratch 4096 * 4096 ≤ off ∨ !fmt then .prot else .parked k
      | y => y)
    | .ok t => some (if ceilDiv r.scratch 4096 * 4096 ≤ off ∨ !fmt then .prot else leaf r.sfmt fent t)
  else if r.wstackWin ≤ va ∧ va < r.wstackWin + r.teams * r.parties * r.region then
    some (leaf 0 0 (wstack ((va - r.wstackWin) / r.region / r.parties)))
  else none

/-- A page of a window of a resident launch (R39, R67, R288). -/
def State.gridPage (s : State) (g : Grid) (fmtTable va : Nat) : Option Xl :=
  g.rcd.page g.asid (s.fmtOk fmtTable g.rcd.sfmt) (s.fmtEntry fmtTable g.rcd.sfmt) va
    (fun id off =>
      match Map.find s.teams (teamKey s.devId g.id id) with
      | none => .error .prot
      | some t =>
        if t.saved.isSome then .error (.parked (teamKey s.devId g.id id))
        else .ok (.scratch t.cluster (t.blocks.getD (off / 65536) 0 * 65536)))
    (fun id =>
      let frames := match Map.find s.teams (teamKey s.devId g.id id) with
        | none => g.spent
        | some t => t.frames
      match Map.find frames (va / 65536) with
      | some f => Target.dram s.devId (f / 2 ^ 36) (f / 2 ^ 31 % 32) (f % 2 ^ 31)
      | none => Target.none)

/-- A page of a window of a launch of another module whose parties come here: it is known by its launch and its address, and that
module finds where it stands (R17; log 122). Accesses go to the ORIGIN_CORE of the team where a party of it has come here. -/
def State.visitPage (s : State) (key : Nat) (v : Visit) (fmtTable va : Nat) : Option Xl :=
  let there (id : Nat) : Target :=
    .window (BitVec.ofNat 20 (key / 2 ^ 32)) ((Map.find v.homes id).getD 0) (BitVec.ofNat 32 key) (va / 65536 * 65536)
  v.rcd.page v.rcd.asid (s.fmtOk fmtTable v.rcd.sfmt) (s.fmtEntry fmtTable v.rcd.sfmt) va (fun id _ => .ok (there id)) there

/-- A page the part maps: `none` when the address lies in no window of a launch of the ASID that is resident or whose parties
come here (R17, R67, R288, R315). -/
def State.windowPage (s : State) (asid : BitVec 16) (fmtTable va : Nat) : Option Xl :=
  match s.grids.findSome? (fun e => if e.2.asid = asid then s.gridPage e.2 fmtTable va else none) with
  | some x => some x
  | none => s.visits.findSome? (fun e => if e.2.rcd.asid = asid then s.visitPage e.1 e.2 fmtTable va else none)

/-- Whether a page holds an address under an ASID. -/
def Leaf.covers (l : Leaf) (asid : BitVec 16) (va : Nat) : Bool :=
  decide (l.asid = asid) && decide (l.base ≤ va) && decide (va < l.base + 2 ^ l.bits)

/-- Translate an address (R315), looking first among the pages that core `c`'s translation buffer holds. -/
def State.xlate (s : State) (c : Option Nat) (asid : BitVec 16) (va : Nat) : Xl :=
  match s.asidCtx asid with
  | none => .prot
  | some (root, fmtTable) =>
    if 2 ^ 48 ≤ va then .np
    else
      match s.windowPage asid fmtTable va with
      | some x => x
      | none =>
        let hit := match c with
          | some k => (s.core k).tlb.find? (fun l => l.covers asid va)
          | none => none
        match hit with
        | some l => .ok l
        | none => s.walkFrom asid fmtTable va 4 0 root

/-- The entries that a walk for an address reads: none where the part maps it or the core holds its translation (R315). -/
def State.walkPath (s : State) (core : Nat) (asid : BitVec 16) (va : Nat) : List Nat :=
  match s.asidCtx asid with
  | none => []
  | some (root, fmtTable) =>
    if 2 ^ 48 ≤ va ∨ (s.windowPage asid fmtTable va).isSome ∨ (s.core core).tlb.any (fun l => l.covers asid va) then []
    else s.pathFrom va 4 0 root

/-- The location of an address on a page (R65). -/
def State.locOn (s : State) (l : Leaf) (va : Nat) : Option Loc :=
  let off := va - l.base
  match l.target with
  | .none => none
  | .scratch cl o => some ⟨s.devId, scratchBase + cl * 2 ^ 23 + o + off⟩
  | .tier k p => some ⟨s.devId, tierBase + k * 2 ^ 37 + p * 65536 + off⟩
  | .host p h => some ⟨s.devId, hostBase + p * 2 ^ 52 + h + off⟩
  | .window d c g v => some ⟨d, windowPa c g (v + off)⟩
  | .dram dev k sl o =>
    if l.span = 0 then some ⟨dev, dramPa k sl (o + off)⟩
    else if l.span = 1 then
      let p := s.presentOf dev k
      let n := max 1 p.length
      let g := off / 4096
      let i := (p.idxOf sl + g) % n
      some ⟨dev, dramPa k (p.getD i 0) (o + g / n * 4096 + off % 4096)⟩
    else
      let c := off / 65536
      some ⟨dev, dramPa ((k + c) % 16) sl (o + c / 16 * 65536 + off % 65536)⟩

/-- The address at which a page holds a location, the inverse of `locOn`. -/
def State.vaOn (s : State) (l : Leaf) (x : Loc) : Option Nat :=
  let inPage (off : Nat) : Option Nat := if off < 2 ^ l.bits then some (l.base + off) else none
  match l.target, regionOf x.pa with
  | .scratch cl o, .scratch cl' o' =>
    if x.dev = s.devId ∧ cl = cl' ∧ o ≤ o' then inPage (o' - o) else none
  | .tier k p, .tier k' o' => if k = k' ∧ p * 65536 ≤ o' then inPage (o' - p * 65536) else none
  | .host p h, .host p' h' => if p = p' ∧ h ≤ h' then inPage (h' - h) else none
  | .window d _ g v, .window _ g' v' => if x.dev = d ∧ g = g' ∧ v ≤ v' then inPage (v' - v) else none
  | .dram dev k sl o, .dram sl' o' =>
    if x.dev ≠ dev ∨ o' < o then none
    else if l.span = 0 then (if sl' = 32 * k + sl then inPage (o' - o) else none)
    else if l.span = 1 then
      let p := s.presentOf dev k
      let n := max 1 p.length
      if sl' / 32 ≠ k ∨ !(p.contains (sl' % 32)) then none
      else
        let i := p.idxOf (sl' % 32)
        let g := (i + n - p.idxOf sl % n) % n + (o' - o) / 4096 * n
        inPage (g * 4096 + (o' - o) % 4096)
    else
      if sl' % 32 ≠ sl then none
      else
        let c := (sl' / 32 + 16 - k) % 16 + (o' - o) / 65536 * 16
        inPage (c * 65536 + (o' - o) % 65536)
  | _, _ => none

/-! ## The entries of the tables (R315, R316, R318) -/

/-- Entries of a table of `n` doublewords that software has written; every other entry reads 0 (log 4). -/
def State.slotsIn (s : State) (t n : Nat) : List Nat :=
  s.mem.filterMap (fun c => if t ≤ c.1 ∧ c.1 < t + 8 * n ∧ (c.1 - t) % 8 = 0 then some c.1 else none)

/-- The leaf entries below a table of level `l` that maps addresses from `va` on: each entry's DPA, the address of its page
and the log2 of the page's size. -/
def State.leavesUnder (s : State) (va : Nat) : Nat → Nat → Nat → List (Nat × Nat × Nat)
  | 0, _, _ => []
  | n + 1, l, t =>
    let low := if l = 0 then 39 else if l = 1 then 30 else if l = 2 then 21 else 16
    (s.slotsIn t (if l = 3 then 32 else 512)).flatMap (fun a =>
      let e := s.tableWord a
      let here := va + (a - t) / 8 * 2 ^ low
      if !(s.tableOk a) || !(e.getLsbD 0) then []
      else if e.getLsbD 1 then (if l = 0 then [] else [(a, here, low)])
      else s.leavesUnder here n (l + 1) (e.toNat / 256 * 256))

/-- The tables below a table, itself included. -/
def State.tablesUnder (s : State) : Nat → Nat → Nat → List Nat
  | 0, _, _ => []
  | n + 1, l, t =>
    t :: (s.slotsIn t (if l = 3 then 32 else 512)).flatMap (fun a =>
      let e := s.tableWord a
      if !(s.tableOk a) || !(e.getLsbD 0) || e.getLsbD 1 then [] else s.tablesUnder n (l + 1) (e.toNat / 256 * 256))

/-- The ASIDs that have a context, with their roots and format tables (R314). -/
def State.contexts (s : State) : List (BitVec 16 × Nat × Nat) :=
  let base := s.regs.asidTable.toNat
  s.mem.filterMap (fun c =>
    if base ≤ c.1 ∧ c.1 < base + 2 ^ 21 ∧ (c.1 - base) % 32 = 16 then
      let asid := BitVec.ofNat 16 ((c.1 - base) / 32)
      (s.asidCtx asid).map (fun x => (asid, x.1, x.2))
    else none)

/-- What each leaf entry of the tables translates to, with the entry's DPA. -/
def State.pages (s : State) : List (Nat × Xl) :=
  s.contexts.flatMap (fun c => (s.leavesUnder 0 4 0 c.2.1).map (fun e =>
    (e.1, s.leafOf c.1 c.2.2 e.2.1 e.2.2 e.1 (s.tableWord e.1))))

/-- The entries whose pages hold a location, with the pages. -/
def State.pagesOf (s : State) (x : Loc) : List (Nat × Leaf) :=
  s.pages.filterMap (fun e => match e.2 with
    | .ok l => if (s.vaOn l x).isSome then some (e.1, l) else none
    | _ => none)

/-- Drop translations from every core's buffer (R318). -/
def State.dropTlb (s : State) (f : Leaf → Bool) : State :=
  { s with cores := s.cores.map (fun e => (e.1, { e.2 with tlb := e.2.tlb.filter (fun l => !f l) })) }

/-- The part writes an entry, as one step against the value it has read, and invalidates its page (R318). -/
def State.setEntry (s : State) (a : Nat) (l : Leaf) (x : Nat) : State :=
  if (s.tableWord a).toNat = x then s
  else State.dropTlb { s with mem := memPuts s.mem a (leBytes 8 x) } (fun k => decide (k.asid = l.asid) && decide (k.base = l.base))

/-! ## Range locks (R82 to R84) -/

/-- Whether a lock covers some of `n` bytes at a location. A lock without a page covers the pages of its interval that have
been mapped since (R82). -/
def State.lockHits (s : State) (k : Lock) (x : Loc) (n : Nat) : Bool :=
  let hits (l : Leaf) : Bool := match s.vaOn l x with
    | none => false
    | some va => decide (va ≤ k.hi) && decide (k.lo < va + n)
  if k.leaf.target = .none then s.pages.any (fun e => match e.2 with
    | .ok l => decide (l.asid = k.leaf.asid) && hits l
    | _ => false)
  else hits k.leaf

/-- The stacks at which bytes of an interval on a page are homed, with their modules (R82). -/
def stacksOf (l : Leaf) (dev : BitVec 20) (lo hi : Nat) : List (BitVec 20 × Nat) :=
  let a := max lo l.base
  let b := min hi (l.base + 2 ^ l.bits - 1)
  match l.target with
  | .dram d k _ _ =>
    if l.span = 2 then
      ((List.range (min 16 ((b - l.base) / 65536 - (a - l.base) / 65536 + 1))).map (fun i =>
        (d, (k + (a - l.base) / 65536 + i) % 16))).eraseDups
    else [(d, k)]
  | .scratch cl _ => [(dev, cl / 8)]
  | .window d c _ _ => [(d, c / 32)]
  | _ => []

/-- A lock of one of these operations of this module. -/
def State.ownLock (s : State) (owners : List Nat) (k : Lock) : Bool := decide (k.dev = s.devId) && owners.contains k.owner

/-- The locks that an operation of this module takes at stacks of other modules (R82). -/
def State.farLocks (s : State) (owner : Nat) : List (BitVec 20 × Nat × Lock) :=
  (s.locks.filter (fun k => decide (k.dev = s.devId) && decide (k.owner = owner))).flatMap (fun k =>
    ((stacksOf k.leaf s.devId k.lo k.hi).filter (fun e => decide (e.1 ≠ s.devId))).map (fun e => (e.1, e.2, k)))

/-- A lock that stands in the way of a read or a write of `n` bytes at a location (R83). -/
def State.locked (s : State) (x : Loc) (n : Nat) (wr : Bool) : Bool :=
  s.locks.any (fun k => (k.wr || wr) && s.lockHits k x n)

/-! ## Who acts, and units (R336 to R343) -/

/-- The agent behind an access: its grid (0 for none), its team's key + 1 (0 for none), and whether it is the host. -/
structure Who where
  grid : BitVec 32
  team : Nat
  host : Bool
deriving DecidableEq, Repr

/-- An access of the host. -/
def Who.ofHost : Who := ⟨0, 0, true⟩

/-- An access of the part itself, on nobody's behalf. -/
def Who.part : Who := ⟨0, 0, false⟩

/-- The grid with an ID. -/
def State.grid? (s : State) (g : BitVec 32) : Option Grid := Map.find s.grids g.toNat

/-- The replay unit a grid belongs to, by the grid that names it (R339). -/
def State.unitFrom (s : State) : Nat → BitVec 32 → Option (BitVec 32)
  | 0, _ => none
  | n + 1, g =>
    match s.grid? g with
    | none => none
    | some x => if x.rcd.replay then some x.id else
        match x.parent with
        | none => none
        | some p => s.unitFrom n p

/-- The replay unit of a grid. -/
def State.unitOf (s : State) (g : BitVec 32) : Option (BitVec 32) := s.unitFrom 16 g

/-- Whether a grid lies in a unit or in one that it encloses (R340). -/
def State.inUnit (s : State) (unit : BitVec 32) : Nat → BitVec 32 → Bool
  | 0, _ => false
  | n + 1, g =>
    if g = unit then true
    else
      match s.grid? g with
      | none => false
      | some x =>
        match x.parent with
        | none => false
        | some p => s.inUnit unit n p

/-- The 64 B granule of a byte. -/
def granuleOf (pa : Nat) : Nat := pa / 64

/-- Bytes of a granule. -/
def State.granule (s : State) (g : Nat) : List Byte := memBytes s.mem (64 * g) 64

/-- What lies below the shadow of a byte of a unit that has written it (R339). -/
def Grid.shadowOf (g : Grid) (pa : Nat) : Option Byte :=
  (Map.find g.undo (pa / 64)).bind (fun x => x.old.getD (pa % 64) none)

/-- The shadows of a byte lie one over another in the order in which their units were launched, a unit after the one that
encloses it; current values lie below them all. This is the lowest of those above a level (log 131). -/
def State.unitOver (s : State) (lvl pa : Nat) : Option Grid :=
  leastBy (fun g => g.order)
    ((s.grids.filter (fun e => decide (lvl < e.2.order) && (e.2.shadowOf pa).isSome)).map (fun e => e.2))

/-- The value of a byte at a level. -/
def State.byteAt (s : State) (lvl pa : Nat) : Byte :=
  match s.unitOver lvl pa with
  | none => memByte s.mem pa
  | some g => (g.shadowOf pa).getD 0

/-- Write a byte at a level: memory holds the uppermost value. -/
def State.putByte (s : State) (lvl pa : Nat) (x : Byte) : State :=
  match s.unitOver lvl pa with
  | none => { s with mem := memPut s.mem pa x }
  | some g =>
    match Map.find g.undo (pa / 64) with
    | none => s
    | some sh => { s with grids := Map.insert s.grids g.id.toNat { g with
        undo := Map.insert g.undo (pa / 64) { sh with old := sh.old.set (pa % 64) (some x) } } }

/-- Whether a granule is poisoned at a level. -/
def State.setPoison (s : State) (lvl g : Nat) (bad : Bool) : State :=
  match leastBy (fun g => g.order)
      ((s.grids.filter (fun e => decide (lvl < e.2.order) && (Map.find e.2.undo g).isSome)).map (fun e => e.2)) with
  | none => { s with poison := if bad then NatSet.add s.poison g else NatSet.del s.poison g }
  | some x =>
    match Map.find x.undo g with
    | none => s
    | some sh => { s with grids := Map.insert s.grids x.id.toNat { x with undo := Map.insert x.undo g { sh with poison := bad } } }

/-- Bytes in use in a slice's version store (R275, R339). -/
def State.storeUsed (s : State) (slice : Nat) : Nat :=
  32 * (s.versions.filter (fun v => v.slice = slice)).length +
  128 * sumBy (fun e =>
    (e.2.undo.filter (fun u => s.tableSlice ⟨s.devId, 64 * u.1⟩ = slice)).length) s.grids

/-- Capacity of a slice's version store (R10). -/
def storeBytes : Nat := 4 * 2 ^ 20

/-- Whether the team with key + 1 `t` owns the scratchpad byte `pa`. -/
def Team.ownsByte (t : Team) (pa : Nat) : Bool :=
  match regionOf pa with
  | .scratch cl off => decide (t.cluster = cl) && t.saved.isNone && t.blocks.contains (off / 65536)
  | _ => false

/-- The number of a scratchpad granule within the team's allocation; it stays when the team moves (R67, R336). -/
def Team.granule (t : Team) (g : Nat) : Nat :=
  match regionOf (64 * g) with
  | .scratch _ off => t.blocks.idxOf (off / 65536) * 1024 + off % 65536 / 64
  | _ => 0

/-- The granule with a number within the allocation, where the team stands. -/
def Team.granuleAt (t : Team) (n : Nat) : Nat :=
  (scratchBase + t.cluster * 2 ^ 23 + t.blocks.getD (n / 1024) 0 * 65536) / 64 + n % 1024

/-- Publish a team's interval (R337). -/
def Team.publish (t : Team) : Team :=
  match t.interval with
  | some iv => { t with interval := some { iv with published := true } }
  | none => t

/-- Publish the interval of the team with key + 1 `t`, if there is one. -/
def State.publish (s : State) (t : Nat) : State :=
  { s with teams := s.teams.map (fun e => if e.1 + 1 = t then (e.1, e.2.publish) else e) }

/-- What a read by `who` of the granule `g` makes known to others: foreign-read bits (R339) and published intervals
(R337). -/
def State.observe (s : State) (who : Who) (g : Nat) : State :=
  let pa := 64 * g
  { s with
    grids := s.grids.map (fun e =>
      if (Map.find e.2.undo g).isSome && !(!who.host && decide (s.unitOf who.grid = some e.2.id)) then
        (e.1, { e.2 with foreign := true }) else e),
    teams := s.teams.map (fun e =>
      match e.2.interval with
      | some iv =>
        if e.2.ownsByte pa && (Map.find iv.log (e.2.granule g)).isSome && (who.host || decide (who.team ≠ e.1 + 1)) then
          (e.1, e.2.publish) else e
      | none => e) }

/-- The version store holds versions of a page: tentative ones, or shadows (R275, R316, R339). -/
def State.holdsVersions (s : State) (l : Leaf) : Bool :=
  s.versions.any (fun v => (s.vaOn l ⟨s.devId, v.pa⟩).isSome) ||
  s.grids.any (fun g => g.2.undo.any (fun u => (s.vaOn l ⟨s.devId, 64 * u.1⟩).isSome))

/-- VHELD of an entry, bit 14, is written as one step against the value that was read, and the page invalidated (R316,
R318). -/
def State.setVheld (s : State) (a : Nat) (l : Leaf) (on : Bool) : State :=
  if (s.tableWord a).getLsbD 14 = on then s
  else State.dropTlb { s with mem := memPut s.mem (a + 1) (memByte s.mem (a + 1) ^^^ 0x40) }
    (fun k => decide (k.asid = l.asid) && decide (k.base = l.base))

/-- VHELD of the entries that map some bytes follows the version store (R316). -/
def State.syncVheld (s : State) (pas : List Nat) : State :=
  let hit := s.pages.filterMap (fun e => match e.2 with
    | .ok l => if pas.any (fun pa => (s.vaOn l ⟨s.devId, pa⟩).isSome) then some (e.1, l) else none
    | _ => none)
  hit.foldl (fun s e => s.setVheld e.1 e.2 (s.holdsVersions e.2)) s

/-- The first write of a unit to a granule takes a place in the version store (R339). The unit loses its protection when the store
is full or the granule is the host's: what it has written is current from then on, as are its later writes (R343). -/
def State.shadow (s : State) (who : Who) (g : Nat) : State :=
  match s.unitOf who.grid with
  | none => s
  | some u =>
    match s.grid? u with
    | none => s
    | some x =>
      if !x.prot || (Map.find x.undo g).isSome then s
      else
        let isHost := match regionOf (64 * g) with
          | .host _ _ => true
          | _ => false
        let full := decide (storeBytes < s.storeUsed (s.tableSlice ⟨s.devId, 64 * g⟩) + 128)
        let x' := if isHost || full then { x with prot := false, undo := [] }
          else { x with undo := Map.insert x.undo g { old := List.replicate 64 none, poison := NatSet.mem s.poison g } }
        { s with grids := Map.insert s.grids u.toNat x' }

/-- The unit of a writer is protected: what it overwrites is kept (R339). -/
def State.shadowing (s : State) (who : Who) : Bool :=
  match (s.unitOf who.grid).bind s.grid? with
  | some x => x.prot
  | none => false

/-- Granules of which the unit of a writer has shadows. -/
def State.shadowed (s : State) (who : Who) : List Nat :=
  match (s.unitOf who.grid).bind s.grid? with
  | some x => x.undo.map (fun e => e.1)
  | none => []

/-- A protected unit's writes go to shadows, and VHELD of the pages follows (R316, R339). -/
def State.shadows (s : State) (who : Who) (gs : List Nat) : State :=
  if s.shadowing who then
    let t := gs.foldl (fun s g => s.shadow who g) s
    t.syncVheld ((if t.shadowing who then gs else gs ++ s.shadowed who).map (64 * ·))
  else s

/-- The level of a writer: that of the shadows of its unit, or 0, below them all. -/
def State.levelOf (s : State) (who : Who) : Nat :=
  match (s.unitOf who.grid).bind s.grid? with
  | some x => if x.prot then x.order else 0
  | none => 0

/-- One byte of a write. A unit keeps the value below its own shadow of the byte. -/
def State.putOne (s : State) (who : Who) (pa : Nat) (x : Byte) : State :=
  let lvl := s.levelOf who
  let s := match (if lvl = 0 then none else (s.unitOf who.grid).bind s.grid?) with
    | none => s
    | some g =>
      match Map.find g.undo (pa / 64) with
      | none => s
      | some sh =>
        if (sh.old.getD (pa % 64) none).isSome then s
        else { s with grids := Map.insert s.grids g.id.toNat { g with
          undo := Map.insert g.undo (pa / 64) { sh with old := sh.old.set (pa % 64) (some (s.byteAt lvl pa)) } } }
  s.putByte lvl pa x

/-- The bytes of a write, one after another. -/
def State.putAll (s : State) (who : Who) (pa : Nat) : List Byte → State
  | [] => s
  | x :: l => (s.putOne who pa x).putAll who (pa + 1) l

/-- The bytes of a write: where no unit has shadows, memory holds what is written (R339). -/
def State.putBytes (s : State) (who : Who) (pa : Nat) (data : List Byte) : State :=
  if s.grids.all (fun e => e.2.undo.isEmpty) then { s with mem := memPuts s.mem pa data } else s.putAll who pa data

/-- Log the prior contents of a scratchpad granule in its team's interval, and publish the interval when the writer
stands outside the team (R336, R337). -/
def State.logGranule (s : State) (who : Who) (g : Nat) : State :=
  { s with teams := s.teams.map (fun e =>
      if e.2.ownsByte (64 * g) then
        match e.2.interval with
        | some iv =>
          let k := e.2.granule g
          let iv := if (Map.find iv.log k).isSome then iv else { iv with log := Map.insert iv.log k (s.granule g, NatSet.mem s.poison g) }
          let iv := if who.host || decide (who.team ≠ e.1 + 1) then { iv with published := true } else iv
          (e.1, { e.2 with interval := some iv })
        | none => e
      else e) }

/-- A store outside the team's scratchpad publishes the writer's own interval (R337). -/
def State.publishStore (s : State) (who : Who) (pa : Nat) : State :=
  match who.team with
  | 0 => s
  | k + 1 =>
    match Map.find s.teams k with
    | none => s
    | some t => if t.ownsByte pa then s else s.publish (k + 1)

/-! ## Tentative versions in reads (R112, R276) -/

/-- The table entry of a frame ID when the ID names an OPEN frame of this module (R272, R276). -/
def State.openFrame (s : State) (f : DWord) : Option Nat :=
  let no := f.toNat % 4096
  let e := Map.getD s.frames no FrameEnt.init
  if f ≠ 0 ∧ BitVec.ofNat 20 (f.toNat / 2 ^ 12 % 2 ^ 20) = s.devId ∧ BitVec.ofNat 8 (f.toNat / 2 ^ 32 % 256) = e.gen ∧
      e.st = .opened then some no else none

/-- The byte a version gives at a physical number. -/
def Version.at (v : Version) (pa : Nat) : Option Byte :=
  if v.pa ≤ pa ∧ pa < v.pa + v.bytes.length then (v.bytes.getD (pa - v.pa) none) else none

/-- Among the versions in home order, the byte of the greatest position accepted by `p`, the latest of equals. -/
def bestVersion (vs : List Version) (p : Version → Bool) (pa : Nat) : Option Byte :=
  (vs.foldl (fun (a : Option (Nat × Byte)) v =>
    if p v then
      match v.at pa with
      | none => a
      | some x =>
        match a with
        | none => some (v.pos, x)
        | some (q, y) => if q ≤ v.pos then some (v.pos, x) else some (q, y)
    else a) none).map Prod.snd

/-- Replace bytes by the versions a frame binding selects (R276). -/
def State.bound (s : State) (frame : DWord) (pa : Nat) (data : List Byte) : List Byte :=
  match s.openFrame frame with
  | none => data
  | some no =>
    let vs := s.versions.filter (fun v => decide (v.frame = no))
    if vs.isEmpty then data
    else (List.range data.length).map (fun i => (bestVersion vs (fun _ => true) (pa + i)).getD (data.getD i 0))

/-! ## Who acts (R103) -/

/-- The lineage of a party. -/
def Party.lineageKey (p : Party) : Nat := Machine.teamKey p.originDev p.gridId p.lineage.toNat

/-- The key of a party's team. -/
def Party.teamKey (p : Party) : Nat := Machine.teamKey p.originDev p.gridId p.teamId.toNat

/-- A grid's number as a module knows it, from the key + 1 of a lineage: GRID_ID is unique per module (R22), and a grid that
another module has launched is none of its own. -/
def gridFor (lin : Nat) (dev : BitVec 20) : BitVec 32 :=
  if lin ≠ 0 ∧ (lin - 1) / 2 ^ 64 = dev.toNat then BitVec.ofNat 32 ((lin - 1) / 2 ^ 32) else 0

/-- The grid of a party as a module knows it. -/
def Party.gridAt (p : Party) (dev : BitVec 20) : BitVec 32 := gridFor (p.lineageKey + 1) dev

/-- The agent that a party is at a module. -/
def Party.who (p : Party) (dev : BitVec 20) : Who := ⟨p.gridAt dev, if p.seed.isSome then 0 else p.teamKey + 1, false⟩

/-! ## Watched words (R81, R179) -/

/-- The core a party stands on or last stood on. -/
def Party.core (p : Party) : Nat :=
  match p.place with
  | .slot c _ => c
  | .flight c => c
  | .queued c => c
  | .parked _ _ => p.homeCore

/-- An expiry lies before the present clk of a core: its clk, the first at or after the time, has passed (R61, R81, R177). -/
def State.clkPast (s : State) (core t : Nat) : Bool :=
  decide ((s.core core).clkBase + ceilDiv ((t - (s.core core).clkAt) * (s.core core).mhz) 1000 < s.clk core)

/-- An expiry's clk has come on a core. -/
def State.clkCome (s : State) (core t : Nat) : Bool :=
  decide ((s.core core).clkBase + ceilDiv ((t - (s.core core).clkAt) * (s.core core).mhz) 1000 ≤ s.clk core)

/-- A bundle watches a written byte (R81, R179). -/
def Bundle.watches (b : Bundle) (dev : BitVec 20) (pa n : Nat) : Bool :=
  b.watched.any (fun w => decide (w.loc.dev = dev) && decide (w.loc.pa < pa + n) && decide (pa < w.loc.pa + w.n))

/-- The bundle executes its word again; a timeout keeps running. -/
def Bundle.wake (b : Bundle) : Bundle :=
  match b.phase with
  | .held (.watch (some t)) => { b with phase := .running, stalled := false, ans := Map.insert b.ans 64 (.due t) }
  | .held (.watch none) => { b with phase := .running, stalled := false }
  | .held .grid => { b with phase := .running, stalled := false }
  | _ => b

/-- A watched word as its lane reads it (R112). -/
def State.seesAt (s : State) (w : Watch) : Nat := leNat (s.bound w.frame w.loc.pa (memBytes s.mem w.loc.pa w.n))

/-- A watched word differs from the value it is compared with. -/
def State.differs (s : State) (w : Watch) : Bool := decide (s.seesAt w ≠ w.cmp)

/-- A write re-evaluates a bundle's watched words on a core: where one differs, the outcome of that comparison is kept for the
word to complete with, by lane with a mark under number 71, or under 70 the value that `gridwait` reads (R81, R179). A
timeout whose clk has passed has taken effect before. -/
def State.reevaluate (s : State) (core : Nat) (b : Bundle) : Bundle :=
  match b.phase with
  | .held (.watch due) =>
    let late := match due with
      | some t => s.clkPast core t
      | none => false
    if late || b.watched.any s.differs then
      let found := b.watched.foldl (fun m w => Map.insert m w.lane (.flag (!late && s.differs w))) b.ans
      { b with phase := .running, stalled := false, ans := Map.insert found 71 .go }
    else b
  | .held .grid =>
    (match b.watched.find? s.differs with
      | some w => { b with phase := .running, stalled := false, ans := Map.insert b.ans 70 (.val (BitVec.ofNat 64 (s.seesAt w))) }
      | none => b)
  | _ => b

/-- The reference bit of the page that holds a byte is set by every access applied at its home (R69). -/
def State.touch (s : State) (pa : Nat) : State :=
  match regionOf pa with
  | .dram sl _ =>
    let k := s.stk (sl / 32)
    s.setStk (sl / 32) { k with refd := NatSet.add k.refd (pa / 65536) }
  | _ => s

/-- The granules that `n` bytes at `pa` touch. -/
def granules (pa n : Nat) : List Nat :=
  if n = 0 then [] else (List.range (granuleOf (pa + n - 1) - granuleOf pa + 1)).map (fun i => granuleOf pa + i)

/-- What a read of bytes as one step of the home's order does beside giving them: their granules are observed, and their frame is
referenced (R69, R337, R339). -/
def State.see (s : State) (who : Who) (pa n : Nat) : State := ((granules pa n).foldl (fun s g => s.observe who g) s).touch pa

/-- The comparisons of `watch` and of `gridwait` that a write brings about read their words (R81, R101). -/
def State.seeWatched (s : State) (pa n : Nat) : State :=
  let reads := s.parties.flatMap (fun e => (e.2.bundles.filter (fun b => b.watches s.devId pa n)).flatMap (fun b =>
    b.watched.map (fun w => (e.2.who s.devId, w))))
  reads.foldl (fun s x => s.see x.1 x.2.loc.pa x.2.n) s

/-- A write re-evaluates the bundles that watch its bytes (R81). -/
def State.wakeWatchers (s : State) (pa n : Nat) : State :=
  { s with parties := s.parties.map (fun e =>
      if e.2.bundles.any (fun b => b.watches s.devId pa n) then
        (e.1, { e.2 with bundles := e.2.bundles.map (fun b => if b.watches s.devId pa n then s.reevaluate e.2.core b else b) })
      else e) }

/-! ## Reads and writes as steps of a home -/

/-- Whether some byte of a range is poisoned (R335). -/
def State.poisoned (s : State) (pa n : Nat) : Bool := (granules pa n).any (fun g => NatSet.mem s.poison g)

/-- Write bytes at a physical number as one step of the home's order, for an agent (R103). -/
def State.store (s : State) (who : Who) (pa : Nat) (data : List Byte) : State :=
  let n := data.length
  let s := ((granules pa n).foldl (fun s g => s.logGranule who g) (s.publishStore who pa)).shadows who (granules pa n)
  let whole := (granules pa n).filter (fun g => decide (pa ≤ 64 * g) && decide (64 * g + 64 ≤ pa + n))
  let lvl := s.levelOf who
  let s := whole.foldl (fun (s : State) g => s.setPoison lvl g false) (s.putBytes who pa data)
  ((s.touch pa).seeWatched pa n).wakeWatchers pa n

/-- Read bytes at a physical number as one step of the home's order, for an agent. -/
def State.load (s : State) (who : Who) (pa n : Nat) : List Byte × State :=
  (memBytes s.mem pa n, s.see who pa n)

end Sys2Proof.Machine
end

