-- ==== Sys2Proof/Machine/Numbers.lean ====
section
/-!
DEFINITION. Numbers (R117 to R131): formats, exact values, rounding with its flags, conversions, and the correctly
rounded functions. Values are formed exactly in Nat and Int and narrowed once, by `roundTo`.
-/

namespace Sys2Proof.Machine

/-! ## Flags of FPFLAGS (R127) -/

/-- INVALID (R127). -/
def fInvalid : BitVec 16 := 1
/-- DIV_ZERO (R127). -/
def fDivZero : BitVec 16 := 2
/-- OVERFLOW (R127). -/
def fOverflow : BitVec 16 := 4
/-- UNDERFLOW (R127). -/
def fUnderflow : BitVec 16 := 8
/-- INEXACT (R127). -/
def fInexact : BitVec 16 := 16
/-- SATURATED (R127). -/
def fSaturated : BitVec 16 := 32

/-! ## Formats (R117, R119, R120) -/

/-- How a format ends its top binade (R119). -/
inductive TopKind where
  | ieee                       -- infinities and NaNs
  | e4m3                       -- one NaN code per sign
  | plain                      -- neither
deriving DecidableEq, Repr

/-- Layout of a floating-point format (R119). -/
structure FpFmt where
  e    : Nat
  m    : Nat
  bias : Int
  top  : TopKind
deriving DecidableEq, Repr

/-- FP32 (R119). -/
def fmtFP32 : FpFmt := ⟨8, 23, 127, .ieee⟩
/-- FP16 (R119). -/
def fmtFP16 : FpFmt := ⟨5, 10, 15, .ieee⟩
/-- BF16 (R119). -/
def fmtBF16 : FpFmt := ⟨8, 7, 127, .ieee⟩

/-- The layout behind a format code 0 to 7 (R117, R119). -/
def fpFmt : Nat → Option FpFmt
  | 0 => some fmtFP32
  | 1 => some fmtFP16
  | 2 => some fmtBF16
  | 3 => some ⟨4, 3, 7, .e4m3⟩
  | 4 => some ⟨5, 2, 15, .ieee⟩
  | 5 => some ⟨3, 2, 3, .plain⟩
  | 6 => some ⟨2, 3, 1, .plain⟩
  | 7 => some ⟨2, 1, 1, .plain⟩
  | _ => none

/-- The greatest finite code without its sign (R119). -/
def FpFmt.maxCode (f : FpFmt) : Nat :=
  match f.top with
  | .ieee => (2 ^ f.e - 1) * 2 ^ f.m - 1
  | .e4m3 => 2 ^ (f.e + f.m) - 2
  | .plain => 2 ^ (f.e + f.m) - 1

/-- The sign bit of a format. -/
def FpFmt.signBit (f : FpFmt) : Nat := 2 ^ (f.e + f.m)

/-- The canonical NaN (R120); +0 stands in for formats without NaN (R126). -/
def FpFmt.nanCode (f : FpFmt) : Nat :=
  match f.top with
  | .ieee => (2 ^ f.e - 1) * 2 ^ f.m + 2 ^ (f.m - 1)
  | .e4m3 => 2 ^ (f.e + f.m) - 1
  | .plain => 0

/-- The infinity code without its sign (R119). -/
def FpFmt.infCode (f : FpFmt) : Nat := (2 ^ f.e - 1) * 2 ^ f.m

/-! ## Values -/

/-- A value: NaN (signalling or not), an infinity, or `mant * 2^exp` with a sign; `sticky` says that the magnitude lies
strictly between that and the next multiple of `2^exp`. -/
inductive Val where
  | nan (sig : Bool)
  | inf (neg : Bool)
  | fin (neg : Bool) (mant : Nat) (exp : Int) (sticky : Bool)
deriving DecidableEq, Repr

/-- An exact value. -/
def Val.exact (neg : Bool) (mant : Nat) (exp : Int) : Val := .fin neg mant exp false

/-- A zero of a sign. -/
def Val.zero (neg : Bool) : Val := .fin neg 0 0 false

/-- Whether a value is a NaN. -/
def Val.isNan : Val → Bool
  | .nan _ => true
  | _ => false

/-- Whether a value is a signalling NaN (R120). -/
def Val.isSig : Val → Bool
  | .nan s => s
  | _ => false

/-- Whether a value is infinite. -/
def Val.isInf : Val → Bool
  | .inf _ => true
  | _ => false

/-- Whether a value is a zero. -/
def Val.isZero : Val → Bool
  | .fin _ m _ s => decide (m = 0) && !s
  | _ => false

/-- The sign of a value. -/
def Val.neg : Val → Bool
  | .nan _ => false
  | .inf n => n
  | .fin n _ _ _ => n

/-- The value with its sign reversed. -/
def Val.negate : Val → Val
  | .nan s => .nan s
  | .inf n => .inf (!n)
  | .fin n m e s => .fin (!n) m e s

/-- The value times a power of two. -/
def Val.scale (k : Int) : Val → Val
  | .fin n m e s => .fin n m (e + k) s
  | v => v

/-- The value of a code (R119, R120). -/
def decodeFp (f : FpFmt) (code : Nat) : Val :=
  let neg := (code / f.signBit) % 2 == 1
  let ef := (code / 2 ^ f.m) % 2 ^ f.e
  let mf := code % 2 ^ f.m
  if f.top == .ieee && ef == 2 ^ f.e - 1 then
    if mf == 0 then .inf neg else .nan (mf / 2 ^ (f.m - 1) == 0)
  else if f.top == .e4m3 && ef == 2 ^ f.e - 1 && mf == 2 ^ f.m - 1 then .nan false
  else if ef == 0 then .fin neg mf (1 - f.bias - f.m) false
  else .fin neg (2 ^ f.m + mf) (ef - f.bias - f.m) false

/-- The value of an FP32 word. -/
def val32 (x : Word) : Val := decodeFp fmtFP32 x.toNat

/-- The value of an MXINT8 code (R121). -/
def decodeMxInt8 (code : Nat) : Val :=
  let c := code % 256
  if c < 128 then .fin false c (-6) false else .fin true (256 - c) (-6) false

/-! ## Rounding (R124, R126) -/

/-- Rounding modes (R124). -/
inductive RMode where
  | rne | rz | sr
deriving DecidableEq, Repr

/-- The magnitude in units of `2^q` after rounding, and whether the rounding was inexact (R124 steps 1 to 3). -/
def roundUnits (mant : Nat) (exp : Int) (sticky : Bool) (q : Int) (mode : RMode) (w : Word) : Nat × Bool :=
  if q ≤ exp then
    let k := mant * 2 ^ (exp - q).toNat
    match mode with
    | .rne => (k, sticky)
    | .rz => (k, sticky)
    | .sr => (k, sticky)
  else
    let sh := (q - exp).toNat
    let k := mant / 2 ^ sh
    let rem := mant % 2 ^ sh
    let inexact := decide (rem ≠ 0) || sticky
    let up : Bool :=
      match mode with
      | .rne => decide (2 * rem > 2 ^ sh) || (decide (2 * rem = 2 ^ sh) && (sticky || decide (k % 2 = 1)))
      | .rz => false
      | .sr => decide (rem * 2 ^ 32 / 2 ^ sh + w.toNat ≥ 2 ^ 32)
    (if up then k + 1 else k, inexact)

/-- The position of the leading bit of a magnitude. -/
def leadExp (mant : Nat) (exp : Int) : Int := (Nat.log2 mant : Int) + exp

/-- The code and flags of an overflowing magnitude (R126). -/
def overflowTo (f : FpFmt) (neg : Bool) (mode : RMode) (sat : Bool) : Nat × BitVec 16 :=
  let sgn := if neg then f.signBit else 0
  let base := fOverflow ||| fInexact
  match f.top with
  | .plain => (sgn + f.maxCode, base ||| fSaturated)
  | .e4m3 =>
    if sat then (sgn + f.maxCode, base ||| fSaturated)
    else if mode = .rz then (sgn + f.maxCode, base) else (f.nanCode, base)
  | .ieee =>
    if sat then (sgn + f.maxCode, base ||| fSaturated)
    else if mode = .rz then (sgn + f.maxCode, base) else (sgn + f.infCode, base)

/-- `round(x, fmt, mode)` of R124 with the special values of R126, for a format of R119: the code and the flags. -/
def roundFp (fmt : Nat) (f : FpFmt) (mode : RMode) (sat : Bool) (w : Word) : Val → Nat × BitVec 16
  | .nan _ =>
    match f.top with
    | .plain => (0, fInvalid)
    | _ => (f.nanCode, 0)
  | .inf neg =>
    let sgn := if neg then f.signBit else 0
    match f.top with
    | .plain => (sgn + f.maxCode, fSaturated)
    | .e4m3 => if sat then (sgn + f.maxCode, fSaturated) else (f.nanCode, fInvalid)
    | .ieee => if sat && fmt != 0 then (sgn + f.maxCode, fSaturated) else (sgn + f.infCode, 0)
  | .fin neg mant exp sticky =>
    let sgn := if neg then f.signBit else 0
    if mant = 0 then
      if sticky then (sgn, fUnderflow ||| fInexact) else (sgn, 0)
    else
      let emin : Int := 1 - f.bias
      let e := leadExp mant exp
      let q := max e emin - f.m
      let (k, inexact) := roundUnits mant exp sticky q mode w
      -- the rounded magnitude is k * 2^q
      let maxMant := 2 ^ f.m + f.maxCode % 2 ^ f.m
      let maxQ : Int := (f.maxCode / 2 ^ f.m : Nat) - f.bias - f.m
      let ovf : Bool :=
        if q < maxQ then decide (k > maxMant * 2 ^ (maxQ - q).toNat)
        else decide (k * 2 ^ (q - maxQ).toNat > maxMant)
      if ovf then overflowTo f neg mode sat
      else
        let tiny : Bool :=
          if e ≥ emin then false
          else
            let qu := e - f.m
            let (ku, _) := roundUnits mant exp sticky qu mode w
            decide (ku < 2 ^ (emin - qu).toNat)
        let base : Int := q + f.m + f.bias
        let code := (base.toNat * 2 ^ f.m + k) - 2 ^ f.m
        let fl := (if inexact then fInexact else 0) ||| (if tiny && inexact then fUnderflow else 0)
        (sgn + code, fl)

/-- Rounding to MXINT8: the grid of `2^-6`, clamped (R121, R125, R126; log 28). -/
def roundMxInt8 (mode : RMode) (w : Word) : Val → Nat × BitVec 16
  | .nan _ => (0, fInvalid)
  | .inf neg => (if neg then 0x81 else 0x7F, fSaturated)
  | .fin neg mant exp sticky =>
    let (k, inexact) := roundUnits mant exp sticky (-6) mode w
    if k > 127 then (if neg then 0x81 else 0x7F, fInexact ||| fSaturated)
    else (if neg then (256 - k) % 256 else k, if inexact then fInexact else 0)

/-- `round` to a format code 0 to 8 (R117, R124, R126). -/
def roundTo (fmt : Nat) (mode : RMode) (sat : Bool) (w : Word) (x : Val) : Nat × BitVec 16 :=
  if fmt = 8 then roundMxInt8 mode w x
  else
    match fpFmt fmt with
    | some f => roundFp fmt f mode sat w x
    | none => (0, 0)

/-- `round` to FP32 under RNE without saturation: the word. -/
def rne32 (x : Val) : Word := BitVec.ofNat 32 (roundTo 0 .rne false 0 x).1

/-! ## Exact arithmetic on values -/

/-- Signed integer part of a finite value in units of `2^q`, `q` not above its exponent. -/
def unitsAt (neg : Bool) (mant : Nat) (exp q : Int) : Int :=
  let k : Int := (mant * 2 ^ (exp - q).toNat : Nat)
  if neg then -k else k

/-- A finite value from a signed count of units; `zneg` is the sign of an exact zero. -/
def ofUnits (k q : Int) (zneg : Bool) : Val :=
  if k = 0 then Val.zero zneg else .fin (decide (k < 0)) k.natAbs q false

/-- The exact sum of two values; a sum of infinities of both signs is a NaN (R206). An exact zero sum is -0 only when
both addends are -0. -/
def addVal : Val → Val → Val
  | .nan a, .nan b => .nan (a || b)
  | .nan a, _ => .nan a
  | _, .nan b => .nan b
  | .inf a, .inf b => if a = b then .inf a else .nan false
  | .inf a, _ => .inf a
  | _, .inf b => .inf b
  | .fin na ma ea _, .fin nb mb eb _ =>
    let q := min ea eb
    ofUnits (unitsAt na ma ea q + unitsAt nb mb eb q) q (decide (ma = 0) && decide (mb = 0) && na && nb)

/-- The exact product of two values; zero times infinity is a NaN (R206). -/
def mulVal : Val → Val → Val
  | .nan a, .nan b => .nan (a || b)
  | .nan a, _ => .nan a
  | _, .nan b => .nan b
  | .inf a, .inf b => .inf (a != b)
  | .inf a, .fin b m _ _ => if m = 0 then .nan false else .inf (a != b)
  | .fin b m _ _, .inf a => if m = 0 then .nan false else .inf (a != b)
  | .fin na ma ea _, .fin nb mb eb _ => .fin (na != nb) (ma * mb) (ea + eb) false

/-- INVALID when a NaN arose from operands that are not NaN, or an operand is signalling (R120, R127). -/
def invalidOf (ops : List Val) (r : Val) : BitVec 16 :=
  if ops.any Val.isSig || (r.isNan && !(ops.any Val.isNan)) then fInvalid else 0

/-- Bits of precision of divisions, roots and transcendental approximations. -/
def precBits : Nat := 256

/-- The exact quotient, to `precBits` bits and a sticky bit (R206). -/
def divVal : Val → Val → Val
  | .nan a, .nan b => .nan (a || b)
  | .nan a, _ => .nan a
  | _, .nan b => .nan b
  | .inf _, .inf _ => .nan false
  | .inf a, .fin b _ _ _ => .inf (a != b)
  | .fin a _ _ _, .inf b => Val.zero (a != b)
  | .fin na ma ea _, .fin nb mb eb _ =>
    if mb = 0 then (if ma = 0 then .nan false else .inf (na != nb))
    else if ma = 0 then Val.zero (na != nb)
    else
      let num := ma * 2 ^ precBits
      .fin (na != nb) (num / mb) (ea - eb - precBits) (decide (num % mb ≠ 0))

/-- Integer square root by bits, from bit `n` down. -/
def isqrtFrom : Nat → Nat → Nat → Nat
  | 0, _, r => r
  | n + 1, x, r =>
    let t := r + 2 ^ n
    isqrtFrom n x (if t * t ≤ x then t else r)

/-- The integer square root. -/
def isqrt (x : Nat) : Nat := isqrtFrom (Nat.log2 x / 2 + 1) x 0

/-- The square root of a positive magnitude with a sticky bit (R208). -/
def sqrtMag (mant : Nat) (exp : Int) : Val :=
  let m := if exp % 2 = 0 then mant else 2 * mant
  let e := if exp % 2 = 0 then exp else exp - 1
  let x := m * 2 ^ (2 * precBits)
  let r := isqrt x
  .fin false r (e / 2 - precBits) (decide (r * r ≠ x))

/-- The reciprocal square root of a positive magnitude with a sticky bit (R208). -/
def rsqrtMag (mant : Nat) (exp : Int) : Val :=
  let m := if exp % 2 = 0 then mant else 2 * mant
  let e := if exp % 2 = 0 then exp else exp - 1
  let num := 2 ^ (4 * precBits)
  let r := isqrt (num / m)
  .fin false r (-(e / 2) - 2 * precBits) (decide (r * r * m ≠ num))

/-! ## Transcendental functions (R208; log 13)

Fixed point with 320 fraction bits; the results are irrational save at the exact cases, which are handled apart, so
the sticky bit is set. -/

/-- Fraction bits of the fixed-point work. -/
def fxBits : Nat := 320

/-- One in fixed point. -/
def fxOne : Nat := 2 ^ fxBits

/-- Terms of `sum z^(2k+1)/(2k+1)`: the inverse hyperbolic tangent of `z`, in fixed point, with `n` terms from `2k+1 = d`. -/
def fxAtanhFrom : Nat → Nat → Nat → Nat → Nat
  | 0, _, _, _ => 0
  | n + 1, p, z2, d => p / d + fxAtanhFrom n (p * z2 / fxOne) z2 (d + 2)

/-- The natural logarithm of `num / den`, between 1 and 2, in fixed point. -/
def fxLn (num den : Nat) : Nat :=
  let z := (num - den) * fxOne / (num + den)
  2 * fxAtanhFrom 104 z (z * z / fxOne) 1

/-- ln 2 in fixed point. -/
def fxLn2 : Nat := fxLn 2 1

/-- Terms of the exponential series, `n` terms from term `t = x^k/k!`. -/
def fxExpFrom : Nat → Nat → Nat → Nat → Nat
  | 0, _, _, _ => 0
  | n + 1, t, x, k => t + fxExpFrom n (t * x / fxOne / k) x (k + 1)

/-- `e^x` for `x` from 0 to 1, in fixed point. -/
def fxExp (x : Nat) : Nat := fxExpFrom 72 fxOne x 1

/-- `2^a` for a finite nonzero `a` (R208). -/
def exp2Mag (neg : Bool) (mant : Nat) (exp : Int) : Val :=
  -- beyond these magnitudes every mode gives the same outcome as at the bound
  if leadExp mant exp ≥ 9 then
    .fin false 1 (if neg then -600 else 600) true
  else if 0 ≤ exp then
    let n : Int := (mant * 2 ^ exp.toNat : Nat)
    Val.exact false 1 (if neg then -n else n)
  else
    let d := 2 ^ (-exp).toNat
    let ip := mant / d
    let fr := mant % d
    if fr = 0 then Val.exact false 1 (if neg then -(ip : Int) else ip)
    else
      -- a = n + f with 0 < f < 1
      let n : Int := if neg then -(ip : Int) - 1 else ip
      let f := if neg then d - fr else fr
      let y := fxExp (f * fxLn2 / d)
      .fin false y (n - fxBits) true

/-- The base-2 logarithm of a positive magnitude (R208). -/
def log2Mag (mant : Nat) (exp : Int) : Val :=
  let l := Nat.log2 mant
  let e : Int := (l : Int) + exp
  if mant = 2 ^ l then ofUnits e 0 false
  else
    let fr := fxLn mant (2 ^ l) * fxOne / fxLn2
    let tot : Int := e * (fxOne : Int) + fr
    -- the exact value lies strictly between tot and tot + 1
    if 0 ≤ tot then .fin false tot.toNat (-(fxBits : Int)) true
    else .fin true (-tot - 1).toNat (-(fxBits : Int)) true

/-- The hyperbolic tangent of a nonzero magnitude (R208). -/
def tanhMag (neg : Bool) (mant : Nat) (exp : Int) : Val :=
  let e := leadExp mant exp
  if e < -60 then .fin neg (mant * 2 ^ 64 - 1) (exp - 64) true
  else if e ≥ 6 then .fin neg (fxOne - 1) (-(fxBits : Int)) true
  else
    -- 2|a| = n ln 2 + r
    let x := if 0 ≤ exp then 2 * mant * 2 ^ exp.toNat * fxOne else 2 * mant * fxOne / 2 ^ (-exp).toNat
    let n := x / fxLn2
    let y := fxExp (x - n * fxLn2) * 2 ^ n
    let q := (y - fxOne) * fxOne / (y + fxOne)
    .fin neg q (-(fxBits : Int)) true

/-! ## Codebook (R123) -/

/-- Entry `i` of a codebook: a BF16 code. -/
def bookEntry (book : BitVec 256) (i : Nat) : Nat := (book >>> (16 * (i % 16))).toNat % 2 ^ 16

/-- The value of entry `i`. -/
def bookVal (book : BitVec 256) (i : Nat) : Val := decodeFp fmtBF16 (bookEntry book i)

/-- Compare two finite values as reals. -/
def leVal : Val → Val → Bool
  | .fin na ma ea _, .fin nb mb eb _ =>
    let q := min ea eb
    decide (unitsAt na ma ea q ≤ unitsAt nb mb eb q)
  | .inf true, _ => true
  | _, .inf false => true
  | _, _ => false

/-- The first index, from `i` on, whose entry satisfies a test. -/
def bookFirst (book : BitVec 256) (p : Val → Bool) : Nat → Nat → Option Nat
  | 0, _ => none
  | n + 1, i => if p (bookVal book i) then some i else bookFirst book p n (i + 1)

/-- The first index of the greatest entry under an order, among non-NaN entries. -/
def bookBest (book : BitVec 256) (le : Val → Val → Bool) : Nat → Nat → Option Nat → Option Nat
  | 0, _, best => best
  | n + 1, i, best =>
    let v := bookVal book i
    if v.isNan then bookBest book le n (i + 1) best
    else
      match best with
      | none => bookBest book le n (i + 1) (some i)
      | some j => bookBest book le n (i + 1) (if le v (bookVal book j) then some j else some i)

/-- `|x - entry|` for finite values. -/
def distVal (x v : Val) : Val :=
  match addVal x v.negate with
  | .fin _ m e _ => .fin false m e false
  | r => r

/-- The index of the nearest finite entry (R123). -/
def bookNear (book : BitVec 256) (x : Val) : Nat → Nat → Option Nat → Nat
  | 0, _, best => best.getD 0
  | n + 1, i, best =>
    let v := bookVal book i
    if v.isNan || v.isInf then bookNear book x n (i + 1) best
    else
      match best with
      | none => bookNear book x n (i + 1) (some i)
      | some j =>
        bookNear book x n (i + 1) (if leVal (distVal x (bookVal book j)) (distVal x v) then some j else some i)

/-- `cb4_encode` of R123 with its flag. -/
def cb4Encode (book : BitVec 256) (x : Val) : Nat × BitVec 16 :=
  match x with
  | .nan _ => ((bookFirst book Val.isNan 16 0).getD 0, fInvalid)
  | .inf neg =>
    match bookFirst book (fun v => v == .inf neg) 16 0 with
    | some i => (i, 0)
    | none =>
      let le := fun a b => if neg then leVal b a else leVal a b
      ((bookBest book le 16 0 none).getD 0, 0)
  | .fin .. => (bookNear book x 16 0 none, 0)

/-! ## Elements (R71, R73, R122, R213) -/

/-- The value of an unscaled code of a format 0 to 9. -/
def codeVal (fmt code : Nat) (book : BitVec 256) : Val :=
  if fmt = 8 then decodeMxInt8 code
  else if fmt = 9 then bookVal book (code % 16)
  else
    match fpFmt fmt with
    | some f => decodeFp f (code % 2 ^ (f.e + f.m + 1))
    | none => Val.zero false

/-- FP32 of a code under an E8M0 scale, RNE (R73, R122, R216); without a scale the decode is exact. -/
def decodeElem (fmt code : Nat) (book : BitVec 256) (scale : Option Nat) : Word × BitVec 16 :=
  match scale with
  | some 255 => (0x7FC00000, if (codeVal fmt code book).isSig then fInvalid else 0)
  | some s =>
    let v := codeVal fmt code book
    let r := roundTo 0 .rne false 0 (v.scale ((s : Int) - 127))
    (BitVec.ofNat 32 r.1, r.2 ||| (if v.isSig then fInvalid else 0))
  | none =>
    let v := codeVal fmt code book
    (rne32 v, if v.isSig then fInvalid else 0)

/-- The code of an FP32 value under an E8M0 scale (R73, R123, R216). -/
def encodeElem (fmt : Nat) (x : Word) (book : BitVec 256) (scale : Option Nat) (mode : RMode) (sat : Bool) (w : Word) :
    Nat × BitVec 16 :=
  if fmt = 9 then cb4Encode book (val32 x)
  else
    match scale with
    | some 255 => roundTo fmt mode sat w (.nan false)
    | some s => roundTo fmt mode sat w ((val32 x).scale (127 - (s : Int)))
    | none => roundTo fmt mode sat w (val32 x)

/-- Whether a format carries block scales (R71). -/
def isScaled (fmt : Nat) : Bool := decide (3 ≤ fmt) && decide (fmt ≤ 8)

/-- Data-plane bits per element (R71). -/
def planeBits (fmt : Nat) : Nat :=
  if fmt = 0 then 32 else if fmt ≤ 2 then 16 else if fmt = 3 ∨ fmt = 4 ∨ fmt = 8 then 8 else 4

/-- Whether a format has a companion plane (R71). -/
def hasComp (fmt : Nat) : Bool := decide (fmt = 5) || decide (fmt = 6)

/-- The scale of a block from its values (R215): 0xFF for a NaN or an infinity, 0 for zeros. -/
def blockScale (fmt : Nat) (vals : List Val) : Nat :=
  let emax : Int := match fmt with
    | 3 => 8
    | 4 => 15
    | 5 => 4
    | 6 => 2
    | 7 => 2
    | _ => 0
  if vals.any (fun v => v.isNan || v.isInf) then 255
  else
    let top := vals.foldl (fun (a : Option Int) v =>
      match v with
      | .fin _ m e _ => if m = 0 then a else
          match a with
          | none => some (leadExp m e)
          | some x => some (max x (leadExp m e))
      | _ => a) none
    match top with
    | none => 0
    | some l => (min 254 (max 0 (l - emax + 127))).toNat

/-! ## The FP family on values of one format (R206 to R209) -/

/-- The rounded sum, with flags. An exact zero sum is +0 unless both addends are -0. -/
def fpAdd (fmt : Nat) (mode : RMode) (sat : Bool) (w : Word) (a b : Val) : Nat × BitVec 16 :=
  let r := addVal a b
  let x := roundTo fmt mode sat w r
  (x.1, x.2 ||| invalidOf [a, b] r)

/-- The rounded product, with flags. -/
def fpMul (fmt : Nat) (mode : RMode) (sat : Bool) (w : Word) (a b : Val) : Nat × BitVec 16 :=
  let r := mulVal a b
  let x := roundTo fmt mode sat w r
  (x.1, x.2 ||| invalidOf [a, b] r)

/-- The fused multiply-add with one rounding, with flags; 0 times infinity is invalid whatever the addend (R206). -/
def fpFma (fmt : Nat) (mode : RMode) (sat : Bool) (w : Word) (a b d : Val) : Nat × BitVec 16 :=
  let p := mulVal a b
  let r := addVal p d
  let x := roundTo fmt mode sat w r
  let bad := p.isNan && !(a.isNan || b.isNan)
  (x.1, x.2 ||| invalidOf [a, b, d] r ||| (if bad then fInvalid else 0))

/-- The rounded quotient, with flags (R206). -/
def fpDiv (mode : RMode) (sat : Bool) (w : Word) (a b : Val) : Nat × BitVec 16 :=
  let r := divVal a b
  let x := roundTo 0 mode sat w r
  let dz := r.isInf && !a.isInf
  (x.1, x.2 ||| invalidOf [a, b] r ||| (if dz then fDivZero else 0))

/-- Order of `fmin` and `fmax`: reals with -0 below +0 (R207). -/
def leMinMax (a b : Val) : Bool :=
  if a.isZero && b.isZero then a.neg || !b.neg else leVal a b

/-- `fmin` or `fmax` on codes (R207): the code and the flags. -/
def fpMinMax (f : FpFmt) (wantMax : Bool) (ca cb : Nat) : Nat × BitVec 16 :=
  let a := decodeFp f ca
  let b := decodeFp f cb
  let fl := if a.isSig || b.isSig then fInvalid else 0
  let r :=
    if a.isNan then (if b.isNan then f.nanCode else cb)
    else if b.isNan then ca
    else if wantMax then (if leMinMax a b then cb else ca)
    else (if leMinMax a b then ca else cb)
  (r, fl)

/-- `frcp` (R208). -/
def fpRcp (mode : RMode) (sat : Bool) (w : Word) (a : Val) : Nat × BitVec 16 :=
  fpDiv mode sat w (Val.exact false 1 0) a

/-- `fsqrt` (R208). -/
def fpSqrt (mode : RMode) (sat : Bool) (w : Word) (a : Val) : Nat × BitVec 16 :=
  let r := match a with
    | .nan s => .nan s
    | .inf true => .nan false
    | .inf false => .inf false
    | .fin n m e _ => if m = 0 then Val.zero n else if n then .nan false else sqrtMag m e
  let x := roundTo 0 mode sat w r
  (x.1, x.2 ||| invalidOf [a] r)

/-- `frsq` (R208). -/
def fpRsq (mode : RMode) (sat : Bool) (w : Word) (a : Val) : Nat × BitVec 16 :=
  let r := match a with
    | .nan s => .nan s
    | .inf true => .nan false
    | .inf false => Val.zero false
    | .fin n m e _ => if m = 0 then .inf n else if n then .nan false else rsqrtMag m e
  let x := roundTo 0 mode sat w r
  (x.1, x.2 ||| invalidOf [a] r ||| (if a.isZero then fDivZero else 0))

/-- `fexp2` (R208). -/
def fpExp2 (mode : RMode) (sat : Bool) (w : Word) (a : Val) : Nat × BitVec 16 :=
  let r := match a with
    | .nan s => .nan s
    | .inf true => Val.zero false
    | .inf false => .inf false
    | .fin n m e _ => if m = 0 then Val.exact false 1 0 else exp2Mag n m e
  let x := roundTo 0 mode sat w r
  (x.1, x.2 ||| invalidOf [a] r)

/-- `flog2` (R208). -/
def fpLog2 (mode : RMode) (sat : Bool) (w : Word) (a : Val) : Nat × BitVec 16 :=
  let r := match a with
    | .nan s => .nan s
    | .inf true => .nan false
    | .inf false => .inf false
    | .fin n m e _ => if m = 0 then .inf true else if n then .nan false else log2Mag m e
  let x := roundTo 0 mode sat w r
  (x.1, x.2 ||| invalidOf [a] r ||| (if a.isZero then fDivZero else 0))

/-- `ftanh` (R208). -/
def fpTanh (mode : RMode) (sat : Bool) (w : Word) (a : Val) : Nat × BitVec 16 :=
  let r := match a with
    | .nan s => .nan s
    | .inf n => Val.exact n 1 0
    | .fin n m e _ => if m = 0 then Val.zero n else tanhMag n m e
  let x := roundTo 0 mode sat w r
  (x.1, x.2 ||| invalidOf [a] r)

/-- The class word of `fcls` (R209). -/
def fpClass (x : Word) : Nat :=
  match val32 x with
  | .nan true => 1
  | .nan false => 2
  | .inf true => 4
  | .inf false => 512
  | .fin n m _ _ =>
    if m = 0 then (if n then 32 else 64)
    else if m < 2 ^ 23 then (if n then 16 else 128)
    else (if n then 8 else 256)

/-- `hdot2` (R211): two products and an FP32 addend, one rounding to FP32. -/
def fpDot2 (mode : RMode) (sat : Bool) (w : Word) (a0 a1 b0 b1 d : Val) : Nat × BitVec 16 :=
  let p0 := mulVal a0 b0
  let p1 := mulVal a1 b1
  let ins := [a0, a1, b0, b1, d]
  let s := addVal (addVal p0 p1) d
  let bad := p0.isNan || p1.isNan || s.isNan
  if bad || ins.any Val.isNan then (0x7FC00000, if ins.any Val.isSig || !(ins.any Val.isNan) then fInvalid else 0)
  else
    -- an exact zero sum is -0 only when every term is -0
    let z := s.isZero && !(p0.isZero && p0.neg && p1.isZero && p1.neg && d.isZero && d.neg)
    roundTo 0 mode sat w (if z then Val.zero false else s)

/-! ## Conversions (R125, R212) -/

/-- A value from a signed integer. -/
def ofInt (k : Int) : Val := ofUnits k 0 false

/-- Float to integer with clamping to `[lo, hi]` (R125). -/
def toIntClamp (mode : RMode) (w : Word) (lo hi : Int) : Val → Int × BitVec 16
  | .nan _ => (0, fInvalid)
  | .inf true => (lo, fInvalid)
  | .inf false => (hi, fInvalid)
  | .fin n m e s =>
    let (k, inexact) := roundUnits m e s 0 mode w
    let x : Int := if n then -(k : Int) else k
    if x < lo then (lo, fInvalid)
    else if hi < x then (hi, fInvalid)
    else (x, if inexact then fInexact else 0)

/-! ## The matrix step (R128) -/

/-- The exact sum of finite terms in units of the least exponent, with whether all terms are -0. -/
def sumVals (l : List Val) : Val :=
  let q := l.foldl (fun (a : Int) v => match v with
    | .fin _ _ e _ => min a e
    | _ => a) 0
  let k := l.foldl (fun (a : Int) v => match v with
    | .fin n m e _ => a + unitsAt n m e q
    | _ => a) 0
  ofUnits k q (l.all (fun v => v.isZero && v.neg))

/-- One element of a matrix step from the tile's element and the products' operands, whose scales are applied (R128). -/
def mmaElement (t : Val) (ops : List (Val × Val)) : Word :=
  let ps := ops.map (fun p => mulVal p.1 p.2)
  let terms := t :: ps
  if terms.any Val.isNan || ops.any (fun p => p.1.isNan || p.2.isNan) then 0x7FC00000
  else
    let pos := terms.any (fun v => v == .inf false)
    let neg := terms.any (fun v => v == .inf true)
    if pos && neg then 0x7FC00000
    else if pos then rne32 (.inf false)
    else if neg then rne32 (.inf true)
    else rne32 (sumVals terms)

end Sys2Proof.Machine
end

