-- ==== Sys2Proof/Machine/Ops.lean ====
section
/-!
DEFINITION. The operations that instructions share: lanes and register access through a run's uncommitted writes
(R25, R27, R136, R139), long-latency results (R26), messages (R56), taking a trap and returning from one
(R41 to R44, R172 to R174), commit and abandonment of runs (R27, R28), and the issue of one word.
-/

namespace Sys2Proof.Machine

open Host

/-! ## Lanes -/

/-- The lanes of a mask, ascending. -/
def lanesOf (m : DWord) : List Nat := (List.range 64).filter (fun l => m.getLsbD l)

/-- The mask of a list of lanes. -/
def maskOf (l : List Nat) : DWord := BitVec.ofNat 64 ((List.range 64).foldl (fun a i => if l.contains i then a + 2 ^ i else a) 0)

/-- Sign extension of an address displacement to 64 bits. -/
def sext64 {n : Nat} (x : BitVec n) : DWord := x.signExtend 64

/-! ## Parties and bundles -/

/-- The party with a number. -/
def State.party? (s : State) (pid : Nat) : Option Party := Map.find s.parties pid

/-- Write a party back. -/
def State.setParty (s : State) (pid : Nat) (p : Party) : State := { s with parties := Map.insert s.parties pid p }

/-- Remove a party. -/
def State.dropParty (s : State) (pid : Nat) : State := { s with parties := Map.erase s.parties pid }

/-- A fresh number, for a party, bundle, message or operation. -/
def State.bump (s : State) : State := { s with keys := s.keys + 1 }

/-- A bundle of a party. -/
def Party.bundle? (p : Party) (bid : Nat) : Option Bundle := p.bundles.find? (fun b => decide (b.id = bid))

/-- Write a bundle back. -/
def Party.setBundle (p : Party) (b : Bundle) : Party :=
  { p with bundles := mapWhere (fun x => decide (x.id = b.id)) (fun _ => b) p.bundles }

/-- Remove a bundle. -/
def Party.dropBundle (p : Party) (bid : Nat) : Party :=
  { p with bundles := p.bundles.filter (fun x => decide (x.id ≠ bid)) }

/-- FIBRE_MASK (R22). -/
def Party.mask (p : Party) : DWord := p.bundles.foldl (fun m b => m ||| b.mask) 0

/-- Whether a party holds a slot. -/
def Party.resident (p : Party) : Bool :=
  match p.place with
  | .slot _ _ => true
  | _ => false

/-- Whether a party is in the active set. -/
def Party.isActive (p : Party) : Bool :=
  match p.place with
  | .slot _ .active => true
  | _ => false

/-- Whether a party is BLOCKED. -/
def Party.isBlocked (p : Party) : Bool :=
  match p.place with
  | .slot _ .blocked => true
  | _ => false

/-- Parties resident on a core. -/
def State.residents (s : State) (core : Nat) : List (Nat × Party) :=
  s.parties.filter (fun e => match e.2.place with
    | .slot c _ => decide (c = core)
    | _ => false)

/-- Party slots of a core that are free (R22); a core out of service has none (R354). -/
def State.freeSlots (s : State) (core : Nat) : Nat :=
  if (s.core core).dead then 0 else 32 - (s.residents core).length

/-- The key of the launch of a party among those of other modules. -/
def Party.visitKey (p : Party) : Nat := p.originDev.toNat * 2 ^ 32 + p.gridId.toNat

/-- What a party's launch gives it (R17, R22); a seed has none. -/
def State.launchOf (s : State) (p : Party) : Option Visit :=
  if p.seed.isSome then none
  else if p.originDev = s.devId then (s.grid? p.gridId).map (fun g => ⟨g.rcd, g.dict, []⟩)
  else Map.find s.visits p.visitKey

/-- Lane state of a lane. -/
def Party.lane (p : Party) (l : Nat) : Lane := Map.getD p.lanes l Lane.init

/-- A bundle waiting at a header. -/
def Bundle.at (id : Nat) (mask pc : DWord) (wb since : Nat) : Bundle :=
  { id := id, mask := mask, pc := pc, wb := wb, since := since, phase := .waiting, run := none, skip := none, jump := mask, gates := [],
    yieldTo := none, yieldOn := [], stalled := false, stallAt := 0, asked := [], ans := [], watched := [] }

/-- An overlay without writes. -/
def Overlay.empty : Overlay :=
  { v := [], preds := [], wb := [], pw := [], fp := [], marks := [], fills := [] }

/-- A bundle waits for its lineage's pending-trap slot, at its trapping instruction or with a delivery that is owed (R42,
R320). -/
def Bundle.onSlot (b : Bundle) : Bool :=
  match b.phase with
  | .held (.trapSlot _ _) => true
  | .held (.owed _ _ _ _ _) => true
  | _ => false

/-- A bundle of the party waits for its lineage's pending-trap slot: the party stays BLOCKED (R42). -/
def Party.slotHeld (p : Party) : Bool := p.bundles.any Bundle.onSlot

/-- The party becomes READY when it is BLOCKED for no other reason (R23). -/
def Party.ready (p : Party) (clk : Nat) : Party :=
  match p.place with
  | .slot c .blocked =>
    if p.stopBy || p.haltBy || p.slotHeld then p
    else { p with place := .slot c .ready, readyAt := clk, beganAt := clk - (p.blockedAt - p.beganAt) }
  | _ => p

/-- The party becomes BLOCKED (R23). -/
def Party.block (p : Party) (clk : Nat) : Party :=
  match p.place with
  | .slot c .active => { p with place := .slot c .blocked, blockedAt := clk }
  | .slot c .ready => { p with place := .slot c .blocked, blockedAt := clk }
  | _ => p

/-- A bundle waits for the answers to further messages from a clk on; inside a run it stalls (R23). -/
def Bundle.askedOf (b : Bundle) (ids : List Nat) (clk : Nat) : Bundle :=
  { b with asked := b.asked ++ ids, stallAt := if b.stalled || !b.asked.isEmpty then b.stallAt else clk }

/-- The answer to a message of a bundle has come: with the last of them a run at whose header it stands is eligible (R36). -/
def Bundle.unask (b : Bundle) (id clk : Nat) : Bundle :=
  let l := b.asked.filter (· ≠ id)
  { b with asked := l, since :=
      if l.isEmpty && !b.asked.isEmpty && (decide (b.phase = .waiting) || decide (b.phase = .fetched)) then clk else b.since }

/-- A bundle that waits for something outside its run. -/
def Bundle.isHeld (b : Bundle) : Bool :=
  match b.phase with
  | .held _ => true
  | .departing _ => true
  | _ => !b.asked.isEmpty

/-! ## Flags and gates (R24, R26, R229) -/

/-- Completion flag `n` of a party is pending. -/
def Party.flagSet (p : Party) (n : Nat) : Bool := p.pend.any (fun o => o.committed && decide (o.flag = some n))

/-- Every completion flag is clear. -/
def Party.flagsClear (p : Party) : Bool := p.pend.all (fun o => !o.committed || o.flag.isNone)

/-- The flags a WAIT mask names are clear (R24). -/
def Party.waitOk (p : Party) (wait : BitVec 12) : Bool :=
  (List.range 12).all (fun n => !(wait.getLsbD n) || !p.flagSet n)

/-- Results that hold back the bundle's next run have been written (R26, R229). -/
def Party.gatesClear (p : Party) (b : Bundle) : Bool :=
  b.gates.all (fun g => !p.pend.any (fun o => decide (o.id = g)))

/-- A bundle that may go on now: it can begin or continue a run, or commit one (R23). -/
def Party.able (p : Party) (b : Bundle) : Bool :=
  b.asked.isEmpty && !b.stalled && !p.slotHeld &&
  match b.phase with
  | .waiting => true
  | .fetched => p.gatesClear b && (match b.run with
      | some r => p.waitOk r.wait
      | none => true)
  | .running => true
  | .executed => true
  | _ => false

/-- A BLOCKED party one of whose bundles may go on becomes READY (R23). -/
def State.recheck (s : State) : State :=
  { s with parties := s.parties.map (fun e =>
      if e.2.isBlocked && e.2.bundles.any e.2.able then (e.1, e.2.ready (s.clk e.2.core)) else e) }

/-! ## The context of an issue -/

/-- What a word sees when it issues: its party, bundle and run, and the active lanes. -/
structure Ctx where
  s    : State
  pid  : Nat
  core : Nat
  p    : Party
  b    : Bundle
  r    : Run
  act  : List Nat

/-- The bundle that the scheduled step executes, with its run. -/
def State.ctx? (s : State) : Option Ctx :=
  match s.actor with
  | .bundle pid bid =>
    match s.party? pid with
    | none => none
    | some p =>
      match p.bundle? bid with
      | none => none
      | some b =>
        match b.run with
        | none => none
        | some r => some ⟨s, pid, p.core, p, b, r, []⟩
  | _ => none

/-- The state with the context written back. -/
def Ctx.save (c : Ctx) : State := c.s.setParty c.pid (c.p.setBundle { c.b with run := some c.r })

/-- Whether the bundle may execute a word of its run now. -/
def Ctx.canIssue (c : Ctx) : Bool :=
  c.p.isActive && decide (c.b.phase = .running) && c.b.asked.isEmpty && decide (c.r.idx < c.r.words.length) &&
  !c.s.consumes.any (fun k => decide (k.party = c.pid))

/-- The word being executed. -/
def Ctx.word (c : Ctx) : FWord := c.r.words.getD c.r.idx { addr := 0, w := 0, govr := none, bad := true }

/-- Its address. -/
def Ctx.here (c : Ctx) : DWord := c.word.addr

/-- The clock count of the core. -/
def Ctx.clk (c : Ctx) : Nat := c.s.clk c.core

/-! ## Hints in force (R146, R147) -/

/-- The payload of the `mod` hint in force, or the values without one (R147), with an absent format as `none`. -/
structure Mods where
  scope : Nat
  order : Nat
  rnd   : Nat
  sat   : Bool
  fmt   : Option Nat

/-- The `mod` fields in force. -/
def Ctx.mods (c : Ctx) : Mods :=
  match c.r.modh with
  | none => ⟨4, 0, 0, false, none⟩
  | some m => ⟨(field m 19 3).toNat, (field m 17 2).toNat, (field m 15 2).toNat, m.getLsbD 14, some (field m 8 6).toNat⟩

/-- A reserved value stands in the `mod` hint in force (R147). -/
def Ctx.modBad (c : Ctx) : Bool :=
  let m := c.mods
  decide (5 ≤ m.scope) || decide (m.rnd = 3) ||
  match m.fmt with
  | none => false
  | some f => decide (10 < f ∧ f < 16) || decide (23 < f)

/-- The rounding mode in force (R124). -/
def Ctx.rmode (c : Ctx) : RMode := if c.mods.rnd = 1 then .rz else if c.mods.rnd = 2 then .sr else .rne

/-- The value of code 62, and the displacement of F-M words (R146, R227). -/
def Ctx.immVal (c : Ctx) : Word :=
  match c.r.imm with
  | none => 0
  | some p => p.signExtend 32

/-- The immediate of an F-I word: `ext` unless an `imm` hint is in force (R141, R146). -/
def Ctx.immOf (c : Ctx) (i : BitVec 10) (ext : Word) : Word :=
  match c.r.imm with
  | none => ext
  | some p => p ++ i

/-! ## Registers through the overlay -/

/-- First register number of the temporaries. -/
def tempBase : Nat := 8192

/-- The window base of a lane, as the run has left it (R165). -/
def Ctx.wbOf (c : Ctx) (l : Nat) : Nat := Map.getD c.r.ov.wb l c.b.wb

/-- The register that a code below 60 names in a lane. -/
def Ctx.regOf (c : Ctx) (n l : Nat) : Nat := if n < 56 then c.wbOf l + n else tempBase + (n - 56)

/-- The key of a register of a lane. -/
def regKey (reg l : Nat) : Nat := reg * 64 + l

/-- The value at a register key. -/
def Ctx.atKey (c : Ctx) (k : Nat) : Word :=
  match Map.find c.r.ov.v k with
  | some x => x
  | none => if k < tempBase * 64 then Map.getD c.p.vregs k 0 else 0

/-- A class V operand (R139). -/
def Ctx.v (c : Ctx) (n l : Nat) : Word :=
  if n < 60 then c.atKey (regKey (c.regOf n l) l)
  else if n = 61 then BitVec.ofNat 32 l
  else if n = 62 then c.immVal
  else 0

/-- A pair operand (R140). -/
def Ctx.v64 (c : Ctx) (n l : Nat) : DWord :=
  if n < 60 then c.v (n + 1) l ++ c.v n l
  else if n = 61 then BitVec.ofNat 64 l
  else if n = 62 then sext64 c.immVal
  else 0

/-- Register `i` of a group that begins at a code; code 60 names zeros (R140). -/
def Ctx.vAt (c : Ctx) (n i l : Nat) : Word := if n < 60 then c.v (n + i) l else 0

/-- Whether a party-wide item is a write of scalar `n`. -/
def PItem.isS (n : Nat) : PItem → Option DWord
  | .s m x => if m = n then some x else none
  | _ => none

/-- Whether a party-wide item is a write of handle `n`. -/
def PItem.isH (n : Nat) : PItem → Option DWord
  | .h m x => if m = n then some x else none
  | _ => none

/-- The last party-wide write that a function recognises. -/
def Overlay.lastOf {α : Type} (o : Overlay) (f : PItem → Option α) : Option α :=
  o.pw.foldl (fun a e => match f e.2.2 with
    | some x => some x
    | none => a) none

/-- A class S operand; `s31` reads 0 (R139). -/
def Ctx.sc (c : Ctx) (n : Nat) : DWord :=
  if n = 31 then 0
  else (c.r.ov.lastOf (PItem.isS n)).getD (Map.getD c.p.scal n 0)

/-- A class H operand. -/
def Ctx.hd (c : Ctx) (n : Nat) : DWord := (c.r.ov.lastOf (PItem.isH n)).getD (Map.getD c.p.hand n 0)

/-- The predicate shift register of a lane, as the run has left it. -/
def Ctx.preds (c : Ctx) (l : Nat) : BitVec 16 := Map.getD c.r.ov.preds l (c.p.lane l).preds

/-- The predicate at a depth. -/
def Ctx.pred (c : Ctx) (d l : Nat) : Bool := (c.preds l).getLsbD d

/-- LIMB_CTL in force (R193, R195). -/
def Ctx.limbCtl (c : Ctx) : Word :=
  (c.r.ov.lastOf (fun i => match i with
    | .limbCtl x => some x
    | _ => none)).getD c.p.limbCtl

/-- LIMB_FLAGS as the run has left them (R194). -/
def Ctx.limbFlags (c : Ctx) : DWord :=
  c.r.ov.pw.foldl (fun a e => match e.2.2 with
    | .limbFlags m x => (a &&& ~~~m) ||| (x &&& m)
    | _ => a) c.p.limbFlags

/-- The codebook in force (R224). -/
def Ctx.book (c : Ctx) : Option (BitVec 256) :=
  (c.r.ov.lastOf (fun i => match i with
    | .cb x => some x
    | _ => none)).getD c.p.cb

/-- The FRAME binding in force (R272). -/
def Ctx.frame (c : Ctx) : DWord :=
  (c.r.ov.lastOf (fun i => match i with
    | .frame x => some x
    | _ => none)).getD c.p.frame

/-! ## Writes into the overlay -/

/-- A destination covers a register of a lane. -/
def Dest.hits (reg l : Nat) : Dest → Bool
  | .v r k => decide (r = reg) && decide (k = l)
  | .fill r k => decide (r = reg) && decide (k = l)
  | _ => false

/-- Discard the late results of the run itself that a function picks: a later write of the run remains (R25, R229). -/
def Ctx.cutLate (c : Ctx) (f : Dest → Bool) : Ctx :=
  { c with p := { c.p with pend := c.p.pend.map (fun o =>
      if o.late && !o.committed && decide (o.bundle = c.b.id) then
        { o with dests := o.dests.map (fun d => if f d then .drop else d) } else o) } }

/-- Write a register of a lane. -/
def Ctx.setReg (c : Ctx) (reg l : Nat) (x : Word) : Ctx :=
  let c := c.cutLate (Dest.hits reg l)
  let k := regKey reg l
  { c with r := { c.r with ov := { c.r.ov with v := Map.insert c.r.ov.v k x, marks := NatSet.del c.r.ov.marks k } } }

/-- Write a class V destination in a lane; code 60 discards (R139). -/
def Ctx.setV (c : Ctx) (n l : Nat) (x : Word) : Ctx := if n < 60 then c.setReg (c.regOf n l) l x else c

/-- Write a pair destination in a lane (R140). -/
def Ctx.setV64 (c : Ctx) (n l : Nat) (x : DWord) : Ctx :=
  if n < 60 then (c.setV n l (x.setWidth 32)).setV (n + 1) l (field x 32 32) else c

/-- A party-wide write, made by some lanes (R157). -/
def Ctx.pwriteBy (c : Ctx) (lanes : List Nat) (i : PItem) : Ctx :=
  { c with
    s := c.s.bump,
    r := { c.r with ov := { c.r.ov with pw := c.r.ov.pw ++ [(maskOf lanes, c.s.keys, i)] } } }

/-- A party-wide write, made by the active lanes (R157). -/
def Ctx.pwrite (c : Ctx) (i : PItem) : Ctx := c.pwriteBy c.act i

/-- Write a class S destination; `s31` discards (R139). -/
def Ctx.setS (c : Ctx) (n : Nat) (x : DWord) : Ctx :=
  if n = 31 then c else (c.cutLate (fun d => decide (d = .s n))).pwrite (.s n x)

/-- Write a class H destination. -/
def Ctx.setH (c : Ctx) (n : Nat) (x : DWord) : Ctx := (c.cutLate (fun d => decide (d = .h n))).pwrite (.h n x)

/-- Replace the predicate register of a lane. -/
def Ctx.setPreds (c : Ctx) (l : Nat) (x : BitVec 16) : Ctx :=
  { c with r := { c.r with ov := { c.r.ov with preds := Map.insert c.r.ov.preds l x } } }

/-- Push onto a predicate register (R158). -/
def pushBit (x : BitVec 16) (v : Bool) : BitVec 16 := (x <<< 1) ||| (BitVec.ofBool v).setWidth 16

/-- Push a predicate in a lane (R158). -/
def Ctx.push (c : Ctx) (l : Nat) (v : Bool) : Ctx := c.setPreds l (pushBit (c.preds l) v)

/-- The number of the last write of FPFLAGS in an overlay, 0 where there is none: conditions raised before it do not reach
the register (R127). -/
def Overlay.fpEpoch (o : Overlay) : Nat :=
  o.pw.foldl (fun a e => match e.2.2 with
    | .fpflags _ => e.2.1
    | _ => a) 0

/-- Add floating-point conditions of a lane (R127). -/
def Ctx.addFp (c : Ctx) (l : Nat) (f : BitVec 16) : Ctx :=
  if f = 0 then c
  else
    let k := c.r.ov.fpEpoch * 64 + l
    { c with r := { c.r with ov := { c.r.ov with fp := Map.insert c.r.ov.fp k (Map.getD c.r.ov.fp k 0 ||| f) } } }

/-- Apply a step to every active lane, ascending. -/
def Ctx.each (c : Ctx) (f : Ctx → Nat → Ctx) : Ctx := c.act.foldl f c

/-- Add an effect of the active lanes, sent at commit (R28). -/
def Ctx.effect (c : Ctx) (i : EffItem) : Ctx :=
  { c with r := { c.r with eff := c.r.eff ++ [⟨maskOf c.act, i⟩] } }

/-- Add an effect of one lane. -/
def Ctx.effectOf (c : Ctx) (l : Nat) (i : EffItem) : Ctx :=
  { c with r := { c.r with eff := c.r.eff ++ [⟨maskOf [l], i⟩] } }

/-! ## Long-latency operations (R25, R26) -/

/-- The destination of register `i` of a group that begins at a code. -/
def Ctx.dest (c : Ctx) (n i l : Nat) : Dest := if n < 60 then .v (c.regOf (n + i) l) l else .drop

/-- A long-latency operation as it is issued. -/
def PendOp.mk' (c : Ctx) (exec : Bool) (dests : List Dest) (vals : List Nat) : PendOp :=
  { id := c.s.keys, bundle := c.b.id, lanes := maskOf c.act, exec := exec, flag := if exec then c.r.setb else c.r.seta,
    committed := false, late := false, acquire := false, ready := true, poison := false, va := 0, pa := 0,
    role := .plain, pc := c.here, trap := none, dests := dests, vals := vals }

/-- A destination names the same register as another. -/
def Dest.same (d e : Dest) : Bool :=
  match d with
  | .v r l => e.hits r l
  | .fill r l => e.hits r l
  | .s _ => decide (d = e)
  | .h _ => decide (d = e)
  | .cb => decide (d = e)
  | .push _ => false
  | .fp _ => false
  | .drop => false

/-- Issue a long-latency operation: its destinations are pending from now on, and a late result of the run for one of them
is discarded (R104, R229). -/
def Ctx.addOp (c : Ctx) (o : PendOp) : Ctx :=
  let c := c.cutLate (fun d => o.dests.any (fun x => x.same d))
  let keys := o.dests.filterMap (fun d => match d with
    | .v r l => some (regKey r l)
    | _ => none)
  { c with
    s := c.s.bump,
    p := { c.p with pend := c.p.pend ++ [o] },
    r := { c.r with ov := { c.r.ov with marks := if o.late then c.r.ov.marks else keys.foldl NatSet.del c.r.ov.marks } } }

/-- A result of the execution class, known at issue. -/
def Ctx.long (c : Ctx) (dests : List Dest) (vals : List Nat) : Ctx := c.addOp (PendOp.mk' c true dests vals)

/-- A result of the memory class, known at issue. -/
def Ctx.longMem (c : Ctx) (dests : List Dest) (vals : List Nat) : Ctx := c.addOp (PendOp.mk' c false dests vals)

/-- An operation stands in the way of a read or write of a register of this bundle's run: it is pending, and it is
not a late result of the run itself (R25). -/
def Ctx.opBlocks (c : Ctx) (o : PendOp) : Bool := !(o.late && !o.committed && decide (o.bundle = c.b.id))

/-- A register of a lane has a pending write (R25). -/
def Ctx.regPending (c : Ctx) (reg l : Nat) : Bool :=
  c.p.pend.any (fun o => c.opBlocks o && o.dests.any (Dest.hits reg l))

/-- A party-wide destination has a pending write (R25). -/
def Ctx.widePending (c : Ctx) (d : Dest) : Bool := c.p.pend.any (fun o => c.opBlocks o && o.dests.contains d)

/-! ## Operands of a word -/

/-- An operand of a word: its class and code, or a further condition on the fields. -/
inductive Arg where
  | vr (c : Nat)
  | vw (c : Nat)
  | pr (c : Nat)
  | pw (c : Nat)
  | qr (c : Nat)
  | qw (c : Nat)
  | gr (c n : Nat)             -- reads `n` registers from a code
  | xr (c : Nat) (at_ : List (Nat × Nat)) -- read by lanes in other lanes: reader and source (R218)
  | sr (c : Nat)
  | sw (c : Nat)
  | hr (c : Nat)
  | hw (c : Nat)
  | need (b : Bool)
deriving DecidableEq, Repr

/-- A pair destination code. -/
def pairCode (n : Nat) : Bool := decide (n ≤ 60) && decide (n % 2 = 0)

/-- A quad code. -/
def quadCode (n : Nat) : Bool := decide (n ≤ 60) && decide (n % 4 = 0)

/-- The code belongs to the operand's class (R139, R140); code 62 needs an `imm` hint in force. -/
def Arg.ok (imm : Bool) : Arg → Bool
  | .vr c => decide (c < 62) || (decide (c = 62) && imm)
  | .xr c _ => decide (c < 62) || (decide (c = 62) && imm)
  | .vw c => decide (c ≤ 60)
  | .pr c => pairCode c || decide (c = 61) || (decide (c = 62) && imm)
  | .pw c => pairCode c
  | .qr c => quadCode c
  | .qw c => quadCode c
  | .gr c n => decide (c + n ≤ 56) || decide (c = 60)
  | .sr c => decide (c < 32)
  | .sw c => decide (c < 32)
  | .hr c => decide (c < 16)
  | .hw c => decide (c < 16)
  | .need b => b

/-- Codes of vector registers that an operand reads. -/
def Arg.reads : Arg → List Nat
  | .vr c => if c < 60 then [c] else []
  | .pr c => if c < 60 then [c, c + 1] else []
  | .qr c => if c < 60 then [c, c + 1, c + 2, c + 3] else []
  | .gr c n => if c < 60 then (List.range n).map (fun i => c + i) else []
  | _ => []

/-- Registers read in other lanes: code, reader and source. -/
def Arg.cross : Arg → List (Nat × Nat × Nat)
  | .xr c l => if c < 60 then l.map (fun e => (c, e.1, e.2)) else []
  | _ => []

/-- Codes that an operand names as read, in whichever lane. -/
def Arg.named : Arg → List Nat
  | .xr c _ => if c < 60 then [c] else []
  | a => a.reads

/-- Codes of vector registers that an operand writes. -/
def Arg.writes : Arg → List Nat
  | .vw c => if c < 60 then [c] else []
  | .pw c => if c < 60 then [c, c + 1] else []
  | .qw c => if c < 60 then [c, c + 1, c + 2, c + 3] else []
  | _ => []

/-- The register a party-wide write replaces; LIMB_FLAGS is replaced integer by integer (R194). -/
def PItem.slot : PItem → Option Nat
  | .s n _ => some n
  | .h n _ => some (64 + n)
  | .cb _ => some 128
  | .frame _ => some 129
  | .limbCtl _ => some 130
  | .limbFlags _ _ => none
  | .rngKey _ _ => some 131
  | .rngStream _ => some 132
  | .fpflags _ => some 133

/-- The number among a party's poisoned registers of a scalar, or of a handle, whose numbers start at 64 (R335). -/
def wideKey (k : Nat) : Nat := 2 ^ 20 + k

/-- Party-wide registers that an operand reads or writes. -/
def Arg.wide : Arg → List Dest
  | .sr c => if c < 31 then [.s c] else []
  | .sw c => if c < 31 then [.s c] else []
  | .hr c => [.h c]
  | .hw c => [.h c]
  | _ => []

/-- Some register that the word reads or writes has a pending write (R25). -/
def Ctx.stalls (c : Ctx) (args : List Arg) : Bool :=
  c.p.pend.any (fun o => c.opBlocks o) &&
  (args.any (fun a => a.wide.any c.widePending) ||
   args.any (fun a => (a.reads ++ a.writes).any (fun n => c.act.any (fun l => c.regPending (c.regOf n l) l))) ||
   args.any (fun a => a.cross.any (fun e => c.act.contains e.2.1 && c.regPending (c.regOf e.1 e.2.2) e.2.2)))

/-- A register of a lane that the run has not written is poisoned (R335). -/
def Ctx.regPoisoned (c : Ctx) (n l : Nat) : Bool :=
  (Map.find c.r.ov.v (regKey (c.regOf n l) l)).isNone && NatSet.mem c.p.poison (regKey (c.regOf n l) l)

/-- Scalars and handles that a field reads, handles from 64 on. -/
def Arg.wideRead : Arg → List Nat
  | .sr c => if c < 31 then [c] else []
  | .hr c => [64 + c]
  | _ => []

/-- A scalar or a handle that the word reads and that the run has not written is poisoned (R335). -/
def Ctx.widePoisoned (c : Ctx) (args : List Arg) : Bool :=
  args.any (fun a => a.wideRead.any (fun k =>
    NatSet.mem c.p.poison (wideKey k) && !c.r.ov.pw.any (fun e => decide (e.2.2.slot = some k))))

/-- The lanes in which the word reads a poisoned register (R335). -/
def Ctx.poisonLanes (c : Ctx) (args : List Arg) : List Nat :=
  if c.p.poison.isEmpty then []
  else c.act.filter (fun l => c.widePoisoned args || args.any (fun a => a.reads.any (fun n => c.regPoisoned n l) ||
    a.cross.any (fun e => decide (e.2.1 = l) && c.regPoisoned e.1 e.2.2)))

/-- Lanes whose guard is true (R136). -/
def Ctx.guarded (c : Ctx) (g : BitVec 4) : List Nat :=
  let d := (field g 0 3).toNat
  (lanesOf c.b.mask).filter (fun l =>
    if d = 7 then !(g.getLsbD 3) else (c.pred d l) != g.getLsbD 3)


/-! ## Messages (R56, R75) -/

/-- The module of a home. -/
def State.devOf (s : State) : Home → BitVec 20
  | .core d _ => d
  | .port _ => s.devId

/-- Put a message of a party into the outbox of a core. Its number is the key counter before. -/
def State.post (s : State) (p : Party) (pid core : Nat) (lanes : DWord) (after : List Nat) (dst : Home) (body : MsgBody) :
    State :=
  { s.bump with net := s.net ++ [{
      id := s.keys, srcDev := s.devId, src := core, dst := dst, party := pid,
      lin := p.lineageKey + 1, lanes := lanes, grid := p.gridAt (s.devOf dst),
      team := if p.seed.isSome then 0 else p.teamKey + 1, asid := p.asid, after := after, applied := false,
      sent := false, waited := s.clk core, orig := 0, asked := false, old := false, qAt := 0, body := body }] }

/-- Put a message of the part itself into the outbox of a core. -/
def State.postPart (s : State) (core : Nat) (dst : Home) (body : MsgBody) : State :=
  { s.bump with net := s.net ++ [{
      id := s.keys, srcDev := s.devId, src := core, dst := dst, party := 0, lin := 0, lanes := 0, grid := 0, team := 0,
      asid := 0, after := [], applied := false, sent := false, waited := s.clk core, orig := 0, asked := false, old := false, qAt := 0, body := body }] }

/-- A message by number. -/
def State.msg? (s : State) (id : Nat) : Option Msg := s.net.find? (fun m => decide (m.id = id))

/-- Put a packet of this module among those that wait for a route; a response returns the tag of what it answers (R361,
R365; log 26). -/
def State.sendPacket (s : State) (dev : BitVec 20) (dst src : Nat) (cls : PClass) (len tag : Nat) (body : PktBody) : State :=
  { s with fab := { s.fab with
      egress := s.fab.egress ++ [{
        dstDev := dev, srcDev := s.devId, dstCore := dst, srcCore := src, cls := cls, stage := 0, len := len, valiant := false,
        mid := 0, tag := tag % 2 ^ 32, hops := 0, body := body }] } }

/-- The core that a message is for. -/
def Home.coreNo : Home → Nat
  | .core _ c => c
  | .port _ => 0

/-- Remove a message, and what waited for it; one that came from another module is acknowledged there (R56, R361). -/
def State.dropMsg (s : State) (id : Nat) : State :=
  let s := match s.msg? id with
    | none => s
    | some m =>
      if m.srcDev = s.devId ∨ m.orig = 0 then s
      else s.sendPacket m.srcDev m.src m.dst.coreNo .ack 1 m.orig (.ack m.orig)
  { s with
    net := (s.net.filter (fun m => decide (m.id ≠ id))).map (fun m => { m with after := m.after.filter (· ≠ id) }),
    engines := s.engines.map (fun e => (e.1, { e.2 with ops := e.2.ops.map (fun o =>
      { o with after := o.after.filter (· ≠ id) }) })),
    parties := s.parties.map (fun e => (e.1, { e.2 with
      fenceW := e.2.fenceW.filter (· ≠ id),
      fenceR := e.2.fenceR.filter (· ≠ id),
      bundles := e.2.bundles.map (fun b => b.unask id (s.clk e.2.core)) })) }

/-- Mark a message applied: its acknowledgement is on the way. -/
def State.markApplied (s : State) (id : Nat) : State :=
  { s with net := mapWhere (fun m => decide (m.id = id)) (fun m => { m with applied := true }) s.net }

/-- Bytes of an outbox (R56). -/
def outboxBytes : Nat := 32 * 1024

/-- Flits of a message's packet: its header flit and its data (R361; log 26). -/
def MsgBody.flits : MsgBody → Nat
  | .write _ d _ => 1 + ceilDiv d.length 64
  | .version _ _ _ _ d => 1 + ceilDiv d.length 64
  | .block _ d _ _ => min 236 (1 + ceilDiv d.length 64)
  | .spill _ _ _ _ _ => 5
  | .claimAns _ _ (some d) _ _ => min 236 (1 + ceilDiv d.length 64)
  | _ => 1

/-- A message that takes room in an outbox: a store, posted operation, memory-side operation, ticket fetch or departure
(R56). -/
def MsgBody.boxed : MsgBody → Bool
  | .write _ _ _ => true
  | .elem _ _ _ _ _ => true
  | .atomic _ _ _ _ _ _ => true
  | .fetch _ => true
  | .att _ _ _ _ _ => true
  | .mso _ _ _ _ => true
  | .version _ _ _ _ _ => true
  | .block _ _ _ _ => true
  | .spill _ _ _ _ _ => true
  | .context _ => true
  | _ => false

/-- Length of a party's record in flits, with its LIVE_MAP (R51). -/
def Party.flits (p : Party) : Nat :=
  let live := ((List.range 56).filter (fun i => p.live.getLsbD i)).length
  ceilDiv (256 + 8 * p.scal.length + 8 * p.hand.length + (if p.trap.isSome then 32 else 0) +
    (if p.cb.isSome then 32 else 0) + 256 * live) 64

/-- Bytes that a message takes in its core's outbox (R56). -/
def State.boxBytes (s : State) (m : Msg) : Nat :=
  if m.applied || m.sent || !m.body.boxed || decide (m.srcDev ≠ s.devId) then 0
  else
    match m.body with
    | .context pid => (match s.party? pid with
        | some p => 64 * p.flits
        | none => 64)
    | b => 64 * b.flits

/-- A message of this module has room in its core's outbox behind those before it (R56). -/
def State.hasRoom (s : State) (m : Msg) : Bool :=
  !m.body.boxed || m.sent || m.applied || decide (m.srcDev ≠ s.devId) ||
  (let used := sumBy s.boxBytes ((s.net.takeWhile (fun x => decide (x.id ≠ m.id))).filter (fun x => decide (x.src = m.src)))
   decide (used = 0) || decide (used + s.boxBytes m ≤ outboxBytes))

/-- An operation of some lanes of a party has found no room in the outbox: their bundle stalls (R56). -/
def State.noRoom (s : State) (pid : Nat) (lanes : DWord) : Bool :=
  s.net.any (fun m => decide (m.party = pid) && decide (m.lanes &&& lanes ≠ 0) && !m.applied && !m.sent && !s.hasRoom m)

/-- A home of another module. -/
def State.isFar (s : State) : Home → Bool
  | .core d _ => decide (d ≠ s.devId)
  | .port _ => false

/-- Two messages come from one fibre, whichever party it belonged to (R53, R104). -/
def Msg.sameFibres (x m : Msg) : Bool := decide (x.lin ≠ 0) && decide (x.lin = m.lin) && decide (x.lanes &&& m.lanes ≠ 0)

/-- The location a message's step writes or reads, with its length and whether it writes. -/
def MsgBody.target : MsgBody → Option (Loc × Nat × Bool)
  | .write l d _ => some (l, d.length, true)
  | .elem e _ _ _ _ => some (e.data, 1, true)
  | .atomic l _ dbl _ _ _ => some (l, if dbl then 8 else 4, true)
  | .fetch f => some (f.loc, f.len, false)
  | .att f _ dbl _ _ => some (f.loc, if dbl then 8 else 4, true)
  | .mso l _ _ _ => some (l, 8, true)
  | .block l d _ _ => some (l, d.length, true)
  | .heldRead l n _ _ _ => some (l, n, false)
  | .heldElem e _ _ => some (e.data, 1, false)
  | .hostRead l n _ => some (l, n, false)
  | .version l _ _ _ d => some (l, d.length, true)
  | .spill _ (some l) d _ _ => some (l, d.length, true)
  | _ => none

/-! ## Bytes that move (R39, R69, R288) -/

/-- An element whose bytes stand elsewhere. -/
def ElemRef.mapLoc (f : Loc → Loc) (e : ElemRef) : ElemRef :=
  { e with data := f e.data, comp := e.comp.map (fun y => (f y.1, y.2)), scale := e.scale.map f }

/-- A fetch whose bytes stand elsewhere. -/
def Fetch.mapLoc (f : Loc → Loc) (x : Fetch) : Fetch := { x with loc := f x.loc }

/-- A memory-side operation whose source stands elsewhere. -/
def MsoKind.mapLoc (f : Loc → Loc) : MsoKind → MsoKind
  | .rowputFrom src => .rowputFrom (src.map (fun e => (f e.1, e.2)))
  | k => k

/-- A message whose bytes stand elsewhere. -/
def MsgBody.mapLoc (f : Loc → Loc) : MsgBody → MsgBody
  | .write l d k => .write (f l) d k
  | .elem e x mode sat draw => .elem (e.mapLoc f) x mode sat draw
  | .atomic l op dbl x y ret => .atomic (f l) op dbl x y ret
  | .fetch x => .fetch (x.mapLoc f)
  | .att x op dbl y z => .att (x.mapLoc f) op dbl y z
  | .mso l k a b => .mso (f l) (k.mapLoc f) (a.map (Fetch.mapLoc f)) (b.map (Fetch.mapLoc f))
  | .version l va frame pos d => .version (f l) va frame pos d
  | .block l d op poison => .block (f l) d op poison
  | .spill va l d k poison => .spill va (l.map f) d k poison
  | .heldRead l n w frame op => .heldRead (f l) n w frame op
  | .heldElem e frame op => .heldElem (e.mapLoc f) frame op
  | .hostRead l n who => .hostRead (f l) n who
  | b => b

/-- Where the step of a body that moves is made: at the new home of its bytes, if these have moved. -/
def State.rehome (s : State) (f : Loc → Loc) (h : Home) (b : MsgBody) : Home :=
  match b.target with
  | some (x, _, _) => if f x = x then h else s.homeOf (f x)
  | none => h

/-- A message that follows its bytes. -/
def Msg.follow (s : State) (f : Loc → Loc) (m : Msg) : Msg :=
  if m.applied then m else { m with dst := s.rehome f m.dst m.body, body := m.body.mapLoc f }

/-- An event of an uncommitted run that follows its bytes. -/
def Eff.follow (s : State) (f : Loc → Loc) (e : Eff) : Eff :=
  match e.item with
  | .send d => { e with item := .send { d with home := s.rehome f d.home d.body, body := d.body.mapLoc f } }
  | _ => e

/-- A bundle whose watched words and uncommitted events follow their bytes. -/
def Bundle.follow (s : State) (f : Loc → Loc) (b : Bundle) : Bundle :=
  { b with
    watched := b.watched.map (fun (w : Watch) => { w with loc := f w.loc }),
    run := b.run.map (fun (r : Run) => { r with eff := r.eff.map (Eff.follow s f) }) }

/-- Everything that names bytes which have moved follows them: messages on their way, events of uncommitted runs, watched words,
versions and shadows (R39, R69, R81, R288). -/
def State.repoint (s : State) (f : Loc → Loc) : State :=
  let here (pa : Nat) : Nat := (f ⟨s.devId, pa⟩).pa
  { s with
    net := s.net.map (Msg.follow s f),
    parties := s.parties.map (fun e => (e.1, { e.2 with bundles := e.2.bundles.map (Bundle.follow s f) })),
    versions := s.versions.map (fun (v : Version) => { v with pa := here v.pa }),
    grids := s.grids.map (fun e => (e.1, { e.2 with
      undo := e.2.undo.foldl (fun (m : Map Shadow) u => Map.insert m (here (64 * u.1) / 64) u.2) [] })) }

/-- A move of whole 64 KiB frames of this module, each given with the place it moves to. -/
def State.moving (s : State) (mv : List (Nat × Nat)) (x : Loc) : Loc :=
  if x.dev ≠ s.devId then x
  else match mv.find? (fun e => decide (e.1 ≤ x.pa) && decide (x.pa < e.1 + 65536)) with
    | some e => { x with pa := e.2 + (x.pa - e.1) }
    | none => x

/-- The scale and companion bytes of an element. -/
def ElemRef.planes (e : ElemRef) : List Loc := e.scale.toList ++ e.comp.toList.map (fun y => y.1)

/-- The locations that a body's step reads or writes. -/
def MsgBody.locs (b : MsgBody) : List Loc :=
  match b with
  | .elem e _ _ _ _ => e.data :: e.planes
  | .heldElem e _ _ => e.data :: e.planes
  | _ => b.target.toList.map (fun x => x.1)

/-- Some byte of a body is one of a saved team's scratchpad (R39). -/
def MsgBody.held (dev : BitVec 20) (b : MsgBody) : Bool :=
  b.locs.any (fun x => decide (x.dev = dev) && (match regionOf x.pa with
    | .window c _ _ => decide (512 ≤ c)
    | _ => false))

/-- A message that takes slots of an arrival queue: a record, or slots asked for by another module. -/
def MsgBody.takesSlots : MsgBody → Bool
  | .context _ => true
  | .slots _ => true
  | _ => false

/-- A message stands at the front of its FIFO, within its core's outbox, and nothing it waits for is outstanding (R56, R106,
R108). -/
def State.deliverable (s : State) (m : Msg) : Bool :=
  !m.applied && m.after.isEmpty && s.hasRoom m && !m.body.held s.devId &&
  (s.net.takeWhile (fun x => decide (x.id ≠ m.id))).all (fun x =>
    x.applied || (x.sent && (s.isFar x.dst || (x.body.takesSlots && m.body.takesSlots && !m.sent))) ||
    decide (x.srcDev ≠ m.srcDev) || decide (x.src ≠ m.src) || decide (x.dst ≠ m.dst) ||
    (decide (x.party ≠ m.party) && !x.after.isEmpty && !x.sameFibres m))

/-- Whether a home lies in the home set of a scope of a party (R105). The cluster and the stack of a team of another module are
those of its party's ORIGIN_CORE there, and the module of a party that visits another one is where it stands (log 133). -/
def State.inHomeSet (s : State) (p : Party) (scope : Nat) (h : Home) : Bool :=
  match h with
  | .port _ => decide (scope = 4)
  | .core dev c =>
    if scope = 4 then true
    else if scope = 3 then decide (dev = s.devId)
    else if scope = 0 then false
    else
      let cl := match Map.find s.teams p.teamKey with
        | some t => t.cluster
        | none => p.originCore.toNat / 4
      decide (dev = p.originDev) && (if scope = 2 then decide (c / 32 = cl / 8) else decide (c / 4 = cl))

/-- A message of a party: its own, or one that its fibres sent before the party split off (R53). -/
def Msg.ofParty (m : Msg) (pid : Nat) (p : Party) : Bool :=
  decide (m.party = pid) || (decide (m.lin = p.lineageKey + 1) && decide (m.lanes &&& p.mask ≠ 0))

/-- Messages of a party that a release at a scope waits for (R106). -/
def State.releaseWaits (s : State) (p : Party) (pid scope : Nat) : List Nat :=
  (s.net.filter (fun m => m.ofParty pid p && decide (m.srcDev = s.devId) && s.inHomeSet p scope m.dst)).map
    (fun m => m.id)

/-- Whether messages of a party from some of the lanes to a home have not been applied (R104). -/
def State.unsentTo (s : State) (pid : Nat) (lanes : DWord) (h : Home) : Bool :=
  let lin := match s.party? pid with
    | some p => p.lineageKey + 1
    | none => 0
  s.net.any (fun m => (decide (m.party = pid) || (decide (lin ≠ 0) && decide (m.lin = lin))) && decide (m.srcDev = s.devId) && !m.applied && decide (m.dst = h) &&
    decide (m.lanes &&& lanes ≠ 0))

/-- Hand values to a pending operation, in every party that holds it. -/
def State.opValue (s : State) (op : Nat) (vals : List Nat) (poison : Bool) : State :=
  { s with parties := s.parties.map (fun e => (e.1, { e.2 with pend := e.2.pend.map (fun o =>
      if o.id = op then { o with ready := true, vals := vals, poison := o.poison || poison } else o) })) }

/-- Hand values to the operation that a message serves, at this module or at the one it came from (R361). -/
def State.returnVals (s : State) (m : Msg) (op : Nat) (vals : List Nat) (poison : Bool) : State :=
  if m.srcDev = s.devId then s.opValue op vals poison
  else s.sendPacket m.srcDev m.src m.dst.coreNo .data (1 + vals.length / 16) m.orig (.opValue m.party op vals poison)

/-- Give an answer to a lane of a bundle that asked for it; the request is no longer outstanding. -/
def State.answer (s : State) (who : Asker) (a : Answer) : State :=
  { s with parties := s.parties.map (fun e =>
      if e.1 = who.party then
        (e.1, { e.2 with bundles := e.2.bundles.map (fun b =>
          if b.id = who.bundle && b.asked.contains who.req then
            { b.unask who.req (s.clk e.2.core) with ans := Map.insert b.ans who.lane a } else b) })
      else e) }

/-- Whether a bundle still waits for an answer. -/
def State.awaits (s : State) (who : Asker) : Bool :=
  match s.party? who.party with
  | none => false
  | some p =>
    match p.bundle? who.bundle with
    | none => false
    | some b => b.asked.contains who.req

/-! ## Lineages (R42, R54) -/

/-- A lineage entry. -/
def State.lineage (s : State) (key : Nat) : Lineage := Map.getD s.lineages key Lineage.init

/-- Replace a lineage entry. -/
def State.setLineage (s : State) (key : Nat) (x : Lineage) : State := { s with lineages := Map.put s.lineages key x Lineage.init }

/-- Send a change of a party's lineage count to the entry at its origin core (R54). -/
def State.countMsg (s : State) (p : Party) (pid core : Nat) (d : Int) : State :=
  if d = 0 then s
  else s.post p pid core 0 [] (.core p.originDev p.originCore.toNat) (.lineage p.lineageKey d)

/-- The number of parties that hold the delivered record of a lineage changes at its entry: the pending-trap slot is released
with the last of them (R42, R44). A waiting trap is delivered in the same step. -/
def State.heldBy (s : State) (key : Nat) (d : Int) : State :=
  let x := s.lineage key
  let n := ((x.holders : Int) + d).toNat
  if x.slot.isNone then s
  else s.setLineage key { x with holders := n, slot := if n = 0 then none else x.slot }

/-- A party of a lineage that holds the delivered record has divided, ended or returned: where it stands at another module, the
lineage's entry is told before the count of R54 is (R42, R44). -/
def State.holdSlot (s : State) (p : Party) (pid core : Nat) (d : Int) : State :=
  if d = 0 then s
  else if p.originDev = s.devId then s.heldBy p.lineageKey d
  else s.post p pid core 0 [] (.core p.originDev p.originCore.toNat) (.slotHold p.lineageKey d)

/-- The parties that hold the delivered record of a trap party change with a division of it, or its end. -/
def State.holdIf (s : State) (p : Party) (pid core : Nat) (d : Int) : State := if p.trap.isSome then s.holdSlot p pid core d else s

/-- The home of a barrier (R175): its core, or the receiving core of its team's cluster; a team of another module is
reached at the party's origin core. -/
def State.barHome (s : State) (p : Party) (b : BarRef) : Home :=
  match b with
  | .named dev c _ => .core dev c
  | .team t _ =>
    match Map.find s.teams t with
    | some t => .core s.devId (s.receiving t.cluster)
    | none => .core p.originDev p.originCore.toNat

/-! ## Abandonment (R28) -/

/-- Keep the entries of a lane-keyed map outside a mask. -/
def cutLanes {α : Type} (m : DWord) (l : Map α) : Map α := l.filter (fun e => !(m.getLsbD (e.1 % 64)))

/-- Keep the entries of a lane-keyed map inside a mask. -/
def keepLanes {α : Type} (m : DWord) (l : Map α) : Map α := l.filter (fun e => m.getLsbD (e.1 % 64))

/-- The overlay without the writes of some lanes. -/
def Overlay.cut (o : Overlay) (m : DWord) : Overlay :=
  { v := cutLanes m o.v, preds := cutLanes m o.preds, wb := cutLanes m o.wb,
    pw := (o.pw.map (fun e => (e.1 &&& ~~~m, e.2))).filter (fun e => decide (e.1 ≠ 0)),
    fp := cutLanes m o.fp, marks := o.marks.filter (fun k => !(m.getLsbD (k % 64))), fills := cutLanes m o.fills }

/-- A destination of lanes outside a mask. -/
def Dest.cut (m : DWord) : Dest → Dest
  | .v r l => if m.getLsbD l then .drop else .v r l
  | .fill r l => if m.getLsbD l then .drop else .fill r l
  | .push l => if m.getLsbD l then .drop else .push l
  | .fp l => if m.getLsbD l then .drop else .fp l
  | d => d

/-- A run begun again at its restart point (R28, R47). -/
def Run.rewind (r : Run) : Run :=
  { r with idx := 0, imm := r.imm0, modh := r.modh0, live := r.live0, last := r.last0, ov := { Overlay.empty with wb := r.wb0 },
           eff := [], taken := [], skip := none }

/-- The locks of an operation at other modules clear (R82). -/
def State.unlockFar (s : State) (core owner : Nat) : State :=
  (((s.farLocks owner).map (fun e => (e.1, e.2.1))).eraseDups).foldl (fun s e =>
    s.postPart core (.core e.1 (32 * e.2)) (.unlock owner)) s

/-- A committed engine operation of a party of another module is over: its grid is told (R32). -/
def State.awayDone (s : State) (core : Nat) (o : EngOp) : State :=
  let dev := BitVec.ofNat 20 ((o.lin - 1) / 2 ^ 64)
  if o.committed ∧ o.lin ≠ 0 ∧ dev ≠ s.devId then
    s.postPart core (.core dev 0) (.away (gridFor o.lin dev) s.devId false (-1))
  else s

/-- Withdraw an operation from its engine: its locks go, its SEQ reads complete with count 0 (R248). -/
def State.withdrawEngine (s : State) (eng seq : Nat) : State :=
  let e := Map.getD s.engines eng Engine.init
  let gone := e.ops.filter (fun o => decide (o.seq = seq))
  let ops := gone.map (fun o => o.op)
  let s := gone.foldl (fun s o => (s.unlockFar (32 * (eng / 16)) o.op).awayDone (32 * (eng / 16)) o) s
  { s with
    engines := Map.insert s.engines eng { e with ops := e.ops.filter (fun o => decide (o.seq ≠ seq)), done := Map.insert e.done seq 0 },
    locks := s.locks.filter (fun k => decide (k.dev ≠ s.devId) || !ops.contains k.owner) }

/-- The home core of a ticket's entry (R85): the core of the slice that holds it, also for a scratchpad whose slice 4c is absent
(log 141). -/
def ticketHome (t : DWord) : Home := .core (field t 21 20) (field t 12 9).toNat

/-- Give back the place that a party has taken in its queue of a sequencer of another module (R17, R259). -/
def State.dropPlace (s : State) (p : Party) (pid core slot : Nat) : State :=
  if p.originDev = s.devId then s
  else s.post p pid core 0 [] (.core p.originDev p.originCore.toNat) (.tileDrop p.teamKey slot)

/-- Take back what an effect that is not sent has already brought about: a confirmation becomes a cancellation (R91,
R274), an engine operation is withdrawn (R248), a fetched ticket is released (R28). -/
def State.undoEff (s : State) (p : Party) (pid core : Nat) (e : Eff) : State :=
  match e.item with
  | .engine eng seq => s.withdrawEngine eng seq
  | .fetched t => s.post p pid core e.lanes [] (ticketHome t) (.trel t p.launchId)
  | .send d =>
    match d.body with
    | .confirm t who => s.post p pid core e.lanes [] d.home (.cancel t who)
    | .frameConfirm _ id _ who => s.post p pid core e.lanes [] d.home (.frameCancel id who)
    | _ => s
  | .tile slot _ => s.dropPlace p pid core slot
  | _ => s

/-- Take back what an abandoned operation has under way: its claim is cancelled (R91), the ticket that its fetch will bring is
to be released (R28). The claim of a frame is cancelled when its answer comes (R274). -/
def State.undoOp (s : State) (p : Party) (pid core : Nat) (o : PendOp) : State :=
  match o.role with
  | .plain => s
  | .fetch => if o.ready || o.late then s else { s with dropped := s.dropped ++ [(o.id, p.launchId)] }
  | .frame _ => s
  | .claim t who =>
    if o.ready || o.trap.isSome then s else s.post p pid core o.lanes [] (ticketHome t) (.cancel t who)

/-- The claims that a word of a bundle awaits for some lanes, not answered yet: the message, its ticket and who asked (R91). -/
def State.askedClaims (s : State) (b : Bundle) (m : DWord) : List (Nat × DWord × Asker) :=
  s.net.filterMap (fun x => match x.body with
    | .claim t who _ _ _ =>
      if b.asked.contains who.req && decide (who.bundle = b.id) && decide (x.lanes &&& ~~~m = 0) then some (who.req, t, who) else none
    | _ => none)

/-- Abandon a bundle's run for some lanes: nothing it did for them remains (R28). The lanes stay in the bundle. -/
def State.abandon (s : State) (pid bid : Nat) (m : DWord) : State :=
  match s.party? pid with
  | none => s
  | some p =>
    match p.bundle? bid with
    | none => s
    | some b =>
      let pend := p.pend.filterMap (fun o =>
        if o.committed || decide (o.bundle ≠ bid) then some o
        else if o.lanes &&& ~~~m = 0 then none
        else some { o with lanes := o.lanes &&& ~~~m, dests := o.dests.map (Dest.cut m) })
      match b.run with
      | none => s
      | some r =>
        let gone := r.eff.filter (fun (e : Eff) => decide (e.lanes &&& ~~~m = 0))
        let keep := (r.eff.map (fun (e : Eff) => { e with lanes := e.lanes &&& ~~~m })).filter (fun e => decide (e.lanes ≠ (0 : DWord)))
        let all := b.mask &&& ~~~m = 0
        let s := match b.phase with
          | .held (.barrier x q) =>
            if all && (Map.find b.ans 69).isNone then
              s.post p pid p.core m [] (s.barHome p x) (.withdraw x ⟨s.devId, p.core, pid, bid, 64, q⟩ 0)
            else s
          | _ => s
        let s := gone.foldl (fun s e => s.undoEff p pid p.core e) s
        let claims := s.askedClaims b m
        let s := claims.foldl (fun s e => s.post p pid p.core 0 [] (ticketHome e.2.1) (.cancel e.2.1 e.2.2)) s
        let s := if all && decide (Map.find b.ans 73 = some (.val 1)) then s.dropPlace p pid p.core p.partyId.toNat else s
        let lost := p.pend.filter (fun o => !o.committed && decide (o.bundle = bid) && decide (o.lanes &&& ~~~m = 0))
        let s := lost.foldl (fun s o => s.undoOp p pid p.core o) s
        let b := { b with
          asked := b.asked.filter (fun i => !claims.any (fun e => decide (e.1 = i))),
          run := some { r with ov := r.ov.cut m, eff := keep, taken := cutLanes m r.taken },
          ans := cutLanes m (b.ans.filter (fun e => decide (e.1 < 64))) ++ b.ans.filter (fun e => decide (64 ≤ e.1) && !all) }
        s.setParty pid ({ p with pend := pend }.setBundle b)

/-! ## Parts of parties -/

/-- The part of a party that holds some lanes, with the bundles given: its own registers, predicates and marks, and
the party-wide state; operations of committed runs stay attributed to its flags (R41, R53, R172). -/
def Party.part (p : Party) (m : DWord) (bs : List Bundle) : Party :=
  { p with
    vregs := keepLanes m p.vregs, dirty := p.dirty.filter (fun k => m.getLsbD (k % 64)),
    poison := p.poison.filter (fun k => decide (wideKey 0 ≤ k) || m.getLsbD (k % 64)), lanes := keepLanes m p.lanes, bundles := bs,
    pend := (p.pend.filter (fun o => o.committed || bs.any (fun b => decide (b.id = o.bundle)))).map (fun o =>
      { o with lanes := o.lanes &&& m, dests := o.dests.map (Dest.cut (~~~m)) }) }

/-- Slots of an arrival queue that a record takes (R57). -/
def Party.queueSlots (p : Party) : Nat := ceilDiv p.flits 32

/-- Slots in use in a core's arrival queue: the records in it, and the records sent to it. -/
def State.queueUsed (s : State) (core : Nat) : Nat :=
  sumBy (fun e => match e.2.place with
    | .queued c => if c = core then e.2.queueSlots else 0
    | _ => 0) s.parties +
  sumBy (fun m => match m.body, m.dst with
    | .context pid, .core d c =>
      if m.sent && !m.applied && decide (d = s.devId) && decide (c = core) then
        (match s.party? pid with
          | some p => p.queueSlots
          | none => 0)
      else 0
    | .slots n, .core d c => if m.sent && decide (d = s.devId) && decide (c = core) then n else 0
    | _, _ => 0) s.net

/-- Slots of a core's arrival queue (R57, R58). -/
def State.queueSize (s : State) (core : Nat) : Nat := 16 + 2 * (s.core core).blocks

/-- Runs of slots taken in a core's arrival queue, by first slot and length (R57). -/
def State.queueTaken (s : State) (core : Nat) : List (Nat × Nat) :=
  s.parties.filterMap (fun e => if e.2.place = .queued core then some (e.2.qAt, e.2.queueSlots) else none) ++
  s.net.filterMap (fun m =>
    if m.sent && !m.applied && decide (m.dst = .core s.devId core) then
      match m.body with
      | .context pid => (s.party? pid).map (fun p => (m.qAt, p.queueSlots))
      | .slots n => some (m.qAt, n)
      | _ => none
    else none)

/-- The lowest run of `n` consecutive free slots of a core's arrival queue (R57; log 115). -/
def State.queueRun (s : State) (core n : Nat) : Option Nat :=
  let taken := s.queueTaken core
  (List.range (s.queueSize core + 1 - n)).find? (fun i =>
    taken.all (fun e => decide (i + n ≤ e.1) || decide (e.1 + e.2 ≤ i)))

/-- Some head record waits for slots of a core's queue (R279). -/
def State.headWaits (s : State) (core : Nat) : Bool :=
  s.net.any (fun x => x.asked && !x.sent && x.body.takesSlots && decide (x.dst = .core s.devId core) && s.deliverable x)

/-- Slots for a record formed on a core: a free run, behind the head records that wait (R43, R57, R279). -/
def State.slotsFor (s : State) (core n : Nat) : Option Nat := if s.headWaits core then none else s.queueRun core n

/-- A party formed on a core takes a free slot there, or waits in the core's arrival queue (R43). -/
def State.form (s : State) (core : Nat) (p : Party) : State :=
  let pid := s.keys
  let p := { p with formedAt := s.steps, live := BitVec.allOnes 56, homeCore := core, starving := false, level := 0,
                    wantPark := p.wantPark, returned := false, behind := [], counted := false }
  if s.freeSlots core ≠ 0 then
    s.bump.setParty pid { p with place := .slot core .ready, readyAt := s.clk core, beganAt := s.clk core }
  else
    match s.slotsFor core p.queueSlots with
    | some i => s.bump.setParty pid { p with place := .queued core, recQ := pid, qAt := i }
    | none =>
    (s.bump.setParty pid { p with place := .flight core, recQ := pid }).post p pid core p.mask [] (.core s.devId core) (.context pid)

/-! ## Ends of parties -/

/-- Record a failure on a core in a party's grid: the first is kept, of those of one clk the one of the lower core (R325). -/
def State.recordOutcome (s : State) (grid : BitVec 32) (core o : Nat) : State :=
  match s.grid? grid with
  | none => s
  | some g =>
    if g.outcome = 0 ∨ (g.failAt = s.ns ∧ core < g.failCore ∧ g.outcome ≠ 3) then
      { s with grids := Map.insert s.grids grid.toNat { g with outcome := o, failAt := s.ns, failCore := core } }
    else s

/-- Record a failure of a party in its grid, which stands at the module that launched it (R325). -/
def State.failOf (s : State) (p : Party) (pid core o : Nat) : State :=
  if p.originDev = s.devId then s.recordOutcome p.gridId core o
  else s.post p pid core 0 [] (.core p.originDev p.originCore.toNat) (.outcome p.gridId o)

/-- End a party: its runs are abandoned, its lineage loses a member, a trap record it held frees the slot (R19, R42,
R54, R168). -/
def State.endParty (s : State) (pid : Nat) : State :=
  match s.party? pid with
  | none => s
  | some p =>
    let s := p.bundles.foldl (fun s b => s.abandon pid b.id b.mask) s
    let s := ((s.holdIf p pid p.core (-1)).countMsg p pid p.core (-1)).dropParty pid
    { s with
      halts := s.halts.filter (fun h => decide (h.1 ≠ pid)),
      consumes := s.consumes.filter (fun k => decide (k.party ≠ pid)) }

/-- End the parties of a seed that stand at this module: a trap of one of them ends it (R307). -/
def State.endSeed (s : State) (key : Nat) : State :=
  (s.parties.filter (fun e => e.2.seed.isSome && decide (e.2.lineageKey = key))).foldl (fun s e => s.endParty e.1) s

/-- The slot of a seed that has trapped reads FAULTED with its cause and address, and the seed ends (R307). -/
def State.faultSeed (s : State) (slot key cause : Nat) (addr : DWord) : State :=
  let sd := Map.getD s.seeds slot Seed.init
  let s := if sd.party = some key then
      { s with seeds := Map.insert s.seeds slot { sd with state := 4, cause := cause, fault := addr, party := none } }
    else s
  s.endSeed key

/-! ## Taking a trap (R41 to R44, R172, R204, R320) -/

/-- A trap raised on a lane. -/
structure Trap where
  lane  : Nat
  cause : Nat
  addr  : DWord
deriving DecidableEq, Repr

/-- Trap codes (R41). -/
def cIllegal : Nat := 0x01
/-- RUN_FORM. -/
def cRunForm : Nat := 0x02
/-- PRIV. -/
def cPriv : Nat := 0x03
/-- NOT_PRESENT. -/
def cNotPresent : Nat := 0x04
/-- PROTECTION. -/
def cProtection : Nat := 0x05
/-- ALIGN. -/
def cAlign : Nat := 0x06
/-- RANGELOCK. -/
def cRangelock : Nat := 0x07
/-- TICKET_SPENT. -/
def cSpent : Nat := 0x08
/-- TICKET_EXPIRED. -/
def cExpired : Nat := 0x09
/-- TICKET_FOREIGN. -/
def cForeign : Nat := 0x0A
/-- BOUND_SPLIT. -/
def cBoundSplit : Nat := 0x0B
/-- LIMB_WIDTH. -/
def cLimbWidth : Nat := 0x0C
/-- FRAME. -/
def cFrame : Nat := 0x0D
/-- UNCORRECTABLE. -/
def cUncorrectable : Nat := 0x0F
/-- HANDLE. -/
def cHandle : Nat := 0x10
/-- FORMAT. -/
def cFormat : Nat := 0x11
/-- WINDOW. -/
def cWindow : Nat := 0x13
/-- SOFTWARE. -/
def cSoftware : Nat := 0x14
/-- DEBUG. -/
def cDebug : Nat := 0x15

/-- Trap codes by priority, highest first (R41). -/
def causeOrder : List Nat :=
  [0x0F, 0x01, 0x02, 0x03, 0x05, 0x04, 0x06, 0x07, 0x08, 0x09, 0x0A, 0x0B, 0x0C, 0x0D, 0x0E, 0x10, 0x11, 0x13, 0x14, 0x15]

/-- Rank of a cause; lower is higher priority. -/
def causeRank (c : Nat) : Nat := causeOrder.idxOf c

/-- Lanes of the integer that a lane belongs to under a binding; the lane alone when unbound (R193). -/
def integerOf (ctl : Word) (l : Nat) : List Nat :=
  let w := 2 ^ (ctl.toNat % 8)
  (List.range w).map (fun i => l / w * w + i)

/-- The cause that counts for a lane, over its whole integer, if it traps at all (R41, R204). -/
def causeOf (ctl : Word) (ts : List Trap) (l : Nat) : Option Nat :=
  (leastBy causeRank ((ts.filter (fun t => (integerOf ctl l).contains t.lane)).map (fun t => t.cause)))

/-- The binding under which a bundle's lanes trap: the wider of the one that its run has in force and the one that remains
when the run is abandoned, so that each party formed consists of whole integers (R195, R204). -/
def Party.limbCtlFor (p : Party) (b : Bundle) : Word :=
  match b.run with
  | some r =>
    let x := (r.ov.lastOf (fun i => match i with
      | .limbCtl x => some x
      | _ => none)).getD p.limbCtl
    if x.toNat ≤ p.limbCtl.toNat then p.limbCtl else x
  | none => p.limbCtl

/-- The word TRAP_CAUSE (R173). -/
def trapCause (cause back spill : Nat) : DWord := BitVec.ofNat 64 (cause + back * 256 + spill * 2 ^ 32)

/-- The record of an event (R321). -/
def Event.record (e : Event) (seq : Word) : List Byte :=
  leBytes 8 (e.type + e.asid.toNat * 2 ^ 16 + e.core * 2 ^ 32) ++ leBytes 8 e.addr.toNat ++ leBytes 8 e.aux.toNat ++
  leBytes 8 seq.toNat

/-- First byte of slot `i` of the event ring (R321): host memory, through port 0 (log 42). -/
def State.ringAt (s : State) (i : Nat) : Nat := hostBase + (s.regs.evqBase.toNat + 32 * i) % 2 ^ 52

/-- Records that the event ring holds; none while it is disabled (R312). -/
def State.ringSize (s : State) : Nat := if s.regs.evqLog2 = 0 then 0 else 2 ^ (s.regs.evqLog2.toNat % 64)

/-- Write events that wait, in order of raising, while the ring has room (R321). -/
def flushEvents : Nat → State → State
  | 0, s => s
  | n + 1, s =>
    match s.evWait with
    | [] => s
    | e :: rest =>
      if s.ringSize ≤ (s.regs.evqTail - s.regs.evqHead).toNat then s
      else
        let seq := s.regs.evqTail
        let s1 := s.store Who.part (s.ringAt (seq.toNat % s.ringSize)) (e.record seq)
        flushEvents n { s1 with
          evWait := rest, evOpen := s1.evOpen ++ [(seq.toNat, e)], regs := { s1.regs with evqTail := seq + 1 } }

/-- Raise an event for the driver (R321). -/
def State.raiseEvent (s : State) (e : Event) : State :=
  flushEvents (s.evWait.length + 1) { s with evWait := s.evWait ++ [e] }

/-- An event on a subject awaits the driver's response. -/
def State.eventOpen (s : State) (x : EvSubject) : Bool :=
  s.evWait.any (fun e => decide (e.subj = x)) || s.evOpen.any (fun e => decide (e.2.subj = x))

/-- Raise TIER_FAULT for a second-tier page, unless its event is open or it has been answered (R319, R320). -/
def State.tierFault (s : State) (asid : BitVec 16) (va core : Nat) : State :=
  let page := va / 65536 * 65536
  if s.eventOpen (.tier asid page) || s.wanted.contains (asid, page) then s
  else s.raiseEvent { type := 1, asid := asid, core := core, addr := BitVec.ofNat 64 va, aux := 0, subj := .tier asid page }

/-- Lanes by window base, in order of their lowest lanes (R20). -/
def byBase (wb : Nat → Nat) (lanes : List Nat) : List (Nat × List Nat) :=
  lanes.foldl (fun acc l =>
    if acc.any (fun e => decide (e.1 = wb l)) then acc.map (fun e => if e.1 = wb l then (e.1, e.2 ++ [l]) else e)
    else acc ++ [(wb l, [l])]) []

/-- The bundles of some lanes at a header, one for each window base (R20). -/
def bundlesAt (wb : Nat → Nat) (id : Nat) (m pc : DWord) (since : Nat) : List Bundle :=
  (byBase wb (lanesOf m)).zipIdx.map (fun e => Bundle.at (id + e.2) (maskOf e.1.2) pc e.1.1 since)

/-- The window base of a lane where its bundle's run begins. -/
def Bundle.baseOf (b : Bundle) (l : Nat) : Nat :=
  match b.run with
  | some r => Map.getD r.wb0 l b.wb
  | none => b.wb

/-- The bundle that restarts some lanes at the restart point of a run (R41, R47). -/
def Bundle.restart (b : Bundle) (id : Nat) (m : DWord) (since : Nat) (asked : List Nat) : Bundle :=
  match b.run with
  | some r =>
    if r.cont then
      { Bundle.at id m r.start b.wb since with run := some r.rewind, phase := .fetched, skip := r.skip, asked := asked }
    else { Bundle.at id m r.start b.wb since with asked := asked, skip := r.skip, gates := b.gates }
  | none => { Bundle.at id m b.pc b.wb since with asked := asked, skip := b.skip, gates := b.gates }

/-- The lanes of a mask of live lanes that belong to integers of some lanes (R204). -/
def wholeIntegers (ctl : Word) (live m : DWord) : DWord :=
  maskOf ((lanesOf live).filter (fun l => (integerOf ctl l).any (fun i => m.getLsbD i)))

/-- Lanes of a mask that stand in bundles other than one go back to the restart points of their runs (R204; log 132). -/
def Party.apart (p : Party) (bid : Nat) (m : DWord) (id since : Nat) (asked : List Nat) : List Bundle :=
  ((p.bundles.filter (fun x => decide (x.id ≠ bid) && decide (x.mask &&& m ≠ 0))).zipIdx).map (fun e =>
    e.1.restart (id + e.2) (e.1.mask &&& m) since asked)

/-- The slot of a bundle's lineage has been granted to it from the module of its lineage's entry (R42). -/
def Bundle.granted (b : Bundle) : Bool := (Map.find b.ans 74).isSome

/-- A trap finds its lineage's pending-trap slot held, or has to ask for it at the module of the lineage's entry (R42). -/
def State.slotBusy (s : State) (p : Party) (b : Bundle) : Bool :=
  if p.originDev = s.devId then (s.lineage p.lineageKey).slot.isSome else !b.granted

/-- A bundle waits for its lineage's slot with nothing committed, and its party is BLOCKED (R42): at another module than that of
the lineage's entry it has asked for the slot there. -/
def State.waitSlot (s : State) (pid : Nat) (p : Party) (b : Bundle) (why : Why) (cause lanes addr pc : DWord) : State :=
  let clk := s.clk p.core
  let b := { b with phase := .held why, stalled := true, stallAt := clk }
  if p.originDev = s.devId then s.setParty pid ((p.setBundle b).block clk)
  else
    let who : Asker := ⟨s.devId, p.core, pid, b.id, 74, s.keys⟩
    let b := { b with asked := b.asked ++ [s.keys] }
    (s.bump.post p pid p.core 0 [] (.core p.originDev p.originCore.toNat) (.slotAsk p.lineageKey cause lanes addr pc who)).setParty pid
      ((p.setBundle b).block clk)

/-- Raise traps on lanes of a bundle at an instruction: the one operation that takes a trap. The trapping lanes abandon
the run and leave the bundle, with the rest of their integers (R204). Those with the highest cause form the trap party, at the
handler with the trap record; the others form a party that restarts (R41). A seed ends (R307). A trap party ends with
DOUBLE_TRAP, but for a DEBUG trap that nests (R44). While the lineage's slot is held, the bundle waits with nothing committed
(R42). Under host-assisted page faults a NOT_PRESENT lane waits for the driver instead (R320), unless `force`. -/
def State.raise (s : State) (pid bid : Nat) (ts : List Trap) (pc : DWord) (force : Bool) : State :=
  match s.party? pid with
  | none => s
  | some p =>
    match p.bundle? bid with
    | none => s
    | some b =>
      let core := p.core
      let clk := s.clk core
      let ctl := p.limbCtlFor b
      let start := match b.run with
        | some r => r.start
        | none => b.pc
      let lanes := lanesOf b.mask
      match leastBy causeRank (lanes.filterMap (causeOf ctl ts)) with
      | none => s
      | some cause =>
        let topL := wholeIntegers ctl p.mask (maskOf (lanes.filter (fun l => decide (causeOf ctl ts l = some cause))))
        let lowL := wholeIntegers ctl p.mask (maskOf (lanes.filter (fun l => match causeOf ctl ts l with
          | some x => decide (x ≠ cause)
          | none => false)))
        let addr := match leastBy (fun t => t.lane) (ts.filter (fun t => decide (t.cause = cause))) with
          | some t => t.addr
          | none => 0
        let rec0 : TrapRec := {
          cause := trapCause cause ((pc.toNat + 2 ^ 64 - start.toNat) % 2 ^ 64) p.spillPos.toNat,
          lanes := topL, addr := addr, pc := pc, base := b.wb,
          resume := match b.run with
            | some r => if r.cont then some r.rewind else none
            | none => none,
          apart := p.apart bid topL (s.keys + 1) clk [] }
        let assisted := decide (cause = cNotPresent) && s.regs.funcMode.getLsbD 1 && !force
        let key := p.lineageKey
        if p.seed.isSome && !assisted then
          let slot := p.seed.getD 0
          if p.originDev = s.devId then s.faultSeed slot key cause addr
          else (s.post p pid core 0 [] (.core p.originDev p.originCore.toNat) (.seedTrap slot key cause addr)).endSeed key
        else if !assisted && p.trap.isSome && (p.nested || decide (cause ≠ cDebug)) then
          (s.failOf p pid core 0x01).endParty pid
        else if !assisted && p.trap.isNone && s.slotBusy p b then
          s.waitSlot pid p b (if force then .owed s.ns cause addr pc topL else .trapSlot s.ns (causeRank cause)) rec0.cause topL addr pc
        else
          let gone := topL ||| lowL
          let s := (p.bundles.filter (fun x => decide (x.mask &&& gone ≠ 0))).foldl (fun s x => s.abandon pid x.id gone) s
          let p := (s.party? pid).getD p
          let rest := p.mask &&& ~~~gone
          let dies := !assisted && decide (p.handler = 0)
          let n := (if rest = 0 then 0 else 1) + (if lowL = 0 then 0 else 1) + (if dies then 0 else 1)
          let s := (s.holdIf p pid core ((n : Int) - 1)).countMsg p pid core ((n : Int) - 1)
          let asked := if 1 < n then [s.keys - 1] else []
          -- the party that the lanes of the highest cause form
          let tid := s.keys
          let main := topL &&& b.mask
          let tbs := if assisted then
              { b.restart tid main clk asked with phase := .held (.event cause addr pc) } :: p.apart bid topL (tid + 1) clk asked
            else (bundlesAt b.baseOf tid topL p.handler clk).map (fun x => { x with asked := asked })
          let tp := { p.part topL tbs with
            trap := if assisted then p.trap else some rec0,
            nested := if assisted then p.nested else p.trap.isSome,
            outer := if assisted then p.outer else p.trap,
            rejoin := none }
          let lid := s.keys + 64
          let low := lowL &&& b.mask
          let lbs := (if low = 0 then [] else [b.restart lid low clk asked]) ++ p.apart bid lowL (lid + 1) clk asked
          let lp := { p.part lowL lbs with rejoin := none }
          let s := { s with keys := lid + 64 }
          -- what remains of the party
          let p1 := p.part rest ((p.bundles.map (fun x => { x.askedOf asked clk with
            mask := x.mask &&& ~~~gone, ans := x.ans.filter (fun e => decide (e.1 ≠ 74)) })).filter (fun x => decide (x.mask ≠ (0 : DWord))))
          let s := if rest = 0 then s.dropParty pid else s.setParty pid p1
          let s := if assisted ∨ p.trap.isSome then s
            else if p.originDev ≠ s.devId then (if dies then s.holdSlot p pid core (-1) else s)
            else if dies then s
            else s.setLineage key { s.lineage key with slot := some rec0, holders := 1 }
          let s := if dies then s.failOf p pid core 0x02 else s.form core tp
          let s := if lowL = 0 then s else s.form core lp
          if assisted then
            let holder := (s.parties.find? (fun e => e.2.bundles.any (fun x => decide (x.id = tid)))).map (fun e => e.1)
            -- the party waits BLOCKED (R320)
            let s := match holder.bind s.party? with
              | some q => s.setParty (holder.getD 0) (q.block clk)
              | none => s
            s.raiseEvent {
              type := 2, asid := p.asid, core := core, addr := addr, aux := topL, subj := .page (holder.getD 0) tid }
          else s

/-- The bundles that a trap party goes back to, given the one in which its `tret` committed: lanes that the trap took from other
bundles stand where those were (R174, R204; log 132). -/
def TrapRec.back (t : TrapRec) (live : DWord) (b : Bundle) (rest : List Bundle) (id : Nat) : List Bundle :=
  let away := (t.apart.map (fun x => { x with mask := x.mask &&& live })).filter (fun x => decide (x.mask ≠ (0 : DWord)))
  let m := b.mask &&& ~~~(away.foldl (fun m x => m ||| x.mask) (0 : DWord))
  (if m = 0 then [] else [{ b with mask := m, jump := b.jump &&& m }]) ++ away.zipIdx.map (fun e => { e.1 with id := id + e.2 }) ++ rest

/-- Return from a trap at the commit of `tret` (R174, R44): the record is cleared, or the outer record taken back, the
slot is released when no holder remains, and the party continues at the restart point. -/
def State.trapReturn (s : State) (pid : Nat) (skip : Bool) : State :=
  match s.party? pid with
  | none => s
  | some p =>
    match p.trap, p.bundles with
    | some t, b :: rest =>
      let start := t.pc - BitVec.ofNat 64 (t.cause.toNat / 256 % 256)
      let sk := if skip then some t.pc else none
      let b := match t.resume with
        | some r => { b with run := some { r.rewind with skip := sk }, skip := sk, pc := start, wb := t.base, phase := .fetched }
        | none => { b with run := none, skip := sk, pc := start, wb := t.base, phase := .waiting, jump := b.mask }
      let q := { p with trap := p.outer, nested := false, outer := none, bundles := t.back p.mask b rest s.keys }
      let s := { s with keys := s.keys + t.apart.length }.setParty pid q
      if p.nested then s else s.holdSlot p pid p.core (-1)
    | _, _ => s

end Sys2Proof.Machine
end

