-- ==== Sys2Proof/Machine/Homes.lean ====
section
/-!
DEFINITION. Steps that a home applies: writes, element accesses and atomic operations (R66, R73, R74, R103, R233), and
the translation of one access with its permission and alignment (R64, R66, R227).
-/

namespace Sys2Proof.Machine

/-! ## One access (R64, R66, R227) -/

/-- What the issuing core finds for one access. -/
inductive Acc where
  | ok (l : Leaf) (x : Loc)
  | none (l : Leaf)            -- a window-stack page without a frame: it reads 0 (R288)
  | trap (cause : Nat)
  | page                       -- a second-tier page that is to be brought in (R68)
  | wait                       -- the scratchpad of a parked team (R39)
deriving DecidableEq, Repr

/-- Translate one access of `n` bytes and check its permission and alignment, in this order (R227). -/
def State.access (s : State) (core : Nat) (asid : BitVec 16) (va n : Nat) (rd wr : Bool) : Acc :=
  match s.xlate (some core) asid va with
  | .np => .trap cNotPresent
  | .prot => .trap cProtection
  | .parked _ => .wait
  | .tier _ _ _ => if s.regs.funcMode.getLsbD 0 then .trap cNotPresent else .page
  | .ok l =>
    if (rd && !l.r) || (wr && !l.w) then .trap cProtection
    else if va % n ≠ 0 then .trap cAlign
    else
      match s.locOn l va with
      | some x => .ok l x
      | none => .none l

/-- Ask for a second-tier page on behalf of the part or the host (R68, R304, R309, R320). -/
def State.askPage (s : State) (asid : BitVec 16) (va core : Nat) : State :=
  let page := va / 65536 * 65536
  if s.regs.funcMode.getLsbD 0 then s.tierFault asid va core
  else if s.wanted.contains (asid, page) then s
  else { s with wanted := s.wanted ++ [(asid, page)] }

/-- A read by the part of bytes of another module: the bytes once they have come; the first try sends the request (R361). -/
def State.farRead (s : State) (who : Reader) (core : Nat) (l : Loc) (n : Nat) : Option (List Byte × Bool) × State :=
  match s.reads.find? (fun r => decide (r.by_ = who) && decide (r.loc = l) && decide (r.n = n)) with
  | some r => (r.ans, s)
  | none =>
    (none, { s.postPart core (s.homeOf l) (.hostRead l n ⟨s.devId, core, 0, 0, 67, s.keys⟩) with
      reads := s.reads ++ [⟨who, l, n, s.keys, none⟩] })

/-- The bytes of another module that have come for the part. -/
def State.farBytes (s : State) (who : Reader) (l : Loc) (n : Nat) : Option (List Byte × Bool) :=
  (s.reads.find? (fun r => decide (r.by_ = who) && decide (r.loc = l) && decide (r.n = n))).bind (fun r => r.ans)

/-- A write by the part at another module or in host memory: whether it has been acknowledged; the first try sends it (R113,
R361). -/
def State.farWrite (s : State) (who : Reader) (core : Nat) (l : Loc) (data : List Byte) : Bool × State :=
  match s.reads.find? (fun r => decide (r.by_ = who) && decide (r.loc = l) && decide (r.n = 0)) with
  | some r => (!s.net.any (fun m => decide (m.id = r.req)), s)
  | none =>
    (false, { s.postPart core (s.homeOf l) (.write l data []) with reads := s.reads ++ [⟨who, l, 0, s.keys, none⟩] })

/-- What one reader has asked of other modules is no longer wanted. -/
def State.dropReads (s : State) (who : Reader) : State := { s with reads := s.reads.filter (fun r => decide (r.by_ ≠ who)) }

/-- The translation buffer keeps a page that a walk found (R315). -/
def State.noteLeaf (s : State) (core : Nat) (l : Leaf) : State :=
  match s.asidCtx l.asid with
  | none => s
  | some (_, ft) =>
    let c := s.core core
    if (s.windowPage l.asid ft l.base).isSome ∨ c.tlb.contains l then s
    else s.setCore core { c with tlb := (l :: c.tlb).take 4096 }

/-- Zero a 64 KiB frame. -/
def zeroFrame (m : List Host.Cell) (f : Nat) : List Host.Cell :=
  m.filter (fun e => !(decide (f ≤ e.1) && decide (e.1 < f + 65536)))

/-- The next frame of a stack's window-stack pool that is not attached, in array order (R323): its index and DPA. -/
def State.nextWspFrame (s : State) (k : Nat) : Option (Nat × Nat) :=
  let st := s.stk k
  let n := st.wspCount.toNat % 2 ^ 32
  ((List.range (min n (st.wspUsed.length + 1))).find? (fun i => !NatSet.mem st.wspUsed i)).map
    (fun i => (i, memNat s.mem (st.wspBase.toNat + 8 * i) 8))

/-- Attach a frame, filled with zeros, to a page of a team's window-stack region (R288, R323). -/
def State.attachFrame (s : State) (key page : Nat) : Option State :=
  match Map.find s.teams key with
  | none => none
  | some t =>
    match s.nextWspFrame t.stack with
    | none => none
    | some (i, f) =>
      let st := s.stk t.stack
      let s := s.setStk t.stack { st with wspUsed := NatSet.add st.wspUsed i }
      some { s with mem := zeroFrame s.mem f, teams := Map.insert s.teams key { t with frames := Map.insert t.frames page f } }

/-- The team whose window-stack region holds an address of an ASID. -/
def State.wstackTeam (s : State) (asid : BitVec 16) (va : Nat) : Option Nat :=
  s.grids.findSome? (fun e =>
    let r := e.2.rcd
    if e.2.asid = asid ∧ r.wstackWin ≤ va ∧ va < r.wstackWin + r.teams * r.parties * r.region then
      some (teamKey s.devId e.2.id ((va - r.wstackWin) / r.region / r.parties)) else none)

/-! ## Pages of a launch's windows (R17, R39, R67, R288) -/

/-- A window page of a launch of this module, as it stands now. -/
def State.windowXl (s : State) (grid : BitVec 32) (va : Nat) : Option Xl :=
  (s.grid? grid).bind (fun g => s.gridPage g (((s.asidCtx g.asid).map (fun c => c.2)).getD 0) va)

/-- Where a byte of a window page stands now: under its team's name while the team is saved (R39), and under none once the team has
retired. -/
def State.settled (s : State) (x : Loc) : Loc :=
  match regionOf x.pa with
  | .window _ g va =>
    if x.dev ≠ s.devId then x
    else match s.windowXl g va with
      | some (.ok l) => (s.locOn l va).getD ⟨x.dev, windowPa 0 g va⟩
      | some (.parked k) => ⟨x.dev, windowPa (heldCore (k % 2 ^ 32)) g va⟩
      | _ => ⟨x.dev, windowPa 0 g va⟩
  | _ => x

/-- A window-stack page that a message of another module names gets its frame (R288). -/
def State.attachFor (s : State) (x : Loc) : State :=
  match regionOf x.pa with
  | .window _ g va =>
    if x.dev ≠ s.devId then s
    else match s.windowXl g va, s.grid? g with
      | some (.ok l), some y =>
        if l.target = .none then ((s.wstackTeam y.asid va).bind (fun k => s.attachFrame k (va / 65536))).getD s else s
      | _, _ => s
  | _ => s

/-- A message of another module whose bytes lie on window pages of this one goes to where these stand (R17). -/
def State.takeIn (s : State) (m : Msg) : State :=
  let s1 := match m.body.target with
    | some (x, _, true) => s.attachFor x
    | _ => s
  { s1 with net := s1.net ++ [m.follow s1 s1.settled] }

/-- The page of a range lock that another module asks for, as it stands here. -/
def State.settledLeaf (s : State) (l : Leaf) : Leaf :=
  match l.target with
  | .window d _ g va =>
    if d ≠ s.devId then l
    else match s.windowXl g va with
      | some (.ok x) => { l with target := x.target }
      | _ => l
  | _ => l

/-! ## Writes and atomics -/

/-- The agent a message acts for. -/
def Msg.who (m : Msg) : Who := ⟨m.grid, m.team, false⟩

/-- Bytes with the masked bits replaced. -/
def mergeBytes : List Byte → List Byte → List Byte → List Byte
  | o :: os, d :: ds, k :: ks => ((o &&& ~~~k) ||| (d &&& k)) :: mergeBytes os ds ks
  | _, _, _ => []

/-- A write at its home; a nonempty mask names the bits it replaces. -/
def State.applyWrite (s : State) (who : Who) (l : Loc) (data mask : List Byte) : State :=
  if mask.isEmpty then s.store who l.pa data
  else s.store who l.pa (mergeBytes (memBytes s.mem l.pa data.length) data mask)

/-- Signed value of a number of `w` bits. -/
def signedOf (w x : Nat) : Int := if x < 2 ^ (w - 1) then (x : Int) else (x : Int) - 2 ^ w

/-- One atomic step on `w` bits (R233): the new value, or none when a comparison fails. -/
def atomStep (op : AtomOp) (w old x y : Nat) : Option Nat :=
  match op with
  | .add => some ((old + x) % 2 ^ w)
  | .min => some (if signedOf w x < signedOf w old then x else old)
  | .max => some (if signedOf w old < signedOf w x then x else old)
  | .minu => some (min old x)
  | .maxu => some (max old x)
  | .and => some (old &&& x)
  | .or => some (old ||| x)
  | .xor => some (old ^^^ x)
  | .exch => some x
  | .cas => if old = x then some y else none
  | .fadd => some (fpAdd 0 .rne false 0 (decodeFp fmtFP32 old) (decodeFp fmtFP32 x)).1

/-- An atomic operation at its home (R233): the old value and the state after the step. -/
def State.applyAtomic (s : State) (who : Who) (l : Loc) (op : AtomOp) (dbl : Bool) (x y : DWord) : Nat × State :=
  let n := if dbl then 8 else 4
  let w := 8 * n
  let old := memNat s.mem l.pa n
  let s := (s.load who l.pa n).2
  match atomStep op w old (x.toNat % 2 ^ w) (y.toNat % 2 ^ w) with
  | some new => (old, s.store who l.pa (leBytes n new))
  | none => (old, s)

/-- A value as 32-bit words, lowest first. -/
def wordsOf : Nat → Nat → List Nat
  | 0, _ => []
  | n + 1, x => x % 2 ^ 32 :: wordsOf n (x / 2 ^ 32)

/-! ## Elements (R71 to R74) -/

/-- Whether a location is a host window. -/
def Loc.isHost (x : Loc) : Bool :=
  match regionOf x.pa with
  | .host _ _ => true
  | _ => false

/-- A location whose bytes the module's own homes do not hold: one of another module, or of a host window. -/
def State.elsewhere (s : State) (x : Loc) : Bool := decide (x.dev ≠ s.devId) || x.isHost

/-- Bytes that an element occupies in the data plane. -/
def ElemRef.bytes (e : ElemRef) : Nat := max 1 (planeBits e.fmt / 8)

/-- The code of an element as stored (R71): `data` gives the bytes of the data plane, `plane` a companion byte. -/
def ElemRef.code (e : ElemRef) (data : List Byte) (plane : Loc → Byte) : Nat :=
  let nb := planeBits e.fmt
  let lo := if nb ≤ 8 then (data.headD 0).toNat / 2 ^ e.sub % 2 ^ nb else leNat (data.take (nb / 8))
  match e.comp with
  | some (c, b) => lo + (plane c).toNat / 2 ^ b % 4 * 16
  | none => lo

/-- Decode an element (R73): the FP32 value and the conditions. -/
def ElemRef.decode (e : ElemRef) (data : List Byte) (plane : Loc → Byte) : Word × BitVec 16 :=
  decodeElem e.fmt (e.code data plane) (e.book.getD 0) (e.scale.map (fun l => (plane l).toNat))

/-- A byte of a further plane for a message at its home: as its own home gave it, where that lies elsewhere (R74). -/
def State.planeByte (s : State) (who : Reader) (frame : DWord) (x : Loc) : Byte × Bool :=
  if s.elsewhere x then
    match s.farBytes who x 1 with
    | some r => (r.1.headD 0, r.2)
    | none => (0, false)
  else ((s.bound frame x.pa [memByte s.mem x.pa]).headD 0, s.poisoned x.pa 1)

/-- Ask for bytes of further planes that lie elsewhere; whether all have come. -/
def State.askPlanes (s : State) (who : Reader) (core : Nat) (ys : List Loc) : Bool × State :=
  (ys.filter s.elsewhere).foldl (fun a y => let r := a.2.farRead who core y 1; (a.1 && r.1.isSome, r.2)) (true, s)

/-- Post a message in the name of another message's sender. -/
def State.postLike (s : State) (m : Msg) (src : Nat) (dst : Home) (body : MsgBody) : State :=
  { s.bump with net := s.net ++ [{ m with
      id := s.keys, srcDev := s.devId, src := src, dst := dst, after := [], applied := false, sent := false, orig := 0,
      asked := false, body := body }] }

/-- Reads of scale and companion bytes that the module's own homes hold (R69, R337). -/
def State.seePlanes (s : State) (who : Who) (ys : List Loc) : State :=
  (ys.filter (fun y => !s.elsewhere y)).foldl (fun s y => s.see who y.pa 1) s

/-- Encode and store an element at its home (R73, R74); the companion bits follow as a posted write when they are
homed elsewhere. -/
def State.applyElem (s : State) (m : Msg) (e : ElemRef) (x : Word) (mode : Nat) (sat : Bool) (draw : Word) : State :=
  let rm : RMode := if mode = 1 then .rz else if mode = 2 then .sr else .rne
  let scale := e.scale.map (fun l => (s.planeByte (.msg m.id) 0 l).1.toNat)
  let code := (encodeElem e.fmt x (e.book.getD 0) scale rm sat draw).1
  let nb := planeBits e.fmt
  let s := s.seePlanes m.who e.scale.toList
  let s := if nb = 4 then
      s.applyWrite m.who e.data [BitVec.ofNat 8 (code % 16 * 2 ^ e.sub)] [BitVec.ofNat 8 (15 * 2 ^ e.sub)]
    else s.applyWrite m.who e.data (leBytes (nb / 8) code) []
  match e.comp with
  | none => s
  | some (c, b) =>
    let d := [BitVec.ofNat 8 (code / 16 % 4 * 2 ^ b)]
    let k := [BitVec.ofNat 8 (3 * 2 ^ b)]
    if s.homeOf c = s.homeOf e.data then s.applyWrite m.who c d k
    else
      let src := match s.homeOf e.data with
        | .core _ h => h
        | .port _ => m.src
      s.postLike m src (s.homeOf c) (.write c d k)

/-! ## Instruction fetches (R133, R145, R316) -/

/-- What a fetch at an address finds. -/
inductive FetchRes where
  | word (w : Word)
  | bad                        -- no translation, or no execute permission
  | page                       -- a second-tier page to be brought in
  | far                        -- homed at another module or behind a host window, where it is to be read
deriving DecidableEq, Repr

/-- Read a 32-bit word as an instruction fetch under an ASID. -/
def State.fetchWord (s : State) (core : Nat) (asid : BitVec 16) (va : Nat) : FetchRes :=
  if va % 4 ≠ 0 then .bad
  else
    match s.xlate (some core) asid va with
    | .ok l =>
      if !l.x then .bad
      else
        match s.locOn l va with
        | none => .bad
        | some x => if s.elsewhere x then .far else .word (BitVec.ofNat 32 (memNat s.mem x.pa 4))
    | .tier _ _ _ => if s.regs.funcMode.getLsbD 0 then .bad else .page
    | .parked _ => .bad
    | .np => .bad
    | .prot => .bad

/-- Parts of a range of bytes, each inside one unit of `g` bytes. -/
def piecesBy (g : Nat) : Nat → Nat → Nat → List (Nat × Nat)
  | 0, _, _ => []
  | k + 1, va, n =>
    if n = 0 then []
    else
      let m := min n (g - va % g)
      (va, m) :: piecesBy g k (va + m) (n - m)

/-- Parts of a range of bytes, each inside one 4 KiB granule. -/
def piecesOf (k va n : Nat) : List (Nat × Nat) := piecesBy 4096 k va n

/-! ## Reads of the part under an ASID -/

/-- The outcome of a read by the part. -/
inductive VRead where
  | ok (b : List Byte)
  | bad                        -- some page does not translate or lacks read permission
  | page (va : Nat)            -- a second-tier page is to be brought in first
  | wait                       -- a range lock, or bytes of another module
deriving DecidableEq, Repr

/-- Read bytes at virtual addresses, granule by granule; those of another module, or of host memory, as they have come for the
reader. -/
def State.readVa (s : State) (who : Reader) (core : Nat) (asid : BitVec 16) (va n : Nat) : VRead :=
  (piecesOf (n / 4096 + 2) va n).foldl (fun a p =>
    match a with
    | .ok b =>
      (match s.access core asid p.1 1 true false with
        | .trap _ => .bad
        | .page => .page p.1
        | .wait => .wait
        | .none _ => .ok (b ++ List.replicate p.2 0)
        | .ok _ x =>
          if x.isHost ∨ x.dev ≠ s.devId then
            match s.farBytes who x p.2 with
            | some y => .ok (b ++ y.1)
            | none => .wait
          else if s.locked x p.2 false then .wait
          else .ok (b ++ memBytes s.mem x.pa p.2))
    | r => r) (.ok [])

/-- Ask for those of the bytes that lie elsewhere. -/
def State.askVa (s : State) (who : Reader) (core : Nat) (asid : BitVec 16) (va n : Nat) : State :=
  (piecesOf (n / 4096 + 2) va n).foldl (fun s p =>
    match s.access core asid p.1 1 true false with
    | .ok _ x => if x.isHost ∨ x.dev ≠ s.devId then (s.farRead who core x p.2).2 else s
    | _ => s) s

/-- What a read by the part of those bytes does besides: the granules of this module that it reads are observed, and the frames
they lie in are referenced (R69, R337). -/
def State.seeVa (s : State) (w : Who) (core : Nat) (asid : BitVec 16) (va n : Nat) : State :=
  (piecesOf (n / 4096 + 2) va n).foldl (fun s p =>
    match s.access core asid p.1 1 true false with
    | .ok _ x => if x.isHost ∨ x.dev ≠ s.devId then s else (s.load w x.pa p.2).2
    | _ => s) s

end Sys2Proof.Machine
end

