-- ==== Sys2Proof/Machine/Commit.lean ====
section
/-!
DEFINITION. Commit of runs (R27, R28), continuation runs (R47), departures and splits by home (R45, R46, R53 to R55),
and the issue of one word of the party stream (R135, R136, R25).
-/

namespace Sys2Proof.Machine

open Host

/-! ## Values of loads -/

/-- A bundle at a departing instruction: its party stays ACTIVE until its record is formed (R23, R46). -/
def Bundle.departs (b : Bundle) : Bool :=
  match b.phase with
  | .departing _ => true
  | _ => false

/-- The register values a loaded datum gives: one word for codes 0 to 4, two for 5, four for 6; with 8 added to the
code, one 64-bit scalar (R228, R231). Code 15 gives a codebook whole (R225), 16 one value for every lane, 17 a scalar
and a value for every lane (R179). -/
def loadVals (wcode : Nat) (data : List Byte) : List Nat :=
  let x := leNat data
  let sx (w out : Nat) : Nat := ((signedOf w x) % (2 ^ out : Nat)).toNat
  match wcode with
  | 1 => [sx 8 32]
  | 3 => [sx 16 32]
  | 5 => wordsOf 2 x
  | 6 => wordsOf 4 x
  | 9 => [sx 8 64]
  | 11 => [sx 16 64]
  | 0 | 2 | 4 => [x % 2 ^ 32]
  | 15 => [x]
  | 16 => List.replicate 64 x
  | 17 => x :: List.replicate 64 x
  | _ => [x % 2 ^ 64]

/-- Bytes of a WIDTH code (R228). -/
def widthBytes (w : Nat) : Nat :=
  match w with
  | 0 | 1 => 1
  | 2 | 3 => 2
  | 4 => 4
  | 5 => 8
  | _ => 16

/-! ## Steps that a message makes at its home -/

/-- Whether a range lock stands in the way of the steps that an element access makes on its scale and companion bytes here:
reads, and the write of the companion bits where they share the data byte's home (R74, R84). -/
def State.elemLocked (s : State) (e : ElemRef) (wr : Bool) : Bool :=
  (e.scale.toList.filter (fun y => !s.elsewhere y)).any (fun y => s.locked y 1 false) ||
  (e.comp.toList.filter (fun y => !s.elsewhere y.1)).any (fun y =>
    if wr then decide (s.homeOf y.1 = s.homeOf e.data) && s.locked y.1 1 true else s.locked y.1 1 false)

/-- Whether a range lock stands in the way of a message's step (R84). -/
def State.msgLocked (s : State) (m : Msg) : Bool :=
  (match m.body.target with
    | some (l, n, wr) => s.locked l n wr
    | none => false) ||
  (match m.body with
    | .elem e _ _ _ _ => s.elemLocked e true
    | .heldElem e _ _ => s.elemLocked e false
    | _ => false)

/-- The data-plane bytes of an element for a read of a message: as the first step at the home found them (R74). -/
def State.elemData (s : State) (m : Msg) (e : ElemRef) (frame : DWord) : List Byte × Bool :=
  (s.farBytes (.msg m.id) e.data e.bytes).getD
    (s.bound frame e.data.pa (memBytes s.mem e.data.pa e.bytes), s.poisoned e.data.pa e.bytes)

/-- Scale and companion bytes that lie elsewhere are read for an element message at its home, those of a read after its
data bytes (R74): whether all have come. -/
def State.elemReady (s : State) (m : Msg) : Bool × State :=
  let who := Reader.msg m.id
  match m.body with
  | .elem e _ _ _ _ => s.askPlanes who m.dst.coreNo e.scale.toList
  | .heldElem e frame _ =>
    if e.planes.any s.elsewhere && (s.farBytes who e.data e.bytes).isNone then
      let acc : FarAcc := ⟨who, e.data, e.bytes, 0, some (s.elemData m e frame)⟩
      let s1 := (s.load m.who e.data.pa e.bytes).2
      State.askPlanes { s1 with reads := s1.reads ++ [acc] } who m.dst.coreNo e.planes
    else s.askPlanes who m.dst.coreNo e.planes
  | _ => (true, s)

/-- Apply a write, an element store, an atomic operation, a held read or a spill of a message, unless a lock holds it. -/
def State.applyBody (s : State) (m : Msg) : Option State :=
  if s.msgLocked m then none
  else
    match m.body with
    | .write l d k => some (s.applyWrite m.who l d k)
    | .elem e x mode sat draw => some ((s.applyElem m e x mode sat draw).dropReads (.msg m.id))
    | .atomic l op dbl x y ret =>
      let r := s.applyAtomic m.who l op dbl x y
      match ret with
      | some o => some (r.2.returnVals m o (wordsOf (if dbl then 2 else 1) r.1) (s.poisoned l.pa (if dbl then 8 else 4)))
      | none => some r.2
    | .heldRead l n wcode frame op =>
      let r := s.load m.who l.pa n
      some (r.2.returnVals m op (loadVals wcode (s.bound frame l.pa r.1)) (s.poisoned l.pa n))
    | .heldElem e frame op =>
      let d := s.elemData m e frame
      let x := e.decode d.1 (fun y => (s.planeByte (.msg m.id) frame y).1)
      let bad := d.2 || e.planes.any (fun y => (s.planeByte (.msg m.id) frame y).2)
      some (((s.load m.who e.data.pa e.bytes).2.seePlanes m.who e.planes |>.dropReads (.msg m.id)).returnVals m op [x.1.toNat, x.2.toNat] bad)
    | .block l d op poison =>
      let s := s.applyWrite m.who l d []
      let s := if poison then { s with poison := (granules l.pa d.length).foldl NatSet.add s.poison } else s
      some (s.returnVals m op [] false)
    | .spill _ (some l) d k poison =>
      let s := s.applyWrite m.who l d k
      some (if poison then { s with poison := (granules l.pa d.length).foldl NatSet.add s.poison } else s)
    | _ => none

/-! ## Sending at commit (R28, R106, R108) -/

/-- A step that the issuing core may apply at commit, when its home is local (R14). -/
def MsgBody.atOnce : MsgBody → Option Loc
  | .write l _ _ => some l
  | .elem e _ _ _ _ => some e.data
  | .atomic l _ _ _ _ _ => some l
  | .heldRead l _ _ _ _ => some l
  | .heldElem e _ _ => some e.data
  | .block l _ _ _ => some l
  | _ => none

/-- An element access that needs no byte from elsewhere. -/
def State.planesHere (s : State) : MsgBody → Bool
  | .elem e _ _ _ _ => e.planes.all (fun y => !s.elsewhere y)
  | .heldElem e _ _ => e.planes.all (fun y => !s.elsewhere y)
  | _ => true

/-- A body that reads and returns a result. -/
def MsgBody.isRead : MsgBody → Bool
  | .heldRead _ _ _ _ _ => true
  | .heldElem _ _ _ => true
  | .hostRead _ _ _ => true
  | .fetch _ => true
  | .barq _ _ _ => true
  | .test _ _ _ _ _ => true
  | _ => false

/-- What publishes an interval when it is sent, whatever its order (R337). -/
def MsgBody.publishes : MsgBody → Bool
  | .atomic _ _ _ _ _ _ => true
  | .att _ _ _ _ _ => true
  | .mso _ _ _ _ => true
  | .version _ _ _ _ _ => true
  | _ => false

/-- Publish the interval of a party's team (R337). -/
def State.publishOf (s : State) (p : Party) : State := s.publish (p.who s.devId).team

/-- Live parties of a team, splits included (R54, R337). -/
def State.liveOf (s : State) (key : Nat) : Nat := sumBy (fun e => if e.2.team = key + 1 then e.2.count else 0) s.lineages

/-- What escapes a team's interval when it is sent: a release, unless it is an arrival at a team barrier whose round can
still include every live party; and a store to another module (R337). -/
def State.escapes (s : State) (d : Draft) : Bool :=
  d.posted || d.body.publishes ||
  (match d.body with
    | .arrival (.team k _) a => d.release.isSome && decide (a.count < s.liveOf k)
    | .write l _ _ => d.release.isSome || decide (l.dev ≠ s.devId)
    | .elem e _ _ _ _ => d.release.isSome || decide (e.data.dev ≠ s.devId)
    | _ => d.release.isSome)

/-- Messages of a party to a home have not been applied: what the party sends there later comes behind them (R56, R104). -/
def State.queuedTo (s : State) (pid : Nat) (h : Home) : Bool :=
  s.net.any (fun m => decide (m.party = pid) && decide (m.srcDev = s.devId) && !m.applied && decide (m.dst = h))

/-- Send one effect at commit: at once where the home is local and nothing is to be waited for, and as a message
otherwise. -/
def State.sendDraft (s : State) (pid bid : Nat) (lanes : DWord) (d : Draft) : State :=
  match s.party? pid with
  | none => s
  | some p =>
    let core := p.core
    let s := if s.escapes d then s.publishOf p else s
    -- the grid of a party of another module is told of the frame that it opens here, and of its launch (R32, R273)
    let tell (frame : Bool) : State := if p.originDev = s.devId ∨ p.seed.isSome then s
      else s.post p pid core 0 [] (.core p.originDev p.originCore.toNat) (.away p.gridId s.devId frame 1)
    let s := match d.body with
      | .frameConfirm 0 _ _ _ => tell true
      | .launch _ _ _ _ _ _ _ _ => tell false
      | _ => s
    let waits := (match d.release with
      | some sc => s.releaseWaits p pid sc
      | none => []) ++ (if d.body.isRead then p.fenceR else p.fenceW)
    let id := s.keys
    let body := match d.body with
      | .mso l (.rowputFrom src) f g =>
        .mso l (.rowput (src.flatMap (fun e => memBytes s.mem e.1.pa e.2)) (src.any (fun e => s.poisoned e.1.pa e.2))) f g
      | b => b
    let s0 := s.post p pid core lanes waits d.home body
    let s1 := if d.old then { s0 with net := mapWhere (fun m => decide (m.id = id)) (fun (m : Msg) => { m with old := true }) s0.net }
      else s0
    let here := !d.posted && waits.isEmpty && !s.unsentTo pid lanes d.home && !s.queuedTo pid d.home && s.planesHere d.body &&
      (match d.body.atOnce with
        | some l => s.isLocal core l
        | none => false)
    let now := if here then (match s1.msg? id with
        | some m => (s.applyBody m).map State.bump
        | none => none) else none
    match now with
    | some s' => s'
    | none =>
      match s1.party? pid with
      | none => s1
      | some p =>
        let ask (b : Bundle) : Bundle := if d.sync then { b with asked := b.asked ++ [id] } else b
        let hold := if d.acq then [id] else []
        s1.setParty pid { p with
          bundles := mapWhere (fun b => decide (b.id = bid)) ask p.bundles,
          fenceW := p.fenceW ++ hold, fenceR := p.fenceR ++ hold }

/-- Messages of a party whose results an acquire waits for (R108). -/
def State.heldReads (s : State) (p : Party) (pid : Nat) : List Nat :=
  (s.net.filter (fun m => m.ofParty pid p && (match m.body with
    | .heldRead _ _ _ _ _ => true
    | .heldElem _ _ _ => true
    | .atomic _ _ _ _ _ r => r.isSome
    | .barq _ _ _ => true
    | .fetch _ => true
    | .att _ _ _ _ _ => true
    | .mso _ _ f g => f.isSome || g.isSome
    | _ => false))).map (fun m => m.id)

/-- The fence takes its place among the events sent at commit (R108). -/
def State.sendFence (s : State) (pid order scope : Nat) : State :=
  match s.party? pid with
  | none => s
  | some p =>
    if scope = 0 then s
    else
      let rel := if order = 1 then [] else s.releaseWaits p pid scope
      let acq := if order = 2 then [] else s.heldReads p pid
      let s := if order = 1 then s else s.publishOf p
      s.setParty pid { p with
        fenceW := p.fenceW ++ rel ++ acq,
        fenceR := p.fenceR ++ acq ++ (if order = 2 then [] else rel) }

/-- Put operand tiles into a party's queue of its team's sequencer (R259). -/
def State.pushTile (s : State) (p : Party) (slot : Nat) (t : Tile) : State :=
  match Map.find s.teams p.teamKey with
  | none => s
  | some tm =>
    match tm.seqr with
    | none => s
    | some q => { s with teams := Map.insert s.teams p.teamKey { tm with
        seqr := some { q with queues := Map.insert q.queues slot (Map.getD q.queues slot [] ++ [t]) } } }

/-- Send the effects of a committing run in program order; those that change the set of fibres come after. -/
def State.sendEffects (s : State) (pid bid : Nat) (es : List Eff) : State :=
  es.foldl (fun s e =>
    match e.item with
    | .send d => s.sendDraft pid bid e.lanes d
    | .fence o sc => s.sendFence pid o sc
    | .engine eng seq =>
      let x := Map.getD s.engines eng Engine.init
      let after := match s.party? pid with
        | some p => s.releaseWaits p pid 4 ++ p.fenceW
        | none => []
      let s := match s.party? pid with
        | some p =>
          let s1 := s.publishOf p
          if p.originDev = s.devId then s1
          else s1.post p pid p.core 0 [] (.core p.originDev p.originCore.toNat) (.away p.gridId s.devId false 1)
        | none => s
      -- its registrations at other modules come before its start (R82)
      let k := s.keys
      let far := (x.ops.filter (fun o => decide (o.seq = seq))).flatMap (fun o => s.farLocks o.op)
      let s := far.foldl (fun s e => s.postPart (32 * (eng / 16)) (.core e.1 (32 * e.2.1))
        (.lock e.2.2.owner e.2.2.wr e.2.2.leaf e.2.2.lo e.2.2.hi)) s
      let after := after ++ (List.range far.length).map (fun i => k + i)
      let ops := mapWhere (fun o => decide (o.seq = seq)) (fun (o : EngOp) => { o with committed := true, after := after }) x.ops
      { s with engines := Map.insert s.engines eng { x with ops := ops } }
    | .tile slot t => (match s.party? pid with
      | some p =>
        if p.originDev = s.devId then s.pushTile p slot t
        else s.post p pid p.core e.lanes [] (.core p.originDev p.originCore.toNat) (.tilePush p.teamKey slot t)
      | none => s)
    | _ => s) s

/-! ## Commit of registers (R27, R289, R294) -/

/-- Write a register of the window space; a write by the part makes it dirty and removes its poison (R289). -/
def Party.putReg (p : Party) (k : Nat) (x : Word) : Party :=
  { p with vregs := Map.put p.vregs k x 0, dirty := NatSet.add p.dirty k, poison := NatSet.del p.poison k }

/-- A party-wide write becomes architectural (R157). -/
def Party.putItem (p : Party) (i : PItem) : Party :=
  match i with
  | .s n x => { p with scal := Map.put p.scal n x 0, poison := NatSet.del p.poison (wideKey n) }
  | .h n x => { p with hand := Map.put p.hand n x 0, poison := NatSet.del p.poison (wideKey (64 + n)) }
  | .cb b => { p with cb := b }
  | .frame x => { p with frame := x }
  | .limbCtl x => { p with limbCtl := x }
  | .limbFlags m x => { p with limbFlags := (p.limbFlags &&& ~~~m) ||| (x &&& m) }
  | .rngKey lo hi => { p with rngLo := lo, rngHi := hi }
  | .rngStream x => { p with rngStream := x }
  | .fpflags x => { p with fpflags := x }

/-- Commit a party-wide write: of two writes to one register the one issued later remains (R157). -/
def Party.putWide (p : Party) (e : Nat × PItem) : Party :=
  match e.2.slot with
  | none => p.putItem e.2
  | some k =>
    if e.1 < Map.getD p.wseq k 0 then p else { p.putItem e.2 with wseq := Map.insert p.wseq k e.1 }

/-- Replace a lane's predicates. -/
def Party.putPreds (p : Party) (l : Nat) (x : BitVec 16) : Party :=
  { p with lanes := Map.put p.lanes l { p.lane l with preds := x } Lane.init }

/-- Make an overlay's writes architectural. -/
def Party.fold (p : Party) (o : Overlay) : Party :=
  let p := o.v.foldl (fun p e => if e.1 < tempBase * 64 then p.putReg e.1 e.2 else p) p
  let p := o.marks.foldl (fun p k => p.putReg k 0) p
  let p := o.preds.foldl (fun p e => p.putPreds e.1 e.2) p
  let p := o.fills.foldl (fun p e =>
    { p with lanes := Map.put p.lanes e.1 { p.lane e.1 with lo := e.2 } Lane.init }) p
  let p := o.pw.foldl (fun p e => p.putWide e.2) p
  { p with fpflags := o.fp.foldl (fun f e => if o.fpEpoch ≤ e.1 / 64 then f ||| e.2 else f) p.fpflags }

/-- The operations of a committing run count towards their flags from now on; a late one without a flag, and one that
pushes, holds back the bundle's next run (R26, R104, R229). -/
def Party.commitOps (p : Party) (bid : Nat) : Party :=
  let mine := p.pend.filter (fun o => decide (o.bundle = bid) && !o.committed)
  let hold := (mine.filter (fun o => o.flag.isNone || o.dests.any (fun d => match d with
    | .push _ => true
    | _ => false))).map (fun o => o.id)
  { p with
    pend := mapWhere (fun o => decide (o.bundle = bid)) (fun o => { o with committed := true }) p.pend,
    bundles := mapWhere (fun b => decide (b.id = bid)) (fun b => { b with gates := b.gates ++ hold }) p.bundles }

/-- What a run may not commit before (R26): its own operations that no flag stands for. -/
def Party.commitReady (p : Party) (bid : Nat) : Bool :=
  !p.pend.any (fun o => decide (o.bundle = bid) && !o.committed && !o.late && o.flag.isNone)

/-- Special registers whose value at the start of a run `mfs` reads (R170). -/
def Party.snapRegs (p : Party) : Map DWord :=
  [(0x001, p.mask), (0x010, p.limbCtl.setWidth 64), (0x011, p.limbFlags), (0x020, p.rngLo), (0x021, p.rngHi),
   (0x022, p.rngStream.setWidth 64), (0x030, p.frame), (0x040, p.fpflags.setWidth 64)]

/-- A bundle that waits at a header, where others may join it: neither one whose next run skips an instruction nor one that
still yields (R20, R169, R174). -/
def Bundle.atHeader (b : Bundle) : Bool :=
  (decide (b.phase = .waiting) || decide (b.phase = .fetched)) && b.skip.isNone && (b.yieldTo.isNone || b.yieldOn.isEmpty) &&
  (match b.run with
    | some r => !r.cont
    | none => true)

/-- Add fibres that stand at a header: they join the waiting bundle of equal PC and base, or form one (R20). -/
def Party.addFibres (p : Party) (id : Nat) (mask pc : DWord) (wb clk : Nat) (gates asked : List Nat) (jump : DWord) : Party :=
  match p.bundles.find? (fun b => b.atHeader && decide (b.pc = pc) && decide (b.wb = wb)) with
  | some b => p.setBundle { b with
      mask := b.mask ||| mask, gates := b.gates ++ gates, asked := b.asked ++ asked, jump := b.jump ||| jump }
  | none => { p with bundles := p.bundles ++ [{ Bundle.at id mask pc wb clk with gates := gates, asked := asked, jump := jump }] }

/-- Places at which the lanes of a finished run continue: header, window base and lanes, by lowest lane (R21, R165). -/
def targetsOf (r : Run) (wb : Nat) (lanes : List Nat) : List (Nat × Nat × List Nat) :=
  lanes.foldl (fun acc l =>
    let pc := Map.getD r.taken l r.next.toNat
    let w := Map.getD r.ov.wb l wb
    if acc.any (fun e => decide (e.1 = pc ∧ e.2.1 = w)) then
      acc.map (fun e => if e.1 = pc ∧ e.2.1 = w then (e.1, e.2.1, e.2.2 ++ [l]) else e)
    else acc ++ [(pc, w, [l])]) []

/-- Effective priority (R35). -/
def Party.effPrio (p : Party) : Nat := min 3 (p.priority.toNat + p.level)

/-- A party with the levels it has gained and the mark it bears at a clk: one level for each full 4,096 clk READY or ACTIVE
without beginning a run (R35), starving from 61,440 clk on (R37). -/
def Party.aged (p : Party) (clk : Nat) : Party :=
  if p.resident && !p.isBlocked then
    { p with level := min 3 ((clk - p.beganAt) / 4096), starving := p.starving || decide (61440 ≤ clk - p.beganAt) }
  else p

/-- The children that a run's `fork`s made come into being at commit (R166). -/
def State.forkChildren (s : State) (pid : Nat) (es : List Eff) : State :=
  es.foldl (fun s e =>
    match e.item with
    | .child l pc wb preds regs =>
      match s.party? pid with
      | none => s
      | some p =>
        let p := { p with
          vregs := p.vregs.filter (fun x => decide (x.1 % 64 ≠ l)), dirty := p.dirty.filter (fun k => decide (k % 64 ≠ l)),
          poison := p.poison.filter (fun k => decide (wideKey 0 ≤ k) || decide (k % 64 ≠ l)) }
        let p := regs.foldl (fun p x => p.putReg (regKey x.1 l) x.2) p
        let p := { p with lanes := Map.put p.lanes l { preds := preds, lo := 0, dfrom := 0 } Lane.init }
        s.bump.setParty pid (p.addFibres s.keys (maskOf [l]) pc wb (s.clk p.core) [] [] (maskOf [l]))
    | _ => s) s

/-- Lanes that a run's `fend`s end. -/
def deadLanes (es : List Eff) : DWord :=
  es.foldl (fun m e => match e.item with
    | .fend => m ||| e.lanes
    | _ => m) 0

/-- Drop lanes from a party: their slots are free and hold nothing (R19). -/
def Party.dropLanes (p : Party) (m : DWord) : Party :=
  if m = 0 then p
  else p.part (p.mask &&& ~~~m) ((p.bundles.map (fun b => { b with mask := b.mask &&& ~~~m })).filter
    (fun b => decide (b.mask ≠ (0 : DWord))))

/-- Commit a bundle's run up to the word at which it stands: registers, flags and effects (R27). The run stays with the
bundle, its writes folded in. -/
def State.commitWrites (s : State) (pid bid : Nat) : State :=
  match s.party? pid with
  | none => s
  | some p =>
    match p.bundle? bid with
    | none => s
    | some b =>
      match b.run with
      | none => s
      | some r =>
        let p := ((p.fold r.ov).setBundle { b with run := some { r with ov := Overlay.empty, eff := [] } }).commitOps bid
        let s := (s.setParty pid p).sendEffects pid bid r.eff
        s.forkChildren pid r.eff

/-- RUN_COMMIT: the run's effects become architectural for every lane of the bundle, and the lanes go to the headers
at which they continue (R21, R27). -/
def State.finishRun (s : State) (pid bid : Nat) : State :=
  match s.party? pid with
  | none => s
  | some p0 =>
    match p0.bundle? bid with
    | none => s
    | some b0 =>
      match b0.run with
      | none => s
      | some r =>
        let s := s.commitWrites pid bid
        if r.eff.any (fun e => decide (e.item = .exit)) then s.endParty pid
        else
          match r.eff.findSome? (fun e => match e.item with
              | .tret k => some k
              | _ => none) with
          | some k =>
            (match s.party? pid with
              | none => s
              | some p =>
                let q := p.dropLanes (deadLanes r.eff)
                let s := s.setParty pid q
                if q.bundles.isEmpty then s.endParty pid else s.trapReturn pid k)
          | none =>
            match s.party? pid with
            | none => s
            | some p =>
              match p.bundle? bid with
              | none => s
              | some b =>
                let dead := deadLanes r.eff
                let clk := s.clk p.core
                let places := targetsOf r b.wb (lanesOf (b.mask &&& ~~~dead))
                let p1 := (p.dropBundle bid)
                let yields := r.eff.any (fun e => decide (e.item = .yield))
                let others := (s.residents p.core).filter (fun e => decide (e.1 ≠ pid) && (match e.2.place with
                  | .slot _ .ready => decide ((p.aged clk).effPrio ≤ (e.2.aged clk).effPrio)
                  | _ => false))
                let late (x : Bundle) : Bundle := { x with yieldTo := some (clk + 256), yieldOn := others.map (fun e => e.1) }
                let idOf (t : Nat × Nat × List Nat) (k : Nat) : Nat :=
                  if t.2.2.head? = (places.headD (0, 0, [])).2.2.head? then bid else k
                let r2 := places.foldl (fun (a : Party × Nat) t =>
                  let id := idOf t a.2
                  let pc := BitVec.ofNat 64 t.1
                  -- the lanes of a run that ended in `yield` wait in bundles of their own (R169)
                  let q := if yields && !others.isEmpty then
                      { a.1 with bundles := a.1.bundles ++
                          [late { Bundle.at id (maskOf t.2.2) pc t.2.1 clk with gates := b.gates, asked := b.asked, jump := 0 }] }
                    else a.1.addFibres id (maskOf t.2.2) pc t.2.1 clk b.gates b.asked 0
                  (q, a.2 + 1)) (p1, s.keys)
                let p2 := r2.1.part (p1.mask ||| (b.mask &&& ~~~dead)) r2.1.bundles
                let s := { s with keys := s.keys + places.length }
                let s := s.setParty pid p2
                if p2.bundles.isEmpty then s.endParty pid else s

/-! ## Claims of a run (R91, R92) -/

/-- The traps that the claims of a word have been answered with, once every claim of it is answered, with its address. -/
def Party.claimTraps (p : Party) (bid : Nat) : Option (DWord × List (Nat × Nat × DWord)) :=
  let mine := p.pend.filter (fun o => !o.committed && decide (o.bundle = bid) && decide (o.role ≠ .plain) && decide (o.role ≠ .fetch))
  let asked (pc : DWord) : Bool := mine.any (fun o => decide (o.pc = pc) && !o.ready && o.trap.isNone)
  (mine.find? (fun o => o.trap.isSome && !asked o.pc)).map (fun o =>
    (o.pc, (mine.filter (fun x => decide (x.pc = o.pc))).flatMap (fun x => match x.trap with
      | some k => (lanesOf x.lanes).map (fun l => (l, k.1, k.2))
      | none => [])))

/-- Raise the traps that a bundle's claims have been answered with (R91). -/
def State.raiseClaims (s : State) (pid bid : Nat) : Option State :=
  ((s.party? pid).bind (fun p => p.claimTraps bid)).map (fun e =>
    s.raise pid bid (e.2.map (fun x => ⟨x.1, x.2.1, x.2.2⟩)) e.1 false)

/-- The claim of a ticket (R91). -/
def OpRole.claims : OpRole → Bool
  | .claim _ _ => true
  | _ => false

/-- The lanes of an executed run that nothing keeps from committing, by whole integers where the party is bound, if claims of
other lanes alone keep the whole run from it, and none otherwise (R91, R92; log 37). -/
def Party.unclaimed (p : Party) (b : Bundle) : DWord :=
  let mine := p.pend.filter (fun o => decide (o.bundle = b.id) && !o.committed && !o.late && o.flag.isNone)
  if b.run.isNone || mine.any (fun o => o.ready || !o.role.claims) then 0
  else b.mask &&& ~~~(wholeIntegers (p.limbCtlFor b) b.mask (mine.foldl (fun m o => m ||| o.lanes) 0))

/-- An effect that ends the party or returns from its trap: it comes about once the run has committed for every lane (R168,
R174; log 37). -/
def EffItem.ends : EffItem → Bool
  | .exit => true
  | .tret _ => true
  | _ => false

/-- An effect that every part of a divided run has for its own lanes. -/
def EffItem.shared : EffItem → Bool
  | .fend => true
  | .yield => true
  | .fence _ _ => true
  | _ => false

/-- Divide an executed run: the lanes of a mask go to a bundle of their own, which commits; the effects that a run makes once go
with them where they took part (R92). Its number is the key counter before. -/
def State.divideRun (s : State) (pid bid : Nat) (m : DWord) : State :=
  match s.party? pid with
  | none => s
  | some p =>
    match p.bundle? bid with
    | none => s
    | some b =>
      match b.run with
      | none => s
      | some r =>
        let n := s.keys
        let ov := r.ov
        let goes (e : Eff) : Bool := decide (e.lanes &&& m ≠ 0) && !e.item.ends
        let part (k : DWord) (e : Eff) : Eff := if e.item.shared then { e with lanes := e.lanes &&& k } else e
        let out := (r.eff.filter goes).map (part m)
        let stay := ((r.eff.filter (fun e => !goes e || e.item.shared)).map (part (~~~m))).filter (fun e => decide (e.lanes ≠ (0 : DWord)))
        let pw := ov.pw.filter (fun e => decide (e.1 &&& m ≠ 0))
        let rest := ov.pw.filter (fun e => decide (e.1 &&& m = 0))
        let r1 : Run := { r with ov := { ov.cut (~~~m) with pw := pw }, eff := out, taken := keepLanes m r.taken }
        -- a write of FPFLAGS replaces the conditions raised before it, whichever part it goes with (R127)
        let gone := { ov with pw := pw }.fpEpoch
        let kept := { ov with pw := rest }.fpEpoch
        let r0 : Run := { r with
          ov := { ov.cut m with pw := rest, fp := ov.fp.filter (fun e =>
            if m.getLsbD (e.1 % 64) then decide (kept ≠ 0) && decide (kept ≤ e.1 / 64) else decide (gone ≤ e.1 / 64)) },
          eff := stay, taken := cutLanes m r.taken }
        let b1 : Bundle := { b with id := n, mask := m, run := some r1, ans := [], stalled := false }
        let b0 : Bundle := { b with mask := b.mask &&& ~~~m, run := some r0 }
        let ops := p.pend.flatMap (fun o =>
          if o.committed || decide (o.bundle ≠ bid) || decide (o.lanes &&& m = 0) then [o]
          else
            let x : PendOp := { o with bundle := n, lanes := o.lanes &&& m, dests := o.dests.map (Dest.cut (~~~m)) }
            let y : PendOp := { o with lanes := o.lanes &&& ~~~m, dests := o.dests.map (Dest.cut m) }
            if y.lanes = 0 then [x] else [x, y])
        s.bump.setParty pid { p with
          pend := ops, bundles := p.bundles.flatMap (fun x => if x.id = bid then [b0, b1] else [x]) }

/-- Commit what an executed run that ends its party, or returns from a trap, has done for the lanes of a mask; they stay with the
bundle until it has committed for them all (R91, R168; log 37). -/
def State.commitPart (s : State) (pid bid : Nat) (m : DWord) : State :=
  let n := s.keys
  let s := (s.divideRun pid bid m).commitWrites pid n
  match s.party? pid with
  | none => s
  | some p =>
    match p.bundle? bid, p.bundle? n with
    | some b, some x => s.setParty pid ((p.dropBundle n).setBundle { b with mask := b.mask ||| x.mask, gates := b.gates ++ x.gates })
    | _, _ => s

/-- An executed run commits for some of its lanes (R91, R92). -/
def State.commitSome (s : State) (pid bid : Nat) (m : DWord) : State :=
  let ends := ((s.party? pid).bind (fun p => p.bundle? bid)).any (fun b => b.run.any (fun r => r.eff.any (fun e => e.item.ends)))
  if ends then s.commitPart pid bid m else (s.divideRun pid bid m).finishRun pid s.keys

/-! ## Continuation runs (R47, R48) -/

/-- The continuation run that begins at the word at which a run stands. -/
def Run.continuation (r : Run) (snap : Map DWord) : Run :=
  let here := (r.words.getD r.idx { addr := r.start, w := 0, govr := none, bad := true }).addr
  { r with start := here, cont := true, wait := 0, words := r.words.drop r.idx, idx := 0, imm0 := r.imm, modh0 := r.modh, live0 := r.live, last0 := r.last,
           ov := { Overlay.empty with wb := r.ov.wb }, eff := [], taken := [], snap := snap, wb0 := r.ov.wb }

/-- Commit up to the word at which a bundle stands and begin a continuation run there; lanes of different window bases
stay together until the next header (R165). -/
def State.continueAt (s : State) (pid bid : Nat) : State :=
  match s.party? pid with
  | none => s
  | some p0 =>
    match p0.bundle? bid with
    | none => s
    | some b0 =>
      match b0.run with
      | none => s
      | some r =>
        let s := s.commitWrites pid bid
        if r.eff.any (fun e => decide (e.item = .exit)) then s.endParty pid
        else
          match s.party? pid with
          | none => s
          | some p =>
            match p.bundle? bid with
            | none => s
            | some b =>
              let dead := deadLanes r.eff
              let m := b.mask &&& ~~~dead
              let p1 := p.dropBundle bid
              let snap := { p with bundles := { b with mask := m } :: p1.bundles }.snapRegs
              let bs := if m = 0 then [] else
                [{ b with mask := m, run := some (r.continuation snap), phase := .running, ans := [], stalled := false }]
              let p2 := p1.part (p1.mask ||| m) (bs ++ p1.bundles)
              let s := s.setParty pid p2
              if p2.bundles.isEmpty then s.endParty pid else s

/-! ## Words of a run or matrix stream that lie at another module (R133) -/

/-- Number under which a bundle keeps a word of another module that it has asked for. -/
def fetchKey (va : Nat) : Nat := 2 ^ 20 + va

/-- What a fetch finds for a bundle: a word of another module stands among its answers once it has been read there. -/
def State.fetchFor (s : State) (b : Bundle) (core : Nat) (asid : BitVec 16) (va : Nat) : FetchRes :=
  match s.fetchWord core asid va with
  | .far => (match Map.find b.ans (fetchKey va) with
      | some (.data d _) => .word (BitVec.ofNat 32 (leNat d))
      | _ => .far)
  | r => r

/-- Ask the home of a word at another module for it; the bundle waits for the answer. -/
def State.askFetch (s : State) (pid : Nat) (p : Party) (b : Bundle) (va : Nat) : State :=
  match s.xlate (some p.core) p.asid va with
  | .ok l =>
    (match s.locOn l va with
      | none => s
      | some x =>
        let req := s.keys
        let s1 := s.post p pid p.core b.mask [] (s.homeOf x)
          (.hostRead x 4 ⟨s.devId, p.core, pid, b.id, fetchKey va, req⟩)
        s1.setParty pid (p.setBundle { b with asked := b.asked ++ [req] }))
  | _ => s

/-! ## Issue -/

/-- The checks of an instruction: it goes ahead, raises traps, or leaves the state as given without executing. -/
inductive Pre where
  | go
  | traps (l : List Trap)
  | hold (s : State)

/-- The outcome of an instruction's own effect: executed, or not executed with the state as given. -/
inductive Res where
  | done (c : Ctx)
  | stay (s : State)

/-- Every lane in a list traps with one cause and address. -/
def allTrap (lanes : List Nat) (cause : Nat) (addr : DWord) : List Trap := lanes.map (fun l => ⟨l, cause, addr⟩)

/-- The bundle stalls: nothing changes but the time from which it has stalled (R23, R25). -/
def Ctx.stall (c : Ctx) : State :=
  if c.b.stalled then c.s
  else c.s.setParty c.pid (c.p.setBundle { c.b with stalled := true, stallAt := c.clk })

/-- The word has executed: its hints are consumed and the next word follows (R146). -/
def Ctx.advance (c : Ctx) : State :=
  let idx := c.r.idx + 1
  { c with
    r := { c.r with idx := idx, imm := none, modh := none, last := [] },
    b := { c.b with stalled := false, ans := [],
                    phase := if c.r.words.length ≤ idx then .executed else c.b.phase } }.save

/-- A migration-capable instruction: `ld`, `st`, `atom`, `sld`, `sst`, `watch`, `rejoin` or `rejoinw` (R45). -/
def migrates (w : Word) : Bool :=
  let m := (field w 26 6).toNat
  let fn := (field w 0 4).toNat
  [0x20, 0x21, 0x22, 0x2F, 0x30].contains m || (decide (m = 0x2B) && decide (fn = 1)) ||
  (decide (m = 4) && (decide (fn = 2) || decide (fn = 3)))

/-- Consume the `live` hints in force (R49). -/
def Ctx.useLive (c : Ctx) : Ctx := { c with r := { c.r with live := none } }

/-- A migration-capable word that has no effect, because no lane is active or `tret.skip` skips it, consumes the `live`
hints as well (R49). -/
def Ctx.passLive (c : Ctx) : Ctx := if migrates c.word.w then c.useLive else c

/-- Mark the registers that a `last` hint names among those the word reads, in active lanes (R148, R294). -/
def Ctx.markLast (c : Ctx) (args : List Arg) : Ctx :=
  if c.r.last.isEmpty then c
  else
    let named := args.flatMap (fun a => a.named.filter (fun n => decide (n < 56) && c.r.last.contains n))
    let keys := named.flatMap (fun n => c.act.map (fun l => regKey (c.regOf n l) l))
    { c with r := { c.r with ov := { c.r.ov with marks := keys.foldl NatSet.add c.r.ov.marks } } }

/-- A party reads poisoned registers: the consumption is to be acted on before anything else of the party (R335). -/
def Ctx.consumeAt (c : Ctx) (lanes : List Nat) (pa va : Nat) : State :=
  { c.s with consumes := c.s.consumes ++ [{
      party := c.pid, bundle := c.b.id, lanes := maskOf lanes, team := (c.p.who c.s.devId).team, grid := c.p.gridAt c.s.devId,
      core := c.core, pa := pa / 64 * 64, va := BitVec.ofNat 64 va, asked := false, pc := c.here, lin := c.p.lineageKey + 1,
      unit := none, esc := none, granted := false }] }

/-- A consumption of poisoned registers (R335). -/
def Ctx.consume (c : Ctx) (lanes : List Nat) : State := c.consumeAt lanes 0 0

/-- Issue one word of the party stream: decode traps on every lane of the bundle (R135), the guard (R136), stalls (R25),
the instruction's own checks, then its effect for the active lanes. A word skipped by `tret.skip` has no effect (R174). -/
def issue (s : State) (g : BitVec 4) (args : List Arg) (pre : Ctx → Pre) (eff : Ctx → Res) :
    Outcome State Fault Refusal :=
  match s.ctx? with
  | none => .fault .noActor
  | some c0 =>
    if !c0.canIssue then .next s
    else if c0.r.skip = some c0.here then .next c0.passLive.advance
    else
      let g := c0.word.govr.getD g
      let c := { c0 with act := c0.guarded g }
      if g = 15 ∨ !(args.all (Arg.ok c.r.imm.isSome)) then
        .next (s.raise c.pid c.b.id (allTrap (lanesOf c.b.mask) cIllegal 0) c.here false)
      else if c.modBad ∧ c.act ≠ [] then
        .next (s.raise c.pid c.b.id (allTrap c.act cIllegal 0) c.here false)
      else if c.stalls args then .next c.stall
      else if c.poisonLanes args ≠ [] then .next (c.consume (c.poisonLanes args))
      else
        match (if c.act = [] then Pre.go else pre c) with
        | .traps ts => .next (s.raise c.pid c.b.id ts c.here false)
        | .hold s => .next s
        | .go =>
          if c.act = [] then .next c.passLive.advance
          else
            match eff (c.markLast args) with
            | .done c => .next c.advance
            | .stay s => .next s

/-- No checks. -/
def noChecks (_ : Ctx) : Pre := .go

/-- Traps to be raised, or none. -/
def Pre.ofTraps (l : List Trap) : Pre := if l.isEmpty then .go else .traps l

/-- A word that decodes to nothing: ILLEGAL on every lane of the bundle (R135). -/
def State.badWord (s : State) : State :=
  match s.ctx? with
  | none => s
  | some c =>
    if !c.canIssue then s
    else if c.r.skip = some c.here then c.advance
    else s.raise c.pid c.b.id (allTrap (lanesOf c.b.mask) cIllegal 0) c.here false

/-- A hint word has been read: the next word follows, and a run that it ends has been executed (R146). -/
def Ctx.pastHint (c : Ctx) : State :=
  let idx := c.r.idx + 1
  { c with
    r := { c.r with idx := idx },
    b := { c.b with stalled := false, phase := if c.r.words.length ≤ idx then .executed else c.b.phase } }.save

/-- Execute a hint word: `f` is the run with the hint in force, or nothing where the word is malformed (R146). -/
def hint (s : State) (f : Run → Option Run) : Outcome State Fault Refusal :=
  match s.ctx? with
  | none => .fault .noActor
  | some c =>
    if !c.canIssue then .next s
    else
      match f c.r with
      | none =>
        if c.r.skip = some c.here then .next c.pastHint
        else .next (s.raise c.pid c.b.id (allTrap (lanesOf c.b.mask) cIllegal 0) c.here false)
      | some r =>
        let r := if c.r.skip = some c.here then c.r else r
        .next ({ c with r := r } : Ctx).pastHint

/-- An instruction that computes in each active lane, with no check of its own. -/
def lanewise (s : State) (g : BitVec 4) (args : List Arg) (f : Ctx → Nat → Ctx) : Outcome State Fault Refusal :=
  issue s g args noChecks (fun c => .done (c.each f))

/-- An instruction with a party-wide effect, made once when a lane is active (R157). -/
def partywise (s : State) (g : BitVec 4) (args : List Arg) (f : Ctx → Ctx) : Outcome State Fault Refusal :=
  issue s g args noChecks (fun c => .done (f c))

/-! ## Departures (R45, R46, R53, R55) -/

/-- The groups of lanes that depart, by destination and window base, in order of their lowest lanes: a record carries one
WIN_BASE, so that lanes of one destination with different bases depart apart (R53; log 143). -/
def departGroups (dest : Nat → Option Home) (wb : Nat → Nat) (lanes : List Nat) : List (Home × Nat × List Nat) :=
  lanes.foldl (fun acc l =>
    match dest l with
    | none => acc
    | some h =>
      if acc.any (fun e => decide (e.1 = h ∧ e.2.1 = wb l)) then
        acc.map (fun e => if e.1 = h ∧ e.2.1 = wb l then (e.1, e.2.1, e.2.2 ++ [l]) else e)
      else acc ++ [(h, wb l, [l])]) []

/-- Split a party whose bundles have just begun continuation runs: each group of lanes becomes a party on its way to
its home, which holds no party slot until its record is formed (log 142); what stays is the original party, or a new one when
the bundle was not the whole party (R46, R53, R54). -/
def State.departSplit (s : State) (pid : Nat) (bids : List Nat) (whole : Bool) (live : BitVec 56)
    (groups : List (Home × Nat × List Nat)) : State :=
  match s.party? pid with
  | none => s
  | some p =>
    let core := p.core
    -- the `live` hints are consumed, and a `last` hint in force for the departing instruction is dropped (R49, R50)
    let drop (b : Bundle) : Bundle := { b with run := b.run.map (fun (r : Run) => { r with live := none, last := [], live0 := none, last0 := [] }) }
    let mine := (p.bundles.filter (fun b => bids.contains b.id)).map drop
    let others := p.bundles.filter (fun b => !bids.contains b.id)
    let gone := groups.foldl (fun m g => m ||| maskOf g.2.2) 0
    let stay := (mine.map (fun b => { b with mask := b.mask &&& ~~~gone })).filter (fun b => decide (b.mask ≠ (0 : DWord)))
    let n := groups.length + (if others.isEmpty then 0 else 1) + (if stay.isEmpty then 0 else 1)
    let s := (s.holdIf p pid core ((n : Int) - 1)).countMsg p pid core ((n : Int) - 1)
    let asked := if 1 < n then [s.keys - 1] else []
    let wait (b : Bundle) : Bundle := b.askedOf asked (s.clk core)
    -- a staying bundle's run begins with the lanes that stay (R53, R170)
    let rest := if whole then p.mask &&& ~~~gone else stay.foldl (fun m b => m ||| b.mask) 0
    let stays (b : Bundle) : Bundle :=
      wait { b with run := b.run.map (fun (r : Run) => { r with snap := Map.insert r.snap 0x001 rest }) }
    -- the bundle of a departing group
    let bundleOf (g : Home × Nat × List Nat) (id : Nat) : Bundle :=
      let b := (mine.find? (fun b => decide (b.mask &&& maskOf g.2.2 ≠ 0))).getD (Bundle.at id 0 0 g.2.1 0)
      let plain (r : Run) : Run := { r with wb0 := [], ov := { r.ov with wb := [] } }
      wait { b with id := id, mask := maskOf g.2.2, wb := g.2.1, run := b.run.map plain, phase := .departing g.1 }
    -- the party of a departing group, whose record comes after those of the groups before it (R53)
    let partyOf (g : Home × Nat × List Nat) (id : Nat) (before : List Nat) : Party :=
      { p.part (maskOf g.2.2) [bundleOf g id] with
        place := .flight core, live := live, homeCore := core, formedAt := s.steps, behind := before }
    let leave (s : State) (before : List Nat) (gs : List (Home × Nat × List Nat)) : State :=
      (gs.foldl (fun (a : State × List Nat) g =>
        ({ a.1 with keys := a.1.keys + 2 }.setParty a.1.keys (partyOf g (a.1.keys + 1) a.2), a.2 ++ [a.1.keys])) (s, before)).1
    if whole then
      if stay.isEmpty then
        match groups with
        | [] => s
        | g :: rest =>
          let b := bundleOf g s.keys
          let s := { s with keys := s.keys + 1 }
          leave (s.setParty pid { p.part (maskOf g.2.2) [b] with live := live }) [pid] rest
      else leave (s.setParty pid (p.part rest (stay.map stays))) [] groups
    else
      let s := s.setParty pid (p.part (others.foldl (fun m b => m ||| b.mask) 0) (others.map wait))
      let s := if stay.isEmpty then s
        else s.form core (p.part rest (stay.map stays))
      leave s [] groups

/-- What a migration-capable instruction does when `dest` names remote homes for some active lanes (R45, R46, R53,
R55): nothing when there are none; otherwise BOUND_SPLIT, a stall until the run may commit, or the departure. -/
def Ctx.depart (c : Ctx) (dest : Nat → Option Home) : Pre :=
  let remote := c.act.filter (fun l => (dest l).isSome)
  if remote.isEmpty then .go
  else
    let bound := decide (c.limbCtl ≠ 0)
    let homes := (departGroups dest (fun _ => 0) c.act).length
    if bound && (decide (1 < c.p.bundles.length) || decide (1 < homes) || decide (remote.length < c.act.length)) then
      .traps (allTrap c.act cBoundSplit 0)
    else if !c.p.commitReady c.b.id then .hold c.stall
    else
      let whole := decide (c.p.bundles.length = 1)
      let live := c.r.live.getD (BitVec.allOnes 56)
      let only := (c.act.findSome? dest).getD (.core c.s.devId c.core)
      let going := if bound then lanesOf c.b.mask else remote
      let d (l : Nat) : Option Home := if bound then some only else dest l
      let others := (c.p.bundles.filter (fun b => decide (b.id ≠ c.b.id))).map (fun b => b.id)
      let wbs := c.wbOf
      let s := c.s.continueAt c.pid c.b.id
      let bids := match s.party? c.pid with
        | some p => (p.bundles.map (fun b => b.id)).filter (fun i => !others.contains i)
        | none => []
      .hold (s.departSplit c.pid bids whole live (departGroups d wbs going))

end Sys2Proof.Machine
end

