-- ==== Sys2Proof/Machine/Flags.lean ====
section
/-!
DEFINITION. Conditions and flags: the comparison conditions (R159, R160), saturation (R118, R183), the Galrel words of
stochastic rounding (R268, R269) and the rounding calls of a lane with their FPFLAGS conditions (R124, R127, R205).
-/

namespace Sys2Proof.Machine

/-! ## Conditions (R159, R160) -/

/-- Condition `code` of R159 on two patterns of `w` bits. -/
def intCond (code w a b : Nat) : Bool :=
  match code with
  | 0 => decide (a = b)
  | 1 => decide (a ≠ b)
  | 2 => decide (signedOf w a < signedOf w b)
  | 3 => decide (signedOf w a ≤ signedOf w b)
  | 4 => decide (signedOf w b < signedOf w a)
  | 5 => decide (signedOf w b ≤ signedOf w a)
  | 6 => decide (a < b)
  | 7 => decide (a ≤ b)
  | 8 => decide (b < a)
  | 9 => decide (b ≤ a)
  | 10 => decide (a &&& b ≠ 0)
  | _ => decide (a &&& b = 0)

/-- Condition `code` of R160 on two values. -/
def fpCond (code : Nat) (a b : Val) : Bool :=
  let un := a.isNan || b.isNan
  let le := leVal a b || (a.isZero && b.isZero)
  let ge := leVal b a || (a.isZero && b.isZero)
  let eq := le && ge
  match code with
  | 0 => !un && eq
  | 1 => !un && !eq
  | 2 => !un && le && !eq
  | 3 => !un && le
  | 4 => !un && ge && !eq
  | 5 => !un && ge
  | 6 => !un
  | 7 => un
  | 8 => un || eq
  | 9 => un || !eq
  | 10 => un || (le && !eq)
  | 11 => un || le
  | 12 => un || (ge && !eq)
  | _ => un || ge

/-! ## Saturation (R118, R183) -/

/-- The pattern of an exact integer in `w` bits. -/
def wrapInt (w : Nat) (x : Int) : Nat := (x % (2 ^ w : Nat)).toNat

/-- An exact result brought to `w` bits: clamped to the range of the type when saturating, wrapped otherwise; with
whether clamping changed it (R183). -/
def clampInt (w : Nat) (signed sat : Bool) (x : Int) : Nat × Bool :=
  let lo : Int := if signed then -(2 ^ (w - 1) : Nat) else 0
  let hi : Int := if signed then (2 ^ (w - 1) : Nat) - 1 else (2 ^ w : Nat) - 1
  if sat && decide (x < lo) then (wrapInt w lo, true)
  else if sat && decide (hi < x) then (wrapInt w hi, true)
  else (wrapInt w x, false)

/-! ## The Galrel generator (R268) -/

/-- Rotations of `x3`. -/
def galA : List Nat := [16, 12, 8, 7, 13, 16, 12, 8, 7, 13]

/-- Rotations of `x1`. -/
def galB : List Nat := [11, 19, 5, 24, 17, 11, 19, 5, 24, 17]

/-- One round `i` of the generator. -/
def galRound (k : Nat → Word) (x : Word × Word × Word × Word) (i : Nat) : Word × Word × Word × Word :=
  let x0 := x.1 + x.2.1
  let x3 := (x.2.2.2 ^^^ x0).rotateLeft (galA.getD i 0)
  let x2 := x.2.2.1 + x3
  let x1 := (x.2.1 ^^^ x2).rotateLeft (galB.getD i 0)
  -- x1 and x3 are swapped
  if i % 2 = 1 then
    let q := (i + 1) / 2
    let add (j : Nat) : Word := k ((j + q) % 4) + BitVec.ofNat 32 (q * 0xD1B54A33)
    (x0 + add 0, x3 + add 1, x2 + add 2, x1 + add 3)
  else (x0, x3, x2, x1)

/-- `galrel(k, c)`. -/
def galrel (k c : Nat → Word) : Word × Word × Word × Word :=
  (List.range 10).foldl (galRound k) (c 0 ^^^ k 0, c 1 ^^^ k 1, c 2 ^^^ k 2, c 3 ^^^ k 3)

/-- The four words of a key or counter. -/
def words4 (w0 w1 w2 w3 : Word) (i : Nat) : Word :=
  if i = 0 then w0 else if i = 1 then w1 else if i = 2 then w2 else w3

/-- `word(draw, pos)` under a key, a stream and a fibre (R268). -/
def galWord (lo hi : DWord) (stream fibre draw pos : Word) : Word :=
  let x := galrel (words4 (field lo 0 32) (field lo 32 32) (field hi 0 32) (field hi 32 32))
    (words4 (draw >>> 2) pos fibre stream)
  words4 x.1 x.2.1 x.2.2.1 x.2.2.2 (draw.toNat % 4)

/-- Parties per team of a party's grid; a seed stands alone. -/
def State.partiesPerTeam (s : State) (p : Party) : Nat :=
  match s.launchOf p with
  | some v => v.rcd.parties
  | none => 1

/-- The fibre ID of a lane (R18). -/
def Ctx.fibreId (c : Ctx) (l : Nat) : Word :=
  BitVec.ofNat 32 ((c.p.teamId.toNat * c.s.partiesPerTeam c.p + c.p.partyId.toNat) * 64 + l)

/-- The generator's key as the run has left it (R270). -/
def Ctx.rngKey (c : Ctx) : DWord × DWord :=
  (c.r.ov.lastOf (fun i => match i with
    | .rngKey lo hi => some (lo, hi)
    | _ => none)).getD (c.p.rngLo, c.p.rngHi)

/-- The stream as the run has left it (R270). -/
def Ctx.rngStream (c : Ctx) : Word :=
  (c.r.ov.lastOf (fun i => match i with
    | .rngStream x => some x
    | _ => none)).getD c.p.rngStream

/-- `word(draw, pos)` of a lane. -/
def Ctx.galWord (c : Ctx) (l : Nat) (draw pos : Word) : Word :=
  Machine.galWord c.rngKey.1 c.rngKey.2 c.rngStream (c.fibreId l) draw pos

/-- The draw of one rounding call in a lane: a word, and the advance of `v52`, under SR; nothing otherwise (R269). -/
def Ctx.draw (c : Ctx) (l : Nat) : Ctx × Word :=
  if c.rmode = .sr then
    let d := c.v 52 l
    (c.setV 52 l (d + 1), c.galWord l d (c.v 53 l))
  else (c, 0)

/-- The registers that a rounding instruction uses for its draws (R269). -/
def Ctx.drawArgs (c : Ctx) : List Arg := if c.rmode = .sr then [.vr 52, .vr 53] else []

/-- A rounding call in a lane: `f` takes the word and gives a code with its conditions, which are added (R124, R127). -/
def Ctx.roundCall (c : Ctx) (l : Nat) (f : Word → Nat × BitVec 16) : Ctx × Nat :=
  let d := c.draw l
  let x := f d.2
  (d.1.addFp l x.2, x.1)

end Sys2Proof.Machine
end

