-- ==== Sys2Proof/Machine/Operands.lean ====
section
/-!
DEFINITION. Operand forms: 32-bit and 64-bit operands by format (R140, R180, R190), immediates (R141, R184), formats
that an instruction accepts (R117), and the shapes of issue that the families share.
-/

namespace Sys2Proof.Machine

open Host

/-! ## Widths -/

/-- The value of an operand of 32 bits, or of a pair. -/
def Ctx.op (c : Ctx) (w n l : Nat) : Nat := if w = 64 then (c.v64 n l).toNat else (c.v n l).toNat

/-- Write a result of 32 bits, or a pair. -/
def Ctx.setOp (c : Ctx) (w n l x : Nat) : Ctx :=
  if w = 64 then c.setV64 n l (BitVec.ofNat 64 x) else c.setV n l (BitVec.ofNat 32 x)

/-- A source operand of a width. -/
def Arg.src (w n : Nat) : Arg := if w = 64 then .pr n else .vr n

/-- A destination operand of a width. -/
def Arg.dst (w n : Nat) : Arg := if w = 64 then .pw n else .vw n

/-- The old value of a destination. -/
def Arg.old (w n : Nat) : Arg := if w = 64 then .pr n else .vr n

/-- Destinations and words of a long-latency result of a width. -/
def Ctx.longDest (c : Ctx) (w n l : Nat) : List Dest :=
  if w = 64 then [c.dest n 0 l, c.dest n 1 l] else [c.dest n 0 l]

/-- The words of a value of a width. -/
def valWords (w x : Nat) : List Nat := if w = 64 then wordsOf 2 x else [x % 2 ^ 32]

/-! ## Formats (R117, R180) -/

/-- The format in force, or a default (R147). -/
def Ctx.fmtOr (c : Ctx) (d : Nat) : Nat := c.mods.fmt.getD d

/-- Width of an integer format 20 to 23 (R180). -/
def fmtWidth (f : Nat) : Nat := if f = 22 ∨ f = 23 then 64 else 32

/-- Signedness of an integer format (R180). -/
def fmtSigned (f : Nat) : Bool := decide (f = 20) || decide (f = 22)

/-- A format code of R180. -/
def isIntFmt (f : Nat) : Bool := decide (20 ≤ f) && decide (f ≤ 23)

/-- Traps FORMAT on every active lane unless the format is accepted (R117). -/
def Ctx.needFmt (c : Ctx) (ok : Bool) : Pre := if ok then .go else .traps (allTrap c.act cFormat 0)

/-! ## Shapes of issue -/

/-- Issue a word whose operands depend on the hints in force. -/
def issueBy (s : State) (g : BitVec 4) (args : Ctx → List Arg) (pre : Ctx → Pre) (eff : Ctx → Res) :
    Outcome State Fault Refusal :=
  issue s g (match s.ctx? with
    | some c => args c
    | none => []) pre eff

/-- An integer instruction of R180: `args` and `f` take the width; `f` computes in each active lane. A format that is
no code of R180 leaves the operands read as 32-bit ones and traps FORMAT. -/
def intOp (s : State) (g : BitVec 4) (dflt : Nat) (args : Nat → List Arg) (f : Nat → Bool → Ctx → Nat → Ctx) :
    Outcome State Fault Refusal :=
  issueBy s g (fun c => args (fmtWidth (c.fmtOr dflt))) (fun c => c.needFmt (isIntFmt (c.fmtOr dflt)))
    (fun c => .done (c.each (f (fmtWidth (c.fmtOr dflt)) (fmtSigned (c.fmtOr dflt)))))

/-- The exact result of an integer instruction, saturated or wrapped and written (R183). -/
def Ctx.putInt (c : Ctx) (w : Nat) (signed sats : Bool) (n l : Nat) (x : Int) : Ctx :=
  let r := clampInt w signed (sats && c.mods.sat) x
  (c.setOp w n l r.1).addFp l (if r.2 then fSaturated else 0)

/-- An operand as an integer, by signedness. -/
def asInt (w : Nat) (signed : Bool) (x : Nat) : Int := if signed then signedOf w x else (x : Int)

/-- A two-operand integer instruction of the INT list (R181). -/
def intBin (s : State) (g : BitVec 4) (d a b : BitVec 6) (f : Nat → Nat → Nat → Nat) : Outcome State Fault Refusal :=
  intOp s g 20 (fun w => [.dst w d.toNat, .src w a.toNat, .src w b.toNat])
    (fun w _ c l => c.setOp w d.toNat l (f w (c.op w a.toNat l) (c.op w b.toNat l)))

/-- A two-operand integer instruction that may saturate (R181, R183). -/
def intSat (s : State) (g : BitVec 4) (d a b : BitVec 6) (f : Int → Int → Int) : Outcome State Fault Refusal :=
  intOp s g 20 (fun w => [.dst w d.toNat, .src w a.toNat, .src w b.toNat])
    (fun w sg c l => c.putInt w sg true d.toNat l (f (asInt w sg (c.op w a.toNat l)) (asInt w sg (c.op w b.toNat l))))

/-- A one-operand integer instruction (R186). -/
def intUn (s : State) (g : BitVec 4) (d a : BitVec 6) (f : Nat → Nat → Nat) : Outcome State Fault Refusal :=
  intOp s g 20 (fun w => [.dst w d.toNat, .src w a.toNat])
    (fun w _ c l => c.setOp w d.toNat l (f w (c.op w a.toNat l)))

/-- The immediate of a 32-bit or 64-bit F-I form: the imm value sign-extended, else IMM10 sign-extended, or
zero-extended when `zext` (R141, R184). -/
def Ctx.immInt (c : Ctx) (i : BitVec 10) (zext : Bool) : Int :=
  match c.r.imm with
  | some p => (p ++ i).toInt
  | none => if zext then (i.toNat : Int) else i.toInt

/-- Operand A of an F-I word: code 62 reads the imm value of that word (R146). -/
def Ctx.opImm (c : Ctx) (w a l : Nat) (i : BitVec 10) : Nat :=
  if a = 62 then wrapInt w (c.immInt i false) else c.op w a l

/-! ## Shifts (R182) -/

/-- `shl`. -/
def shlNat (w a n : Nat) : Nat := if w ≤ n then 0 else a * 2 ^ n % 2 ^ w

/-- `shr`. -/
def shrNat (w a n : Nat) : Nat := if w ≤ n then 0 else a / 2 ^ n

/-- `sar`. -/
def sarNat (w a n : Nat) : Nat := wrapInt w (signedOf w a / (2 ^ (min n w) : Nat))

/-- `rot`. -/
def rotNat (w a n : Nat) : Nat :=
  let k := n % w
  (a * 2 ^ k % 2 ^ w) + a / 2 ^ (w - k)

/-- The shift of code 0 to 3: shl, shr, sar, rot (R185). -/
def shiftNat (code w a n : Nat) : Nat :=
  match code with
  | 0 => shlNat w a n
  | 1 => shrNat w a n
  | 2 => sarNat w a n
  | _ => rotNat w a n

/-! ## The INT list as functions on patterns (R181) -/

/-- `mulh`. -/
def mulhNat (w a b : Nat) : Nat := wrapInt w (signedOf w a * signedOf w b / (2 ^ w : Nat))

/-- `mulhu`. -/
def mulhuNat (w a b : Nat) : Nat := a * b / 2 ^ w

/-- `min` and `max` of signed values. -/
def minNat (w a b : Nat) : Nat := if signedOf w a ≤ signedOf w b then a else b

/-- `max`. -/
def maxNat (w a b : Nat) : Nat := if signedOf w a ≤ signedOf w b then b else a

end Sys2Proof.Machine
end

