-- ==== Sys2Proof/Machine/Access.lean ====
section
/-!
DEFINITION. Accesses of the party stream: the addresses of F-M words and the checks made at the issuing core (R227,
R64, R66, R68, R83), the order of a fibre's reads (R104, R107, R108), reads made without migration, and run headers as
targets (R145, R164).
-/

namespace Sys2Proof.Machine

open Host

/-! ## Waiting for pages -/

/-- The bundle waits for a second-tier page at an address to be brought in (R68). -/
def Ctx.holdPage (c : Ctx) (va : Nat) : State :=
  c.s.setParty c.pid (c.p.setBundle { c.b with phase := .held (.pageIn c.p.asid (va / 65536 * 65536)) })

/-! ## The scratchpad of a parked team (R39) -/

/-- The access at which a bundle stands, as a parked team's queue lists it: its party, its bundle and its word. -/
def Ctx.mark (c : Ctx) : Nat × Nat × Nat := (c.pid, c.b.id, c.r.start.toNat * 32 + c.r.idx)

/-- The parked team whose scratchpad holds an address. -/
def Ctx.parkedTeam (c : Ctx) (va : Nat) : Option Nat :=
  match c.s.xlate (some c.core) c.p.asid va with
  | .parked t => some t
  | _ => none

/-- The team whose scratchpad holds a location, where accesses that arrived earlier are still held for it (R39). -/
def Ctx.queuedTeam (c : Ctx) (x : Loc) : Option Nat :=
  if x.isHost then none
  else
    ((c.s.teams.find? (fun e => !e.2.queue.isEmpty && e.2.ownsByte x.pa)).bind
      (fun e => if e.2.queue.head? = some c.mark then none else some e.1))

/-- The word waits in the queue of a parked team, in order of arrival (R39). -/
def Ctx.joinQueue (c : Ctx) (team : Nat) : State :=
  match Map.find c.s.teams team with
  | none => c.stall
  | some t =>
    if t.queue.contains c.mark then c.stall
    else { c with s := { c.s with teams := Map.insert c.s.teams team { t with queue := t.queue ++ [c.mark] } } }.stall

/-- The word waits for the scratchpad of a parked team at an address (R39). -/
def Ctx.holdParked (c : Ctx) (va : Nat) : State :=
  match c.parkedTeam va with
  | some t => c.joinQueue t
  | none => c.stall

/-! ## Headers as targets (R145, R164) -/

/-- What a fetch of a header at an address finds: a header, or what else. -/
def Ctx.headerAt (c : Ctx) (va : Nat) : FetchRes :=
  match c.s.fetchFor c.b c.core c.p.asid va with
  | .word w => if field w 26 6 = 0x3E then .word w else .bad
  | r => r

/-! ## Addresses (R138, R227) -/

/-- The displacement of an F-M word (R227). -/
def Ctx.disp (c : Ctx) : DWord := sext64 c.immVal

/-- The address of a lane of an F-M word with BASE and A (R227). -/
def Ctx.addr (c : Ctx) (base a l : Nat) : Nat :=
  (if base = 31 then c.v64 a l + c.disp else c.sc base + sext64 (c.v a l) + c.disp).toNat

/-- The operands that form the addresses of an F-M word. -/
def addrArgs (base a : Nat) : List Arg :=
  if base = 31 then [.pr a, .need (decide (a ≠ 62))] else [.vr a, .sr base, .need (decide (a ≠ 62))]

/-! ## Checks at the issuing core (R227) -/

/-- An address that has passed the checks. `loc` is absent on a window-stack page without a frame (R288). -/
structure Tgt where
  lane : Nat
  va   : Nat
  leaf : Leaf
  loc  : Option Loc
deriving DecidableEq, Repr

/-- The outcome of the checks: the targets, or why the instruction does not go ahead. -/
inductive Chk where
  | ok (l : List Tgt)
  | stop (p : Pre)

/-- A walk for an access would read an entry that the party's fibres have written and that is on its way there (R110, R282). -/
def Ctx.walkDue (c : Ctx) (va : Nat) : Bool :=
  let mine := c.s.net.filter (fun m => !m.applied && decide (m.srcDev = c.s.devId) && m.ofParty c.pid c.p)
  let ours := mine.filterMap (fun m => match m.body.target with
    | some (x, n, true) => if x.dev = c.s.devId then some (x.pa, n) else none
    | _ => none)
  !ours.isEmpty && (c.s.walkPath c.core c.p.asid va).any (fun a => ours.any (fun e => decide (a < e.1 + e.2) && decide (e.1 < a + 8)))

/-- Translate, and check permission and alignment of, an access of `n` bytes in each listed lane (R227). A second-tier
page is brought in first (R68); an access to a parked team's scratchpad waits (R39); a write to a window-stack page
without a frame attaches one (R288). -/
def Ctx.check (c : Ctx) (n : Nat) (rd wr : Bool) (vas : List (Nat × Nat)) : Chk :=
  let rs := vas.map (fun e => (e.1, e.2, c.s.access c.core c.p.asid e.2 n rd wr))
  match rs.find? (fun e => decide (e.2.2 = .page)) with
  | some e => .stop (.hold (c.holdPage e.2.1))
  | none =>
    match rs.find? (fun e => decide (e.2.2 = .wait)) with
    | some e => .stop (.hold (c.holdParked e.2.1))
    | none =>
    if vas.any (fun e => c.walkDue e.2) then .stop (.hold c.stall)
    else
    match rs.findSome? (fun e => match e.2.2 with
      | .ok _ x => c.queuedTeam x
      | _ => none) with
    | some t => .stop (.hold (c.joinQueue t))
    | none =>
      let ts := rs.filterMap (fun e => match e.2.2 with
        | .trap k => some (Trap.mk e.1 k (BitVec.ofNat 64 e.2.1))
        | _ => none)
      let bare := rs.filter (fun e => match e.2.2 with
        | .none _ => wr
        | _ => false)
      match ts, bare with
      | [], [] => .ok (rs.filterMap (fun e => match e.2.2 with
          | .ok l x => some ⟨e.1, e.2.1, l, some x⟩
          | .none l => some ⟨e.1, e.2.1, l, none⟩
          | _ => none))
      | [], e :: _ =>
        match (c.s.wstackTeam c.p.asid e.2.1).bind (fun k => c.s.attachFrame k (e.2.1 / 65536)) with
        | some s => .stop (.hold s)
        | none => .stop (.traps (bare.map (fun e => ⟨e.1, cNotPresent, BitVec.ofNat 64 e.2.1⟩)))
      | _, _ => .stop (.traps ts)

/-- The targets, or the outcome where the checks stop. -/
def Chk.bind (k : Chk) (f : List Tgt → Pre) : Pre :=
  match k with
  | .ok l => f l
  | .stop p => p

/-- Lanes whose address lies in a host window: PROTECTION, whatever its alignment (R41, R234, R239). -/
def Ctx.hostLanes (c : Ctx) (vas : List (Nat × Nat)) : List Trap :=
  vas.filterMap (fun e => match c.s.access c.core c.p.asid e.2 1 false false with
    | .ok _ x => if x.isHost then some ⟨e.1, cProtection, BitVec.ofNat 64 e.2⟩ else none
    | _ => none)

/-- The checks of an access that no host window takes. -/
def Ctx.checkMem (c : Ctx) (n : Nat) (rd wr : Bool) (vas : List (Nat × Nat)) : Chk :=
  match c.check n rd wr vas with
  | .ok ts => if (c.hostLanes vas).isEmpty then .ok ts else .stop (.traps (c.hostLanes vas))
  | .stop (.traps ts) => .stop (.traps (ts ++ c.hostLanes vas))
  | r => r

/-- The targets that the checks gave. -/
def Chk.tgts : Chk → List Tgt
  | .ok l => l
  | .stop _ => []

/-- The target of a lane. -/
def tgtOf (ts : List Tgt) (l : Nat) : Option Tgt := ts.find? (fun t => decide (t.lane = l))

/-- Whether a location is a scratchpad. -/
def Loc.isScratch (x : Loc) : Bool :=
  match regionOf x.pa with
  | .scratch _ _ => true
  | _ => false

/-- Where a go-there access of a target departs to: its home core when that is another one (R45). -/
def Ctx.away (c : Ctx) (t : Tgt) : Option Home :=
  match t.loc with
  | none => none
  | some x => if x.isHost || c.s.isLocal c.core x then none else some (c.s.homeOf x)

/-- Departure of a go-there access for its targets (R45, R53). -/
def Ctx.departFor (c : Ctx) (ts : List Tgt) : Pre :=
  let d := c.depart (fun l => (tgtOf ts l).bind c.away)
  match d with
  | .hold _ =>
    -- lanes whose record came back from a module without a context for its ASID (R62)
    let back := ts.filter (fun t => (c.away t).isSome)
    let back := back.filter (fun t => t.loc.any (fun x => decide (x.dev ≠ c.s.devId)))
    if c.p.returned && !back.isEmpty then .traps (back.map (fun t => ⟨t.lane, cProtection, BitVec.ofNat 64 t.va⟩)) else d
  | _ => d

/-- Sequence of checks: the next one where the former goes ahead. -/
def Pre.then (p : Pre) (q : Pre) : Pre :=
  match p with
  | .go => q
  | _ => p

/-- RANGELOCK traps of a go-there access at its home (R83). -/
def Ctx.lockTraps (c : Ctx) (n : Nat) (wr : Bool) (ts : List Tgt) : Pre :=
  Pre.ofTraps (ts.filterMap (fun t => match t.loc with
    | some x => if !x.isHost && c.s.locked x n wr then some ⟨t.lane, cRangelock, BitVec.ofNat 64 t.va⟩ else none
    | none => none))

/-- Bytes at a target as a lane of the party reads them: 0 where no frame is attached, frame versions where bound
(R276, R288). -/
def Ctx.bytesAt (c : Ctx) (t : Tgt) (n : Nat) : List Byte :=
  match t.loc with
  | none => List.replicate n 0
  | some x => c.s.bound c.frame x.pa (memBytes c.s.mem x.pa n)

/-- The read leaves its traces at the home (R69, R337, R339). -/
def Ctx.seen (c : Ctx) (t : Tgt) (n : Nat) : Ctx :=
  match t.loc with
  | none => c
  | some x => if c.s.elsewhere x then c else { c with s := (c.s.load (c.p.who c.s.devId) x.pa n).2 }

/-- Whether the bytes of a target are poisoned. -/
def Ctx.tgtPoisoned (c : Ctx) (t : Tgt) (n : Nat) : Bool :=
  match t.loc with
  | none => false
  | some x => c.s.poisoned x.pa n

/-! ## Order within a fibre (R104, R107, R108) -/

/-- An operation of the party that some active lanes have made and that later accesses wait for: an acquire whose
result is pending (R107), other than a late one of the run itself. -/
def Ctx.acqPending (c : Ctx) : Bool :=
  c.p.pend.any (fun o => o.acquire && c.opBlocks o && decide (o.lanes &&& maskOf c.act ≠ 0))

/-- Accesses of the active lanes wait for an acquire (R107). -/
def Ctx.acqWait (c : Ctx) : Pre := if c.acqPending then .hold c.stall else .go

/-- Reads wait for a fence of an earlier run too (R108). -/
def Ctx.readWait (c : Ctx) : Pre := if c.acqPending || !c.p.fenceR.isEmpty then .hold c.stall else .go

/-- Words that read the codebook wait for a `cbld` under way (R225). -/
def Ctx.cbWait (c : Ctx) : Pre := if c.widePending .cb then .hold c.stall else .go

/-- A message that makes memory events (R101). -/
def MsgBody.isEvent : MsgBody → Bool
  | .heldRead _ _ _ _ _ => true
  | .heldElem _ _ _ => true
  | .hostRead _ _ _ => true
  | .context _ => false
  | b => b.boxed

/-- Whether an effect of the run is an event of a home. -/
def EffItem.goesTo (h : Home) : EffItem → Bool
  | .send d => decide (d.home = h) && d.body.isEvent
  | _ => false

/-- Whether an effect of the run makes later reads of it wait: an acquire, or a fence other than a release fence
(R107, R108). -/
def EffItem.holdsReads : EffItem → Bool
  | .send d => d.acq
  | .fence o sc => decide (o ≠ 2) && decide (sc ≠ 0)
  | _ => false

/-- A fence that every later read of the party waits for, whichever lane makes it (R108). -/
def EffItem.fences : EffItem → Bool
  | .fence o sc => decide (o ≠ 2) && decide (sc ≠ 0)
  | _ => false

/-- Whether a read of a lane at a home is a held read: an event of its own run stands before it (R104, R108). -/
def Ctx.isHeld (c : Ctx) (l : Nat) (h : Home) : Bool :=
  c.r.eff.any (fun e => (e.lanes.getLsbD l && (e.item.goesTo h || e.item.holdsReads)) || e.item.fences)

/-- Messages of the party from a lane to a home that have not been applied: a read there stalls (R104). -/
def Ctx.unsent (c : Ctx) (l : Nat) (h : Home) : Bool := c.s.unsentTo c.pid (maskOf [l]) h

/-- Reads made at a home at once wait for the lane's earlier messages there (R104). -/
def Ctx.orderWait (c : Ctx) (ts : List Tgt) : Pre :=
  if ts.any (fun t => match t.loc with
    | some x => c.unsent t.lane (c.s.homeOf x) && !c.isHeld t.lane (c.s.homeOf x)
    | none => false) then .hold c.stall
  else .go

/-- The run commits up to its word, which a continuation run executes (R47; log 38). -/
def Ctx.commitTo (c : Ctx) : Pre := if !c.p.commitReady c.b.id then .hold c.stall else .hold (c.s.continueAt c.pid c.b.id)

/-- A read that must be made now, behind events of its own run: the run commits up to the word (log 38). -/
def Ctx.notBehind (c : Ctx) (ts : List Tgt) (p : Pre) : Pre :=
  if ts.any (fun t => match t.loc with
      | some x => c.isHeld t.lane (c.s.homeOf x)
      | none => false) then c.commitTo
  else p

/-! ## Results of reads -/

/-- The party reads scale and companion bytes here (R69, R337). -/
def Ctx.seenPlanes (c : Ctx) (ys : List Loc) : Ctx := { c with s := c.s.seePlanes (c.p.who c.s.devId) ys }

/-- An operation of the memory class that some lanes issue. -/
def Ctx.memOp (c : Ctx) (lanes : List Nat) (dests : List Dest) (vals : List Nat) (poison acquire : Bool) : Ctx :=
  c.addOp { PendOp.mk' c false dests vals with lanes := maskOf lanes, poison := poison, acquire := acquire }

/-- Note the address that an operation reads, for a consumption of poison (R344). -/
def Ctx.noteAddr (c : Ctx) (op va : Nat) (x : Option Loc) : Ctx :=
  { c with p := { c.p with pend := mapWhere (fun o => decide (o.id = op)) (fun (o : PendOp) => { o with
      va := va, pa := (x.map (fun l => l.pa)).getD 0 }) c.p.pend } }

/-- An operation of the memory class whose result comes after the run has committed (R104, R229). -/
def Ctx.lateOp (c : Ctx) (lanes : List Nat) (dests : List Dest) (acquire : Bool) : Ctx :=
  c.addOp { PendOp.mk' c false dests [] with lanes := maskOf lanes, late := true, ready := false, acquire := acquire }

/-- An operation of the memory class whose result a message brings while the run goes on. -/
def Ctx.asyncOp (c : Ctx) (lanes : List Nat) (dests : List Dest) (acquire : Bool) : Ctx :=
  c.addOp { PendOp.mk' c false dests [] with lanes := maskOf lanes, ready := false, acquire := acquire }

/-- A message sent before commit (R28), by a lane of the party. -/
def Ctx.sendNow (c : Ctx) (l : Nat) (h : Home) (body : MsgBody) : Ctx :=
  { c with s := c.s.post c.p c.pid c.core (maskOf [l]) [] h body }

/-- Send a request whose answer the instruction awaits: the bundle asks, and executes the word again with the answer. -/
def Ctx.ask (c : Ctx) (l : Nat) (h : Home) (f : Asker → MsgBody) : Ctx :=
  let who : Asker := ⟨c.s.devId, c.core, c.pid, c.b.id, l, c.s.keys⟩
  { c with
    s := c.s.bump.post c.p c.pid c.core (if l < 64 then maskOf [l] else maskOf c.act) [] h (f who),
    b := { c.b with asked := c.b.asked ++ [c.s.keys] } }

/-- An access that is a plain draft: sent at commit, not synchronous, not posted. -/
def Draft.plain (h : Home) (b : MsgBody) : Draft :=
  { home := h, body := b, release := none, sync := false, posted := false, acq := false, old := false }

end Sys2Proof.Machine
end

