-- ==== Sys2Proof/Machine/Rounds.lean ====
section
/-!
DEFINITION. Rounds of barriers (R60, R61, R175 to R177): arrivals, completion, expiry, withdrawal, the merge of a
`rejoin` round, and the intervals that a full team round begins (R336).
-/

namespace Sys2Proof.Machine

open Host

/-! ## Intervals (R336) -/

/-- Parties of a team, with their numbers. -/
def State.membersOf (s : State) (key : Nat) : List (Nat × Party) :=
  s.parties.filter (fun e => decide (e.2.teamKey = key) && e.2.seed.isNone)

/-- What a snapshot keeps of a bundle: it stands after the barrier that released it, or at its restart point. -/
def Bundle.snapshot (b : Bundle) : Bundle :=
  if (Map.find b.ans 64).isSome then b else b.restart b.id b.mask b.since []

/-- What a snapshot keeps of a party (R336). -/
def Party.snapshot (p : Party) : Party :=
  { p with bundles := p.bundles.map Bundle.snapshot, pend := [], fenceW := [], fenceR := [], rejoin := none }

/-- A team begins an interval, unless its launch sets INTERVAL_OFF (R336). -/
def State.beginInterval (s : State) (key : Nat) : State :=
  match Map.find s.teams key with
  | none => s
  | some t =>
    let off := match s.grid? t.grid with
      | some g => g.rcd.ivOff
      | none => true
    if off then s
    else
      let ms := s.membersOf key
      let iv : Interval := {
        since := s.steps, snap := ms.map (fun e => (e.1, e.2.snapshot)), log := [], sites := [], given := [],
        published := decide (ms.length < s.liveOf key),
        rollbacks := 0,
        counts := ms.foldl (fun m e => Map.insert m e.2.lineageKey (s.lineage e.2.lineageKey).count) [] }
      { s with teams := Map.insert s.teams key { t with interval := some iv } }

/-! ## Barriers as they stand -/

/-- A barrier (R175); a team barrier is its team's. -/
def State.bar (s : State) (b : BarRef) : Barrier :=
  match b with
  | .named _ core n => Map.getD s.bars (core * 512 + n) Barrier.init
  | .team t n =>
    match Map.find s.teams t with
    | some x => Map.getD x.bars n Barrier.init
    | none => Barrier.init

/-- Replace a barrier. -/
def State.setBar (s : State) (b : BarRef) (x : Barrier) : State :=
  match b with
  | .named _ core n => { s with bars := Map.put s.bars (core * 512 + n) x Barrier.init }
  | .team t n =>
    match Map.find s.teams t with
    | some y => { s with teams := Map.insert s.teams t { y with bars := Map.put y.bars n x Barrier.init } }
    | none => s

/-- The core at which a barrier stands. -/
def State.barCore (s : State) (b : BarRef) : Nat :=
  match b with
  | .named _ core _ => core
  | .team t _ =>
    match Map.find s.teams t with
    | some x => s.receiving x.cluster
    | none => 0

/-! ## Releasing -/

/-- A waiting bundle goes on with an answer; of another module it is told so. -/
def State.releaseBundle (s : State) (core : Nat) (who : Asker) (a : Answer) : State :=
  if who.dev ≠ s.devId then
    s.postPart core (.core who.dev who.core) (match a with
      | .expired => .claimAns who 0 none 257 false
      | .trap k x => .claimAns who 0 (some (leBytes 8 x.toNat)) k false
      | _ => .claimAns who 0 none 256 false)
  else
    { s with parties := s.parties.map (fun e =>
        if e.1 = who.party then
          (e.1, Party.ready { e.2 with bundles := e.2.bundles.map (fun b => match b.phase with
            | .held (.barrier _ q) =>
              if b.id = who.bundle ∧ q = who.req then { b with phase := .running, stalled := false, ans := Map.insert b.ans 64 a } else b
            | _ => b) } (s.clk e.2.core))
        else e) }

/-- The phase that `arrive` and `barq` are told. -/
def State.tellPhase (s : State) (core : Nat) (dev : BitVec 20) (dst party op : Nat) (x : DWord) : State :=
  if dev = s.devId then s.opValue op [x.toNat] false
  else s.postPart core (.core dev dst) (.ticketValue op party x)

/-- A sequencer that waits in `msync` is released (R263). -/
def State.freeSeqr (s : State) (team : Nat) : State :=
  match Map.find s.teams team with
  | none => s
  | some t =>
    match t.seqr with
    | none => s
    | some q => { s with teams := Map.insert s.teams team { t with seqr := some { q with freed := true } } }

/-- Release one arrival of a completed or expired round. -/
def State.releaseArr (s : State) (core : Nat) (x : Answer) (a : Arrival) : State :=
  match a.kind with
  | .bar => s.releaseBundle core a.who x
  | .barw => s.releaseBundle core a.who x
  | .msync => s.freeSeqr a.team
  | _ => s

/-- A team round is full: every live party of the team has arrived, those that stand at other modules among them (R336). -/
def State.fullRound (s : State) (key : Nat) (l : List Arrival) : Bool :=
  let came := (l.filter (fun a => decide (a.kind ≠ .msig) && decide (a.kind ≠ .msync))).map (fun a => (a.who.dev, a.who.party))
  (s.membersOf key).all (fun e => came.contains (s.devId, e.1)) && decide (s.liveOf key ≤ came.eraseDups.length)

/-- A round of arrivals completes: the phase advances and every waiting arrival is released (R176). -/
def State.completeRound (s : State) (b : BarRef) : State :=
  let x := s.bar b
  let core := s.barCore b
  let s := s.setBar b { x with phase := x.phase + 1, count := 0, arrived := [], expiry := none }
  let s := x.arrived.foldl (fun s a => s.releaseArr core .go a) s
  match b with
  | .named _ _ _ => s
  | .team t _ => if s.fullRound t x.arrived then s.beginInterval t else s.publish (t + 1)

/-! ## Rejoin rounds (R60) -/

/-- Two runs that begin after a rejoin stand at one word of one run (R60). -/
def Run.joins (x y : Run) : Bool :=
  decide (x.header = y.header) && decide (x.start = y.start) && decide (x.words = y.words) && decide (x.next = y.next) &&
  decide (x.seta = y.seta) && decide (x.setb = y.setb)

/-- Merge a bundle that goes on after a rejoin into one of equal PC and base; a lane whose base differs keeps it (R20, R60,
R165). -/
def mergeAfter (b : Bundle) : List Bundle → List Bundle
  | [] => [b]
  | x :: l =>
    let all : Bundle := { x with mask := x.mask ||| b.mask, gates := x.gates ++ b.gates, jump := x.jump ||| b.jump }
    if decide (x.pc = b.pc) && decide (x.wb = b.wb) && decide (x.phase = b.phase) then
      match x.run, b.run with
      | none, none => all :: l
      | some r, some q =>
        if r.joins q then
          { all with run := some { r with
              wb0 := q.wb0.foldl (fun m e => Map.insert m e.1 e.2) r.wb0,
              ov := { r.ov with wb := q.ov.wb.foldl (fun m e => Map.insert m e.1 e.2) r.ov.wb } } } :: l
        else x :: mergeAfter b l
      | _, _ => x :: mergeAfter b l
    else x :: mergeAfter b l

/-- A bundle that stands at a `rejoin` continues after it (R47, R60): in a further continuation run, or at the next header,
where lanes of different window bases separate (R20). -/
def Bundle.afterRejoin (b : Bundle) (id clk : Nat) (snap : Map DWord) : List Bundle :=
  -- `id` is the first of 64 fresh numbers
  match b.run with
  | none => [{ b with phase := .waiting }]
  | some r =>
    if r.idx + 1 < r.words.length then
      let q := Run.continuation { r with idx := r.idx + 1, imm := none, modh := none, live := none, last := [], skip := none } snap
      [{ b with run := some q, phase := .running, pc := q.start, skip := none, ans := [], asked := [], stalled := false }]
    else
      (bundlesAt b.baseOf b.id b.mask r.next clk).map (fun x =>
        { x with id := if x.id = b.id then b.id else id + (x.id - b.id), gates := b.gates, jump := 0 })

/-- The lowest lane of a mask. -/
def lowLane (m : DWord) : Nat := (lanesOf m).headD 64

/-- Merge the registers and bundles of another arrival into a party (R60). -/
def Party.absorb (p q : Party) : Party :=
  { p with
    vregs := q.vregs.foldl (fun m e => Map.insert m e.1 e.2) p.vregs,
    dirty := q.dirty.foldl NatSet.add p.dirty, poison := (q.poison.filter (fun k => decide (k < wideKey 0))).foldl NatSet.add p.poison,
    lanes := q.lanes.foldl (fun m e => Map.insert m e.1 e.2) p.lanes,
    fpflags := p.fpflags ||| q.fpflags, pend := p.pend ++ q.pend, bundles := p.bundles ++ q.bundles,
    fenceW := p.fenceW ++ q.fenceW, fenceR := p.fenceR ++ q.fenceR }

/-- The arrivals of a complete rejoin round become one party (R60). Where the one that holds the lowest lane is not
resident, it takes the slot of the resident arrival that came first (log 118); a merged party that stands in the arrival queue
holds there the slots that its record lays claim to with every register live (log 139). -/
def State.mergeRejoin (s : State) (core : Nat) (r : RejoinRound) : State :=
  let ps := r.parties.filterMap (fun e => (s.party? e.1).map (fun p => (e.1, p)))
  match leastBy (fun e => lowLane e.2.mask) ps with
  | none => s
  | some (pid, low) =>
    let rest := ps.filter (fun e => decide (e.1 ≠ pid))
    let clk := s.clk core
    let timed := r.parties.any (fun e => e.2)
    let place := match low.place with
      | .slot c st => Place.slot c st
      | pl => match rest.find? (fun e => e.2.resident) with
          | some e => e.2.place
          | none => pl
    let both := rest.foldl (fun p e => p.absorb e.2) low
    let m0 := { both with place := place, rejoin := none, live := BitVec.allOnes 56, homeCore := core }
    let m1 := if timed then (lanesOf m0.mask).foldl (fun p l => p.putPreds l (pushBit (p.lane l).preds true)) m0 else m0
    let later := m1.bundles.zipIdx.flatMap (fun e => e.1.afterRejoin (s.keys + 64 * e.2) clk m1.snapRegs)
    let m2 := { m1 with bundles := later.foldl (fun l b => mergeAfter b l) [] }
    let s := { s with keys := s.keys + 64 * m1.bundles.length }
    let gone := rest.map (fun e => e.1)
    let s := rest.foldl (fun s e => s.dropParty e.1) s
    let s := { s with net := s.net.map (fun (m : Msg) => if gone.contains m.party then { m with party := pid } else m) }
    let s := s.setParty pid (m2.ready clk)
    let s := s.holdSlot m2 pid core (-((rest.filter (fun e => e.2.trap.isSome)).length : Int))
    let d := rest.length
    if d = 0 then s
    else if low.originDev = s.devId then
      let x := s.lineage r.key
      s.setLineage r.key { x with count := x.count - d }
    else s.countMsg m2 pid core (-(d : Int))

/-- Close the rejoin round of a barrier: an entry of another module, named by a party of the lineage, no longer sends its
count (R54). -/
def State.closeRejoin (s : State) (b : BarRef) (r : RejoinRound) : State :=
  let s := s.setBar b { s.bar b with rejoin := none }
  let at_ : Nat × Nat := match b with
    | .named _ core n => (core, n)
    | .team _ n => (s.barCore b, n)
  let s := s.setLineage r.key { s.lineage r.key with rounds := (s.lineage r.key).rounds.filter (· ≠ at_) }
  match r.parties.findSome? (fun e => s.party? e.1) with
  | some p =>
    if p.originDev = s.devId then s
    else s.postPart at_.1 (.core p.originDev p.originCore.toNat) (.lineageQ r.key ⟨s.devId, at_.1, 0, at_.2, 66, 0⟩)
  | none => s

/-- The lineage count that a rejoin round compares with: the entry sends it at the first arrival and after every change
(R54); an entry of another module sends it in messages. -/
def State.roundCount (s : State) (r : RejoinRound) : Nat :=
  match r.parties.findSome? (fun e => s.party? e.1) with
  | some p => if p.originDev = s.devId then (s.lineage r.key).count else r.count
  | none => r.count

/-- Complete a rejoin round whose arrivals equal the member count (R60). -/
def State.checkRejoin (s : State) (b : BarRef) : State :=
  match (s.bar b).rejoin with
  | none => s
  | some r =>
    if r.parties.length = s.roundCount r then (s.closeRejoin b r).mergeRejoin (s.barCore b) r else s

/-! ## Arrivals -/

/-- Whether an arrival can be counted as a barrier stands: no round of another kind or lineage is open (R60). -/
def State.fits (s : State) (b : BarRef) (h : HeldArr) : Bool :=
  let x := s.bar b
  match h with
  | .arr _ => x.rejoin.isNone
  | .rejoin pid _ _ =>
    decide (x.count = 0) &&
    match x.rejoin with
    | none => true
    | some r => match s.party? pid with
        | some p => decide (r.key = p.lineageKey)
        | none => true

/-- Count an arrival that fits (R60, R61, R176, R177). The time-base reading of the first `rejoinw` of a round is that of the step
which counts it, also where it has been held for another round (log 140). -/
def State.countArrival (s : State) (b : BarRef) (h : HeldArr) : State :=
  let x := s.bar b
  let core := s.barCore b
  match h with
  | .arr a =>
    let count := if x.count = 0 then a.count else x.count
    let expiry := if a.kind = .barw ∧ x.expiry.isNone then some (s.ns + a.timeout.toNat) else x.expiry
    let s := s.setBar b { x with count := count, arrived := x.arrived ++ [a], expiry := expiry }
    let s := if a.kind = .arrive then s.tellPhase core a.who.dev a.who.core a.who.party a.op (x.phase.setWidth 64) else s
    if count ≤ x.arrived.length + 1 then s.completeRound b else s
  | .rejoin pid timed timeout =>
    match s.party? pid with
    | none => s
    | some p =>
      let r := x.rejoin.getD { key := p.lineageKey, count := 0, parties := [], expiry := none }
      let expiry := if timed && r.expiry.isNone then some (s.ns + timeout.toNat) else r.expiry
      let first := x.rejoin.isNone
      let s := s.setBar b { x with rejoin := some { r with parties := r.parties ++ [(pid, timed)], expiry := expiry } }
      let n := match b with
        | .named _ _ n => n
        | .team _ n => n
      let s := s.setLineage r.key { s.lineage r.key with rounds := (s.lineage r.key).rounds.filter (· ≠ (core, n)) ++ [(core, n)] }
      let s := if first ∧ p.originDev ≠ s.devId then
          s.postPart core (.core p.originDev p.originCore.toNat) (.lineageQ r.key ⟨s.devId, core, 0, n, 65, s.keys⟩)
        else s
      s.checkRejoin b

/-- Count held arrivals that fit by now, in arrival order (R60). -/
def settleBar (b : BarRef) : Nat → State → State
  | 0, s => s
  | n + 1, s =>
    let x := s.bar b
    match x.held.findIdx? (fun h => s.fits b h) with
    | none => s
    | some i =>
      match x.held[i]? with
      | none => s
      | some h => settleBar b n ((s.setBar b { x with held := x.held.eraseIdx i }).countArrival b h)

/-- Whether a withdrawal names an arrival. -/
def Arrival.isOf (a : Arrival) (who : Asker) : Bool :=
  decide (a.who.dev = who.dev) && decide (a.who.party = who.party) && decide (a.who.bundle = who.bundle) && decide (a.who.req = who.req)

/-- Withdraw an arrival from its round, which stays open (R176). -/
def State.withdrawFrom (s : State) (b : BarRef) (who : Asker) : State :=
  let x := s.bar b
  let left := x.arrived.filter (fun a => !a.isOf who)
  let held := x.held.filter (fun h => match h with
    | .arr a => !a.isOf who
    | _ => true)
  s.setBar b { x with arrived := left, held := held }

/-- The expiry of a round withdraws its `barw` arrivals and releases them with false; the round stays open (R177). -/
def State.expireBar (s : State) (b : BarRef) : State :=
  let x := s.bar b
  let out := x.arrived.filter (fun a => decide (a.kind = .barw))
  let left := x.arrived.filter (fun a => decide (a.kind ≠ .barw))
  let s := s.setBar b { x with arrived := left, expiry := none }
  out.foldl (fun s a => s.releaseArr (s.barCore b) .expired a) s

/-- A party that waits in a rejoin round goes on unmerged (R61). -/
def State.releaseRejoin (s : State) (pid : Nat) : State :=
  match s.party? pid with
  | none => s
  | some p => s.setParty pid (Party.ready { p with
      rejoin := none,
      bundles := p.bundles.map (fun b => match b.phase with
        | .held (.rejoin _ _) => { b with phase := .running, stalled := false, ans := Map.insert b.ans 64 .expired }
        | _ => b) } (s.clk p.core))

/-- The expiry of a rejoin round (R61): those that came by `rejoinw` go on unmerged, the others form the next round. -/
def State.expireRejoin (s : State) (b : BarRef) : State :=
  let x := s.bar b
  match x.rejoin with
  | none => s
  | some r =>
    let left := r.parties.filter (fun e => !e.2)
    let s := if left.isEmpty then s.closeRejoin b r
      else s.setBar b { x with rejoin := some { r with parties := left, expiry := none } }
    let s := (r.parties.filter (fun e => e.2)).foldl (fun s e => s.releaseRejoin e.1) s
    settleBar b x.held.length (s.checkRejoin b)

/-- A bundle stands at a `rejoin` or `rejoinw` that it can issue. -/
def Bundle.atRejoin (b : Bundle) : Bool :=
  decide (b.phase = .running) && (match b.run.bind (fun r => r.words[r.idx]?) with
    | some f => (match decodeWord f.w with
      | some (.rejoin _ _) => true
      | some (.rejoinw _ _ _) => true
      | _ => false)
    | none => false)

/-- An arrival at a barrier is about to be applied there: it belongs to the present clk (R61, R177). -/
def State.arrivalsDue (s : State) (b : BarRef) : Bool :=
  s.net.any (fun m => s.deliverable m && (match m.body with
    | .arrival x _ => decide (x = b)
    | .context pid => (match s.party? pid, b with
        | some p, .named dev core n => (match p.rejoin with
            | some r => m.sent && decide (r.dev = dev) && decide (r.core = core) && decide (r.bar = n)
            | none => false)
        | _, _ => false)
    | _ => false)) ||
  s.parties.any (fun e => decide (e.2.core = s.barCore b) && e.2.isActive && e.2.bundles.any Bundle.atRejoin)

/-- Expiries of a barrier whose clk has passed have taken effect (R61, R177). -/
def State.lapseBar (s : State) (b : BarRef) : State :=
  let core := s.barCore b
  let s := match (s.bar b).expiry with
    | some t => if s.clkPast core t then s.expireBar b else s
    | none => s
  match (s.bar b).rejoin.bind (fun r => r.expiry) with
  | some t => if s.clkPast core t then s.expireRejoin b else s
  | none => s

/-- An arrival reaches a barrier: expiries before its clk have taken effect, and it is counted, or held until the open
round is over (R60, R61, R177). -/
def State.arriveAt (s : State) (b : BarRef) (h : HeldArr) : State :=
  let s := s.lapseBar b
  let x := s.bar b
  let s := s.setBar b { x with held := x.held ++ [h] }
  settleBar b (x.held.length + 1) s

/-- A party arrives at a rejoin (R60): its bundle waits there, and its team's interval is published (R337). -/
def State.arriveRejoin (s : State) (pid : Nat) (core n : Nat) (timed : Bool) (timeout : DWord) : State :=
  match s.party? pid with
  | none => s
  | some p =>
    let s := s.publishOf p
    let s := s.setParty pid { p with
      rejoin := none, bundles := p.bundles.map (fun b => { b with phase := .held (.rejoin core n), stalled := false, ans := [] }) }
    s.arriveAt (.named s.devId core n) (.rejoin pid timed timeout)

end Sys2Proof.Machine
end

