-- ==== Sys2Proof/Machine/Tickets.lean ====
section
/-!
DEFINITION. Tickets at their homes (R85 to R97): the ticket value, the tables, service, claims, releases and
reclamation, and the lifetime counters they touch (R375, R376).
-/

namespace Sys2Proof.Machine

open Host

/-! ## Lifetime counters (R375, R376) -/

/-- Key of a counter, or with a bucket below 32 of a histogram's bucket. -/
def telKey (item inst bucket : Nat) : Nat := (item * 4096 + inst) * 64 + bucket

/-- Add to a saturating 64-bit counter of a set. -/
def telAdd (m : Map Nat) (key n : Nat) : Map Nat := Map.put m key (min (2 ^ 64 - 1) (Map.getD m key 0 + n)) 0

/-- Count events; the set as it stood before the first of the present time is kept for a snapshot (R375, R379). -/
def State.bumpTel (s : State) (key n : Nat) : State :=
  { s with tel := { s.tel with
      live := telAdd s.tel.live key n, mark := if s.tel.mark.1 = s.ns then s.tel.mark else (s.ns, s.tel.live) } }

/-- The set that a snapshot latches: an event counted at the present time is not in it (R379). -/
def State.latched (s : State) : Map Nat := if s.tel.mark.1 = s.ns then s.tel.mark.2 else s.tel.live

/-- Take up the counts of before power was lost, once (R377). -/
def Telemetry.restore (t : Telemetry) (m : Map Nat) : Telemetry :=
  let both (l : Map Nat) : Map Nat := m.foldl (fun l e => telAdd l e.1 e.2) l
  if t.restored then t else { t with restored := true, live := both t.live, mark := (t.mark.1, both t.mark.2) }

/-- Count one occurrence of an item (R375). -/
def State.tally (s : State) (item inst : Nat) : State := s.bumpTel (telKey item inst 32) 1

/-- Bucket of a value (R376). -/
def bucketOf (x : Nat) : Nat := if x = 0 then 0 else min 31 (Nat.log2 x + 1)

/-- Count a value in a histogram (R376). -/
def State.tallyHist (s : State) (item inst x : Nat) : State := s.bumpTel (telKey item inst (bucketOf x)) 1

/-! ## The ticket value (R85, R86) -/

/-- A device ID names a device (R359). -/
def namesDevice (d : BitVec 20) : Bool := decide (d.toNat / 32 < 24576)

/-- Compose a ticket (R85). -/
def mkTicket (dev : BitVec 20) (slice entry : Nat) (gen : BitVec 8) (block : Bool) (launch : BitVec 32)
    (asid : BitVec 16) : DWord :=
  BitVec.ofNat 64 (entry + slice * 2 ^ 12 + dev.toNat * 2 ^ 21 + gen.toNat * 2 ^ 41 + (if block then 2 ^ 49 else 0) +
    launch.toNat % 128 * 2 ^ 50 + asid.toNat % 128 * 2 ^ 57)

/-- Key of the entry that a ticket names. -/
def ticketKey (t : DWord) : Nat := (field t 12 9).toNat * 4096 + (field t 0 12).toNat

/-- GEN of a ticket. -/
def ticketGen (t : DWord) : BitVec 8 := field t 41 8

/-- A nonzero ticket is malformed (R86). -/
def State.ticketBad (s : State) (t : DWord) : Bool :=
  decide (ticketGen t = 0) || !namesDevice (field t 21 20) ||
  (decide (field t 21 20 = s.devId) && (s.stk (field t 17 4).toNat).absent.getLsbD (field t 12 5).toNat)

/-! ## Entries -/

/-- A ticket entry. -/
def State.ticket (s : State) (key : Nat) : Ticket := Map.getD s.tickets key Ticket.init

/-- Replace a ticket entry. -/
def State.setTicket (s : State) (key : Nat) (x : Ticket) : State := { s with tickets := Map.put s.tickets key x Ticket.init }

/-- The generation after another: from 255 to 1 (R90). -/
def nextGen (g : BitVec 8) : BitVec 8 := if g = 255 then 1 else g + 1

/-- The generation before another (R91). -/
def prevGen (g : BitVec 8) : BitVec 8 := if g = 1 then 255 else g - 1

/-- Buffer units that a request takes (R87). -/
def ticketUnits (block : Bool) (len : Nat) : Nat := if block then ceilDiv len 16 else 1

/-- Buffer units in use at a slice (R87). -/
def State.unitsUsed (s : State) (slice : Nat) : Nat :=
  sumBy (fun e => if e.1 / 4096 = slice ∧ e.2.st ≠ .free then ticketUnits e.2.block e.2.len else 0) s.tickets

/-- The first FREE entry at or after a pointer, among `n` entries in rotation (R89). -/
def State.freeEntry (s : State) (slice : Nat) : Nat → Nat → Option Nat
  | 0, _ => none
  | n + 1, i => if (s.ticket (slice * 4096 + i % 4096)).st = .free then some (i % 4096) else s.freeEntry slice n (i + 1)

/-- Allocate an entry of a slice for a request (R87 to R89): its number and the state, unless none is free. -/
def State.allocTicket (s : State) (m : Msg) (slice : Nat) (f : Fetch) (len : Nat) (data : List Byte) (poison : Bool)
    (src : Option Loc) (frame : DWord) : Option (Nat × State) :=
  if 16384 < s.unitsUsed slice + ticketUnits f.block len then none
  else
    match s.freeEntry slice 4096 (Map.getD s.ticketPtr slice 0) with
    | none => none
    | some i =>
      let key := slice * 4096 + i
      let x := s.ticket key
      some (i, { s.setTicket key { x with
          st := if src.isSome then .pending else .ready, launch := f.launch, asid := f.asid, frame := frame,
          deadline := s.ns + f.lease, remain := 0, len := len, block := f.block, data := data, claim := none,
          poison := poison, src := src, team := m.team, grid := m.grid, since := s.steps } with
        ticketPtr := Map.put s.ticketPtr slice ((i + 1) % 4096) 0 })

/-- The ticket of an entry as it stands. -/
def State.ticketOf (s : State) (key : Nat) : DWord :=
  let x := s.ticket key
  mkTicket s.devId (key / 4096) (key % 4096) x.gen x.block x.launch x.asid

/-! ## Waiting claims and releases -/

/-- The message that holds the claim on an entry, while its data is outstanding. -/
def State.claimMsg (s : State) (who : Asker) : Option Msg :=
  s.net.find? (fun m => match m.body with
    | .claim _ w _ _ _ => decide (w = who)
    | _ => false)

/-- Answer a claim or a test: the answer travels to the core that asked. -/
def State.answerClaim (s : State) (m : Msg) (who : Asker) (t : DWord) (ans : Option (List Byte)) (code : Nat)
    (poison : Bool) : State :=
  let src := match m.dst with
    | .core _ c => c
    | .port _ => who.core
  (s.postLike m src (.core who.dev who.core) (.claimAns who t ans code poison)).dropMsg m.id

/-! ## Ends of generations (R90) -/

/-- End a generation: the entry is FREE, or ORPHANED while its fetch is outstanding (R90). -/
def Ticket.finish (x : Ticket) (fate : Fate) : Ticket :=
  { x with st := if x.src.isSome then .orphaned else .free, gen := nextGen x.gen, fate := fate, claim := none, frame := 0,
           data := [], poison := false, deadline := 0, remain := 0, launch := 0, asid := 0, team := 0, grid := 0, since := 0,
           len := if x.src.isSome then x.len else 0, block := x.src.isSome && x.block }

/-- Reclaim an entry and count it (R97). -/
def State.reclaim (s : State) (key : Nat) : State :=
  (s.setTicket key ((s.ticket key).finish .reclaimed)).tally 7 (key / 4096)

/-- A launch retires: every entry its parties allocated is reclaimed, claimed ones included (R90). -/
def State.reclaimLaunch (s : State) (launch : BitVec 32) (asid : BitVec 16) : State :=
  (s.tickets.filter (fun e => decide (e.2.launch = launch) && decide (e.2.asid = asid) &&
      (decide (e.2.st = .pending) || decide (e.2.st = .ready) || decide (e.2.st = .expired)))).foldl (fun s e =>
    let s := match e.2.claim with
      | none => s
      | some who =>
        match s.claimMsg who with
        | none => s
        | some m => s.answerClaim m who (s.ticketOf e.1) none cExpired false
    s.reclaim e.1) s

/-- The deadline of an entry takes effect: it is reclaimed, or waits for the driver (R90, R97). -/
def State.expireTicket (s : State) (key : Nat) : State :=
  let e := s.ticket key
  if s.regs.funcMode.getLsbD 3 then
    (s.setTicket key { e with st := .expired }).raiseEvent {
      type := 4, asid := e.asid, core := key / 4096, addr := 0, aux := s.ticketOf key, subj := .ticket (key / 4096) (key % 4096) e.gen }
  else s.reclaim key

/-- An entry that a deadline can end. -/
def Ticket.leased (e : Ticket) : Bool := (decide (e.st = .pending) || decide (e.st = .ready)) && e.claim.isNone

/-- Claims and releases that wait at a home for the claim on an entry to resolve. -/
def State.waitingFor (s : State) (key : Nat) : List Msg :=
  s.net.filter (fun m => m.applied && (match m.body with
    | .claim t w _ _ _ => decide (ticketKey t = key) && decide ((s.ticket key).claim ≠ some w)
    | .trel t _ => decide (ticketKey t = key)
    | _ => false))

/-- The deadline of an entry has taken effect before anything that its home applies after the deadline's clk; a claim that has
waited for another one proceeds when that is cancelled (R96). -/
def State.lapse (s : State) (key : Nat) : State :=
  let e := s.ticket key
  if e.leased && (s.waitingFor key).isEmpty && s.clkPast (key / 4096) e.deadline then s.expireTicket key else s

/-! ## Claims (R91, R94) -/

/-- The checks of a claim at its home (R91): the trap it is answered with, or none. -/
def Ticket.claimTrap (e : Ticket) (t : DWord) (launch : BitVec 32) (asid : BitVec 16) (frame : DWord) : Option Nat :=
  if e.gen ≠ ticketGen t then
    some (if ticketGen t = prevGen e.gen ∧ e.fate = .reclaimed then cExpired else cSpent)
  else if e.st = .free ∨ e.st = .orphaned ∨ e.st = .expired then some cExpired
  else if e.launch ≠ launch ∨ e.asid ≠ asid then some cForeign
  else if e.frame ≠ 0 ∧ e.frame ≠ frame then some cFrame
  else none

/-- Mark a message as one that waits at its home, out of its FIFO's way. -/
def State.waitAtHome (s : State) (id : Nat) : State := s.markApplied id

/-- A claim or release comes next in its home's order for an entry (R96). -/
def State.nextFor (s : State) (m : Msg) (key : Nat) : Bool :=
  match s.waitingFor key with
  | [] => true
  | x :: _ => decide (x.id = m.id)

/-- Apply a claim at its home: a trap answer, acceptance with the data, or acceptance with the data to come. -/
def State.claimAt (s : State) (m : Msg) (t : DWord) (who : Asker) (launch : BitVec 32) (asid : BitVec 16) (frame : DWord) :
    State :=
  let key := ticketKey t
  let e := s.ticket key
  match e.claimTrap t launch asid frame with
  | some k => s.answerClaim m who t none k false
  | none =>
    let s1 := s.setTicket key { e with claim := some who, remain := e.deadline - s.ns }
    if e.st = .ready then s1.answerClaim m who t (some e.data) 0 e.poison else s1.waitAtHome m.id

end Sys2Proof.Machine
end

