-- ==== Sys2Proof/Machine/Barrier.lean ====
section
/-!
DEFINITION. Barrier instructions (R60, R61, R175 to R177) and the events of barriers.
-/

namespace Sys2Proof.Machine

open Host

/-! ## Barrier IDs (R60, R175) -/

/-- A named barrier of an ID, unless a reserved bit is set, no device is named, or the core is out of service (R175,
R354). -/
def State.namedBar (s : State) (x : DWord) : Option BarRef :=
  let dev := field x 18 20
  let core := (field x 9 9).toNat
  if field x 38 26 ≠ 0 ∨ !namesDevice dev ∨ (dev = s.devId ∧ (s.core core).dead) then none
  else some (.named dev core (field x 0 9).toNat)

/-- The barrier that an ID names to a party (R175); a seed has no team. -/
def Ctx.barRef (c : Ctx) (x : DWord) : Option BarRef :=
  if x.getLsbD 63 then
    if field x 4 59 ≠ 0 ∨ c.p.seed.isSome then none else some (.team c.p.teamKey (field x 0 4).toNat)
  else c.s.namedBar x

/-- MATRIX_STREAM (R266). -/
def cMatrix : Nat := 0x0E

/-- The address of the faulting word when the party's team has a STOPPED sequencer (R266). -/
def Ctx.stoppedAt (c : Ctx) : Option DWord :=
  match Map.find c.s.teams c.p.teamKey with
  | none => none
  | some t =>
    match t.seqr with
    | none => none
    | some q => if q.st = .stopped ∧ c.p.seed.isNone then some q.pc else none

/-- The checks of a BARR form with an ID and, where given, a count (R175, R176, R266). -/
def Ctx.barChecks (c : Ctx) (id : DWord) (count : Option DWord) (f : BarRef → Pre) : Pre :=
  match c.barRef id with
  | none => .traps (allTrap c.act cIllegal 0)
  | some b =>
    let named := match b with
      | .named _ _ _ => true
      | .team _ _ => false
    let bad := match count with
      | none => false
      | some n => decide (65535 < n.toNat) || (decide (n = 0) && named)
    if bad then .traps (allTrap c.act cIllegal 0)
    else
      match (if named then none else c.stoppedAt) with
      | some pc => .traps (allTrap c.act cMatrix pc)
      | none => f b

/-- The count that an arrival brings (R176). -/
def Ctx.barCount (c : Ctx) (n : DWord) : Nat := if n = 0 then c.s.partiesPerTeam c.p else n.toNat

/-- Whether the run stands at a word that begins a continuation run with nothing before it. -/
def Ctx.fresh (c : Ctx) : Bool := c.r.cont && decide (c.r.idx = 0)

/-! ## `bar` and `barw` (R176, R177) -/

/-- Send the arrival of a bundle that has begun its continuation run, and wait. An arrival whose count cannot take in every
live party is no arrival of a boundary round (R336, R337; log 93). -/
def Ctx.sendArrival (c : Ctx) (b : BarRef) (kind : ArrKind) (count : Nat) (timeout : DWord) : State :=
  let who : Asker := ⟨c.s.devId, c.core, c.pid, c.b.id, 64, c.s.keys⟩
  let waits := c.s.releaseWaits c.p c.pid c.mods.scope
  let s := match b with
    | .named _ _ _ => c.s.publishOf c.p
    | .team k _ => if count < c.s.liveOf k then c.s.publishOf c.p else c.s
  let s := s.post c.p c.pid c.core (maskOf c.act) waits (s.barHome c.p b)
    (.arrival b { kind := kind, who := who, count := count, timeout := timeout, op := 0, team := c.p.teamKey })
  s.setParty c.pid (c.p.setBundle { c.b with phase := .held (.barrier b c.s.keys) })

/-- What follows the release: the instruction completes, and the words after it form a further continuation run. -/
def Ctx.pastBarrier (c : Ctx) : State :=
  let s := c.advance
  if c.r.idx + 1 < c.r.words.length then s.continueAt c.pid c.b.id else s

/-- `bar` and `barw`. -/
def barWait (s : State) (g : BitVec 4) (args : List Arg) (a b : BitVec 6) (kind : ArrKind) (timeout : Ctx → DWord) :
    Outcome State Fault Refusal :=
  issue s g (args ++ [.sr a.toNat, .sr b.toNat])
    (fun c => c.barChecks (c.sc a.toNat) (some (c.sc b.toNat)) (fun x =>
      match Map.find c.b.ans 64 with
      | some (.trap k x) => .traps (allTrap c.act k x)
      | some _ => .go
      | none =>
      if !c.p.commitReady c.b.id then .hold c.stall
      else if !c.fresh then .hold (c.s.continueAt c.pid c.b.id)
      else .hold (c.sendArrival x kind (c.barCount (c.sc b.toNat)) (timeout c))))
    (fun c =>
      let ok := decide (Map.find c.b.ans 64 = some .go)
      .stay (if kind = .barw then (c.each (fun x l => x.push l ok)).pastBarrier else c.pastBarrier))

/-- `bar` (R176). -/
def execBar (g : BitVec 4) (a b : BitVec 6) (s : State) : Outcome State Fault Refusal :=
  barWait s g [] a b .bar (fun _ => 0)

/-- `barw` (R177). -/
def execBarw (g : BitVec 4) (d a b : BitVec 6) (s : State) : Outcome State Fault Refusal :=
  barWait s g [.sr d.toNat] a b .barw (fun c => c.sc d.toNat)

/-- The barrier of a team that another module has placed. -/
def Ctx.farTeam (c : Ctx) (b : BarRef) : Bool :=
  match b with
  | .named _ _ _ => false
  | .team _ _ => decide (c.p.originDev ≠ c.s.devId)

/-- Ask a barrier's home for its phase, and whether its team's sequencer has STOPPED, before the word goes ahead (R176, R266). -/
def Ctx.askPhase (c : Ctx) (b : BarRef) (phase : DWord) : Pre :=
  match Map.find c.b.ans 64 with
  | some (.trap k x) => .traps (allTrap c.act k x)
  | some _ => .go
  | none => .hold (c.ask 64 (c.s.barHome c.p b) (fun who => .phaseQ b phase who)).save

/-- The run has an arrival, or another event, for the home of a barrier: a read of the phase comes behind it (R104, R176). -/
def Ctx.phaseHeld (c : Ctx) (b : BarRef) : Bool :=
  let h := c.s.barHome c.p b
  c.act.any (fun l => c.isHeld l h) || c.r.eff.any (fun e => match e.item with
    | .send d => decide (d.home = h) && (match d.body with
      | .arrival _ _ => true
      | _ => false)
    | _ => false)

/-- `arrive` (R176): the arrival is sent at commit and its phase comes later. -/
def execArrive (g : BitVec 4) (d a b : BitVec 6) (s : State) : Outcome State Fault Refusal :=
  issue s g [.sw d.toNat, .sr a.toNat, .sr b.toNat]
    (fun c => c.barChecks (c.sc a.toNat) (some (c.sc b.toNat)) (fun x => if c.farTeam x then c.askPhase x 0 else .go))
    (fun c =>
      match c.barRef (c.sc a.toNat) with
      | none => .done c
      | some x =>
        let op := c.s.keys
        let who : Asker := ⟨c.s.devId, c.core, c.pid, c.b.id, 64, 0⟩
        let arr : Arrival := { kind := .arrive, who := who, count := c.barCount (c.sc b.toNat), timeout := 0, op := op,
                               team := c.p.teamKey }
        let c1 := c.lateOp c.act [if d = 31 then .drop else .s d.toNat] false
        .done (c1.effect (.send { Draft.plain (c.s.barHome c.p x) (.arrival x arr) with release := some c.mods.scope })))

/-- `barq` (R176): a read of the phase behind the party's earlier arrivals; its push comes with the answer. Behind an event of
its own run it is made at commit (R104). -/
def execBarq (g : BitVec 4) (a b : BitVec 6) (s : State) : Outcome State Fault Refusal :=
  issue s g [.sr a.toNat, .sr b.toNat]
    (fun c => c.barChecks (c.sc a.toNat) none (fun x =>
      if !(c.phaseHeld x) then c.readWait.then (c.askPhase x (c.sc b.toNat))
      else if c.farTeam x then c.commitTo else .go))
    (fun c =>
      match c.barRef (c.sc a.toNat), Map.find c.b.ans 64 with
      | none, _ => .done c
      | some _, some (.val v) => .done (c.each (fun y l => y.push l (decide (v ≠ 0))))
      | some x, _ =>
        let op := c.s.keys
        let c1 := c.lateOp c.act (c.act.map (fun l => .push l)) false
        .done (c1.effect (.send (Draft.plain (c.s.barHome c.p x) (.barq x (c.sc b.toNat) op)))))

/-! ## `rejoin` and `rejoinw` (R60, R61) -/

/-- Note a pending rejoin in the groups that have just begun to depart (R60). -/
def State.markRejoin (s : State) (like : Party) (m : DWord) (h : Home) (r : RejoinPend) : State :=
  { s with parties := s.parties.map (fun e =>
      if e.2.lineageKey = like.lineageKey ∧ e.2.rejoin.isNone ∧ e.2.mask &&& m ≠ 0 ∧
          e.2.bundles.any (fun b => decide (b.phase = .departing h)) then (e.1, { e.2 with rejoin := some r }) else e) }

/-- A bundle that is not the whole party becomes a party of its own before it arrives (R46, R60). -/
def Ctx.splitOff (c : Ctx) : State :=
  let s := c.s.countMsg c.p c.pid c.core 1
  let asked := [c.s.keys]
  let others := (c.p.bundles.filter (fun b => decide (b.id ≠ c.b.id))).map (fun b => { b with asked := b.asked ++ asked })
  let mine := { c.b with run := some c.r, asked := asked }
  let s := s.setParty c.pid (c.p.part (c.p.mask &&& ~~~c.b.mask) others)
  s.form c.core { c.p.part c.b.mask [mine] with trap := c.p.trap }

/-- A bundle executes `rejoin` on the barrier's own core. -/
def Ctx.rejoinHere (c : Ctx) (n : Nat) (timed : Bool) (timeout : DWord) : Pre :=
  if c.limbCtl ≠ 0 ∧ 1 < c.p.bundles.length then .traps (allTrap c.act cBoundSplit 0)
  else if !c.p.commitReady c.b.id then .hold c.stall
  else if !c.fresh then .hold (c.s.continueAt c.pid c.b.id)
  else if 1 < c.p.bundles.length then .hold c.splitOff
  else if c.s.releaseWaits c.p c.pid 4 ≠ [] then .hold c.stall
  else .hold (c.s.arriveRejoin c.pid c.core n timed timeout)

/-- `rejoin` and `rejoinw`. -/
def rejoinOp (s : State) (g : BitVec 4) (args : List Arg) (a : BitVec 6) (timed : Bool) (timeout : Ctx → DWord) :
    Outcome State Fault Refusal :=
  issue s g (.sr a.toNat :: args)
    (fun c =>
      match (if (c.sc a.toNat).getLsbD 63 then none else c.s.namedBar (c.sc a.toNat)) with
      | some (.named dev core n) =>
        if (Map.find c.b.ans 64).isSome then .go
        else if dev = c.s.devId ∧ core = c.core then c.rejoinHere n timed (timeout c)
        else if c.p.returned ∧ dev ≠ c.s.devId then .traps (allTrap c.act cProtection 0)
        else
          match c.depart (fun _ => some (.core dev core)) with
          | .hold t => .hold (t.markRejoin c.p (maskOf c.act) (.core dev core) ⟨core, n, dev, timed, timeout c⟩)
          | r => r
      | _ => .traps (allTrap c.act cIllegal 0))
    (fun c => .done (if timed then c.useLive.each (fun x l => x.push l false) else c.useLive))

/-- `rejoin` (R60). -/
def execRejoin (g : BitVec 4) (a : BitVec 6) (s : State) : Outcome State Fault Refusal :=
  rejoinOp s g [] a false (fun _ => 0)

/-- `rejoinw` (R61). -/
def execRejoinw (g : BitVec 4) (a b : BitVec 6) (s : State) : Outcome State Fault Refusal :=
  rejoinOp s g [.sr b.toNat] a true (fun c => c.sc b.toNat)

/-! ## Events -/

/-- A message that reaches its home in order. -/
def State.arriving (s : State) (id : Nat) : Option Msg :=
  match s.msg? id with
  | none => none
  | some m =>
    let here := match m.dst with
      | .core dev _ => decide (dev = s.devId)
      | .port _ => true
    if s.deliverable m && here then some m else none

/-- The address of the faulting word when a team barrier's sequencer has STOPPED (R266). -/
def State.barStopped (s : State) (b : BarRef) : Option DWord :=
  match b with
  | .named _ _ _ => none
  | .team t _ =>
    match Map.find s.teams t with
    | some x => (match x.seqr with
        | some q => if q.st = .stopped then some q.pc else none
        | none => none)
    | none => none

/-- A bundle whose arrival has been withdrawn for a park that is not made after all arrives again (R329). -/
def Bundle.again (b : Bundle) : Bundle :=
  match b.phase with
  | .held (.barrier _ _) =>
    if (Map.find b.ans 69).isSome then { b with phase := .running, run := b.run.map Run.rewind, ans := [] } else b
  | _ => b

/-- The home of a barrier has applied a withdrawal: the bundle that a park waits for is told (R329). -/
def State.withdrawn (s : State) (who : Asker) : State :=
  let s1 := s.answer { who with lane := 69 } .go
  match s1.party? who.party with
  | none => s1
  | some p => if p.wantPark then s1 else s1.setParty who.party { p with bundles := p.bundles.map Bundle.again }

/-- Tell the party that asked for a withdrawal that it has been applied (R329). -/
def State.tellWithdrawn (s : State) (core : Nat) (who : Asker) (req : Nat) : State :=
  if req = 0 then s
  else if who.dev = s.devId then (s.withdrawn { who with req := req }).recheck
  else s.postPart core (.core who.dev who.core) (.claimAns { who with lane := 69, req := req } 0 none 263 false)

/-- BARRIER_ARRIVAL: an arrival, a withdrawal or a query reaches its barrier (R176). -/
def execBarrierArrival (msg : Nat) (s : State) : Outcome State Fault Refusal :=
  match s.arriving msg with
  | none => .next s
  | some m =>
    match m.body with
    | .arrival b a =>
      (match (if a.kind = .bar ∨ a.kind = .barw then s.barStopped b else none) with
        | some pc => .next ((s.dropMsg msg).releaseBundle (s.barCore b) a.who (.trap cMatrix pc))
        | none => .next ((s.dropMsg msg).arriveAt b (.arr a)))
    | .withdraw b who req => .next (((s.dropMsg msg).withdrawFrom b who).tellWithdrawn (s.barCore b) who req)
    | .barq b phase op =>
      let differs : DWord := if (s.bar b).phase.setWidth 64 = phase then 0 else 1
      if m.srcDev = s.devId then .next ((s.dropMsg msg).opValue op (List.replicate 64 differs.toNat) false)
      else .next ((s.dropMsg msg).tellPhase (s.barCore b) m.srcDev m.src m.party op differs)
    | _ => .next s

/-- BARW_EXPIRY: the expiry of a round takes effect in its clk, after the arrivals of that clk (R177). -/
def execBarwExpiry (bar : BarRef) (s : State) : Outcome State Fault Refusal :=
  match (s.bar bar).expiry with
  | none => .next s
  | some t =>
    let core := s.barCore bar
    if s.clkPast core t || (s.clkCome core t && !s.arrivalsDue bar) then .next (s.expireBar bar) else .next s

/-- REJOIN_EXPIRY: the expiry of a rejoin round takes effect in its clk, after the arrivals of that clk (R61). -/
def execRejoinExpiry (core bar : Nat) (s : State) : Outcome State Fault Refusal :=
  let b := BarRef.named s.devId core bar
  match (s.bar b).rejoin with
  | none => .next s
  | some r =>
    match r.expiry with
    | none => .next s
    | some t =>
      if s.clkPast core t || (s.clkCome core t && !s.arrivalsDue b) then .next (s.expireRejoin b) else .next s

end Sys2Proof.Machine
end

