-- ==== Sys2Proof/Machine/MemAccess.lean ====
section
/-!
DEFINITION. Accesses that go there: `ld`, `st`, `sld`, `sst`, `atom` (R227 to R234), element accesses (R70 to R74), and
the posted `stp` and `atp` (R75, R241).
-/

namespace Sys2Proof.Machine

open Host

/-! ## Operands by WIDTH (R228) -/

/-- A source of a WIDTH code; code 62 is no operand of an F-M word (R227). -/
def widthSrc (w n : Nat) : List Arg :=
  [if w = 5 then .pr n else if w = 6 then .qr n else .vr n, .need (decide (n ≠ 62))]

/-- A destination of a WIDTH code. -/
def widthDst (w n : Nat) : Arg := if w = 5 then .pw n else if w = 6 then .qw n else .vw n

/-- The low bytes of a source in a lane. -/
def Ctx.storeBytes (c : Ctx) (w n l : Nat) : List Byte :=
  let x := if w = 5 then (c.v64 n l).toNat
    else if w = 6 then (List.range 4).foldl (fun r i => r + (c.vAt n i l).toNat * 2 ^ (32 * i)) 0
    else (c.v n l).toNat
  leBytes (widthBytes w) x

/-- Destinations of a loaded value in a lane. -/
def Ctx.loadDests (c : Ctx) (w n l : Nat) : List Dest :=
  if w = 5 then [c.dest n 0 l, c.dest n 1 l]
  else if w = 6 then (List.range 4).map (fun i => c.dest n i l)
  else [c.dest n 0 l]

/-! ## Loads (R104, R230, R234) -/

/-- A read of one target for some lanes: at once, held behind an event of its own run, or through a host port. -/
def Ctx.readOne (c : Ctx) (lanes : List Nat) (t : Tgt) (n wcode : Nat) (dests : List Dest) (acq : Bool) : Ctx :=
  Ctx.noteAddr (op := c.s.keys) (va := t.va) (x := t.loc) <| match t.loc with
  | none => c.memOp lanes dests (loadVals wcode (List.replicate n 0)) false acq
  | some x =>
    let h := c.s.homeOf x
    let op := c.s.keys
    if lanes.any (fun l => c.isHeld l h) then
      let d := { Draft.plain h (.heldRead x n wcode c.frame op) with acq := acq }
      let c1 := c.lateOp lanes dests acq
      { c1 with r := { c1.r with eff := c1.r.eff ++ [⟨maskOf lanes, .send d⟩] } }
    else if x.isHost || decide (x.dev ≠ c.s.devId) then
      -- the flag that covers it is its run's, but for a host window (R15, R26); a host window holds no versions
      let o := PendOp.mk' c false dests []
      let c1 := c.addOp { o with lanes := maskOf lanes, flag := if x.isHost then none else o.flag, ready := false, acquire := acq }
      { c1 with s := c1.s.post c1.p c1.pid c1.core (maskOf lanes) [] h (.heldRead x n wcode (if x.isHost then 0 else c.frame) op) }
    else (c.seen t n).memOp lanes dests (loadVals wcode (c.bytesAt t n)) (c.tgtPoisoned t n) acq

/-- Whether a target is read at once and unpoisoned. -/
def Ctx.plainRead (c : Ctx) (n : Nat) (t : Tgt) : Bool :=
  match t.loc with
  | none => true
  | some x => !x.isHost && !c.isHeld t.lane (c.s.homeOf x) && !c.tgtPoisoned t n

/-- The reads of a load: lanes that read at once share one operation. -/
def Ctx.readAll (c : Ctx) (ts : List Tgt) (n wcode : Nat) (dests : Nat → List Dest) (acq : Bool) : Ctx :=
  let ps := ts.filter (c.plainRead n)
  let c1 := if ps.isEmpty then c
    else (ps.foldl (fun x t => x.seen t n) c).memOp (ps.map (fun t => t.lane)) (ps.flatMap (fun t => dests t.lane))
      (ps.flatMap (fun t => loadVals wcode (c.bytesAt t n))) false acq
  (ts.filter (fun t => !c.plainRead n t)).foldl (fun x t => x.readOne [t.lane] t n wcode (dests t.lane) acq) c1

/-- Targets whose lock is checked at the home: those not of held reads (R83, R104). -/
def Ctx.lockable (c : Ctx) (ts : List Tgt) : List Tgt :=
  ts.filter (fun t => match t.loc with
    | some x => !c.isHeld t.lane (c.s.homeOf x)
    | none => false)

/-- The addresses of the active lanes. -/
def Ctx.addrs (c : Ctx) (base a : Nat) : List (Nat × Nat) := c.act.map (fun l => (l, c.addr base a l))

/-- The order of checks of a read at the home (R45, R83, R104). -/
def Ctx.readChecks (c : Ctx) (n : Nat) (k : Chk) : Pre :=
  c.readWait.then (k.bind (fun ts => (c.departFor ts).then ((c.lockTraps n false (c.lockable ts)).then (c.orderWait ts))))

/-- The order of checks of a write or a read-modify-write at the home. -/
def Ctx.writeChecks (c : Ctx) (n : Nat) (k : Chk) : Pre :=
  c.acqWait.then (k.bind (fun ts => (c.departFor ts).then (c.lockTraps n true ts)))

/-! ## Elements (R70 to R74) -/

/-- An element access of a lane: its data byte as a target, and the element. -/
structure ETgt where
  tgt : Tgt
  ref : ElemRef
deriving DecidableEq, Repr

/-- The outcome of the checks of one lane's element access. -/
inductive EAcc where
  | ok (t : ETgt)
  | traps (l : List (Nat × Nat)) -- causes with their addresses
  | page (va : Nat)
  | bare (va : Nat)            -- a byte on a window-stack page without a frame
  | wait (va : Nat)            -- the scratchpad of a parked team (R39)
  | due                        -- a walk that a store of the party itself comes before (R104, R110)
deriving DecidableEq, Repr

/-- The formatted region that a format entry describes, where it is accepted (R70 to R72, R317). -/
def entryOk (e : BitVec 256) : Bool :=
  let f := (field e 0 6).toNat
  let sm := (field e 16 2).toNat
  let dl := (field e 24 6).toNat
  decide (f ≤ 9) && decide (field e 6 2 = 0) && decide (field e 8 8 = 32) && decide (field e 18 6 = 0) &&
  decide (field e 30 34 = 0) && decide (16 ≤ dl) && decide (dl ≤ 40) &&
  (if isScaled f then decide (sm = 0) else decide (sm = 1))

/-- What a byte of an element finds, as an outcome for its lane. -/
def Acc.elem (x : Acc) (va : Nat) (more : List (Nat × Nat)) (f : Leaf → Loc → EAcc) : EAcc :=
  match x with
  | .trap q => .traps (more ++ [(q, va)])
  | .page => .page va
  | .wait => .wait va
  | .none _ => if more.isEmpty then .bare va else .traps more
  | .ok l y => f l y

/-- The element index that a base and an offset give under an entry (R72). -/
def elemIndex (e : BitVec 256) (sb : Nat) (v : Int) : Int :=
  ((sb : Int) - (field e 64 64).toNat) * 8 / planeBits (field e 0 6).toNat + v

/-- The checks of an element access of a lane with base address `sb` and signed offset `v` (R72): every cause that the lane
has is listed (R41). A store to a part of a byte reads it as well (R73, R227). -/
def Ctx.elemAcc (c : Ctx) (l sb : Nat) (v : Int) (rd wr : Bool) : EAcc :=
  if c.walkDue sb then .due else
  match c.s.access c.core c.p.asid sb 1 false false with
  | .trap k => .traps [(k, sb)]
  | .page => .page sb
  | .wait => .wait sb
  | .none _ => .traps [(cFormat, sb)]
  | .ok lf _ =>
    let e := lf.fent
    let f := (field e 0 6).toNat
    let nb := planeBits f
    let db := (field e 64 64).toNat
    if lf.fmt = 0 ∨ !(entryOk e) then .traps [(cFormat, sb)]
    else
      let more := (if (sb : Int).emod 64 ≠ (db : Int).emod 64 then [(cAlign, sb)] else []) ++
        (if f = 9 ∧ c.book.isNone then [(cFormat, sb)] else [])
      let i := elemIndex e sb v
      if i < 0 ∨ ((2 ^ (field e 24 6).toNat * 8 / nb : Nat) : Int) ≤ i then .traps (more ++ [(cProtection, sb)])
      else
        let k := i.toNat
        let va := db + k * nb / 8
        if ([va] ++ (if isScaled f then [(field e 128 64).toNat + k / 32] else []) ++
            (if hasComp f then [(field e 192 64).toNat + k / 4] else [])).any c.walkDue then .due else
        (c.s.access c.core c.p.asid va (max 1 (nb / 8)) (rd || decide (nb = 4)) wr).elem va more (fun lf2 x =>
          let more := more ++ (if lf2.fmt ≠ lf.fmt then [(cFormat, va)] else [])
          let sva := (field e 128 64).toNat + k / 32
          let cva := (field e 192 64).toNat + k / 4
          let sx := if isScaled f then c.s.access c.core c.p.asid sva 1 true false else .ok lf2 x
          sx.elem sva more (fun _ sy =>
            let cx := if hasComp f then c.s.access c.core c.p.asid cva 1 true wr else .ok lf2 x
            cx.elem cva more (fun _ cy =>
              if !more.isEmpty then .traps more
              else .ok ⟨⟨l, va, lf2, some x⟩, {
                fmt := f, data := x, sub := if nb = 4 then k % 2 * 4 else 0,
                comp := if hasComp f then some (cy, k % 4 * 2) else none,
                scale := if isScaled f then some sy else none,
                book := if f = 9 then c.book else none }⟩)))

/-- The base and offset of a lane's element: the scalar base with its displacement and the lane's offset, or the lane's
own pointer (R72, R227; log 34). -/
def Ctx.elemBase (c : Ctx) (base a l : Nat) : Nat × Int :=
  if base = 31 then ((c.v64 a l + c.disp).toNat, 0) else ((c.sc base + c.disp).toNat, (c.v a l).toInt)

/-- The checks of the element accesses of the active lanes. -/
def Ctx.elemCheck (c : Ctx) (base a : Nat) (rd wr : Bool) : List EAcc :=
  c.act.map (fun l => let b := c.elemBase base a l; c.elemAcc l b.1 b.2 rd wr)

/-- What the checks of element accesses come to. -/
def Ctx.elemPre (c : Ctx) (rs : List (Nat × EAcc)) (f : List ETgt → Pre) : Pre :=
  match rs.findSome? (fun e => match e.2 with
      | .page va => some va
      | _ => none) with
  | some va => .hold (c.holdPage va)
  | none =>
    match rs.findSome? (fun e => match e.2 with
      | .wait va => some va
      | _ => none) with
    | some va => .hold (c.holdParked va)
    | none =>
    if rs.any (fun e => decide (e.2 = .due)) then .hold c.stall else
    match rs.findSome? (fun e => match e.2 with
      | .ok t => c.queuedTeam t.ref.data
      | _ => none) with
    | some t => .hold (c.joinQueue t)
    | none =>
      let ts := rs.flatMap (fun e => match e.2 with
        | .traps l => l.map (fun x => Trap.mk e.1 x.1 (BitVec.ofNat 64 x.2))
        | _ => [])
      if !ts.isEmpty then .traps ts
      else
        match rs.findSome? (fun e => match e.2 with
            | .bare va => some (e.1, va)
            | _ => none) with
        | some (l, va) =>
          (match (c.s.wstackTeam c.p.asid va).bind (fun k => c.s.attachFrame k (va / 65536)) with
            | some s => .hold s
            | none => .traps [⟨l, cNotPresent, BitVec.ofNat 64 va⟩])
        | none => f (rs.filterMap (fun e => match e.2 with
            | .ok t => some t
            | _ => none))

/-- The element targets of the active lanes, once the checks have passed. -/
def Ctx.elemTgts (c : Ctx) (base a : Nat) (rd wr : Bool) : List ETgt :=
  (c.elemCheck base a rd wr).filterMap (fun e => match e with
    | .ok t => some t
    | _ => none)

/-- The homes of an element's scale and companion bytes other than its data byte's. -/
def Ctx.planeHomes (c : Ctx) (e : ElemRef) : List Home := (e.planes.map c.s.homeOf).filter (fun h => decide (h ≠ c.s.homeOf e.data))

/-- Reads of scale and companion bytes keep the order of a fibre's events at their homes (R104): the run commits up to the
word when an event of its own stands before them there. -/
def Ctx.planeOrder (c : Ctx) (ts : List ETgt) : Pre :=
  if ts.any (fun t => (c.planeHomes t.ref).any (c.isHeld t.tgt.lane)) then c.commitTo
  else if ts.any (fun t => (c.planeHomes t.ref).any (c.unsent t.tgt.lane)) then .hold c.stall
  else .go

/-- RANGELOCK of an element access at its home: over its data byte, and over the companion byte that a store writes in the
same step (R74, R83). -/
def Ctx.elemLocks (c : Ctx) (wr : Bool) (ts : List ETgt) : Pre :=
  Pre.ofTraps (ts.filterMap (fun t =>
    let e := t.ref
    let one := wr && e.comp.any (fun y => decide (c.s.homeOf y.1 = c.s.homeOf e.data) && c.s.locked y.1 1 true)
    if !e.data.isHost && (c.s.locked e.data e.bytes wr || one) then some ⟨t.tgt.lane, cRangelock, BitVec.ofNat 64 t.tgt.va⟩
    else none))

/-- The elements that a load reads now: those of the module's own homes that no event of the run holds back (R104). -/
def Ctx.elemNow (c : Ctx) (ts : List ETgt) : List ETgt :=
  ts.filter (fun t => !t.ref.data.isHost && !c.isHeld t.tgt.lane (c.s.homeOf t.ref.data))

/-- Scale and companion bytes that lie elsewhere, with the numbers under which a lane keeps them (R74). -/
def Ctx.farPlanes (c : Ctx) (t : ETgt) : List (Nat × Loc) :=
  ((t.ref.scale.toList.map (fun y => (t.tgt.lane, y))) ++ (t.ref.comp.toList.map (fun y => (128 + t.tgt.lane, y.1)))).filter
    (fun e => c.s.elsewhere e.2)

/-- The data-plane bytes of a lane's element: as read before its further planes were asked for. -/
def Ctx.elemData (c : Ctx) (t : ETgt) : List Byte × Bool :=
  match Map.find c.b.ans (256 + t.tgt.lane) with
  | some (.data b p) => (b, p)
  | _ => (c.bytesAt t.tgt t.ref.bytes, c.tgtPoisoned t.tgt t.ref.bytes)

/-- A scale or companion byte of a lane's element. -/
def Ctx.elemPlane (c : Ctx) (t : ETgt) (y : Loc) : Byte × Bool :=
  match (c.farPlanes t).find? (fun e => decide (e.2 = y)) with
  | some e => (match Map.find c.b.ans e.1 with
      | some (.data b p) => (b.headD 0, p)
      | _ => (0, false))
  | none => ((c.s.bound c.frame y.pa [memByte c.s.mem y.pa]).headD 0, c.s.poisoned y.pa 1)

/-- The loads whose further planes lie elsewhere read their data bytes, and then ask for those planes (R74); a range lock
holds the reads of the planes here (R84). -/
def Ctx.askElem (c : Ctx) (ts : List ETgt) : Pre :=
  let now := c.elemNow ts
  let far := now.filter (fun t => !(c.farPlanes t).isEmpty)
  let need := far.flatMap (fun t => (c.farPlanes t).filter (fun e => (Map.find c.b.ans e.1).isNone))
  if now.any (fun t => c.s.elemLocked t.ref false) then .hold c.stall
  else if need.isEmpty then .go
  else
    let keep (x : Ctx) (t : ETgt) : Ctx :=
      if (Map.find x.b.ans (256 + t.tgt.lane)).isSome then x
      else
        let d := c.elemData t
        let y := x.seen t.tgt t.ref.bytes
        { y with b := { y.b with ans := Map.insert y.b.ans (256 + t.tgt.lane) (.data d.1 d.2) } }
    .hold (need.foldl (fun (x : Ctx) e => x.ask e.1 (c.s.homeOf e.2) (fun who => .hostRead e.2 1 who)) (far.foldl keep c)).save

/-- `ld.e` of a lane (R73): its value, and the conditions of the decode (R122, R127). -/
def Ctx.elemRead (c : Ctx) (t : ETgt) (dest : Dest) : Ctx :=
  let h := c.s.homeOf t.ref.data
  let op := c.s.keys
  let l := t.tgt.lane
  Ctx.noteAddr (op := op) (va := t.tgt.va) (x := t.tgt.loc) <| if c.isHeld l h then
    let c1 := c.lateOp [l] [dest, .fp l] false
    { c1 with r := { c1.r with eff := c1.r.eff ++ [⟨maskOf [l], .send (Draft.plain h (.heldElem t.ref c.frame op))⟩] } }
  else if t.ref.data.isHost then
    let c1 := c.addOp { PendOp.mk' c false [dest, .fp l] [] with lanes := maskOf [l], flag := none, ready := false }
    { c1 with s := c1.s.post c1.p c1.pid c1.core (maskOf [l]) [] h (.heldElem t.ref 0 op) }
  else
    let d := c.elemData t
    let x := t.ref.decode d.1 (fun y => (c.elemPlane t y).1)
    let bad := d.2 || t.ref.planes.any (fun y => (c.elemPlane t y).2)
    (((c.seen t.tgt t.ref.bytes).seenPlanes t.ref.planes).memOp [l] [dest] [x.1.toNat] bad false).addFp l x.2

/-! ## `ld` and `st` (R230) -/

/-- The targets of an access of the active lanes. -/
def Ctx.laneTgts (c : Ctx) (n : Nat) (rd wr : Bool) (base a : Nat) : List Tgt := (c.check n rd wr (c.addrs base a)).tgts

/-- `ld` (R230). -/
def execLd (g : BitVec 4) (d a : BitVec 6) (sb : BitVec 5) (w : BitVec 3) (o : BitVec 2) (s : State) :
    Outcome State Fault Refusal :=
  let n := widthBytes w.toNat
  issue s g (addrArgs sb.toNat a.toNat ++ [widthDst w.toNat d.toNat, .need (decide (o ≠ 3)), .need (decide (w = 7 → o = 0))])
    (fun c =>
      if w = 7 then
        (c.cbWait.then c.readWait).then (c.elemPre (c.act.zip (c.elemCheck sb.toNat a.toNat true false)) (fun ts =>
          let tt := ts.map (fun t => t.tgt)
          (c.departFor tt).then ((c.elemLocks false (c.elemNow ts)).then
            ((c.orderWait tt).then ((c.planeOrder ts).then (c.askElem ts))))))
      else c.readChecks n (c.check n true false (c.addrs sb.toNat a.toNat)))
    (fun c =>
      if w = 7 then
        .done ((c.elemTgts sb.toNat a.toNat true false).foldl (fun x t => x.elemRead t (c.dest d.toNat 0 t.tgt.lane)) c).useLive
      else
        .done (c.readAll (c.laneTgts n true false sb.toNat a.toNat) n w.toNat (c.loadDests w.toNat d.toNat)
          (decide (o = 1))).useLive)

/-- A write that is sent at commit; host writes hold their lanes until acknowledged (R15, R63). -/
def Ctx.writeDraft (c : Ctx) (lanes : List Nat) (x : Loc) (data : List Byte) (rel : Bool) : Ctx :=
  let d := { Draft.plain (c.s.homeOf x) (.write x data []) with
    release := if rel then some c.mods.scope else none, sync := x.isHost }
  { c with r := { c.r with eff := c.r.eff ++ [⟨maskOf lanes, .send d⟩] } }

/-- `st.e` of a lane: the encoding is made at the home after commit (R73). -/
def Ctx.elemWrite (c : Ctx) (t : ETgt) (x : Word) : Ctx :=
  let dr := if t.ref.fmt = 9 then (c, (0 : Word)) else c.draw t.tgt.lane
  let d := { Draft.plain (c.s.homeOf t.ref.data) (.elem t.ref x (c.mods.rnd) c.mods.sat dr.2) with
    sync := t.ref.data.isHost }
  { dr.1 with r := { dr.1.r with eff := dr.1.r.eff ++ [⟨maskOf [t.tgt.lane], .send d⟩] } }

/-- `st` (R230). -/
def execSt (g : BitVec 4) (d a : BitVec 6) (sb : BitVec 5) (w : BitVec 3) (o : BitVec 2) (s : State) :
    Outcome State Fault Refusal :=
  let n := widthBytes w.toNat
  issueBy s g
    (fun c => addrArgs sb.toNat a.toNat ++ widthSrc w.toNat d.toNat ++
      [.need (decide (o ≠ 3)), .need (decide (w = 7 → o = 0)), .need (decide (w ≠ 1 ∧ w ≠ 3))] ++
      (if w = 7 then c.drawArgs else []))
    (fun c =>
      if w = 7 then
        (c.cbWait.then c.acqWait).then (c.elemPre (c.act.zip (c.elemCheck sb.toNat a.toNat false true)) (fun ts =>
          let tt := ts.map (fun t => t.tgt)
          (c.departFor tt).then ((c.elemLocks true ts).then (c.planeOrder ts))))
      else c.writeChecks n (c.check n false true (c.addrs sb.toNat a.toNat)))
    (fun c =>
      if w = 7 then
        .done ((c.elemTgts sb.toNat a.toNat false true).foldl (fun x t => x.elemWrite t (c.v d.toNat t.tgt.lane)) c).useLive
      else
        .done ((c.laneTgts n false true sb.toNat a.toNat).foldl (fun x t => match t.loc with
          | some y => x.writeDraft [t.lane] y (c.storeBytes w.toNat d.toNat t.lane) (decide (o = 1))
          | none => x) c).useLive)

/-! ## `sld` and `sst` (R231) -/

/-- The one address of a scalar access. -/
def Ctx.scalarAddr (c : Ctx) (base a : Nat) : Nat := (c.sc base + c.sc a + c.disp).toNat

/-- The operands of a scalar access. -/
def scalarAddrArgs (base a : Nat) : List Arg := [.sr base, .sr a, .need (decide (base ≤ 30))]

/-- The one address, in every active lane. -/
def Ctx.scalarAddrs (c : Ctx) (base a : Nat) : List (Nat × Nat) := c.act.map (fun l => (l, c.scalarAddr base a))

/-- `sld` (R231). -/
def execSld (g : BitVec 4) (d a : BitVec 6) (sb : BitVec 5) (w : BitVec 3) (o : BitVec 2) (s : State) :
    Outcome State Fault Refusal :=
  let n := widthBytes w.toNat
  issue s g (scalarAddrArgs sb.toNat a.toNat ++ [.sw d.toNat, .need (decide (o ≠ 3)), .need (decide (w.toNat ≤ 5))])
    (fun c => c.readChecks n (c.check n true false (c.scalarAddrs sb.toNat a.toNat)))
    (fun c =>
      match (c.check n true false (c.scalarAddrs sb.toNat a.toNat)).tgts with
      | [] => .done c.useLive
      | t :: _ =>
        .done (c.readOne c.act t n (8 + w.toNat) [if d = 31 then .drop else .s d.toNat] (decide (o = 1))).useLive)

/-- `sst` (R231). -/
def execSst (g : BitVec 4) (d a : BitVec 6) (sb : BitVec 5) (w : BitVec 3) (o : BitVec 2) (s : State) :
    Outcome State Fault Refusal :=
  let n := widthBytes w.toNat
  issue s g (scalarAddrArgs sb.toNat a.toNat ++ [.sr d.toNat, .need (decide (o ≠ 3)),
      .need (decide (w = 0 ∨ w = 2 ∨ w = 4 ∨ w = 5))])
    (fun c => c.writeChecks n (c.check n false true (c.scalarAddrs sb.toNat a.toNat)))
    (fun c =>
      match (c.check n false true (c.scalarAddrs sb.toNat a.toNat)).tgts with
      | [] => .done c.useLive
      | t :: _ => .done (match t.loc with
          | some y => c.writeDraft c.act y (leBytes n (c.sc d.toNat).toNat) (decide (o = 1))
          | none => c).useLive)

/-! ## Atomic operations (R232, R233, R241) -/

/-- The operation that WIDTH and the format select, and whether it is of 64 bits (R232). -/
def atomSel (w f : Nat) : Option (AtomOp × Bool) :=
  let wide := decide (f = 22 ∨ f = 23)
  let narrow := decide (f = 20 ∨ f = 21)
  let unsigned := decide (f = 21)
  match w with
  | 0 => if wide then some (.add, true) else if narrow then some (.add, false) else if f = 0 then some (.fadd, false) else none
  | 1 => if narrow then some (if unsigned then .minu else .min, false) else none
  | 2 => if narrow then some (if unsigned then .maxu else .max, false) else none
  | 3 => if narrow then some (.and, false) else none
  | 4 => if narrow then some (.or, false) else none
  | 5 => if narrow then some (.xor, false) else none
  | 6 => if wide then some (.exch, true) else if narrow then some (.exch, false) else none
  | _ => if wide then some (.cas, true) else if narrow then some (.cas, false) else none

/-- The operation in force. -/
def Ctx.atomOf (c : Ctx) (w : Nat) : Option (AtomOp × Bool) := atomSel w (c.fmtOr 20)

/-- The operand that D holds (R232). -/
def atomOperand (sel : Option (AtomOp × Bool)) (d : Nat) : Arg :=
  match sel with
  | some (.cas, true) => .qr d
  | some (.cas, false) => .pr d
  | some (_, true) => .pr d
  | _ => .vr d

/-- Access width of the operation. -/
def atomBytes (sel : Option (AtomOp × Bool)) : Nat :=
  match sel with
  | some (_, true) => 8
  | _ => 4

/-- Operand values of a lane: the operand, or expected and new (R232). -/
def Ctx.atomVals (c : Ctx) (sel : AtomOp × Bool) (d l : Nat) : DWord × DWord :=
  match sel with
  | (.cas, true) => (c.vAt d 1 l ++ c.vAt d 0 l, c.vAt d 3 l ++ c.vAt d 2 l)
  | (.cas, false) => ((c.v d l).setWidth 64, if d < 60 then (c.v (d + 1) l).setWidth 64 else (field (c.v64 d l) 32 32).setWidth 64)
  | (_, true) => (c.v64 d l, 0)
  | (_, false) => ((c.v d l).setWidth 64, 0)

/-- The release scope that the `mod` order gives (R102). -/
def Ctx.modRelease (c : Ctx) : Option Nat := if c.mods.order = 2 ∨ c.mods.order = 3 then some c.mods.scope else none

/-- The `mod` order has an acquire component (R102). -/
def Ctx.modAcquire (c : Ctx) : Bool := decide (c.mods.order = 1) || decide (c.mods.order = 3)

/-- FORMAT unless WIDTH and format select an operation (R232). -/
def Ctx.atomFmt (c : Ctx) (w : Nat) : Pre := c.needFmt (c.atomOf w).isSome

/-- `atom` (R232, R233). -/
def execAtom (g : BitVec 4) (d a : BitVec 6) (sb : BitVec 5) (w : BitVec 3) (s : State) : Outcome State Fault Refusal :=
  issueBy s g
    (fun c => addrArgs sb.toNat a.toNat ++ [atomOperand (c.atomOf w.toNat) d.toNat, .need (decide (d.toNat ≤ 60)), .vw d.toNat] ++
      (if atomBytes (c.atomOf w.toNat) = 8 then [.pw d.toNat] else []))
    (fun c => (c.atomFmt w.toNat).then
      (c.writeChecks (atomBytes (c.atomOf w.toNat)) (c.check (atomBytes (c.atomOf w.toNat)) true true (c.addrs sb.toNat a.toNat))))
    (fun c =>
      match c.atomOf w.toNat with
      | none => .done c
      | some sel =>
        let n := if sel.2 then 8 else 4
        .done ((c.laneTgts n true true sb.toNat a.toNat).foldl (fun x t => match t.loc with
          | none => x
          | some y =>
            let v := c.atomVals sel d.toNat t.lane
            let dests := if sel.2 then [c.dest d.toNat 0 t.lane, c.dest d.toNat 1 t.lane] else [c.dest d.toNat 0 t.lane]
            let op := x.s.keys
            let dr := { Draft.plain (c.s.homeOf y) (.atomic y sel.1 sel.2 v.1 v.2 (some op)) with
              release := c.modRelease, sync := y.isHost, acq := c.modAcquire, old := false }
            (x.lateOp [t.lane] dests c.modAcquire).effectOf t.lane (.send dr)) c).useLive)

/-- Checks of a posted operation at the issuing core (R75). -/
def Ctx.postChecks (c : Ctx) (k : Chk) : Pre := c.acqWait.then (k.bind (fun _ => .go))

/-- `stp` (R241). -/
def execStp (g : BitVec 4) (d a : BitVec 6) (sb : BitVec 5) (w : BitVec 3) (s : State) : Outcome State Fault Refusal :=
  let n := widthBytes w.toNat
  issue s g (addrArgs sb.toNat a.toNat ++ widthSrc w.toNat d.toNat ++ [.need (decide (w = 0 ∨ w = 2 ∨ w = 4 ∨ w = 5 ∨ w = 6))])
    (fun c => c.postChecks (c.check n false true (c.addrs sb.toNat a.toNat)))
    (fun c =>
      .done ((c.laneTgts n false true sb.toNat a.toNat).foldl (fun x t => match t.loc with
        | none => x
        | some y => x.effectOf t.lane (.send { Draft.plain (c.s.homeOf y) (.write y (c.storeBytes w.toNat d.toNat t.lane) []) with
            posted := true })) c))

/-- `atp` (R241). -/
def execAtp (g : BitVec 4) (d a : BitVec 6) (sb : BitVec 5) (w : BitVec 3) (s : State) : Outcome State Fault Refusal :=
  issueBy s g
    (fun c => addrArgs sb.toNat a.toNat ++ [atomOperand (c.atomOf w.toNat) d.toNat, .need (decide (d ≠ 62))])
    (fun c => (c.atomFmt w.toNat).then
      (c.postChecks (c.check (atomBytes (c.atomOf w.toNat)) true true (c.addrs sb.toNat a.toNat))))
    (fun c =>
      match c.atomOf w.toNat with
      | none => .done c
      | some sel =>
        let n := if sel.2 then 8 else 4
        .done ((c.laneTgts n true true sb.toNat a.toNat).foldl (fun x t => match t.loc with
          | none => x
          | some y =>
            let v := c.atomVals sel d.toNat t.lane
            x.effectOf t.lane (.send { Draft.plain (c.s.homeOf y) (.atomic y sel.1 sel.2 v.1 v.2 none) with
              release := c.modRelease, posted := true })) c))

end Sys2Proof.Machine
end

