-- ==== Sys2Proof/Machine/TicketOps.lean ====
section
/-!
DEFINITION. Ticket instructions of the party stream: `ldt`, `ldtb`, `att`, `egath` (R235 to R239, R80), and the REDEEM
family (R86, R91 to R95, R240).
-/

namespace Sys2Proof.Machine

open Host

/-! ## Requests (R87 to R89, R235) -/

/-- Lease of a party's tickets in ns (R97, R308); a seed's is the one a launch has by default. -/
def State.leaseOf (s : State) (p : Party) : Nat :=
  match s.launchOf p with
  | some v => if v.rcd.lease = 0 then 100000 else v.rcd.lease
  | none => 100000

/-- A ticket request of the party as it stands. -/
def Ctx.fetchFor (c : Ctx) (x : Loc) (len wcode : Nat) (block : Bool) (op : Nat) : Fetch :=
  { loc := x, len := len, wcode := wcode, block := block, launch := c.p.launchId, asid := c.p.asid, frame := c.frame,
    lease := c.s.leaseOf c.p, op := op }

/-- Send a fetch for some lanes: at once, or as a held read behind an event of its own run (R88, R104). -/
def Ctx.sendFetch (c : Ctx) (lanes : List Nat) (x : Loc) (len wcode : Nat) (block : Bool) (dests : List Dest) : Ctx :=
  let h := c.s.homeOf x
  let f := c.fetchFor x len wcode block c.s.keys
  if lanes.any (fun l => c.isHeld l h) then
    let c1 := c.lateOp lanes dests false
    { c1 with r := { c1.r with eff := c1.r.eff ++ [⟨maskOf lanes, .send (Draft.plain h (.fetch f))⟩] } }
  else
    let c1 := c.addOp { PendOp.mk' c false dests [] with lanes := maskOf lanes, ready := false, role := .fetch }
    { c1 with s := c1.s.post c1.p c1.pid c1.core (maskOf lanes) [] h (.fetch f) }

/-- Checks of a fetch: as those of a read, and a window-stack page without a frame receives one, so that the ticket has
a home (log 36). -/
def Ctx.fetchChecks (c : Ctx) (k : Chk) (f : List Tgt → Pre) : Pre :=
  k.bind (fun ts =>
    match ts.find? (fun t => t.loc.isNone) with
    | none => f ts
    | some t =>
      match (c.s.wstackTeam c.p.asid t.va).bind (fun k => c.s.attachFrame k (t.va / 65536)) with
      | some s => .hold s
      | none => .traps [⟨t.lane, cNotPresent, BitVec.ofNat 64 t.va⟩])

/-- `ldt` (R235). -/
def execLdt (g : BitVec 4) (d a : BitVec 6) (sb : BitVec 5) (w : BitVec 3) (o : BitVec 2) (s : State) :
    Outcome State Fault Refusal :=
  let n := widthBytes w.toNat
  issue s g (addrArgs sb.toNat a.toNat ++ [.pw d.toNat, .need (decide (o ≠ 3)), .need (decide (w ≠ 7))])
    (fun c => c.readWait.then (c.fetchChecks (c.check n true false (c.addrs sb.toNat a.toNat)) (fun _ => .go)))
    (fun c => .done ((c.laneTgts n true false sb.toNat a.toNat).foldl (fun x t => match t.loc with
      | none => x
      | some y => x.sendFetch [t.lane] y n w.toNat false [c.dest d.toNat 0 t.lane, c.dest d.toNat 1 t.lane]) c))

/-- The block address of `ldtb`, and its length (R236). -/
def Ctx.blockAddr (c : Ctx) (base : Nat) : Nat := (c.sc base + c.disp).toNat

/-- A length that a block may have (R236). -/
def blockLenOk (n : Nat) : Bool := decide (n % 16 = 0) && decide (16 ≤ n) && decide (n ≤ 4096)

/-- A range of bytes inside one 4 KiB granule (R65). -/
def oneGranule (va n : Nat) : Bool := decide (n = 0) || decide (va / 4096 = (va + n - 1) / 4096)

/-- Checks that also trap ALIGN on every active lane (R227, R236). -/
def Ctx.alsoAlign (c : Ctx) (k : Chk) (bad : Bool) (va : Nat) (f : List Tgt → Pre) : Pre :=
  let al := allTrap c.act cAlign (BitVec.ofNat 64 va)
  match k with
  | .stop (.traps ts) => .traps (if bad then ts ++ al else ts)
  | .stop p => p
  | .ok ts => if bad then .traps al else f ts

/-- `ldtb` (R236). -/
def execLdtb (g : BitVec 4) (d a : BitVec 6) (sb : BitVec 5) (o : BitVec 2) (s : State) : Outcome State Fault Refusal :=
  issue s g [.hw d.toNat, .sr a.toNat, .sr sb.toNat, .need (decide (sb.toNat ≤ 30)), .need (decide (o ≠ 3))]
    (fun c =>
      let va := c.blockAddr sb.toNat
      let n := (c.sc a.toNat).toNat
      let k := c.check 16 true false (c.act.map (fun l => (l, va)))
      c.readWait.then (c.alsoAlign k (!blockLenOk n || !oneGranule va n) va (fun ts => c.fetchChecks (.ok ts) (fun _ => .go))))
    (fun c =>
      let va := c.blockAddr sb.toNat
      let n := (c.sc a.toNat).toNat
      match (c.check 16 true false (c.act.map (fun l => (l, va)))).tgts with
      | [] => .done c
      | t :: _ => .done (match t.loc with
          | some y => c.sendFetch c.act y n 7 true [.h d.toNat]
          | none => c))

/-- `att` (R237). -/
def execAtt (g : BitVec 4) (d a : BitVec 6) (sb : BitVec 5) (w : BitVec 3) (s : State) : Outcome State Fault Refusal :=
  issueBy s g
    (fun c => addrArgs sb.toNat a.toNat ++ [.pw d.toNat, atomOperand (c.atomOf w.toNat) d.toNat])
    (fun c => (c.atomFmt w.toNat).then
      (c.postChecks (c.check (atomBytes (c.atomOf w.toNat)) true true (c.addrs sb.toNat a.toNat))))
    (fun c =>
      match c.atomOf w.toNat with
      | none => .done c
      | some sel =>
        let n := if sel.2 then 8 else 4
        .done ((c.laneTgts n true true sb.toNat a.toNat).foldl (fun x t => match t.loc with
          | none => x
          | some y =>
            let v := c.atomVals sel d.toNat t.lane
            let f := c.fetchFor y n (if sel.2 then 5 else 4) false x.s.keys
            let dr := { Draft.plain (c.s.homeOf y) (.att f sel.1 sel.2 v.1 v.2) with release := c.modRelease }
            (x.lateOp [t.lane] [c.dest d.toNat 0 t.lane, c.dest d.toNat 1 t.lane] false).effectOf t.lane (.send dr)) c))

/-! ## Synchronous reads -/

/-- Bytes at a target, through the frame binding or not (R112). -/
def Ctx.syncAt (c : Ctx) (bound : Bool) (t : Tgt) (n : Nat) : List Byte :=
  if bound then c.bytesAt t n
  else
    match t.loc with
    | none => List.replicate n 0
    | some x => memBytes c.s.mem x.pa n

/-- A read of the bytes at one target, made for the whole bundle without migration, in order behind the earlier
messages of its lanes: the bytes, or what the word waits for. A range lock holds it (R84). -/
def Ctx.readSync (c : Ctx) (bound : Bool) (t : Tgt) (n : Nat) (f : List Byte → Bool → Pre) : Pre :=
  match t.loc with
  | none => f (List.replicate n 0) false
  | some x =>
    if x.isHost || decide (x.dev ≠ c.s.devId) then
      match Map.find c.b.ans 64 with
      | some (.data b poison) => f b poison
      | _ => .hold (c.ask 64 (c.s.homeOf x) (fun who => .hostRead x n who)).save
    else if c.s.locked x n false || c.act.any (fun l => c.unsent l (c.s.homeOf x)) then .hold c.stall
    else f (c.syncAt bound t n) (c.tgtPoisoned t n)

/-- The bytes of a synchronous read, once it has been made. -/
def Ctx.syncBytes (c : Ctx) (bound : Bool) (t : Tgt) (n : Nat) : List Byte :=
  match Map.find c.b.ans 64 with
  | some (.data b _) => b
  | _ => c.syncAt bound t n

/-! ## `egath` (R80, R238) -/

/-- The descriptor of an embedding table (R80). -/
structure Table where
  base  : Nat
  bytes : Nat
  rows  : Nat
  drop  : Nat
deriving DecidableEq, Repr

/-- Read a descriptor; nothing when a field is outside its limits (R80). -/
def tableOf (b : List Byte) : Option Table :=
  let x := leNat b
  let t : Table := ⟨x % 2 ^ 64, x / 2 ^ 64 % 2 ^ 32, x / 2 ^ 96 % 2 ^ 32, x / 2 ^ 128 % 2 ^ 64⟩
  if x / 2 ^ 192 ≠ 0 ∨ t.bytes < 4 ∨ 4096 < t.bytes ∨ 2 ^ Nat.log2 t.bytes ≠ t.bytes ∨ t.base % t.bytes ≠ 0 ∨ t.rows = 0 ∨
      2 ^ 31 < t.rows ∨ t.drop % 8 ≠ 0 then none
  else some t

/-- The index of a lane names a row. -/
def Ctx.rowValid (c : Ctx) (t : Table) (a l : Nat) : Bool :=
  let i := (c.v a l).toInt
  decide (0 ≤ i) && decide (i < t.rows)

/-- The rows that active lanes name, with their addresses. -/
def Ctx.rowAddrs (c : Ctx) (t : Table) (a : Nat) : List (Nat × Nat) :=
  (c.act.filter (c.rowValid t a)).map (fun l => (l, (t.base + (c.v a l).toNat * t.bytes) % 2 ^ 64))

/-- The active lanes whose index names no row. -/
def Ctx.dropped (c : Ctx) (t : Table) (a : Nat) : List Nat := c.act.filter (fun l => !c.rowValid t a l)

/-- The check of the drop counter, where one is to be added to (R80). -/
def Ctx.dropChk (c : Ctx) (t : Table) (a : Nat) : Chk :=
  if t.drop = 0 then .ok [] else c.check 8 false true ((c.dropped t a).map (fun l => (l, t.drop)))

/-- Both sets of checks of `egath`. -/
def Ctx.rowChecks (c : Ctx) (t : Table) (a : Nat) : Pre :=
  match c.dropChk t a with
  | .stop (.hold s) => .hold s
  | .stop .go => .go
  | .stop (.traps ts) =>
    (match c.check t.bytes true false (c.rowAddrs t a) with
      | .stop (.hold s) => .hold s
      | .stop (.traps us) => .traps (ts ++ us)
      | _ => .traps ts)
  | .ok _ => c.fetchChecks (c.check t.bytes true false (c.rowAddrs t a)) (fun _ => .go)

/-- The descriptor's target. -/
def Ctx.descChk (c : Ctx) (base : Nat) : Chk := c.check 64 true false (c.act.map (fun l => (l, c.blockAddr base)))

/-- WIDTH code of a row held in a lane entry. -/
def rowCode (n : Nat) : Nat := if n = 4 then 4 else if n = 8 then 5 else 6

/-- `egath` (R80, R238). -/
def execEgath (g : BitVec 4) (d a : BitVec 6) (sb : BitVec 5) (s : State) : Outcome State Fault Refusal :=
  issue s g [.pw d.toNat, .vr a.toNat, .need (decide (a ≠ 62)), .sr sb.toNat, .need (decide (sb.toNat ≤ 30))]
    (fun c => c.readWait.then ((c.descChk sb.toNat).bind (fun ts =>
      match ts with
      | [] => .go
      | t :: _ => c.notBehind ts (c.readSync true t 64 (fun b poison =>
          if poison then .hold (c.consumeAt c.act ((t.loc.map (fun l => l.pa)).getD 0) t.va)
          else
            match tableOf b with
            | none => .traps (allTrap c.act cFormat 0)
            | some tb => c.rowChecks tb a.toNat)))))
    (fun c =>
      match (c.descChk sb.toNat).tgts with
      | [] => .done c
      | t :: _ =>
        match tableOf (c.syncBytes true t 64) with
        | none => .done c
        | some tb =>
          let dests (l : Nat) : List Dest := [c.dest d.toNat 0 l, c.dest d.toNat 1 l]
          let block := decide (16 < tb.bytes)
          let c1 := (c.check tb.bytes true false (c.rowAddrs tb a.toNat)).tgts.foldl (fun x t => match t.loc with
            | none => x
            | some y => x.sendFetch [t.lane] y tb.bytes (if block then 7 else rowCode tb.bytes) block (dests t.lane)) (c.seen t 64)
          let out := c.dropped tb a.toNat
          let c2 := if out.isEmpty then c1
            else c1.memOp out (out.flatMap dests) (List.replicate (2 * out.length) 0) false false
          .done ((c.dropChk tb a.toNat).tgts.foldl (fun x t => match t.loc with
            | none => x
            | some y => x.effectOf t.lane (.send { Draft.plain (c.s.homeOf y) (.atomic y .add true 1 0 none) with
                posted := true })) c2))

/-! ## The REDEEM family (R86, R91 to R95, R240) -/

/-- A ticket fails the checks at the redeemer's core (R86, R91). -/
def Ctx.foreign (c : Ctx) (t : DWord) (block : Bool) : Bool :=
  decide (t ≠ 0) && (c.s.ticketBad t || t.getLsbD 49 != block || decide (field t 50 7 ≠ c.p.launchId.setWidth 7) ||
    decide (field t 57 7 ≠ c.p.asid.setWidth 7))

/-- Send claims or tests for the lanes that have no answer yet, and wait for the answers. -/
def Ctx.askFor (c : Ctx) (ts : List (Nat × DWord)) (f : DWord → Asker → MsgBody) (rest : Pre) : Pre :=
  let open_ := ts.filter (fun e => decide (e.2 ≠ 0) && (Map.find c.b.ans e.1).isNone)
  if open_.isEmpty then rest
  else .hold (open_.foldl (fun (x : Ctx) e => x.ask e.1 (ticketHome e.2) (f e.2)) c).save

/-- Traps that the answers carry. -/
def Ctx.ansTraps (c : Ctx) (ts : List (Nat × DWord)) : List Trap :=
  ts.filterMap (fun e => match Map.find c.b.ans e.1 with
    | some (.trap k a) => some ⟨e.1, k, a⟩
    | _ => none)

/-- The claim of a party. -/
def Ctx.claimBody (c : Ctx) (t : DWord) (who : Asker) : MsgBody := .claim t who c.p.launchId c.p.asid c.frame

/-- The test of a party. -/
def Ctx.testBody (c : Ctx) (t : DWord) (who : Asker) : MsgBody := .test t who c.p.launchId c.p.asid c.frame

/-- The tickets of the active lanes. -/
def Ctx.laneTickets (c : Ctx) (a : Nat) : List (Nat × DWord) := c.act.map (fun l => (l, c.v64 a l))

/-- TICKET_FOREIGN on the lanes whose tickets fail the core's checks. -/
def Ctx.foreignLanes (c : Ctx) (ts : List (Nat × DWord)) : Pre :=
  Pre.ofTraps (allTrap ((ts.filter (fun e => c.foreign e.2 false)).map (fun e => e.1)) cForeign 0)

/-- The data that a bundle's claim was answered with. -/
def Ctx.claimed (c : Ctx) (l : Nat) : List Byte × Bool :=
  match Map.find c.b.ans l with
  | some (.data b p) => (b, p)
  | _ => ([], false)

/-- A lane's claim: a long-latency operation whose data the run waits for, and which later accesses of the lane are ordered
behind (R91, R99; log 37). -/
def Ctx.claimOp (c : Ctx) (l : Nat) (t : DWord) (dests : List Dest) : Ctx :=
  let who : Asker := ⟨c.s.devId, c.core, c.pid, c.b.id, l, c.s.keys⟩
  let c1 := c.addOp { PendOp.mk' c false dests [] with
    lanes := maskOf [l], flag := none, ready := false, acquire := true, role := .claim t who }
  c1.sendNow l (ticketHome t) (c.claimBody t who)

/-- `rdm` (R92, R240): each lane with a ticket claims it, and the null ticket delivers zeros (R86). -/
def execRdm (g : BitVec 4) (d a b : BitVec 6) (s : State) : Outcome State Fault Refusal :=
  let n := if b = 6 then 4 else if b = 5 then 2 else 1
  issue s g [.pr a.toNat, if b = 6 then .qw d.toNat else if b = 5 then .pw d.toNat else .vw d.toNat,
      .need (decide (b = 4 ∨ b = 5 ∨ b = 6))]
    (fun c => c.foreignLanes (c.laneTickets a.toNat))
    (fun c =>
      let dests (l : Nat) : List Dest := (List.range n).map (fun i => c.dest d.toNat i l)
      let ts := c.laneTickets a.toNat
      let null := (ts.filter (fun e => decide (e.2 = 0))).map (fun e => e.1)
      let c1 := if null.isEmpty then c else c.memOp null (null.flatMap dests) (List.replicate (n * null.length) 0) false false
      .done ((ts.filter (fun e => decide (e.2 ≠ 0))).foldl (fun x e => x.claimOp e.1 e.2 (dests e.1)) c1))

/-- The length of the block that a ticket's entry at this module holds. -/
def State.blockLen (s : State) (t : DWord) : Nat :=
  let e := s.ticket (ticketKey t)
  if t ≠ 0 ∧ e.gen = ticketGen t ∧ e.st ≠ .free then e.len else 0

/-- The length of the block that `rdmb` will write, as its home gives it (R93). -/
def Ctx.lenOf (c : Ctx) (t : DWord) : Nat :=
  if field t 21 20 = c.s.devId then c.s.blockLen t
  else
    match Map.find c.b.ans 72 with
    | some (.val n) => n.toNat
    | _ => 0

/-- Learn the length of a block that another module holds (R93). -/
def Ctx.askLen (c : Ctx) (t : DWord) (rest : Pre) : Pre :=
  if field t 21 20 = c.s.devId ∨ (Map.find c.b.ans 72).isSome ∨ (Map.find c.b.ans 64).isSome then rest
  else .hold (c.ask 72 (ticketHome t) (.lenQ t)).save

/-- Traps of the destination of `rdmb` at the redeemer's core, for a block of `n` bytes (R93). -/
def Ctx.rdmbTraps (c : Ctx) (va n : Nat) (x : Acc) : List Trap :=
  let at_ := BitVec.ofNat 64 va
  let own := match x with
    | .ok _ y => y.isScratch && c.s.isLocal c.core y
    | _ => false
  (match x with
    | .trap k => allTrap c.act k at_
    | _ => if own then [] else allTrap c.act cProtection at_) ++
  (if va % 16 ≠ 0 ∨ !oneGranule va n then allTrap c.act cAlign at_ else [])

/-- Length of the zeros that the null ticket delivers to an address (log 35). -/
def State.nullLen (s : State) (va : Nat) : Nat := 16 * (Config.nullBlock s.free % (min 256 ((4096 - va % 4096) / 16) + 1))

/-- `rdmb` (R93, R240). -/
def execRdmb (g : BitVec 4) (d a : BitVec 6) (s : State) : Outcome State Fault Refusal :=
  issue s g [.sr d.toNat, .hr a.toNat]
    (fun c =>
      let va := (c.sc d.toNat).toNat
      let t := c.hd a.toNat
      let x := c.s.access c.core c.p.asid va 1 false true
      let k := if c.foreign t true then allTrap c.act cForeign 0 else []
      if x = .page then .hold (c.holdPage va)
      else if x = .wait then .hold (c.holdParked va)
      else if c.walkDue va then .hold c.stall
      else
        match (match x with
          | .ok _ y => c.queuedTeam y
          | _ => none) with
        | some k => .hold (c.joinQueue k)
        | none =>
          if t = 0 then c.acqWait
          else if k ≠ [] then .traps (c.rdmbTraps va 0 x ++ k)
          else
            c.acqWait.then (c.askLen t ((Pre.ofTraps (c.rdmbTraps va (c.lenOf t) x)).then
              (c.askFor [(64, t)] c.claimBody
                (Pre.ofTraps ((c.ansTraps [(64, t)]).flatMap (fun e => allTrap c.act e.cause e.addr)))))))
    (fun c =>
      let va := (c.sc d.toNat).toNat
      let null := decide (c.hd a.toNat = 0)
      let x := c.s.access c.core c.p.asid va 1 false true
      let data := if null then List.replicate (c.s.nullLen va) 0 else (c.claimed 64).1
      let c0 := if null then { c with s := { c.s with free := c.s.free + 1 } } else c
      -- the null ticket never traps: zeros that do not fit the destination are not written (R86)
      if null ∧ c.rdmbTraps va data.length x ≠ [] then .done c0
      else
        match x with
        | .ok _ y =>
          let op := c0.s.keys
          let c1 := c0.lateOp c.act [] false
          .done (c1.effect (.send (Draft.plain (c.s.homeOf y) (.block y data op (c.claimed 64).2))))
        | _ => .done c0)

/-- The posted release of a ticket (R95). -/
def Ctx.trelDraft (c : Ctx) (t : DWord) : EffItem :=
  .send { Draft.plain (ticketHome t) (.trel t c.p.launchId) with posted := true }

/-- `trel` (R95). -/
def execTrel (g : BitVec 4) (a : BitVec 6) (s : State) : Outcome State Fault Refusal :=
  issue s g [.pr a.toNat] (fun c => c.acqWait.then (c.foreignLanes (c.laneTickets a.toNat)))
    (fun c => .done ((c.laneTickets a.toNat).foldl (fun (x : Ctx) e =>
      if e.2 = 0 then x else x.effectOf e.1 (c.trelDraft e.2)) c))

/-- `trelb` (R95). -/
def execTrelb (g : BitVec 4) (a : BitVec 6) (s : State) : Outcome State Fault Refusal :=
  issue s g [.hr a.toNat]
    (fun c => c.acqWait.then (if c.foreign (c.hd a.toNat) true then .traps (allTrap c.act cForeign 0) else .go))
    (fun c => .done (if c.hd a.toNat = 0 then c else c.effect (c.trelDraft (c.hd a.toNat))))

/-- The answer to a test; true for the null ticket (R86). -/
def Ctx.tested (c : Ctx) (l : Nat) (t : DWord) : Bool :=
  if t = 0 then true
  else
    match Map.find c.b.ans l with
    | some (.flag b) => b
    | _ => false

/-- `ttest` (R94). -/
def execTtest (g : BitVec 4) (a : BitVec 6) (s : State) : Outcome State Fault Refusal :=
  issue s g [.pr a.toNat]
    (fun c =>
      let ts := c.laneTickets a.toNat
      (c.foreignLanes ts).then (c.askFor ts c.testBody (Pre.ofTraps (c.ansTraps ts))))
    (fun c => .done ((c.laneTickets a.toNat).foldl (fun (x : Ctx) e => x.push e.1 (c.tested e.1 e.2)) c))

/-- `ttestb` (R94). -/
def execTtestb (g : BitVec 4) (a : BitVec 6) (s : State) : Outcome State Fault Refusal :=
  issue s g [.hr a.toNat]
    (fun c =>
      let t := c.hd a.toNat
      if c.foreign t true then .traps (allTrap c.act cForeign 0)
      else c.askFor [(64, t)] c.testBody
        (Pre.ofTraps ((c.ansTraps [(64, t)]).flatMap (fun e => allTrap c.act e.cause e.addr))))
    (fun c => .done (c.each (fun x l => x.push l (c.tested 64 (c.hd a.toNat)))))

end Sys2Proof.Machine
end

