-- ==== Sys2Proof/Machine/Sync.lean ====
section
/-!
DEFINITION. `fence` (R108, R244), `watch` (R81, R245), `launch`, `gridwait` and `gridq` (R178, R179).
-/

namespace Sys2Proof.Machine

open Host

/-- `fence` (R108): an event among those that the run sends at commit. -/
def execFence (g : BitVec 4) (s : State) : Outcome State Fault Refusal :=
  partywise s g [] (fun c => c.effect (.fence (if c.mods.order = 0 then 3 else c.mods.order) c.mods.scope))

/-! ## Waiting inside a run -/

/-- The bundle waits until a write makes one of the words differ from its lane's value. -/
def Ctx.holdOn (c : Ctx) (w : Why) (ts : List Tgt) (n : Nat) (cmp : Nat → Nat) : State :=
  c.s.setParty c.pid (c.p.setBundle { c.b with
    phase := .held w, run := some c.r, stalled := false,
    watched := ts.filterMap (fun t => t.loc.map (fun x => ⟨x, n, t.lane, cmp t.lane, c.frame⟩)) })

/-! ## `watch` (R81, R245) -/

/-- Bytes of the word watched, by the `mod` format. -/
def Ctx.watchBytes (c : Ctx) : Nat := if fmtWidth (c.fmtOr 20) = 64 then 8 else 4

/-- The addresses of the active lanes. -/
def Ctx.watchAddrs (c : Ctx) (a : Nat) : List (Nat × Nat) := c.act.map (fun l => (l, (c.v64 a l).toNat))

/-- The compare value of a lane. -/
def Ctx.watchCmp (c : Ctx) (d l : Nat) : Nat := if c.watchBytes = 8 then (c.v64 d l).toNat else (c.v d l).toNat

/-- The lane's word differs from its compare value: as the write that woke the bundle found, or now. -/
def Ctx.differs (c : Ctx) (t : Tgt) (d : Nat) : Bool :=
  match Map.find c.b.ans 71, Map.find c.b.ans t.lane with
  | some _, some (.flag x) => x
  | _, _ => decide (leNat (c.bytesAt t c.watchBytes) ≠ c.watchCmp d t.lane)

/-- RANGELOCK on the lanes whose word is write-locked when the comparison completes the instruction (R245). -/
def Ctx.watchLocks (c : Ctx) (ts : List Tgt) : Pre := c.lockTraps c.watchBytes false ts

/-- Each comparison reads the words (R101). -/
def Ctx.seenAll (c : Ctx) (ts : List Tgt) (n : Nat) : Ctx := ts.foldl (fun (x : Ctx) t => x.seen t n) c

/-- The comparison at the home (R81): completion, or the wait for a write or the timeout. A word that is executed again
keeps the time that bounds it under number 64. -/
def Ctx.watchAt (c : Ctx) (d b : Nat) (ts : List Tgt) : Pre :=
  let never := c.sc b = BitVec.allOnes 64
  let due : Nat := match Map.find c.b.ans 64 with
    | some (.due x) => x
    | _ => c.s.ns + (c.sc b).toNat
  let done := decide (Map.find c.b.ans 64 = some .expired) || (Map.find c.b.ans 71).isSome || decide (c.sc b = 0)
  if done || ts.any (fun t => c.differs t d) then c.watchLocks ts
  else .hold ((c.seenAll ts c.watchBytes).holdOn (.watch (if never then none else some due)) ts c.watchBytes (c.watchCmp d))

/-- `watch` (R81, R245). -/
def execWatch (g : BitVec 4) (d a : BitVec 6) (_o : BitVec 1) (b : BitVec 5) (s : State) : Outcome State Fault Refusal :=
  issueBy s g
    (fun c => [if fmtWidth (c.fmtOr 20) = 64 then .pr d.toNat else .vr d.toNat, .pr a.toNat, .sr b.toNat])
    (fun c => (c.needFmt (isIntFmt (c.fmtOr 20))).then (c.readWait.then (
      (c.checkMem c.watchBytes true false (c.watchAddrs a.toNat)).bind (fun ts =>
        (c.departFor ts).then ((c.orderWait ts).then (c.notBehind ts (c.watchAt d.toNat b.toNat ts)))))))
    (fun c =>
      let ts := (c.check c.watchBytes true false (c.watchAddrs a.toNat)).tgts
      let c1 := ts.foldl (fun (x : Ctx) t => (x.seen t c.watchBytes).push t.lane (c.differs t d.toNat)) c.useLive
      .done { c1 with b := { c1.b with watched := [] } })

/-- A write to a watched word is about to be applied: it belongs to the present clk (R81). -/
def State.writeDue (s : State) (b : Bundle) : Bool :=
  s.net.any (fun m => s.deliverable m && (match m.body.target with
    | some (x, n, true) => b.watches x.dev x.pa n
    | _ => false))

/-- WATCH_TIMEOUT: the timeout of a `watch` has come: in the first clk of its core at or after that time, behind the writes of
the same clk, its words are compared once more and it completes (R81). -/
def execWatchTimeout (pid bid : Nat) (s : State) : Outcome State Fault Refusal :=
  match s.party? pid with
  | none => .next s
  | some p =>
    match p.bundle? bid with
    | none => .next s
    | some b =>
      match b.phase with
      | .held (.watch (some t)) =>
        if s.clkPast p.core t || (s.clkCome p.core t && !s.writeDue b) then
          .next (s.setParty pid (p.setBundle { b with phase := .running, ans := Map.insert b.ans 64 .expired })).recheck
        else .next s
      | _ => .next s

/-! ## `launch` (R178) -/

/-- The launch record, in every active lane. -/
def Ctx.recordChk (c : Ctx) (a : Nat) : Chk := c.check 256 true false (c.act.map (fun l => (l, (c.sc a).toNat)))

/-- `launch` (R178): a package-scope release, sent at commit. -/
def execLaunch (g : BitVec 4) (a : BitVec 6) (s : State) : Outcome State Fault Refusal :=
  issue s g [.sr a.toNat]
    (fun c =>
      if c.p.partyId ≠ 0 then .traps (allTrap c.act cPriv 0)
      else c.acqWait.then ((c.recordChk a.toNat).bind (fun _ => .go)))
    (fun c => .done (c.effect (.send { Draft.plain (.core c.s.devId (32 * (c.core / 32)))
        (.launch (c.sc a.toNat) c.pid c.p.teamId.toNat c.p.gridId c.p.seed.isSome c.p.asid c.p.depth.toNat
          c.p.priority.toNat) with release := some 3 })))

/-! ## Completion words (R179) -/

/-- The completion word, in every active lane. -/
def Ctx.wordChk (c : Ctx) (a : Nat) : Chk := c.check 8 true false (c.act.map (fun l => (l, (c.sc a).toNat)))

/-- The scalar destination of a word. -/
def scalarDest (d : Nat) : Dest := if d = 31 then .drop else .s d

/-- A word of a host window or another module that read 0 is read again. -/
def Ctx.again (c : Ctx) : State := c.s.setParty c.pid (c.p.setBundle { c.b with ans := Map.erase c.b.ans 64 })

/-- `gridwait` (R179): the bundle waits until the word is nonzero. -/
def execGridwait (g : BitVec 4) (d a : BitVec 6) (s : State) : Outcome State Fault Refusal :=
  issue s g [.sw d.toNat, .sr a.toNat]
    (fun c => c.readWait.then ((c.wordChk a.toNat).bind (fun ts =>
      match ts with
      | [] => .go
      | t :: _ =>
        if (Map.find c.b.ans 70).isSome then .go
        else c.notBehind ts (c.readSync false t 8 (fun b poison =>
          if leNat b ≠ 0 ∨ poison then .go
          else if (Map.find c.b.ans 64).isSome then .hold c.again
          else .hold ((c.seenAll ts 8).holdOn .grid ts 8 (fun _ => 0)))))))
    (fun c =>
      match (c.wordChk a.toNat).tgts with
      | [] => .done c
      | t :: _ =>
        let x := match Map.find c.b.ans 70 with
          | some (.val x) => x.toNat
          | _ => leNat (c.syncBytes false t 8)
        let c1 := (c.seen t 8).memOp c.act [scalarDest d.toNat] [x] (c.tgtPoisoned t 8) true |>.noteAddr c.s.keys t.va t.loc
        .done { c1 with b := { c1.b with watched := [] } })

/-- `gridq` (R179): one read; behind an event of its own run it is a held read (R104). -/
def execGridq (g : BitVec 4) (d a : BitVec 6) (s : State) : Outcome State Fault Refusal :=
  issue s g [.sw d.toNat, .sr a.toNat]
    (fun c => c.readWait.then ((c.wordChk a.toNat).bind (fun ts =>
      match ts with
      | [] => .go
      | t :: _ =>
        match t.loc with
        | some x =>
          if c.act.any (fun l => c.isHeld l (c.s.homeOf x)) then .go
          else c.readSync false t 8 (fun _ _ => .go)
        | none => .go)))
    (fun c =>
      match (c.wordChk a.toNat).tgts with
      | [] => .done c
      | t :: _ =>
        let held := match t.loc with
          | some x => c.act.any (fun l => c.isHeld l (c.s.homeOf x))
          | none => false
        if held then
          .done (match t.loc with
            | some x =>
              let op := c.s.keys
              let c1 := c.lateOp c.act (scalarDest d.toNat :: c.act.map (fun l => .push l)) false
              c1.effect (.send (Draft.plain (c.s.homeOf x) (.heldRead x 8 17 0 op)))
            | none => c)
        else
          let x := leNat (c.syncBytes false t 8)
          let c1 := (c.seen t 8).memOp c.act [scalarDest d.toNat] [x] (c.tgtPoisoned t 8) false |>.noteAddr c.s.keys t.va t.loc
          .done (c1.each (fun y l => y.push l (decide (x ≠ 0)))))

end Sys2Proof.Machine
end

