-- ==== Sys2Proof/Machine/TicketEvents.lean ====
section
/-!
DEFINITION. Events of tickets at their homes and of claims and answers at the cores that made them (R88 to R97).
-/

namespace Sys2Proof.Machine

open Host

/-! ## Service (R88, R89, R239) -/

/-- The data that a lane or block entry holds of the bytes read (R87). -/
def entryData (f : Fetch) (b : List Byte) : List Byte :=
  if !f.block && decide (f.wcode ≤ 3) then leBytes 4 ((loadVals f.wcode b).headD 0) else b

/-- Length that an entry holds (R87). -/
def Fetch.held (f : Fetch) : Nat := if f.block then f.len else max 4 f.len

/-- The core at which a message is applied; that of its sender for a host port. -/
def Msg.core (m : Msg) : Nat :=
  match m.dst with
  | .core _ c => c
  | .port _ => m.src

/-- Send a ticket value back to the core that issued the request (R89). -/
def State.returnTicket (s : State) (m : Msg) (f : Fetch) (key : Nat) : State :=
  s.postLike m m.core (.core m.srcDev m.src) (.ticketValue f.op m.party (s.ticketOf key))

/-- A request at a host port has its entry: the read is to come, at its place in the FIFO (R239). -/
def MsgBody.allotted (key : Nat) : MsgBody → MsgBody
  | .fetch f => .fetch { f with op := key }
  | .att f op dbl x y => .att { f with op := key } op dbl x y
  | b => b

/-- Serve a request at a slice: allocate its entry, make its step and return the ticket. -/
def State.serve (s : State) (m : Msg) (f : Fetch) (slice : Nat) (frame : DWord)
    (step : State → List Byte × State) : State :=
  match s.allocTicket m slice f f.held [] false none frame with
  | none => s
  | some (i, s1) =>
    let key := slice * 4096 + i
    let r := step s1
    let s2 := r.2.setTicket key { r.2.ticket key with data := r.1, poison := s.poisoned f.loc.pa f.len }
    (s2.returnTicket m f key).dropMsg m.id

/-- The slice that holds the tickets of a core's requests to host windows: its own (R239), or the lowest present slice of its
stack where that is absent (R349, R354; log 137). -/
def State.portSlice (s : State) (core : Nat) : Nat :=
  if (s.stk (core / 32)).absent.getLsbD (core % 32) then 32 * (core / 32) + (s.present (core / 32)).headD 0 else core

/-- Serve a request to a host window: its entry stands at the slice of the issuing core (R239). -/
def State.servePort (s : State) (m : Msg) (f : Fetch) (frame : DWord) : State :=
  let slice := s.portSlice m.src
  match s.allocTicket m slice f f.held [] false (some f.loc) frame with
  | none => s
  | some (i, s1) =>
    let key := slice * 4096 + i
    let s2 := s1.returnTicket m f key
    let mark (x : Msg) : Msg := { x with sent := true, body := x.body.allotted key }
    { s2 with net := mapWhere (fun (x : Msg) => decide (x.id = m.id)) mark s2.net }

/-- TICKET_SERVICE: a request at the front of its FIFO is served when no lock holds it and an entry is free (R88, R89). -/
def execTicketService (msg : Nat) (s : State) : Outcome State Fault Refusal :=
  match s.arriving msg with
  | none => .next s
  | some m =>
    if m.sent || s.msgLocked m then .next s
    else
      match m.body with
      | .fetch f =>
        (match m.dst with
          | .port _ => .next (s.servePort m f f.frame)
          | .core _ _ => .next (s.serve m f (s.tableSlice f.loc) f.frame (fun s =>
              let r := s.load m.who f.loc.pa f.len
              (entryData f (s.bound f.frame f.loc.pa r.1), r.2))))
      | .att f op dbl x y =>
        (match m.dst with
          | .port _ => .next (s.servePort m f 0)
          | .core _ _ => .next (s.serve m f (s.tableSlice f.loc) 0 (fun s =>
              let r := s.applyAtomic m.who f.loc op dbl x y
              (leBytes f.len r.1, r.2))))
      | _ => .next s

/-- A fetch has its data: the entry is READY, and a claim that waits for it is answered; an orphaned one is FREE (R90,
R91). -/
def State.fetchDone (s : State) (key : Nat) (data : List Byte) : State :=
  let e := s.ticket key
  if e.st = .orphaned then s.setTicket key { e with st := .free, src := none, len := 0, block := false, data := [] }
  else
    let s1 := s.setTicket key { e with st := if e.st = .pending then .ready else e.st, src := none, data := data }
    match e.claim with
    | none => s1
    | some who =>
      match s1.claimMsg who with
      | none => s1
      | some m => s1.answerClaim m who (s1.ticketOf key) (some data) 0 e.poison

/-- TICKET_FETCH_COMPLETE: the read of a host window is made at the port, in its place in the FIFO (R90, R239). The bytes
that the host holds there come with the event (log 18). -/
def execTicketFetchComplete (slice entry : Nat) (data : List Byte) (s : State) : Outcome State Fault Refusal :=
  let key := slice * 4096 + entry
  match s.net.find? (fun m => m.sent && (match m.body with
      | .fetch f => decide (f.op = key)
      | .att f _ _ _ _ => decide (f.op = key)
      | _ => false)) with
  | none => .next s
  | some m =>
    if !s.deliverable m then .next s
    else
      match m.body with
      | .fetch f =>
        let s1 := { s with mem := memPuts s.mem f.loc.pa (data.take f.len) }
        let r := s1.load m.who f.loc.pa f.len
        .next ((r.2.dropMsg m.id).fetchDone key (entryData f r.1))
      | .att f op dbl x y =>
        let s1 := { s with mem := memPuts s.mem f.loc.pa (data.take f.len) }
        let r := s1.applyAtomic m.who f.loc op dbl x y
        .next ((r.2.dropMsg m.id).fetchDone key (leBytes f.len r.1))
      | _ => .next s

/-! ## Ticket values at the issuing core (R88, R28) -/

/-- The values that a 64-bit result gives an operation's destinations. -/
def PendOp.valsOf (o : PendOp) (x : DWord) : List Nat :=
  match o.dests with
  | .v _ _ :: _ => wordsOf 2 x.toNat
  | .drop :: _ => wordsOf 2 x.toNat
  | _ => List.replicate 64 x.toNat

/-- Add an effect to the run that a bundle has in progress. -/
def State.addEff (s : State) (pid bid : Nat) (lanes : DWord) (i : EffItem) : State :=
  match s.party? pid with
  | none => s
  | some p => s.setParty pid { p with bundles := p.bundles.map (fun b =>
      if b.id = bid then
        (match b.run with
          | some r => { b with run := some { r with eff := r.eff ++ [⟨lanes, i⟩] } }
          | none => b)
      else b) }

/-- A ticket of another module that a team is given in an interval (R338; log 130). -/
def State.noteGiven (s : State) (team : Nat) (t : DWord) : State :=
  if ticketGen t = 0 ∨ s.devOf (ticketHome t) = s.devId then s
  else { s with teams := s.teams.map (fun e => if e.1 + 1 = team then
      (e.1, { e.2 with interval := e.2.interval.map (fun (iv : Interval) => { iv with given := iv.given ++ [t] }) }) else e) }

/-- TICKET_VALUE_RETURN: a ticket value reaches its register; one whose run was abandoned is released (R88, R28), and one whose
party has ended is unreferenced (R98). -/
def execTicketValueReturn (msg : Nat) (s : State) : Outcome State Fault Refusal :=
  match s.arriving msg with
  | none => .next s
  | some m =>
    match m.body with
    | .ticketValue op _ t =>
      let s1 := s.dropMsg msg
      match s1.parties.findSome? (fun e => (e.2.pend.find? (fun o => decide (o.id = op))).map (fun o => (e.1, o))) with
      | some (pid, o) =>
        let s2 := (s1.noteGiven m.team t).opValue op (o.valsOf t) false
        .next (if !o.late && !o.committed && decide (ticketGen t ≠ 0) then s2.addEff pid o.bundle o.lanes (.fetched t) else s2)
      | none =>
        match s1.dropped.find? (fun e => decide (e.1 = op)) with
        | some e =>
          let s2 := { s1 with dropped := s1.dropped.filter (fun x => decide (x ≠ e)) }
          .next (if ticketGen t = 0 then s2 else s2.postPart m.core (ticketHome t) (.trel t e.2))
        | none => .next s1
    | _ => .next s

/-! ## Claims and releases at the home (R91, R94, R95) -/

/-- A message that stands at the front of its FIFO, or waits at its home already. -/
def State.atHome (s : State) (id : Nat) : Option Msg :=
  match s.msg? id with
  | none => none
  | some m => if m.applied then some m else s.arriving id

/-- Keep a message at its home until the claim on an entry resolves. -/
def State.keepWaiting (s : State) (m : Msg) : State := if m.applied then s else s.waitAtHome m.id

/-- CLAIM_AT_HOME: a claim or a test is applied at the entry (R91, R94, R96). -/
def execClaimAtHome (msg : Nat) (s : State) : Outcome State Fault Refusal :=
  match s.atHome msg with
  | none => .next s
  | some m =>
    match m.body with
    | .claim t who launch asid frame =>
      let s := s.lapse (ticketKey t)
      let e := s.ticket (ticketKey t)
      if e.claim = some who then .next s
      else if e.claim.isSome || !(s.nextFor m (ticketKey t)) then .next (s.keepWaiting m)
      else .next (s.claimAt m t who launch asid frame)
    | .test t who launch asid frame =>
      let s := s.lapse (ticketKey t)
      let e := s.ticket (ticketKey t)
      (match e.claimTrap t launch asid frame with
        | some k => .next (s.answerClaim m who t none k false)
        | none => .next (s.answerClaim m who t (some [if e.st = .ready ∧ e.claim.isNone then 1 else 0]) 258 false))
    | _ => .next s

/-- Data of a ticket that a team issued in its interval is handed out to a party outside it: the interval is published
(R337). -/
def State.handOut (s : State) (e : Ticket) (m : Msg) : State :=
  match (if e.team = 0 ∨ m.team = e.team then none else Map.find s.teams (e.team - 1)).bind (fun t => t.interval) with
  | some iv => if iv.since ≤ e.since then s.publish e.team else s
  | none => s

/-- CLAIM_CONFIRM: the generation ends as REDEEMED (R90). -/
def execClaimConfirm (msg : Nat) (s : State) : Outcome State Fault Refusal :=
  match s.arriving msg with
  | none => .next s
  | some m =>
    match m.body with
    | .confirm t who =>
      let key := ticketKey t
      let e := s.ticket key
      let s1 := s.dropMsg msg
      .next (if e.claim = some who ∧ e.gen = ticketGen t then (s1.handOut e m).setTicket key (e.finish .redeemed) else s1)
    | _ => .next s

/-- CLAIM_CANCEL: the entry returns to its unclaimed state with the time that remained (R91, R97). -/
def execClaimCancel (msg : Nat) (s : State) : Outcome State Fault Refusal :=
  match s.arriving msg with
  | none => .next s
  | some m =>
    match m.body with
    | .cancel t who =>
      let key := ticketKey t
      let e := s.ticket key
      let s1 := s.dropMsg msg
      let s2 := match s1.claimMsg who with
        | some x => s1.dropMsg x.id
        | none => s1
      .next (if e.claim = some who ∧ e.gen = ticketGen t then
          s2.setTicket key { e with claim := none, deadline := s.ns + e.remain, remain := 0 } else s2)
    | _ => .next s

/-- TREL_AT_HOME: a release acts on an unclaimed entry of its generation and launch (R95). -/
def execTrelAtHome (msg : Nat) (s : State) : Outcome State Fault Refusal :=
  match s.atHome msg with
  | none => .next s
  | some m =>
    match m.body with
    | .trel t launch =>
      let key := ticketKey t
      let s := s.lapse key
      let e := s.ticket key
      if e.gen ≠ ticketGen t ∨ e.launch ≠ launch ∨ (e.st ≠ .pending ∧ e.st ≠ .ready) then .next (s.dropMsg msg)
      else if e.claim.isSome || !(s.nextFor m key) then .next (s.keepWaiting m)
      else .next ((s.dropMsg msg).setTicket key (e.finish .released))
    | _ => .next s

/-- A claim or a release of an entry stands at the front of its FIFO, to be applied in the present clk. -/
def State.claimsDue (s : State) (key : Nat) : Bool :=
  s.net.any (fun m => s.deliverable m && !s.isFar m.dst && (match m.body with
    | .claim t _ _ _ _ => decide (ticketKey t = key)
    | .trel t _ => decide (ticketKey t = key)
    | _ => false))

/-- TICKET_DEADLINE: the deadline of an unclaimed entry takes effect in its clk, after the claims and releases of that clk
(R96, R97). -/
def execTicketDeadline (slice entry : Nat) (s : State) : Outcome State Fault Refusal :=
  let key := slice * 4096 + entry
  let e := s.ticket key
  if e.leased && (s.waitingFor key).isEmpty &&
      (s.clkPast slice e.deadline || (s.clkCome slice e.deadline && !s.claimsDue key)) then .next (s.expireTicket key)
  else .next s

/-! ## Answers (R91, R274, R54) -/

/-- The member count of a lineage of another module reaches a rejoin round (R54). -/
def State.setRoundCount (s : State) (core n key count : Nat) : State :=
  let b := BarRef.named s.devId core n
  let s := s.lapseBar b
  let x := s.bar b
  match x.rejoin with
  | none => s
  | some r =>
    if r.key ≠ key then s
    else
      let s1 := (s.setBar b { x with rejoin := some { r with count := count } }).checkRejoin b
      settleBar b (s1.bar b).held.length s1

/-- An accepted claim: its confirmation is sent at commit, its cancellation if the run is abandoned (R91, R274). -/
def State.accepted (s : State) (who : Asker) (a : Answer) (lanes : DWord) (h : Home) (ok no : MsgBody)
    (release : Option Nat) : State :=
  if s.awaits who then
    ((s.answer who a).addEff who.party who.bundle lanes (.send { Draft.plain h ok with release := release }))
  else s.postPart who.core h no

/-- The home of the frame table that a frame ID names (R272, R273; log 9). -/
def frameHome (f : DWord) : Home := .core (field f 12 20) 0

/-- The bytes of a read answer the bundle or the part's agent that asked for them. -/
def State.answerRead (s : State) (who : Asker) (b : List Byte) (poison : Bool) : State :=
  if who.lane = 67 then
    { s with reads := mapWhere (fun r => decide (r.req = who.req)) (fun (r : FarAcc) => { r with ans := some (b, poison) }) s.reads }
  else (s.answer who (.data b poison)).recheck

/-- The operation whose claim an answer is for (R91). -/
def State.claimOp? (s : State) (who : Asker) : Option (Nat × PendOp) :=
  s.parties.findSome? (fun e => (e.2.pend.find? (fun o => match o.role with
    | .claim _ w => decide (w = who)
    | .frame w => decide (w = who)
    | _ => false)).map (fun o => (e.1, o)))

/-- The register values that a claim's data gives: the rest is 0 where the entry holds less (R92). -/
def PendOp.claimVals (o : PendOp) (b : List Byte) : List Nat :=
  wordsOf o.dests.length (leNat (b.take (4 * o.dests.length)))

/-- A claim was answered with a trap (R91). -/
def State.opTrap (s : State) (op k : Nat) : State :=
  { s with parties := s.parties.map (fun e => (e.1, { e.2 with
      pend := e.2.pend.map (fun o => if o.id = op then { o with trap := some (k, 0) } else o),
      bundles := e.2.bundles.map (fun b =>
        if e.2.pend.any (fun o => decide (o.id = op) && decide (o.bundle = b.id)) then { b with stalled := false } else b) })) }

/-- CLAIM_ANSWER: an answer reaches the core that asked. Codes below 256 are traps (R41), 0 an accepted claim with its
data. -/
def execClaimAnswer (msg : Nat) (s : State) : Outcome State Fault Refusal :=
  match s.arriving msg with
  | none => .next s
  | some m =>
    match m.body with
    | .claimAns who t ans code poison =>
      let s1 := s.dropMsg msg
      match s1.claimOp? who, code, ans with
      | some (pid, o), 0, some b =>
        .next ((s1.opValue o.id (o.claimVals b) poison).addEff pid o.bundle o.lanes
          (.send (Draft.plain (ticketHome t) (.confirm t who)))).recheck
      | some (pid, o), 261, some b =>
        let kind := (b.headD 0).toNat
        let arg := BitVec.ofNat 64 (leNat (b.drop 1))
        .next ((s1.opValue o.id (if kind = 0 then [t.toNat] else []) false).addEff pid o.bundle o.lanes
          (.send { Draft.plain (frameHome t) (.frameConfirm kind t arg who) with release := if kind = 1 then some 3 else none })).recheck
      | some (_, o), k, _ => .next (s1.opTrap o.id k).recheck
      | none, 0, some b => .next (s1.accepted who (.data b poison) m.lanes (ticketHome t) (.confirm t who) (.cancel t who) none).recheck
      | none, 256, _ => .next (s1.releaseBundle m.core who .go)
      | none, 257, _ => .next (s1.releaseBundle m.core who .expired)
      | none, 258, some b => .next (s1.answer who (.flag (decide (b.headD 0 ≠ 0)))).recheck
      | none, 259, some b => .next (s1.answerRead who b poison)
      | none, 263, _ => .next (s1.withdrawn who).recheck
      | none, 260, _ =>
        if who.lane = 65 then .next (s1.setRoundCount who.core who.bundle (leNat (ans.getD [])) t.toNat)
        else .next (s1.answer who (.val t)).recheck
      | none, 265, some b =>
        -- the slot of a lineage: given back where the trap no longer waits for it (R42)
        .next (if s1.awaits who then s1.answer who .go
          else s1.postPart who.core (.core m.srcDev m.src) (.slotHold (leNat b) (-1)))
      | none, 264, some b =>
        -- a place in a queue of a sequencer: given back where the bundle no longer asks for it (R17, R259)
        let slot := leNat (b.drop 16)
        .next (if s1.awaits who then (s1.answer who (.val (if slot < 64 then 1 else 0))).recheck
          else if slot < 64 then s1.postPart who.core (.core m.srcDev m.src) (.tileDrop (leNat (b.take 16)) slot)
          else s1)
      | none, 261, _ => .next (s1.postPart who.core (frameHome t) (.frameCancel t who))
      | none, k, b =>
        let x : Answer := .trap k (BitVec.ofNat 64 (leNat (b.getD [])))
        .next ((s1.answer who x).releaseBundle m.core who x).recheck
    | _ => .next s

end Sys2Proof.Machine
end

