-- ==== Sys2Proof/Machine/Engine.lean ====
section
/-!
DEFINITION. Copy engines: issue of `cpy`, `cpys`, `cpyg` and `cpyr`, `wait`, `test` and `cancel` (R246 to R254), the
range locks that an issue registers (R82), and the events of the engines.
-/

namespace Sys2Proof.Machine

open Host

/-! ## Ranges and their pages (R248, R82) -/

/-- Parts of a range of bytes, each inside one granule of 64 B, the unit of poison (R335). -/
def grainsOf (va n : Nat) : List (Nat × Nat) := piecesBy 64 (n / 64 + 2) va n

/-- What the issuing core finds at the pages of a range. -/
inductive Walk where
  | ok (l : List Leaf)
  | trap (cause va : Nat)
  | page (va : Nat)
  | bare (va : Nat)            -- a window-stack page without a frame
  | wait
deriving DecidableEq, Repr

/-- An address lies on a second-tier page. -/
def State.inTier (s : State) (core : Nat) (asid : BitVec 16) (va : Nat) : Bool :=
  match s.xlate (some core) asid va with
  | .tier _ _ _ => true
  | _ => false

/-- The bundle waits for a second-tier page; in host-assisted paging the driver is told (R68, R320). -/
def Ctx.holdTier (c : Ctx) (va : Nat) : State :=
  if c.s.regs.funcMode.getLsbD 0 then (c.holdPage va).tierFault c.p.asid va c.core else c.holdPage va

/-- Translate the pages of a range in ascending order, up to the first fault (R248). -/
def State.walkRange (s : State) (core : Nat) (asid : BitVec 16) (rd wr : Bool) : Nat → Nat → Nat → List Leaf → Walk
  | 0, _, _, ls => .ok ls
  | k + 1, va, hi, ls =>
    if hi < va then .ok ls
    else
      match s.access core asid va 1 rd wr with
      | .trap c => if s.inTier core asid va then .page va else .trap c va
      | .page => .page va
      | .wait => .wait
      | .none l => if wr then .bare va else s.walkRange core asid rd wr k (l.base + 2 ^ l.bits) hi (ls ++ [l])
      | .ok l _ => s.walkRange core asid rd wr k (l.base + 2 ^ l.bits) hi (ls ++ [l])

/-- Pages of a range, of at least 64 KiB each. -/
def pageFuel (lo hi : Nat) : Nat := (hi - lo) / 65536 + 2

/-- The pages of an interval that translate; a bounding interval may hold others (R82). -/
def State.leavesIn (s : State) (core : Nat) (asid : BitVec 16) : Nat → Nat → Nat → List Leaf
  | 0, _, _ => []
  | k + 1, va, hi =>
    if hi < va then []
    else
      match s.xlate (some core) asid va with
      | .ok l => l :: s.leavesIn core asid k (l.base + 2 ^ l.bits) hi
      | _ => s.leavesIn core asid k (va / 65536 * 65536 + 65536) hi

/-- The first fault of a list of ranges by address, or every page (R248). -/
def State.walkAll (s : State) (core : Nat) (asid : BitVec 16) (rd wr : Bool) (rs : List (Nat × Nat)) : List Walk :=
  rs.map (fun r => s.walkRange core asid rd wr (pageFuel r.1 (r.1 + r.2 - 1)) r.1 (r.1 + r.2 - 1) [])

/-- The outcome of the translations of an operation: the pages, or why the word does not go ahead. A walk comes after the
party's own stores to the entries it reads (R104, R110). -/
def Ctx.ranges (c : Ctx) (src dst : List (Nat × Nat)) (rmw : Bool) (f : List Leaf → Pre) : Pre :=
  let ws := c.s.walkAll c.core c.p.asid true false src ++ c.s.walkAll c.core c.p.asid rmw true dst
  match ws.findSome? (fun w => match w with
      | .page va => some va
      | _ => none) with
  | some va => .hold (c.holdTier va)
  | none =>
    if ws.contains .wait then .hold c.stall
    else if ws.any (fun w => match w with
        | .ok ls => ls.any (fun l => c.walkDue l.base)
        | .trap _ va => c.walkDue va
        | .bare va => c.walkDue va
        | _ => false) then .hold c.stall
    else
      match leastBy (fun (t : Nat × Nat) => t.2) (ws.filterMap (fun w => match w with
          | .trap k va => some (k, va)
          | _ => none)) with
      | some (k, va) => .traps (allTrap c.act k (BitVec.ofNat 64 va))
      | none =>
        match ws.findSome? (fun w => match w with
            | .bare va => some va
            | _ => none) with
        | some va =>
          (match (c.s.wstackTeam c.p.asid va).bind (fun k => c.s.attachFrame k (va / 65536)) with
            | some s => .hold s
            | none => .traps (allTrap c.act cNotPresent (BitVec.ofNat 64 va)))
        | none => f (ws.flatMap (fun w => match w with
            | .ok l => l
            | _ => [])).eraseDups

/-- Stacks at which bytes of an interval on a page are homed. -/
def State.stacksOn (s : State) (l : Leaf) (lo hi : Nat) : List Nat :=
  ((stacksOf l s.devId lo hi).filter (fun e => decide (e.1 = s.devId))).map (fun e => e.2)

/-- Entries of a stack's range-lock table in use (R82): ranges, each of an operation. -/
def State.lockUsed (s : State) (k : Nat) : Nat :=
  ((s.locks.filter (fun x => (s.stacksOn x.leaf x.lo x.hi).contains k)).map (fun x => (x.dev, x.owner, x.wr, x.lo, x.hi))).eraseDups.length

/-- Some page of an interval does not translate. -/
def State.gapIn (s : State) (core : Nat) (asid : BitVec 16) : Nat → Nat → Nat → Bool
  | 0, _, _ => false
  | k + 1, va, hi =>
    if hi < va then false
    else
      match s.xlate (some core) asid va with
      | .ok l => s.gapIn core asid k (l.base + 2 ^ l.bits) hi
      | _ => true

/-- The locks of one range: one record for each page on which it lies, and one for the pages of a bounding interval that
do not translate yet; host windows hold none (R82, R250). -/
def State.rangeLocks (s : State) (core : Nat) (asid : BitVec 16) (owner : Nat) (wr : Bool) (lo hi : Nat) : List Lock :=
  let gap : Leaf := { asid := asid, base := 0, bits := 48, span := 0, r := false, w := false, x := false, fmt := 0, fent := 0, target := .none }
  ((s.leavesIn core asid (pageFuel lo hi) lo hi).filter (fun l => match l.target with
    | .dram _ _ _ _ => true
    | .scratch _ _ => true
    | _ => false)).map (fun l => ⟨s.devId, owner, wr, l, lo, hi⟩) ++
  (if s.gapIn core asid (pageFuel lo hi) lo hi then [⟨s.devId, owner, wr, gap, lo, hi⟩] else [])

/-- A set of new locks finds room in every table (R82). -/
def State.lockRoom (s : State) (ls : List Lock) : Bool :=
  let ranges := (ls.map (fun x => (x.owner, x.wr, x.lo, x.hi))).eraseDups
  (List.range 16).all (fun k =>
    let n := (ranges.filter (fun r => ls.any (fun x => decide ((x.owner, x.wr, x.lo, x.hi) = r) &&
      (s.stacksOn x.leaf x.lo x.hi).contains k))).length
    decide (n = 0) || decide (s.lockUsed k + n ≤ 1024))

/-- The physical runs of an interval on a page (R65). -/
def State.piecesOn (s : State) (l : Leaf) (lo hi : Nat) : List (Loc × Nat) :=
  let a := max lo l.base
  let b := min hi (l.base + 2 ^ l.bits - 1)
  let u := if l.span = 0 then 2 ^ l.bits else if l.span = 1 then 4096 else 65536
  if b < a then []
  else (List.range (b / u - a / u + 1)).filterMap (fun i =>
    let x := max a ((a / u + i) * u)
    (s.locOn l x).map (fun y => (y, min b ((a / u + i) * u + u - 1) + 1 - x)))

/-- The physical runs that a lock covers. -/
def State.lockRuns (s : State) (k : Lock) : List (Loc × Nat) :=
  if k.leaf.target = .none then
    s.pages.flatMap (fun e => match e.2 with
      | .ok l => if l.asid = k.leaf.asid then s.piecesOn l k.lo k.hi else []
      | _ => [])
  else s.piecesOn k.leaf k.lo k.hi

/-- Two locks stand in each other's way (R83, R84): one of them is a write lock and their bytes overlap. -/
def State.clash (s : State) (k j : Lock) : Bool :=
  (k.wr || j.wr) && (s.lockRuns k).any (fun a => (s.lockRuns j).any (fun b =>
    decide (a.1.dev = b.1.dev) && decide (a.1.pa < b.1.pa + b.2) && decide (b.1.pa < a.1.pa + a.2)))

/-- A lock of another module's operation is registered here, once each table has room for it and no earlier lock stands in its way
(R82, R84); until then the message waits. -/
def State.lockFor (s : State) (m : Msg) (k : Lock) : State :=
  if s.lockRoom [k] && !s.locks.any (fun j => s.clash j k) then { s.dropMsg m.id with locks := (s.dropMsg m.id).locks ++ [k] } else s

/-! ## Operations as issued (R247, R249) -/

/-- What an operation is to do, with its ranges. -/
structure CopyReq where
  kind    : EngKind
  bf16    : Bool
  dst     : Nat
  src     : Nat
  len     : Nat
  rows    : Nat
  dstStep : Int
  srcStep : Int
  list    : List Nat
deriving DecidableEq, Repr

/-- Address of row `i` from a base with a signed stride. -/
def rowAt (base : Nat) (step : Int) (i : Nat) : Nat := (((base : Int) + step * i) % (2 ^ 64 : Nat)).toNat

/-- Source ranges, row by row. -/
def CopyReq.srcs (q : CopyReq) : List (Nat × Nat) :=
  match q.kind with
  | .cpys => (List.range q.rows).map (fun i => (rowAt q.src q.srcStep i, q.len))
  | .cpyg => q.list.map (fun a => (a, q.len))
  | _ => [(q.src, q.len)]

/-- Destination ranges, row by row. -/
def CopyReq.dsts (q : CopyReq) : List (Nat × Nat) :=
  match q.kind with
  | .cpys => (List.range q.rows).map (fun i => (rowAt q.dst q.dstStep i, q.len))
  | .cpyg => (List.range q.list.length).map (fun i => (q.dst + i * q.len, q.len))
  | _ => [(q.dst, q.len)]

/-- The bounding interval of ranges (R82). -/
def boundsOf (rs : List (Nat × Nat)) : Nat × Nat :=
  (rs.foldl (fun a r => min a r.1) ((rs.headD (0, 1)).1), rs.foldl (fun a r => max a (r.1 + r.2 - 1)) 0)

/-- The stack whose engines serve an operation (R248). -/
def Ctx.engineStack (c : Ctx) (q : CopyReq) : Nat :=
  let at_ (va : Nat) : Option Nat := match c.s.access c.core c.p.asid va 1 false false with
    | .ok _ x => (match regionOf x.pa with
        | .dram sl _ => some (sl / 32)
        | .scratch cl _ => some (cl / 8)
        | .tier k _ => some k
        | .window c' _ _ => some (c' / 32)
        | .host _ _ => none)
    | _ => none
  match at_ q.dst with
  | some k => k
  | none =>
    match at_ ((q.srcs.headD (q.src, 0)).1) with
    | some k => k
    | none => c.core / 32

/-- The engine of a stack with the fewest operations, the lowest of equals, unless each holds 64 (R248). -/
def State.pickEngine (s : State) (k : Nat) : Option Nat :=
  let n (i : Nat) : Nat := (Map.getD s.engines (k * 16 + i) Engine.init).ops.length
  match leastBy n (List.range 16) with
  | some i => if n i < 64 then some (k * 16 + i) else none
  | none => none

/-- A handle (R246). -/
def mkHandle (dev : BitVec 20) (eng seq : Nat) (launch : BitVec 32) : DWord :=
  BitVec.ofNat 64 (eng % 16 + eng / 16 * 16 + dev.toNat * 2 ^ 8 + seq * 2 ^ 32 + launch.toNat % 128 * 2 ^ 56 + 2 ^ 63)

/-- Lengths of `cpy` and `cpyr` (R247). -/
def copyLenOk (n : Nat) : Bool := decide (n % 16 = 0) && decide (16 ≤ n) && decide (n ≤ 2 ^ 40)

/-- The issue steps after the limits are checked: translation, locks, engine, room (R248). -/
def Ctx.engineChecks (c : Ctx) (q : CopyReq) : Pre :=
  c.acqWait.then (c.ranges q.srcs q.dsts (decide (q.kind = .cpyr)) (fun _ =>
    let sb := boundsOf q.srcs
    let db := boundsOf q.dsts
    let ls := c.s.rangeLocks c.core c.p.asid 0 false sb.1 sb.2 ++ c.s.rangeLocks c.core c.p.asid 0 true db.1 db.2
    if !c.s.lockRoom ls || (c.s.pickEngine (c.engineStack q)).isNone then .hold c.stall else .go))

/-- The pages of an operation whose checks have passed. -/
def Ctx.opLeaves (c : Ctx) (q : CopyReq) : List Leaf :=
  ((c.s.walkAll c.core c.p.asid true false q.srcs ++ c.s.walkAll c.core c.p.asid false true q.dsts).flatMap (fun w => match w with
    | .ok l => l
    | _ => [])).eraseDups

/-- Register the locks, take the engine's next SEQ and write the handle; the operation starts after commit (R248). -/
def Ctx.issueCopy (c : Ctx) (d : Nat) (q : CopyReq) : Ctx :=
  match c.s.pickEngine (c.engineStack q) with
  | none => c
  | some eng =>
    let e := Map.getD c.s.engines eng Engine.init
    let op := c.s.keys
    let seq := e.next
    let sb := boundsOf q.srcs
    let db := boundsOf q.dsts
    let ls := c.s.rangeLocks c.core c.p.asid op false sb.1 sb.2 ++ c.s.rangeLocks c.core c.p.asid op true db.1 db.2
    let x : EngOp := {
      op := op, seq := seq, kind := q.kind, bf16 := q.bf16, dst := q.dst, src := q.src, len := q.len, rows := q.rows,
      dstStep := q.dstStep, srcStep := q.srcStep, list := q.list, leaves := c.opLeaves q, party := c.pid,
      lin := c.p.lineageKey + 1, grid := c.p.gridAt c.s.devId, team := (c.p.who c.s.devId).team, lcheck := c.p.launchId.setWidth 7, committed := false, after := [],
      started := false, limit := none, sent := false }
    let s1 := { c.s.bump with
      locks := c.s.locks ++ ls, engines := Map.insert c.s.engines eng { e with next := (seq + 1) % 2 ^ 24, ops := e.ops ++ [x] } }
    ({ c with s := s1 }.setH d (mkHandle c.s.devId eng seq c.p.launchId)).effect (.engine eng seq)

/-- The linear operation that three scalars give (R247). -/
def Ctx.linear (c : Ctx) (a : Nat) (kind : EngKind) (bf16 : Bool) : CopyReq :=
  { kind := kind, bf16 := bf16, dst := (c.sc a).toNat, src := (c.sc (a + 1)).toNat, len := (c.sc (a + 2)).toNat, rows := 1,
    dstStep := 0, srcStep := 0, list := [] }

/-- ALIGN on every active lane when a limit is broken (R248). -/
def Ctx.limits (c : Ctx) (ok : Bool) : Pre := if ok then .go else .traps (allTrap c.act cAlign 0)

/-- The limits of a linear operation (R247). -/
def CopyReq.linearOk (q : CopyReq) : Bool := copyLenOk q.len && decide (q.dst % 16 = 0) && decide (q.src % 16 = 0)

/-- `cpy` (R247). -/
def execCpy (g : BitVec 4) (d a : BitVec 6) (s : State) : Outcome State Fault Refusal :=
  issue s g [.hw d.toNat, .sr a.toNat, .need (decide (a.toNat ≤ 28)), .sr (a.toNat + 1), .sr (a.toNat + 2)]
    (fun c => (c.limits (c.linear a.toNat .cpy false).linearOk).then (c.engineChecks (c.linear a.toNat .cpy false)))
    (fun c => .done (c.issueCopy d.toNat (c.linear a.toNat .cpy false)))

/-- `cpyr` (R247, R250): FP32 or BF16. -/
def execCpyr (g : BitVec 4) (d a : BitVec 6) (s : State) : Outcome State Fault Refusal :=
  issue s g [.hw d.toNat, .sr a.toNat, .need (decide (a.toNat ≤ 28)), .sr (a.toNat + 1), .sr (a.toNat + 2)]
    (fun c =>
      let q := c.linear a.toNat .cpyr (decide (c.fmtOr 0 = 2))
      (c.limits q.linearOk).then ((c.needFmt (decide (c.fmtOr 0 = 0) || decide (c.fmtOr 0 = 2))).then (c.engineChecks q)))
    (fun c => .done (c.issueCopy d.toNat (c.linear a.toNat .cpyr (decide (c.fmtOr 0 = 2)))))

/-! ## Parameter blocks (R248, R249) -/

/-- The answer to a piece of a synchronous read. -/
def Ctx.pieceAns (c : Ctx) (i : Nat) : Option (List Byte × Bool) :=
  match Map.find c.b.ans (64 + i) with
  | some (.data b p) => some (b, p)
  | _ => none

/-- A location that is read by a request: a host window, or another module. -/
def Ctx.farLoc (c : Ctx) (x : Loc) : Bool := x.isHost || decide (x.dev ≠ c.s.devId)

/-- The bytes of a piece, with its place in the sequence, when they are at hand. -/
def Ctx.pieceBytes (c : Ctx) (e : (Nat × Nat) × Nat) : Option (List Byte × Bool) :=
  match c.s.access c.core c.p.asid e.1.1 1 true false with
  | .ok _ x =>
    if c.farLoc x then c.pieceAns e.2
    else if c.s.locked x e.1.2 false || c.act.any (fun l => c.unsent l (c.s.homeOf x)) then none
    else some (memBytes c.s.mem x.pa e.1.2, c.s.poisoned x.pa e.1.2)
  | .none _ => some (List.replicate e.1.2 0, false)
  | _ => none

/-- The address and physical number of the first poisoned granule of some pieces. -/
def Ctx.badByte (c : Ctx) (ps : List ((Nat × Nat) × Nat)) : Nat × Nat :=
  (ps.findSome? (fun e => match c.s.access c.core c.p.asid e.1.1 1 true false with
    | .ok _ x => ((List.range e.1.2).find? (fun i => c.s.poisoned (x.pa + i) 1)).map (fun i => (e.1.1 + i, x.pa + i))
    | _ => none)).getD (0, 0)

/-- A piece of a range stands behind an event of the run itself, an acquire or a fence of it (R104, R107, R108). -/
def Ctx.pieceHeld (c : Ctx) (e : (Nat × Nat) × Nat) : Bool :=
  match c.s.access c.core c.p.asid e.1.1 1 true false with
  | .ok _ x => c.act.any (fun l => c.isHeld l (c.s.homeOf x))
  | _ => false

/-- Read a range without migration (R248): its bytes, or what the word waits for or traps with. Behind an event of its own run the
run commits up to the word first (log 38). -/
def Ctx.readRange (c : Ctx) (va n : Nat) (f : List Byte → Pre) : Pre :=
  let ps := (piecesOf (n / 4096 + 2) va n).zipIdx
  c.ranges [(va, n)] [] false (fun _ =>
    let got := ps.map c.pieceBytes
    if ps.any c.pieceHeld then c.commitTo
    else if got.all Option.isSome then
      if got.any (fun x => match x with
          | some y => y.2
          | none => false) then .hold (c.consumeAt c.act (c.badByte ps).2 (c.badByte ps).1)
      else f (got.flatMap (fun x => match x with
          | some y => y.1
          | none => []))
    else
      let ask := ps.filterMap (fun e => match c.s.access c.core c.p.asid e.1.1 1 true false with
        | .ok _ x => if c.farLoc x && (c.pieceAns e.2).isNone then some (e, x) else none
        | _ => none)
      if ask.isEmpty then .hold c.stall
      else .hold (ask.foldl (fun (x : Ctx) e => x.ask (64 + e.1.2) (x.s.homeOf e.2) (fun who => .hostRead e.2 e.1.1.2 who)) c).save)

/-- The bytes that `readRange` read. -/
def Ctx.rangeBytes (c : Ctx) (va n : Nat) : List Byte :=
  (piecesOf (n / 4096 + 2) va n).zipIdx.flatMap (fun e => match c.pieceBytes e with
    | some y => y.1
    | none => [])

/-- What the read of a range leaves at the homes of its bytes (R69, R337, R339). -/
def Ctx.seenRange (c : Ctx) (va n : Nat) : Ctx :=
  (piecesOf (n / 4096 + 2) va n).foldl (fun c e => match c.s.access c.core c.p.asid e.1 1 true false with
    | .ok _ x => if c.farLoc x then c else { c with s := (c.s.load (c.p.who c.s.devId) x.pa e.2).2 }
    | _ => c) c

/-- The operation that a `cpys` parameter block gives, within the limits of R249. -/
def stridedOf (b : List Byte) : Option CopyReq :=
  let x := leNat b
  let q : CopyReq := {
    kind := .cpys, bf16 := false, dst := x % 2 ^ 64, src := x / 2 ^ 64 % 2 ^ 64, len := x / 2 ^ 192 % 2 ^ 16,
    rows := x / 2 ^ 208 % 2 ^ 24, dstStep := signedOf 32 (x / 2 ^ 160 % 2 ^ 32), srcStep := signedOf 32 (x / 2 ^ 128 % 2 ^ 32),
    list := [] }
  if x / 2 ^ 232 ≠ 0 ∨ !blockLenOk q.len ∨ q.rows = 0 ∨ q.dst % 16 ≠ 0 ∨ q.src % 16 ≠ 0 ∨ q.dstStep % 16 ≠ 0 ∨
      q.srcStep % 16 ≠ 0 then none
  else some q

/-- `cpys` (R247, R249). -/
def execCpys (g : BitVec 4) (d a : BitVec 6) (s : State) : Outcome State Fault Refusal :=
  issue s g [.hw d.toNat, .sr a.toNat]
    (fun c =>
      let va := (c.sc a.toNat).toNat
      (c.limits (decide (va % 32 = 0))).then (c.readWait.then (c.readRange va 32 (fun b => match stridedOf b with
        | none => c.limits false
        | some q => c.engineChecks q))))
    (fun c =>
      match stridedOf (c.rangeBytes (c.sc a.toNat).toNat 32) with
      | none => .done c
      | some q => .done ((c.seenRange (c.sc a.toNat).toNat 32).issueCopy d.toNat q))

/-- Addresses in a list of doublewords. -/
def addrsIn (n : Nat) (b : List Byte) : List Nat := (List.range n).map (fun i => leNat ((b.drop (8 * i)).take 8))

/-- The count, row length and reserved bits of `cpyg` (R247). -/
def Ctx.gather (c : Ctx) (a : Nat) : Nat × Nat × Nat × Nat × Nat :=
  let x := (c.sc (a + 2)).toNat
  ((c.sc a).toNat, (c.sc (a + 1)).toNat, x % 2 ^ 32, x / 2 ^ 32 % 2 ^ 16, x / 2 ^ 48)

/-- The gathered operation. -/
def Ctx.gathered (c : Ctx) (a : Nat) (b : List Byte) : CopyReq :=
  let q := c.gather a
  { kind := .cpyg, bf16 := false, dst := q.1, src := 0, len := q.2.2.2.1, rows := q.2.2.1, dstStep := 0, srcStep := 0,
    list := addrsIn q.2.2.1 b }

/-- `cpyg` (R247). -/
def execCpyg (g : BitVec 4) (d a : BitVec 6) (s : State) : Outcome State Fault Refusal :=
  issue s g [.hw d.toNat, .sr a.toNat, .need (decide (a.toNat ≤ 28)), .sr (a.toNat + 1), .sr (a.toNat + 2)]
    (fun c =>
      let q := c.gather a.toNat
      (c.limits (decide (q.1 % 16 = 0) && decide (q.2.1 % 8 = 0) && decide (1 ≤ q.2.2.1) && decide (q.2.2.1 ≤ 65536) &&
          blockLenOk q.2.2.2.1 && decide (q.2.2.2.2 = 0))).then (c.readWait.then (c.readRange q.2.1 (8 * q.2.2.1) (fun b =>
        let r := c.gathered a.toNat b
        (c.limits (r.list.all (fun x => decide (x % 16 = 0)))).then (c.engineChecks r)))))
    (fun c =>
      let q := c.gather a.toNat
      .done ((c.seenRange q.2.1 (8 * q.2.2.1)).issueCopy d.toNat (c.gathered a.toNat (c.rangeBytes q.2.1 (8 * q.2.2.1)))))

/-! ## Handles (R246, R251 to R253, R272, R277) -/

/-- What a handle reads as. -/
inductive HandleRes where
  | done (x : DWord)
  | pending
  | bad                        -- traps HANDLE
  | refused (frame : DWord)    -- a frame dropped by refusal (R277)
deriving DecidableEq, Repr

/-- The checks of a handle that its own bits allow (R253, R272). -/
def handleBits (h : DWord) (launch : BitVec 32) : Bool :=
  let kind := (field h 28 2).toNat
  h.getLsbD 63 && decide (field h 30 2 = 0) && decide (kind ≤ 1) && decide (field h 56 7 = launch.setWidth 7) &&
  namesDevice (field h 8 20) && (decide (kind = 0) || (decide (field h 0 8 = 0) && decide (field h 52 3 = 0)))

/-- The home of what a handle names: the engine's stack, or the frame table. -/
def handleHome (h : DWord) : Home :=
  if field h 28 2 = 1 then .core (field h 8 20) 0 else .core (field h 8 20) (32 * (field h 4 4).toNat)

/-- The frame ID that a completion handle stands for (R272). -/
def frameOfHandle (h : DWord) : DWord :=
  BitVec.ofNat 64 ((field h 32 12).toNat + (field h 8 20).toNat * 2 ^ 12 + (field h 44 8).toNat * 2 ^ 32 +
    (field h 56 7).toNat * 2 ^ 56)

/-- The confirm of a committed `spacc` or `spdrop` of a frame is on its way: its handle is not complete (R277). -/
def State.closingNo (s : State) (no : Nat) : Bool :=
  s.net.any (fun m => !m.applied && (match m.body with
    | .frameConfirm kind id _ _ => decide (kind ≠ 0) && decide ((field id 0 12).toNat = no)
    | _ => false))

/-- A handle as this module reads it (R251, R253, R272). -/
def State.readHandle (s : State) (h : DWord) : HandleRes :=
  if field h 28 2 = 1 then
    let e := Map.getD s.frames (field h 32 12).toNat FrameEnt.init
    let gen := field h 44 8
    if e.st = .closing ∧ gen = e.gen then .pending
    else if e.st = .opened ∧ gen = e.gen ∧ s.closingNo (field h 32 12).toNat then .pending
    else if gen = 0 then .done (BitVec.allOnes 64)
    else if gen = e.lastGen then (if e.lastBad then .refused (frameOfHandle h) else .done e.lastVal)
    else .done (BitVec.allOnes 64)
  else
    let e := Map.getD s.engines ((field h 4 4).toNat * 16 + (field h 0 4).toNat) Engine.init
    let seq := (field h 32 24).toNat
    let δ := (e.next + 2 ^ 24 - seq) % 2 ^ 24
    if δ = 0 ∨ 2 ^ 23 < δ then .bad
    else if 2 ^ 20 < δ then .done (BitVec.allOnes 64)
    else if e.ops.any (fun o => decide (o.seq = seq)) then .pending
    else .done (BitVec.ofNat 64 (Map.getD e.done seq 0))

/-- The outcome of reading a handle: HANDLE on every active lane, or its result; a handle of another module is asked
for, and answered when it is complete if `wait`. -/
def Ctx.onHandle (c : Ctx) (h : DWord) (wait : Bool) (f : HandleRes → Pre) : Pre :=
  if h = 0 then f (.done 0)
  else if !handleBits h c.p.launchId then .traps (allTrap c.act cHandle 0)
  else if field h 8 20 = c.s.devId then
    (match c.s.readHandle h with
      | .bad => .traps (allTrap c.act cHandle 0)
      | r => f r)
  else
    match Map.find c.b.ans 64 with
    | some (.val x) => f (.done x)
    | some (.flag b) => f (if b then .done 0 else .pending)
    | some (.trap k a) => .traps (allTrap c.act k a)
    | _ => .hold (c.ask 64 (handleHome h) (fun who => .handleQ h who c.p.launchId wait)).save

/-- The result of a handle whose checks have passed. -/
def Ctx.handleRes (c : Ctx) (h : DWord) : HandleRes :=
  if h = 0 then .done 0
  else if field h 8 20 = c.s.devId then c.s.readHandle h
  else
    match Map.find c.b.ans 64 with
    | some (.val x) => .done x
    | some (.flag b) => if b then .done 0 else .pending
    | _ => .pending

/-- `wait` (R251). -/
def execWait (g : BitVec 4) (d a : BitVec 6) (s : State) : Outcome State Fault Refusal :=
  issue s g [.sw d.toNat, .hr a.toNat]
    (fun c => c.onHandle (c.hd a.toNat) true (fun r => match r with
      | .refused fr => .traps (allTrap c.act cFrame fr)
      | .pending => .hold (c.s.setParty c.pid (c.p.setBundle { c.b with phase := .held (.handle (c.hd a.toNat)), stalled := false }))
      | _ => .go))
    (fun c => match c.handleRes (c.hd a.toNat) with
      | .done x => .done (c.setS d.toNat x)
      | _ => .done c)

/-- `test` (R251). -/
def execTest (g : BitVec 4) (a : BitVec 6) (s : State) : Outcome State Fault Refusal :=
  issue s g [.hr a.toNat]
    (fun c => c.onHandle (c.hd a.toNat) false (fun _ => .go))
    (fun c => .done (c.each (fun x l => x.push l (decide (c.handleRes (c.hd a.toNat) ≠ .pending)))))

/-- `cancel` (R252): posted to the engine at commit; a handle of KIND 1 traps HANDLE. -/
def execCancel (g : BitVec 4) (a : BitVec 6) (s : State) : Outcome State Fault Refusal :=
  issue s g [.hr a.toNat]
    (fun c =>
      let h := c.hd a.toNat
      if h ≠ 0 ∧ field h 28 2 = 1 then .traps (allTrap c.act cHandle 0)
      else c.acqWait.then (c.onHandle h false (fun _ => .go)))
    (fun c =>
      let h := c.hd a.toNat
      .done (if h = 0 then c
        else c.effect (.send { Draft.plain (handleHome h) (.engCancel h) with posted := true })))

/-! ## The engines at work (R248 to R250) -/

/-- Where an operation finds a byte. -/
def State.engLoc (s : State) (o : EngOp) (va : Nat) : Option Loc :=
  (o.leaves.find? (fun l => decide (l.base ≤ va) && decide (va < l.base + 2 ^ l.bits))).bind (fun l => s.locOn l va)

/-- The agent that an operation acts for. -/
def EngOp.who (o : EngOp) : Who := ⟨o.grid, o.team, false⟩

/-- The operation as it was asked for. -/
def EngOp.req (o : EngOp) : CopyReq :=
  { kind := o.kind, bf16 := o.bf16, dst := o.dst, src := o.src, len := o.len, rows := o.rows, dstStep := o.dstStep,
    srcStep := o.srcStep, list := o.list }

/-- Read a range granule by granule: its bytes, and those that are poisoned. The bytes of another module have come for the
operation before. -/
def State.engRead (s : State) (o : EngOp) (va n : Nat) : List Byte × List Bool × State :=
  (piecesOf (n / 4096 + 2) va n).foldl (fun a p =>
    match a.2.2.engLoc o p.1 with
    | none => (a.1 ++ List.replicate p.2 0, a.2.1 ++ List.replicate p.2 false, a.2.2)
    | some x =>
      if x.dev ≠ s.devId then
        (grainsOf p.1 p.2).foldl (fun a e =>
          let r := (a.2.2.farBytes (.engine o.op) { x with pa := x.pa + (e.1 - p.1) } e.2).getD ([], false)
          (a.1 ++ r.1, a.2.1 ++ List.replicate e.2 r.2, a.2.2)) a
      else
        let r := a.2.2.load o.who x.pa p.2
        (a.1 ++ r.1, a.2.1 ++ (List.range p.2).map (fun i => NatSet.mem a.2.2.poison (granuleOf (x.pa + i))), r.2)) ([], [], s)

/-- Write bytes to a range granule by granule; a granule that receives poisoned bytes becomes poisoned (R335). A part
at another module is sent there with its poison. -/
def State.engWrite (s : State) (o : EngOp) (core va : Nat) (data : List Byte) (bad : List Bool) : State :=
  (piecesOf (data.length / 4096 + 2) va data.length).foldl (fun s p =>
    match s.engLoc o p.1 with
    | none => s
    | some x =>
      let d := (data.drop (p.1 - va)).take p.2
      let k := (bad.drop (p.1 - va)).take p.2
      if x.dev ≠ s.devId then
        (grainsOf p.1 p.2).foldl (fun s e =>
          let i := e.1 - p.1
          let y : Loc := { x with pa := x.pa + i }
          s.postPart core (s.homeOf y) (.spill e.1 (some y) ((d.drop i).take e.2) [] (((k.drop i).take e.2).any (fun b => b)))) (s.publish o.team)
      else
        let s1 := s.store o.who x.pa d
        ((((List.range p.2).filter (fun i => k.getD i false)).map (fun i => granuleOf (x.pa + i))).eraseDups).foldl
          (fun s g => s.setPoison (s.levelOf o.who) g true) s1) s

/-- Sum two elements of `cpyr` (R250). -/
def reduceElem (bf16 : Bool) (a b : List Byte) : List Byte :=
  if bf16 then leBytes 2 (fpAdd 2 .rne false 0 (decodeFp fmtBF16 (leNat a)) (decodeFp fmtBF16 (leNat b))).1
  else leBytes 4 (fpAdd 0 .rne false 0 (decodeFp fmtFP32 (leNat a)) (decodeFp fmtFP32 (leNat b))).1

/-- Sum the elements of two byte strings of equal length. -/
def reduceAll (bf16 : Bool) : Nat → List Byte → List Byte → List Byte
  | 0, _, _ => []
  | k + 1, a, b =>
    let w := if bf16 then 2 else 4
    if a.isEmpty then [] else reduceElem bf16 (a.take w) (b.take w) ++ reduceAll bf16 k (a.drop w) (b.drop w)

/-- One row of an operation: the first `n` bytes of it (R250). -/
def State.engRow (s : State) (o : EngOp) (core src dst n : Nat) : State :=
  let r := s.engRead o src n
  if o.kind = .cpyr then
    let d := r.2.2.engRead o dst n
    d.2.2.engWrite o core dst (reduceAll o.bf16 n d.1 r.1) ((r.2.1.zip d.2.1).map (fun e => e.1 || e.2))
  else r.2.2.engWrite o core dst r.1 r.2.1

/-- The rows of an operation up to a count of bytes, in order (R250, R252). -/
def State.engRows (s : State) (o : EngOp) (core : Nat) : List ((Nat × Nat) × (Nat × Nat)) → Nat → State
  | [], _ => s
  | (a, b) :: l, left =>
    if left = 0 then s else (s.engRow o core a.1 b.1 (min left b.2)).engRows o core l (left - min left b.2)

/-- Bytes that an operation writes in all. -/
def EngOp.total (o : EngOp) : Nat := sumBy (fun r => r.2) o.req.dsts

/-- The bytes of other modules that an operation reads: its source, and for `cpyr` its destination. -/
def State.engFar (s : State) (o : EngOp) : List (Loc × Nat) :=
  ((o.req.srcs ++ (if o.kind = .cpyr then o.req.dsts else [])).flatMap (fun r => piecesOf (r.2 / 4096 + 2) r.1 r.2)).filterMap (fun p =>
    (s.engLoc o p.1).bind (fun x => if x.dev ≠ s.devId then some (x, p) else none)) |>.flatMap (fun e =>
      (grainsOf e.2.1 e.2.2).map (fun g => ({ e.1 with pa := e.1.pa + (g.1 - e.2.1) }, g.2)))

/-- Every byte of another module that an operation reads has come. -/
def State.engNear (s : State) (o : EngOp) : Bool := (s.engFar o).all (fun e => (s.farBytes (.engine o.op) e.1 e.2).isSome)

/-- Bundles that wait for a handle go on. -/
def State.wakeHandle (s : State) (h : DWord → Bool) : State :=
  State.recheck { s with parties := s.parties.map (fun e => (e.1, { e.2 with bundles := e.2.bundles.map (fun b => match b.phase with
    | .held (.handle x) => if h x then { b with phase := .running, stalled := false } else b
    | _ => b) })) }

/-- A handle names an engine operation of this module. -/
def handleIs (dev : BitVec 20) (eng seq : Nat) (h : DWord) : Bool :=
  decide (h ≠ 0) && decide (field h 28 2 = 0) && decide (field h 8 20 = dev) &&
  decide ((field h 4 4).toNat * 16 + (field h 0 4).toNat = eng) && decide ((field h 32 24).toNat = seq)

/-- Answer the queries of other modules that wait for a handle which now reads as complete. -/
def State.answerHandles (s : State) : State :=
  s.net.foldl (fun s m =>
    match m.body with
    | .handleQ h who _ true =>
      if !m.applied then s
      else
        (match s.readHandle h with
          | .pending => s
          | .done x => s.answerClaim m who x none 260 false
          | .bad => s.answerClaim m who 0 none cHandle false
          | .refused fr => s.answerClaim m who 0 (some (leBytes 8 fr.toNat)) cFrame false)
    | _ => s) s

/-- The operation at the front of an engine ends with a count (R250, R251). -/
def State.engDone (s : State) (eng seq count : Nat) : State :=
  let s1 := s.withdrawEngine eng seq
  let e := Map.getD s1.engines eng Engine.init
  let s2 := { s1 with engines := Map.insert s1.engines eng { e with done := Map.insert e.done seq count } }
  (s2.wakeHandle (handleIs s.devId eng seq)).answerHandles

/-- ENGINE_START: the operation at the front starts once its run has committed, what its issue waits for has been
acknowledged, and no lock of an earlier operation stands in its way (R82, R84, R248). -/
def execEngineStart (eng : Nat) (s : State) : Outcome State Fault Refusal :=
  let e := Map.getD s.engines eng Engine.init
  match e.ops with
  | [] => .next s
  | o :: rest =>
    let own (k : Lock) : Bool := decide (k.dev = s.devId) && decide (k.owner = o.op)
    let mine := s.locks.filter own
    let clash := (s.locks.takeWhile (fun k => !own k)).any (fun k => mine.any (fun j => s.clash k j))
    if o.started || !o.committed || !o.after.isEmpty || clash then .next s
    else .next { s with engines := Map.insert s.engines eng { e with ops := { o with started := true } :: rest } }

/-- An operation is marked as having made its steps; it waits for messages from a number on. -/
def State.engSent (s : State) (eng : Nat) (o : EngOp) (k : Nat) : State :=
  let e := Map.getD s.engines eng Engine.init
  let ids := (s.net.filter (fun m => decide (k ≤ m.id))).map (fun m => m.id)
  { s with engines := Map.insert s.engines eng { e with
      ops := mapWhere (fun x => decide (x.op = o.op)) (fun (x : EngOp) => { x with sent := true, after := ids }) e.ops } }

/-- Bytes that an operation writes, fewer where it is cancelled (R250, R252). -/
def EngOp.count (o : EngOp) : Nat :=
  match o.limit with
  | some k => min k o.total
  | none => o.total

/-- ENGINE_COMPLETE: a started operation makes its steps, as a whole, and completes once what it has written at other modules
has been acknowledged (R111, R250; log 40). Bytes of another module that it reads are asked for first. -/
def execEngineComplete (eng : Nat) (s : State) : Outcome State Fault Refusal :=
  let e := Map.getD s.engines eng Engine.init
  let core := 32 * (eng / 16)
  match e.ops with
  | [] => .next s
  | o :: _ =>
    if !o.started then .next s
    else if !s.engNear o then .next ((s.engFar o).foldl (fun s x => (s.farRead (.engine o.op) core x.1 x.2).2) s)
    else if !o.sent then
      let s1 := ((s.engRows o core (o.req.srcs.zip o.req.dsts) o.count).dropReads (.engine o.op)).engSent eng o s.keys
      .next (if s1.keys = s.keys then s1.engDone eng o.seq o.count else s1)
    else if o.after.isEmpty then .next (s.engDone eng o.seq o.count)
    else .next s

/-- CANCEL_ARRIVE: a cancel reaches its engine, when the running operation has written the count given (R252). -/
def execCancelArrive (msg written : Nat) (s : State) : Outcome State Fault Refusal :=
  match s.arriving msg with
  | none => .next s
  | some m =>
    match m.body with
    | .engCancel h =>
      let eng := (field h 4 4).toNat * 16 + (field h 0 4).toNat
      let seq := (field h 32 24).toNat
      let e := Map.getD s.engines eng Engine.init
      let s1 := s.dropMsg msg
      (match e.ops.find? (fun o => decide (o.seq = seq)) with
        | none => .next s1
        | some o =>
          if !o.started then .next (s1.engDone eng seq 0)
          else if o.sent then .next s1
          else
            let k := ceilDiv (min written o.total) 4096 * 4096
            let lim := o.limit.getD k
            .next { s1 with engines := Map.insert s1.engines eng { e with
              ops := mapWhere (fun o => decide (o.seq = seq)) (fun (o : EngOp) => { o with limit := some lim }) e.ops } })
    | _ => .next s

/-- A query of another module about a handle reaches its home: it is answered, or kept until the handle reads as
complete. -/
def State.handleAsked (s : State) (m : Msg) (h : DWord) (who : Asker) (launch : BitVec 32) (wait : Bool) : State :=
  if !handleBits h launch then s.answerClaim m who 0 none cHandle false
  else
    match s.readHandle h, wait with
    | .pending, true => s.waitAtHome m.id
    | .pending, false => s.answerClaim m who 0 (some [0]) 258 false
    | .done x, true => s.answerClaim m who x none 260 false
    | .done _, false => s.answerClaim m who 0 (some [1]) 258 false
    | .bad, _ => s.answerClaim m who 0 none cHandle false
    | .refused fr, true => s.answerClaim m who 0 (some (leBytes 8 fr.toNat)) cFrame false
    | .refused _, false => s.answerClaim m who 0 (some [1]) 258 false

end Sys2Proof.Machine
end

