-- ==== Sys2Proof/Machine/Matrix.lean ====
section
/-!
DEFINITION. The matrix stream: `mput` and `mget` of the party stream (R259, R260), the operands of matrix words (R257,
R258), the words of the sequencer (R261 to R266) and the completion of steps (R267).
-/

namespace Sys2Proof.Machine

open Host

/-! ## Formats (R258, R259) -/

/-- The formats of matrix operands (R258). -/
def matrixFmt (f : Nat) : Bool := decide (1 ≤ f) && decide (f ≤ 9)

/-- K of a format (R258). -/
def stepK (f : Nat) : Nat := if f = 1 ∨ f = 2 then 32 else if f = 3 ∨ f = 4 ∨ f = 8 then 64 else 128

/-- Registers that a tile image takes (R259). -/
def tileRegs (f : Nat) : Nat := 8 + (if hasComp f then 4 else 0) + (if isScaled f then 1 else 0)

/-! ## `mput` and `mget` (R259, R260) -/

/-- Tiles in a party's queue, with the places reserved by runs that have not committed (R259). -/
def State.queueLen (s : State) (team slot : Nat) : Nat :=
  let held := match Map.find s.teams team with
    | none => 0
    | some t => (match t.seqr with
        | none => 0
        | some q => (Map.getD q.queues slot []).length + Map.getD q.booked slot 0)
  held + sumBy (fun e =>
    if e.2.teamKey = team ∧ e.2.seed.isNone ∧ e.2.partyId.toNat = slot then
      sumBy (fun b => match b.run with
        | none => 0
        | some r => (r.eff.filter (fun x => match x.item with
            | .tile _ _ => true
            | _ => false)).length) e.2.bundles
    else 0) s.parties

/-- The party's team, unless the party is a seed. -/
def Ctx.team? (c : Ctx) : Option Team := if c.p.seed.isSome then none else Map.find c.s.teams c.p.teamKey

/-- The party visits from another module, where its team's cluster is (R17). -/
def Ctx.visits (c : Ctx) : Bool := c.p.seed.isNone && decide (c.p.originDev ≠ c.s.devId)

/-- Where requests of a visiting party for its team's sequencer go (R17). -/
def Ctx.teamHome (c : Ctx) : Home := .core c.p.originDev c.p.originCore.toNat

/-- A visiting party asks at its team's module for a place in its queue, or, with slot 64, whether the sequencer has stopped
(R17, R259, R266). -/
def Ctx.askTeam (c : Ctx) (slot : Nat) (rest : Pre) : Pre :=
  if (Map.find c.b.ans 73).isSome then rest
  else .hold (c.ask 73 c.teamHome (.tileAsk c.p.teamKey slot)).save

/-- The traps that it was answered with. -/
def Ctx.teamTraps (c : Ctx) : List Trap := (c.ansTraps [(73, 0)]).flatMap (fun e => allTrap c.act e.cause e.addr)

/-- A request of a visiting party reaches its team: a place in its queue, which it waits for, or the trap (R17, R259, R266). -/
def State.tileAsked (s : State) (m : Msg) (team slot : Nat) (who : Asker) : State :=
  match Map.find s.teams team with
  | none => s.answerClaim m who 0 none cPriv false
  | some t =>
    match t.seqr with
    | none => if slot < 64 then s.answerClaim m who 0 none cPriv false
      else s.answerClaim m who 0 (some (leBytes 16 team ++ leBytes 1 slot)) 264 false
    | some q =>
      if q.st = .stopped then s.answerClaim m who 0 (some (leBytes 8 q.pc.toNat)) cMatrix false
      else if slot < 64 ∧ 8 ≤ s.queueLen team slot then (if m.applied then s else s.waitAtHome m.id)
      else
        let q := if slot < 64 then { q with booked := Map.put q.booked slot (Map.getD q.booked slot 0 + 1) 0 } else q
        State.answerClaim { s with teams := Map.insert s.teams team { t with seqr := some q } } m who 0
          (some (leBytes 16 team ++ leBytes 1 slot)) 264 false

/-- A message that waits at its home for a place in a sequencer's queue. -/
def State.tileWaits (s : State) (msg : Nat) : Option Msg :=
  (s.msg? msg).bind (fun m => if !m.applied then none else
    match m.body with
    | .tileAsk _ _ _ => some m
    | _ => none)

/-- A place that a visiting party had taken is used for a tile, or given back (R17, R259). -/
def State.unbook (s : State) (team slot : Nat) (ts : List Tile) : State :=
  match Map.find s.teams team with
  | none => s
  | some t =>
    match t.seqr with
    | none => s
    | some q => { s with teams := Map.insert s.teams team { t with seqr := some { q with
        booked := Map.put q.booked slot (Map.getD q.booked slot 0 - 1) 0,
        queues := if ts.isEmpty then q.queues else Map.insert q.queues slot (Map.getD q.queues slot [] ++ ts) } } }

/-- The party may push tiles (R259). -/
def Ctx.mayPush (c : Ctx) : Bool :=
  decide (c.p.partyId.toNat < 8) && (c.visits ||
  match c.team? with
  | none => false
  | some t => t.seqr.isSome)

/-- Operands of `mput`: an active lane reads the registers of every member of the bundle. -/
def mputArgs (g : BitVec 4) (a : Nat) (c : Ctx) : List Arg :=
  let n := tileRegs (c.fmtOr 2)
  let l0 := (c.guarded (c.word.govr.getD g)).headD 64
  .need (decide (a + n ≤ 56)) :: (List.range n).map (fun i => .xr (a + i) ((lanesOf c.b.mask).map (fun l => (l0, l))))

/-- `mput` (R259). -/
def execMput (g : BitVec 4) (a : BitVec 6) (s : State) : Outcome State Fault Refusal :=
  issueBy s g (mputArgs g a.toNat)
    (fun c =>
      let f := c.fmtOr 2
      let stop := match c.stoppedAt with
        | some pc => allTrap c.act cMatrix pc
        | none => []
      let priv := if c.mayPush then [] else allTrap c.act cPriv 0
      let wait := if f = 9 then c.cbWait else .go
      wait.then
        (let fmt := if !matrixFmt f || (decide (f = 9) && c.book.isNone) then allTrap c.act cFormat 0 else []
         let ts := stop ++ priv ++ fmt
         if c.visits && priv.isEmpty then
           c.askTeam (if fmt.isEmpty then c.p.partyId.toNat else 64) (Pre.ofTraps (c.teamTraps ++ fmt))
         else if !ts.isEmpty then .traps ts
         else if 8 ≤ c.s.queueLen c.p.teamKey c.p.partyId.toNat then .hold c.stall
         else .go))
    (fun c =>
      let f := c.fmtOr 2
      let word (i l : Nat) : Word := if c.b.mask.getLsbD l then c.v (a.toNat + i) l else 0
      let regs := (List.range (tileRegs f)).flatMap (fun i => (List.range 64).map (fun l => word i l))
      .done (c.effect (.tile c.p.partyId.toNat { fmt := f, regs := regs, book := if f = 9 then c.book else none })))

/-- Key of an element of a team's accumulator tile. -/
def Team.tileKey (t : Team) (acc e : Nat) : Nat := (t.cluster * 512 + t.tiles.getD acc 0) * 1024 + e

/-- The element of a tile that register `r` of a lane holds (R260). -/
def mgetElem (l r : Nat) : Nat := (2 * r + l / 32) * 32 + l % 32

/-- The elements of a team's tile that some lanes read (R260). -/
def State.tileVals (s : State) (team acc : Nat) (lanes : List Nat) : List Nat :=
  lanes.flatMap (fun l => (List.range 16).map (fun r =>
    match Map.find s.teams team with
    | none => 0
    | some t => (Map.getD s.tiles (t.tileKey acc (mgetElem l r)) 0).toNat))

/-- Accumulator tiles of the party's team (R260, R308). -/
def Ctx.accum (c : Ctx) : Nat :=
  if c.visits then (match c.s.launchOf c.p with
    | some v => v.rcd.accum
    | none => 0)
  else
    match c.team? with
    | none => 0
    | some t => t.tiles.length

/-- `mget` (R260). -/
def execMget (g : BitVec 4) (d a : BitVec 6) (s : State) : Outcome State Fault Refusal :=
  issue s g (.need (decide (d.toNat ≤ 40)) :: .sr a.toNat :: (List.range 16).map (fun i => .vw (d.toNat + i)))
    (fun c =>
      let stop := match c.stoppedAt with
        | some pc => allTrap c.act cMatrix pc
        | none => []
      let prot := if (c.sc a.toNat).toNat < c.accum then [] else allTrap c.act cProtection 0
      if c.visits then c.askTeam 64 (Pre.ofTraps (c.teamTraps ++ prot)) else Pre.ofTraps (stop ++ prot))
    (fun c =>
      let acc := (c.sc a.toNat).toNat
      let dests := c.act.flatMap (fun l => (List.range 16).map (fun r => c.dest d.toNat r l))
      if c.visits then
        let c1 := c.addOp { PendOp.mk' c true dests [] with ready := false }
        .done { c1 with s := c1.s.post c1.p c1.pid c1.core (maskOf c.act) [] c.teamHome (.tileRead c.p.teamKey acc c.s.keys) }
      else .done (c.long dests (c.s.tileVals c.p.teamKey acc c.act)))

/-! ## The sequencer at a word (R256, R266) -/

/-- What a matrix word sees: the team, its sequencer and its grid. -/
structure SeqCtx where
  s   : State
  key : Nat
  t   : Team
  q   : Seqr
  g   : Grid

/-- The sequencer that the scheduled step executes. -/
def State.seqCtx? (s : State) : Option SeqCtx :=
  match s.actor with
  | .sequencer key =>
    match Map.find s.teams key with
    | none => none
    | some t =>
      match t.seqr with
      | none => none
      | some q =>
        match s.grid? t.grid with
        | none => none
        | some g => some ⟨s, key, t, q, g⟩
  | _ => none

/-- The state with the sequencer as given. -/
def SeqCtx.put (c : SeqCtx) (q : Seqr) : State :=
  { c.s with teams := Map.insert c.s.teams c.key { c.t with seqr := some q } }

/-- The word has executed, and the sequencer goes on at an address. -/
def SeqCtx.goto (c : SeqCtx) (pc : DWord) : State :=
  c.put { c.q with st := .running, last := c.q.pc, pc := pc, step := 0, freed := false, owners := [] }

/-- The word has executed, and the next word follows. -/
def SeqCtx.next (c : SeqCtx) : State := c.goto (c.q.pc + 4)

/-- A sequencer that executes words: it has not stopped or ended, and its team is not saved (R39, R256). -/
def SeqCtx.runs (c : SeqCtx) : Bool :=
  c.t.saved.isNone && c.q.page.isNone &&
  (decide (c.q.st = .running) || decide (c.q.st = .waitQueue) || decide (c.q.st = .waitBar))

/-- The arrivals of a barrier that are BLOCKED in `bar` or `barw`. -/
def Barrier.blockedHere (x : Barrier) : List Arrival :=
  (x.arrived ++ x.held.filterMap (fun h => match h with
    | .arr a => some a
    | _ => none)).filter (fun a => decide (a.kind = .bar) || decide (a.kind = .barw))

/-- A barrier without its BLOCKED arrivals. -/
def Barrier.unblocked (x : Barrier) : Barrier :=
  { x with
    arrived := x.arrived.filter (fun a => decide (a.kind ≠ .bar) && decide (a.kind ≠ .barw)),
    held := x.held.filter (fun h => match h with
      | .arr a => decide (a.kind ≠ .bar) && decide (a.kind ≠ .barw)
      | _ => true) }

/-- A word that ends at a step before its last: the locks of the steps that it has issued clear with the last of these (R267). -/
def Seqr.endWord (q : Seqr) : Seqr :=
  match q.work.getLast? with
  | none => { q with step := 0, owners := [] }
  | some w => { q with step := 0, owners := [], work := q.work.dropLast ++ [{ w with ends := w.ends ++ q.owners }] }

/-- The owners of locks that clear at once when a word ends so: none of its steps is still at work. -/
def Seqr.idleOwners (q : Seqr) : List Nat := if q.work.isEmpty then q.owners else []

/-- The sequencer stops or ends at its word, which goes no further. -/
def SeqCtx.halt (c : SeqCtx) (st : SeqState) : SeqCtx :=
  { c with
    q := { c.q.endWord with st := st, last := c.q.pc },
    s := { c.s with locks := c.s.locks.filter (fun k => !c.s.ownLock c.q.idleOwners k) } }

/-- A sequencer whose team is over ends where it stands (R256). -/
def SeqCtx.endSeq (c : SeqCtx) : State := let d := c.halt .ended; d.put { d.q with last := c.q.last }

/-- A fault stops the sequencer at its word; the parties BLOCKED at the team's barriers are released into the trap
(R266). -/
def SeqCtx.stop (c : SeqCtx) (code : Nat) : State :=
  let out := c.t.bars.flatMap (fun e => e.2.blockedHere)
  let d := c.halt .stopped
  let t := { c.t with seqr := some { d.q with fault := code }, bars := c.t.bars.map (fun e => (e.1, e.2.unblocked)) }
  let s := { d.s with teams := Map.insert d.s.teams c.key t }
  out.foldl (fun s a => s.releaseBundle (s.receiving c.t.cluster) a.who (.trap cMatrix c.q.pc)) s

/-- Execute a matrix word where a sequencer stands at it. -/
def matrixOp (s : State) (f : SeqCtx → State) : Outcome State Fault Refusal :=
  match s.seqCtx? with
  | none => .fault .noActor
  | some c => if c.runs then .next (f c) else .next s

/-- A word that faults for its encoding, or for an address that a fetch does not find (R266). -/
def State.matrixFault (s : State) (code : Nat) : State :=
  match s.seqCtx? with
  | none => s
  | some c => if c.runs then c.stop code else s

/-! ## Operands (R257, R258) -/

/-- The physical number of a byte of the team's scratchpad allocation, by virtual address (R67, R258). -/
def SeqCtx.byteAt (c : SeqCtx) (va : Nat) : Option Nat :=
  let r := c.g.rcd
  let lo := r.scratchWin + c.t.id.toNat * r.stride
  if va < lo ∨ lo + ceilDiv r.scratch 4096 * 4096 ≤ va ∨ !(c.s.asidValid c.g.asid) then none
  else some (scratchBase + c.t.cluster * 2 ^ 23 + c.t.blocks.getD ((va - lo) / 65536) 0 * 65536 + (va - lo) % 65536)

/-- Geometry of a pair (R257). -/
structure Geom where
  tile : Int
  row  : Nat
  rot  : Nat
  post : Bool
  ok   : Bool

/-- The geometry that pair `k` holds. -/
def SeqCtx.geom (c : SeqCtx) (k : Nat) : Geom :=
  let x := Map.getD c.q.m (2 * k + 1) 0
  { tile := (field x 40 24).toInt, row := (field x 20 20).toNat, rot := (field x 16 4).toNat, post := x.getLsbD 15,
    ok := decide ((field x 16 4).toNat ≤ 6) && decide (field x 0 15 = 0) }

/-- Address of byte `o` of row `n` (R258). -/
def Geom.addr (g : Geom) (base n o : Nat) : Nat :=
  (base + n * g.row + ((o / 64) ^^^ (n % 2 ^ g.rot)) * 64 + o % 64) % 2 ^ 64

/-- An element of a scratchpad operand: its data byte, its bits there, and the bytes of its further planes. -/
structure MElem where
  e    : Nat
  va   : Nat
  cva  : Nat
  sva  : Nat
deriving DecidableEq, Repr

/-- A scratchpad operand: its format, its format entry, and its elements row by row. -/
structure MSrc where
  fmt  : Nat
  ent  : BitVec 256
  rows : List (List MElem)
deriving DecidableEq, Repr

/-- The format entry of the team's scratchpad pages (R67, R258). -/
def SeqCtx.entry (c : SeqCtx) : BitVec 256 :=
  match c.s.asidCtx c.g.asid with
  | none => 0
  | some (_, ft) => c.s.fmtEntry ft c.g.rcd.sfmt

/-- Element `x` of row `n` of an operand (R258, R71, R72). -/
def elemOf (ent : BitVec 256) (f base : Nat) (g : Geom) (n x : Nat) : MElem :=
  let nb := planeBits f
  let va := g.addr base n (x * nb / 8)
  let db := (field ent 64 64).toNat
  let e := (va - db) * 8 / nb + (if nb = 4 then x % 2 else 0)
  { e := e, va := va, cva := (field ent 192 64).toNat + e / 4, sva := (field ent 128 64).toNat + e / 32 }

/-- The rows of an operand, with `count` elements each. -/
def operandRows (ent : BitVec 256) (f base : Nat) (g : Geom) (rows count : Nat) : List (List MElem) :=
  (List.range rows).map (fun n => (List.range count).map (fun x => elemOf ent f base g n x))

/-- The data bytes of an element. -/
def MElem.data (f : Nat) (m : MElem) : List Nat := (List.range (max 1 (planeBits f / 8))).map (fun i => m.va + i)

/-- The fault of a scratchpad operand that the page format alone decides (R258). -/
def SeqCtx.fmtFault (c : SeqCtx) (fp32 flip : Bool) : Bool :=
  let ent := c.entry
  let f := (field ent 0 6).toNat
  decide (c.g.rcd.sfmt = 0) || !entryOk ent || !(matrixFmt f || (decide (f = 0) && fp32)) || (isScaled f && flip) ||
  (decide (f = 9) && c.q.book.isNone)

/-- The fault of a scratchpad operand (R257, R258, R266), or none: geometry, base address, format, bytes, block
alignment, in this order (log 41). -/
def SeqCtx.srcFault (c : SeqCtx) (pair : Nat) (fp32 flip : Bool) (rows count : Nat) : Option Nat :=
  let g := c.geom pair
  let base := (Map.getD c.q.m (2 * pair) 0).toNat
  let ent := c.entry
  let f := (field ent 0 6).toNat
  if !g.ok then some 5
  else if (c.byteAt base).isNone then some 3
  else if c.fmtFault fp32 flip then some 4
  else
    let rs := operandRows ent f base g rows count
    let db := (field ent 64 64).toNat
    let there (va : Nat) : Bool := (c.byteAt va).isSome
    let inside := rs.all (fun r => r.all (fun m =>
      (m.data f).all there && decide (db ≤ m.va) && (!hasComp f || there m.cva) && (!isScaled f || there m.sva)))
    if !inside then some 3
    else if (List.range rows).any (fun n => decide ((g.addr base n 0 - db) * 8 % (planeBits f * 32) ≠ 0)) then some 4
    else none

/-- A value of an operand with the poison of its bytes (R335). -/
structure MVal where
  val : Val
  bad : Bool

/-- Read an element of a scratchpad operand: its code, its scale, and whether some byte of it is poisoned. -/
def SeqCtx.readCode (c : SeqCtx) (f : Nat) (m : MElem) : Nat × Option Nat × Bool :=
  let nb := planeBits f
  let byte (va : Nat) : Nat := match c.byteAt va with
    | some pa => (memByte c.s.mem pa).toNat
    | none => 0
  let poisoned (va : Nat) : Bool := match c.byteAt va with
    | some pa => NatSet.mem c.s.poison (granuleOf pa)
    | none => false
  let lo := if nb = 4 then byte m.va / 2 ^ (m.e % 2 * 4) % 16
    else (m.data f).foldr (fun va x => byte va + 256 * x) 0
  let code := if hasComp f then lo + byte m.cva / 2 ^ (m.e % 4 * 2) % 4 * 16 else lo
  (code, if isScaled f then some (byte m.sva) else none,
   (m.data f).any poisoned || (hasComp f && poisoned m.cva) || (isScaled f && poisoned m.sva))

/-- The exact value of a code under its scale, as a matrix step uses it (R128). -/
def stepVal (f code : Nat) (book : Option (BitVec 256)) (scale : Option Nat) : Val :=
  match scale with
  | some 255 => .nan false
  | some x => (codeVal f code (book.getD 0)).scale ((x : Int) - 127)
  | none => codeVal f code (book.getD 0)

/-- Byte `b` of a plane of a tile image that begins at a register (R259). -/
def Tile.byte (t : Tile) (reg b : Nat) : Nat :=
  (t.regs.getD ((reg + b / 256) * 64 + b / 4 % 64) 0).toNat / 2 ^ (b % 4 * 8) % 256

/-- Element `e` of a tile image (R259, R71). -/
def Tile.val (t : Tile) (e : Nat) : Val :=
  let f := t.fmt
  let nb := planeBits f
  let lo := if nb = 4 then t.byte 0 (e / 2) / 2 ^ (e % 2 * 4) % 16
    else if nb = 8 then t.byte 0 e
    else t.byte 0 (2 * e) + 256 * t.byte 0 (2 * e + 1)
  let code := if hasComp f then lo + t.byte 8 (e / 4) / 2 ^ (e % 4 * 2) % 4 * 16 else lo
  stepVal f code t.book (if isScaled f then some (t.byte (if hasComp f then 12 else 8) (e / 32)) else none)

/-- An operand of a step. -/
inductive Opnd where
  | pair (k : Nat)
  | slot (n : Nat)
deriving DecidableEq, Repr

/-- The operand of a source field (R151). -/
def opndOf (x : BitVec 4) : Opnd := if x.toNat < 8 then .pair x.toNat else .slot (x.toNat - 8)

/-- Format of an operand; a slot's is that of the tile at its front. -/
def SeqCtx.opndFmt (c : SeqCtx) : Opnd → Nat
  | .pair _ => (field c.entry 0 6).toNat
  | .slot n => match (Map.getD c.q.queues n []).head? with
    | some t => t.fmt
    | none => 2

/-- The 32 lines of an operand, `K` values each: row `i` of A, or column `j` of B (R258). -/
def SeqCtx.lines (c : SeqCtx) (o : Opnd) (flip : Bool) (k : Nat) : List (List MVal) :=
  let at_ (f : Nat → Nat → MVal) : List (List MVal) :=
    (List.range 32).map (fun i => (List.range k).map (fun x => if flip then f x i else f i x))
  match o with
  | .slot n =>
    let t := (Map.getD c.q.queues n []).headD { fmt := 2, regs := [], book := none }
    let width := if flip then 32 else k
    at_ (fun r x => ⟨t.val (r * width + x), false⟩)
  | .pair p =>
    let ent := c.entry
    let f := (field ent 0 6).toNat
    let g := c.geom p
    let base := (Map.getD c.q.m (2 * p) 0).toNat
    at_ (fun r x =>
      let y := c.readCode f (elemOf ent f base g r x)
      ⟨stepVal f y.1 c.q.book y.2.1, y.2.2⟩)

/-! ## Work in progress (R267) -/

/-- The tile as the words issued so far leave it. -/
def SeqCtx.tile (c : SeqCtx) (acc : Nat) : List Word :=
  match (c.q.work.filter (fun w => decide (w.acc = acc) && !w.tile.isEmpty)).getLast? with
  | some w => w.tile
  | none => (List.range 1024).map (fun e => Map.getD c.s.tiles (c.t.tileKey acc e) 0)

/-- The ranges of an operand's planes, each as its bounding interval (R267). -/
def planesOf (f : Nat) (rows : List (List MElem)) : List (Nat × Nat) :=
  let ms := rows.flatten
  let span (l : List Nat) : Nat × Nat := (l.foldl min (l.headD 0), l.foldl max 0)
  [span (ms.flatMap (fun m => m.data f))] ++
  (if hasComp f then [span (ms.map (fun m => m.cva))] else []) ++
  (if isScaled f then [span (ms.map (fun m => m.sva))] else [])

/-- The rows of elements of a pair that a step uses. -/
def SeqCtx.pairRows (c : SeqCtx) (p : Nat) (rows count : Nat) : List (List MElem) :=
  operandRows c.entry (field c.entry 0 6).toNat (Map.getD c.q.m (2 * p) 0).toNat (c.geom p) rows count

/-- The locks of ranges in the team's scratchpad. -/
def SeqCtx.locksFor (c : SeqCtx) (wr : Bool) (rs : List (Nat × Nat)) : List Lock :=
  rs.flatMap (fun r => c.s.rangeLocks (4 * c.t.cluster) c.g.asid c.s.keys wr r.1 r.2)

/-- Locks that can be registered now: the tables have room, and no earlier operation's lock stands in the way (R82,
R84). -/
def SeqCtx.lockable (c : SeqCtx) (ls : List Lock) : Bool :=
  c.s.lockRoom ls && !c.s.locks.any (fun k => ls.any (fun j => c.s.clash k j))

/-- Register locks and put a step or tile word to work; one that writes a tile publishes the team's interval (R337). The locks
of a step clear with those of the word's last step, `fin` (R267). -/
def SeqCtx.work (c : SeqCtx) (ls : List Lock) (fin : Bool) (w : Nat → MWord) : SeqCtx :=
  let owners := c.q.owners ++ [c.s.keys]
  let x := { (w c.s.keys) with ends := if fin then owners else [] }
  let s := State.bump { c.s with locks := c.s.locks ++ ls }
  let s := if x.tile.isEmpty then s else s.publish (c.key + 1)
  { c with s := s, t := (Map.find s.teams c.key).getD c.t, q := { c.q with work := c.q.work ++ [x], owners := if fin then [] else owners } }

/-- A base register after a use of its pair (R257). -/
def SeqCtx.post (c : SeqCtx) (p : Nat) (steps : Int) : SeqCtx :=
  let g := c.geom p
  if g.post then
    let x := ((Map.getD c.q.m (2 * p) 0).toNat : Int) + steps * g.tile
    { c with q := { c.q with m := Map.put c.q.m (2 * p) (BitVec.ofInt 64 x) 0 } }
  else c

/-- Consumption of poisoned operand bytes by a team (R335). -/
def SeqCtx.consumed (c : SeqCtx) (pas : List Nat) : SeqCtx :=
  match pas with
  | [] => c
  | pa :: _ =>
    { c with s := { c.s with consumes := c.s.consumes ++ [{
        party := 0, bundle := 0, lanes := 0, team := c.key + 1, grid := c.t.grid, core := 0x1FF, pa := granuleOf pa * 64,
        va := 0, asked := false, pc := c.q.pc, lin := 0, unit := none, esc := none, granted := false }] } }

/-- The poisoned bytes among those of some elements. -/
def SeqCtx.poisonedIn (c : SeqCtx) (f : Nat) (rows : List (List MElem)) : List Nat :=
  if c.s.poison.isEmpty then []
  else (rows.flatten.flatMap (fun m => m.data f ++ (if hasComp f then [m.cva] else []) ++ (if isScaled f then [m.sva] else []))).filterMap
    (fun va => (c.byteAt va).bind (fun pa => if NatSet.mem c.s.poison (granuleOf pa) then some pa else none))

/-! ## `mma` (R261) -/

/-- One step on a tile: the elements by rows. -/
def stepTile (old : List Word) (a b : List (List MVal)) : List Word :=
  let bs := b.toArray
  let as := a.toArray
  (List.range 1024).map (fun e =>
    let ra := as.getD (e / 32) []
    let rb := bs.getD (e % 32) []
    if ra.any (fun x => x.bad) || rb.any (fun x => x.bad) then 0x7FC00000
    else mmaElement (val32 (old.getD e 0)) ((ra.map (fun x => x.val)).zip (rb.map (fun x => x.val))))

/-- The base of a pair at a step of an `mma` (R261). -/
def SeqCtx.atStep (c : SeqCtx) (p k : Nat) : SeqCtx :=
  let g := c.geom p
  let x := ((Map.getD c.q.m (2 * p) 0).toNat : Int) + (k : Int) * g.tile
  { c with q := { c.q with m := Map.put c.q.m (2 * p) (BitVec.ofInt 64 x) 0 } }

/-- The fault of an operand of a step, or none. -/
def SeqCtx.opndFault (c : SeqCtx) (o : Opnd) (flip : Bool) (k : Nat) : Option Nat :=
  match o with
  | .slot n => if isScaled (c.opndFmt (.slot n)) && flip then some 4 else none
  | .pair p => c.srcFault p false flip (if flip then k else 32) (if flip then 32 else k)

/-- The lower of two fault statuses. -/
def lowFault : Option Nat → Option Nat → Option Nat
  | some a, some b => some (min a b)
  | some a, none => some a
  | none, b => b

/-- Whether an operand's queue holds no tile. -/
def SeqCtx.lacks (c : SeqCtx) : Opnd → Bool
  | .slot n => (Map.getD c.q.queues n []).isEmpty
  | .pair _ => false

/-- Take the tile that a step has used out of its queue. -/
def SeqCtx.take (c : SeqCtx) : Opnd → SeqCtx
  | .slot n => { c with q := { c.q with queues := Map.put c.q.queues n ((Map.getD c.q.queues n []).drop 1) [] } }
  | .pair _ => c

/-- The pairs that two operands name, each once. -/
def pairsOf (a b : Opnd) : List Nat :=
  (match a with
    | .pair k => [k]
    | .slot _ => []) ++
  (match b with
    | .pair k => if a = .pair k then [] else [k]
    | .slot _ => [])

/-- A slot that names no party of the team (R266). -/
def SeqCtx.noParty (c : SeqCtx) : Opnd → Bool
  | .slot n => decide (c.g.rcd.parties ≤ n)
  | .pair _ => false

/-- One step of an `mma`, or the wait for an operand or for locks (R261). -/
def SeqCtx.mmaStep (c : SeqCtx) (acc : Nat) (a b : Opnd) (z : Bool) (krep : Nat) (ta tb : Bool) : State :=
  if c.lacks a || c.lacks b then c.put { c.q with st := .waitQueue }
  else
    let n := c.q.step
    let d := (pairsOf a b).foldl (fun x p => x.atStep p n) c
    let fa := d.opndFmt a
    let fb := d.opndFmt b
    let k := min (stepK fa) (stepK fb)
    match lowFault (d.opndFault a ta k) (d.opndFault b tb k) with
    | some x => c.stop x
    | none =>
      let rowsOf (o : Opnd) (flip : Bool) : List (List MElem) := match o with
        | .pair p => d.pairRows p (if flip then k else 32) (if flip then 32 else k)
        | .slot _ => []
      let ra := rowsOf a ta
      let rb := rowsOf b tb
      let ls := d.locksFor false ((if ra.isEmpty then [] else planesOf fa ra) ++ (if rb.isEmpty then [] else planesOf fb rb))
      if !c.lockable ls then c.s
      else
        let old := if n = 0 ∧ z then List.replicate 1024 0 else c.tile acc
        let new := stepTile old (d.lines a ta k) (d.lines b tb k)
        let c1 := c.consumed (d.poisonedIn fa ra ++ d.poisonedIn fb rb)
        let c2 := c1.work ls (decide (krep ≤ n)) (fun op => { op := op, ends := [], acc := acc, tile := new, mem := [] })
        let c3 := if a = b then c2.take a else (c2.take a).take b
        if n < krep then c3.put { c3.q with st := .running, step := n + 1, last := c3.q.pc }
        else ((pairsOf a b).foldl (fun x p => x.post p ((krep : Int) + 1)) c3).next

/-- `mma` (R261). -/
def execMma (acc : BitVec 10) (a b : BitVec 4) (z : BitVec 1) (krep : BitVec 3) (ta tb : BitVec 1) (s : State) :
    Outcome State Fault Refusal :=
  matrixOp s (fun c =>
    let x := opndOf a
    let y := opndOf b
    if c.t.tiles.length ≤ acc.toNat then c.stop 2
    else if c.noParty x || c.noParty y then c.stop 7
    else c.mmaStep acc.toNat x y (decide (z = 1)) krep.toNat (decide (ta = 1)) (decide (tb = 1)))

/-! ## Tile words (R262) -/

/-- A tile word on an accumulator of the team's. -/
def SeqCtx.onTile (c : SeqCtx) (acc : Nat) (f : State) : State := if c.t.tiles.length ≤ acc then c.stop 2 else f

/-- `mzero` (R262). -/
def execMzero (acc : BitVec 10) (s : State) : Outcome State Fault Refusal :=
  matrixOp s (fun c => c.onTile acc.toNat
    ((c.work [] true (fun op => { op := op, ends := [], acc := acc.toNat, tile := List.replicate 1024 0, mem := [] })).next))

/-- An FP32 code as a decode gives it: every NaN is the canonical one (R120). -/
def canonNan (x : Word) : Word :=
  match val32 x with
  | .nan _ => 0x7FC00000
  | _ => x

/-- `mlda` (R262). -/
def execMlda (acc : BitVec 10) (p : BitVec 3) (s : State) : Outcome State Fault Refusal :=
  matrixOp s (fun c => c.onTile acc.toNat
    (match c.srcFault p.toNat true false 32 32 with
      | some x => c.stop x
      | none =>
        let f := (field c.entry 0 6).toNat
        let rows := c.pairRows p.toNat 32 32
        let ls := c.locksFor false (planesOf f rows)
        if !c.lockable ls then c.s
        else
          let tile := rows.flatten.map (fun m =>
            let y := c.readCode f m
            if y.2.2 then 0x7FC00000
            else if f = 0 then canonNan (BitVec.ofNat 32 y.1)
            else (decodeElem f y.1 (c.q.book.getD 0) y.2.1).1)
          (((c.consumed (c.poisonedIn f rows)).work ls true (fun op =>
            { op := op, ends := [], acc := acc.toNat, tile := tile, mem := [] })).post p.toNat 1).next))

/-- Adjacent bytes joined into runs. -/
def joinBytes : List (Nat × Byte) → List (Nat × List Byte)
  | [] => []
  | (a, x) :: l =>
    match joinBytes l with
    | (b, ys) :: rest => if b = a + 1 then (a, x :: ys) :: rest else (a, [x]) :: (b, ys) :: rest
    | [] => [(a, [x])]

/-- Sub-byte codes packed, `per` to a byte of `w` bits each, lowest first. -/
def packCodes (per w : Nat) : Nat → List Nat → List Byte
  | 0, _ => []
  | k + 1, l =>
    if l.isEmpty then []
    else BitVec.ofNat 8 ((l.take per).zipIdx.foldl (fun a e => a + e.1 * 2 ^ (w * e.2)) 0) :: packCodes per w k (l.drop per)

/-- The bytes that a row of 32 elements is written as: addresses and contents of its planes (R71, R262). -/
def SeqCtx.rowBytes (c : SeqCtx) (f : Nat) (sat : Bool) (row : List MElem) (xs : List Word) : List (Nat × Byte) :=
  let scale := if isScaled f then some (blockScale f (xs.map val32)) else none
  let codes := xs.map (fun x => if f = 0 then x.toNat else (encodeElem f x (c.q.book.getD 0) scale .rne sat 0).1)
  let nb := planeBits f
  let m0 := row.headD ⟨0, 0, 0, 0⟩
  let data := if nb = 4 then (row.filter (fun m => decide (m.e % 2 = 0))).map (fun m => m.va)
    else row.flatMap (fun m => m.data f)
  let bytes := if nb = 4 then packCodes 2 4 16 (codes.map (fun x => x % 16)) else codes.flatMap (fun x => leBytes (nb / 8) x)
  data.zip bytes ++
  (if hasComp f then ((List.range 8).map (fun i => m0.cva + i)).zip (packCodes 4 2 8 (codes.map (fun x => x / 16 % 4))) else []) ++
  (match scale with
    | some x => [(m0.sva, BitVec.ofNat 8 x)]
    | none => [])

/-- `msta` (R262). -/
def execMsta (acc : BitVec 10) (p : BitVec 3) (sat : BitVec 1) (s : State) : Outcome State Fault Refusal :=
  matrixOp s (fun c => c.onTile acc.toNat
    (match c.srcFault p.toNat true false 32 32 with
      | some x => c.stop x
      | none =>
        let f := (field c.entry 0 6).toNat
        let rows := c.pairRows p.toNat 32 32
        let ls := c.locksFor true (planesOf f rows)
        if !c.lockable ls then c.s
        else
          let tile := c.tile acc.toNat
          let cells := rows.zipIdx.flatMap (fun r => c.rowBytes f (decide (sat = 1)) r.1 ((tile.drop (32 * r.2)).take 32))
          let mem := joinBytes (cells.filterMap (fun e => (c.byteAt e.1).map (fun pa => (pa, e.2))))
          ((c.work ls true (fun op => { op := op, ends := [], acc := acc.toNat, tile := [], mem := mem })).post p.toNat 1).next))

/-! ## Barriers (R263) -/

/-- The sequencer's arrival at a team barrier. -/
def SeqCtx.arrival (c : SeqCtx) (kind : ArrKind) (n : Nat) : Arrival :=
  { kind := kind, who := ⟨c.s.devId, 4 * c.t.cluster, 0, 0, 64, 0⟩, count := if n = 0 then c.g.rcd.parties + 1 else n, timeout := 0,
    op := 0, team := c.key }

/-- `msig` (R263). -/
def execMsig (b : BitVec 4) (n : BitVec 16) (s : State) : Outcome State Fault Refusal :=
  matrixOp s (fun c =>
    if !c.q.work.isEmpty then s
    else c.next.arriveAt (.team c.key b.toNat) (.arr (c.arrival .msig n.toNat)))

/-- The sequencer goes on after the round it waited for (R263). -/
def SeqCtx.afterSync (c : SeqCtx) : State := if c.q.freed then c.next else c.s

/-- `msync` (R263). -/
def execMsync (b : BitVec 4) (n : BitVec 16) (s : State) : Outcome State Fault Refusal :=
  matrixOp s (fun c =>
    if c.q.st = .waitBar then c.afterSync
    else (c.put { c.q with st := .waitBar, last := c.q.pc }).arriveAt (.team c.key b.toNat) (.arr (c.arrival .msync n.toNat)))

/-! ## Registers, loops and the end (R264, R265) -/

/-- Read bytes of the parameter block: relaxed, translated under the launch's ASID (R264). -/
def SeqCtx.param (c : SeqCtx) (off n : Nat) (f : SeqCtx → List Byte → State) : State :=
  let va := (c.g.rcd.param.toNat + off) % 2 ^ 64
  let core := 4 * c.t.cluster
  match c.s.readVa (.stream c.key) core c.g.asid va n with
  | .bad => c.stop 3
  | .page a => c.put { c.q with page := some (a / 65536 * 65536) }
  | .wait => c.s.askVa (.stream c.key) core c.g.asid va n
  | .ok b =>
    let s := c.s.seeVa ⟨c.t.grid, c.key + 1, false⟩ core c.g.asid va n
    f { c with s := s, t := (Map.find s.teams c.key).getD c.t } b

/-- Write a sequencer register and go on. -/
def SeqCtx.setM (c : SeqCtx) (m : BitVec 4) (x : DWord) : State :=
  { c with q := { c.q with m := Map.put c.q.m m.toNat x 0 } }.next

/-- `mset` from the parameter block (R264). -/
def execMset (m : BitVec 4) (v : BitVec 20) (s : State) : Outcome State Fault Refusal :=
  matrixOp s (fun c => c.param (8 * v.toNat) 8 (fun c b => c.setM m (BitVec.ofNat 64 (leNat b))))

/-- `mset.add` (R264). -/
def execMsetAdd (m : BitVec 4) (v : BitVec 20) (s : State) : Outcome State Fault Refusal :=
  matrixOp s (fun c => c.setM m (Map.getD c.q.m m.toNat 0 + v.signExtend 64))

/-- `mset.set` (R264). -/
def execMsetSet (m : BitVec 4) (v : BitVec 20) (s : State) : Outcome State Fault Refusal :=
  matrixOp s (fun c => c.setM m (v.setWidth 64))

/-- `mset.cb` (R264): VAL is a multiple of 4. -/
def execMsetCb (v : BitVec 20) (s : State) : Outcome State Fault Refusal :=
  matrixOp s (fun c =>
    if v.toNat % 4 ≠ 0 then c.stop 1
    else c.param (8 * v.toNat) 32 (fun c b => { c with q := { c.q with book := some (BitVec.ofNat 256 (leNat b)) } }.next))

/-- `mloop` (R265). -/
def execMloop (n : BitVec 20) (s : State) : Outcome State Fault Refusal :=
  matrixOp s (fun c =>
    if n = 0 ∨ 4 ≤ c.q.loops.length then c.stop 6
    else { c with q := { c.q with loops := (c.q.pc + 4, n.toNat) :: c.q.loops } }.next)

/-- `mnext` (R265). -/
def execMnext (s : State) : Outcome State Fault Refusal :=
  matrixOp s (fun c =>
    match c.q.loops with
    | [] => c.stop 6
    | (pc, n) :: rest =>
      if 1 < n then { c with q := { c.q with loops := (pc, n - 1) :: rest } }.goto pc
      else { c with q := { c.q with loops := rest } }.next)

/-- `mend` (R265). -/
def execMend (s : State) : Outcome State Fault Refusal :=
  matrixOp s (fun c => c.put { c.q with st := .ended, last := c.q.pc })

/-! ## Completion (R267) -/

/-- MATRIX_WORD_COMPLETE: the oldest step or tile word of a sequencer completes: its tile or bytes are written, and the locks
of a word clear with its last step (R267); writing a tile publishes the team's interval (R337). -/
def execMatrixWordComplete (team : Nat) (s : State) : Outcome State Fault Refusal :=
  match Map.find s.teams team with
  | none => .next s
  | some t =>
    match t.seqr with
    | none => .next s
    | some q =>
      match q.work with
      | [] => .next s
      | w :: rest =>
        let s1 := { s with
          teams := Map.insert s.teams team { t with seqr := some { q with work := rest } },
          locks := s.locks.filter (fun k => !s.ownLock w.ends k),
          tiles := (w.tile.zipIdx).foldl (fun m e => Map.put m (t.tileKey w.acc e.2) e.1 0) s.tiles }
        let s2 := if w.tile.isEmpty then s1 else s1.publish (team + 1)
        .next (w.mem.foldl (fun s e => s.store ⟨t.grid, team + 1, false⟩ e.1 e.2) s2)

end Sys2Proof.Machine
end

