-- ==== Sys2Proof/Machine/Spec.lean ====
section
/-!
DEFINITION. Speculation frames: the SPEC family (R272 to R278) and the events of frames at their tables and homes
(R112).
-/

namespace Sys2Proof.Machine

open Host

/-! ## Frame IDs (R272) -/

/-- A frame ID. -/
def mkFrame (dev : BitVec 20) (no : Nat) (gen : BitVec 8) (launch : BitVec 32) : DWord :=
  BitVec.ofNat 64 (no + dev.toNat * 2 ^ 12 + gen.toNat * 2 ^ 32 + launch.toNat % 128 * 2 ^ 56)

/-- A completion handle of a frame (R272). -/
def frameHandle (f : DWord) (isDrop : Bool) : DWord :=
  BitVec.ofNat 64 ((field f 12 20).toNat * 2 ^ 8 + 2 ^ 28 + (field f 0 12).toNat * 2 ^ 32 + (field f 32 8).toNat * 2 ^ 44 +
    (if isDrop then 2 ^ 55 else 0) + (field f 56 7).toNat * 2 ^ 56 + 2 ^ 63)

/-- A frame value that is misused at issue (R278). -/
def Ctx.frameBad (c : Ctx) (f : DWord) : Bool :=
  f.getLsbD 63 || decide (field f 40 16 ≠ 0) || decide (field f 56 7 ≠ c.p.launchId.setWidth 7)

/-- A frame table entry. -/
def State.frameEnt (s : State) (no : Nat) : FrameEnt := Map.getD s.frames no FrameEnt.init

/-- Replace a frame table entry. -/
def State.setFrame (s : State) (no : Nat) (e : FrameEnt) : State := { s with frames := Map.put s.frames no e FrameEnt.init }

/-! ## Claims of the SPEC family (R274) -/

/-- Claim at issue: a pending operation, whose answer the run waits for before it commits, as a claim of R91 does; what the answer
gives is written to the destinations (R25, R274). -/
def Ctx.frameClaim (c : Ctx) (kind : Nat) (id arg : DWord) (dests : List Dest) : Ctx :=
  let who : Asker := ⟨c.s.devId, c.core, c.pid, c.b.id, 64, c.s.keys⟩
  let h : Home := if kind = 0 then .core c.s.devId 0 else frameHome id
  let c1 := c.addOp { PendOp.mk' c false dests [] with flag := none, ready := false, role := .frame who }
  let body : MsgBody := .frameReq kind id arg who c.p.launchId c.p.asid c.p.gridId
  { c1 with s := c1.s.post c1.p c1.pid c1.core (maskOf c1.act) [] h body }

/-- `spopen` (R274). -/
def execSpopen (g : BitVec 4) (d a : BitVec 6) (s : State) : Outcome State Fault Refusal :=
  issue s g [.hw d.toNat, .sr a.toNat] (fun c => c.acqWait)
    (fun c => .done (c.frameClaim 0 0 (c.sc a.toNat) [.h d.toNat]))

/-- `spacc` and `spdrop`. -/
def closeFrame (s : State) (g : BitVec 4) (d a : BitVec 6) (args : List Arg) (isDrop : Bool) (n : Ctx → DWord) :
    Outcome State Fault Refusal :=
  issue s g ([.hw d.toNat, .hr a.toNat] ++ args)
    (fun c =>
      if c.frameBad (c.hd a.toNat) then .traps (allTrap c.act cFrame 0)
      else c.acqWait)
    (fun c => .done ((c.frameClaim (if isDrop then 2 else 1) (c.hd a.toNat) (n c) []).setH d.toNat (frameHandle (c.hd a.toNat) isDrop)))

/-- `spacc` (R274, R277). -/
def execSpacc (g : BitVec 4) (d a b : BitVec 6) (s : State) : Outcome State Fault Refusal :=
  closeFrame s g d a [.sr b.toNat] false (fun c => c.sc b.toNat)

/-- `spdrop` (R274, R277). -/
def execSpdrop (g : BitVec 4) (d a : BitVec 6) (s : State) : Outcome State Fault Refusal :=
  closeFrame s g d a [] true (fun _ => 0)

/-- `spbind` (R276, R278). -/
def execSpbind (g : BitVec 4) (a : BitVec 6) (s : State) : Outcome State Fault Refusal :=
  issue s g [.hr a.toNat]
    (fun c => if c.hd a.toNat ≠ 0 ∧ c.frameBad (c.hd a.toNat) then .traps (allTrap c.act cFrame 0) else .go)
    (fun c => .done (c.pwrite (.frame (c.hd a.toNat))))

/-! ## `stx` (R275) -/

/-- Bytes of a version, by the `mod` format. -/
def Ctx.stxBytes (c : Ctx) : Nat := if fmtWidth (c.fmtOr 20) = 64 then 8 else 4

/-- The addresses of the active lanes. -/
def Ctx.pairAddrs (c : Ctx) (a : Nat) : List (Nat × Nat) := c.act.map (fun l => (l, (c.v64 a l).toNat))

/-- FRAME of `stx`: no frame, or an address or frame that it cannot name (R278). -/
def Ctx.stxFrame (c : Ctx) (ts : List Tgt) : Pre :=
  if decide (c.frame = 0) || decide (field c.frame 12 20 ≠ c.s.devId) || ts.any (fun t => match t.loc with
      | some x => x.isHost || x.isScratch || decide (x.dev ≠ c.s.devId)
      | none => false) then .traps (allTrap c.act cFrame 0)
  else .go

/-- `stx` (R275): a version for each active lane, posted at commit. -/
def execStx (g : BitVec 4) (d a b : BitVec 6) (s : State) : Outcome State Fault Refusal :=
  issueBy s g
    (fun c => [if fmtWidth (c.fmtOr 20) = 64 then .pr d.toNat else .vr d.toNat, .pr a.toNat, .vr b.toNat])
    (fun c => (c.needFmt (isIntFmt (c.fmtOr 20))).then (c.acqWait.then (
      (c.check c.stxBytes false true (c.pairAddrs a.toNat)).bind c.stxFrame)))
    (fun c => .done ((c.check c.stxBytes false true (c.pairAddrs a.toNat)).tgts.foldl (fun x t => match t.loc with
      | none => x
      | some y =>
        let n := c.stxBytes
        let v := if n = 8 then (c.v64 d.toNat t.lane).toNat else (c.v d.toNat t.lane).toNat
        x.effectOf t.lane (.send { Draft.plain (c.s.homeOf y)
          (.version y t.va c.frame (c.v b.toNat t.lane).toNat (leBytes n v)) with posted := true })) c))

/-! ## The frame table (R273, R274) -/

/-- The grid of a frame as a module knows it (R22). -/
def FrameEnt.gridAt (e : FrameEnt) (dev : BitVec 20) : BitVec 32 := if e.dev = dev then e.grid else 0

/-- The module that launched the grid of a message's party. -/
def Msg.originDev (m : Msg) : BitVec 20 := BitVec.ofNat 20 ((m.lin - 1) / 2 ^ 64)

/-- The lowest FREE entry that no request claims, from entry `i` on. -/
def State.freeFrame (s : State) : Nat → Nat → Option Nat
  | 0, _ => none
  | n + 1, i => if (s.frameEnt i).st = .free ∧ (s.frameEnt i).claim = none then some i else s.freeFrame n (i + 1)

/-- A request may close a frame (R278). -/
def FrameEnt.mayClose (e : FrameEnt) (kind : Nat) (id arg : DWord) (launch : BitVec 32) (asid : BitVec 16) : Bool :=
  decide (e.st = .opened) && decide (e.gen = field id 32 8) && decide (e.launch = launch) && decide (e.asid = asid) &&
  e.claim.isNone && (decide (kind ≠ 1) || decide (e.base + arg.toNat ≤ 2 ^ 32))

/-- Answer a claim of the SPEC family: the request is accepted, with what its confirmation will say. -/
def State.frameAccept (s : State) (m : Msg) (who : Asker) (kind : Nat) (id arg : DWord) : State :=
  s.answerClaim m who id (some (BitVec.ofNat 8 kind :: leBytes 8 arg.toNat)) 261 false

/-- FRAME_CLAIM: a request reaches the frame table and is answered (R274, R278). -/
def execFrameClaim (msg : Nat) (s : State) : Outcome State Fault Refusal :=
  match s.arriving msg with
  | none => .next s
  | some m =>
    match m.body with
    | .frameReq kind id arg who launch asid grid =>
      if kind = 0 then
        (match (if 2 ^ 32 ≤ arg.toNat then none else s.freeFrame 4096 0) with
          | none => .next (s.answerClaim m who 0 none cFrame false)
          | some no =>
            let e := s.frameEnt no
            let e1 := { e with claim := some who, launch := launch, asid := asid, grid := grid, dev := m.originDev }
            .next ((s.setFrame no e1).frameAccept m who 0
              (mkFrame s.devId no e.gen launch) arg))
      else
        let no := (field id 0 12).toNat
        let e := s.frameEnt no
        if e.mayClose kind id arg launch asid then
          .next ((s.setFrame no { e with claim := some who }).frameAccept m who kind id arg)
        else .next (s.answerClaim m who 0 none cFrame false)
    | _ => .next s

/-- The frames that are open for parties of a grid (R273). -/
def State.openFramesOf (s : State) (dev : BitVec 20) (grid : BitVec 32) : List Nat :=
  (s.frames.filter (fun e => decide (e.2.st = .opened) && decide (e.2.dev = dev) && decide (e.2.grid = grid))).map (fun e => e.1)

/-- Slices that hold versions of a frame, or at which it is marked refused (R277). -/
def State.frameSlices (s : State) (no : Nat) : List Nat :=
  (List.range 512).filter (fun k => s.versions.any (fun v => decide (v.frame = no) && decide (v.slice = k)) ||
    NatSet.mem (s.frameEnt no).refused k)

/-- A frame all of whose homes have applied their step is FREE, and its handle completes (R273, R277). -/
def State.frameFree (s : State) (no : Nat) : State :=
  let e := s.frameEnt no
  if e.st ≠ .closing ∨ e.toAnswer ≠ [] ∨ e.toStep ≠ [] then s
  else
    let s := if e.dev = s.devId then s else s.postPart 0 (.core e.dev 0) (.away e.grid s.devId true (-1))
    let s1 := s.setFrame no { FrameEnt.init with
      gen := nextGen e.gen, lastGen := e.gen, lastVal := if e.isDrop then 0 else BitVec.ofNat 64 e.n,
      lastBad := e.refusal && !e.isDrop }
    (s1.wakeHandle (fun h => decide (field h 28 2 = 1) && decide (h ≠ 0) && decide ((field h 32 12).toNat = no))).answerHandles

/-- Begin the drop of a frame: the drop step goes to every home that it touched (R277). -/
def State.frameDrop (s : State) (no : Nat) : State :=
  let e := s.frameEnt no
  (s.setFrame no { e with
    st := .closing, isDrop := true, claim := none, toAnswer := [], answered := [], toStep := s.frameSlices no }).frameFree no

/-- FRAME_CLAIM_CONFIRM: the transition of a claimed entry is made (R273, R274). -/
def execFrameClaimConfirm (msg : Nat) (s : State) : Outcome State Fault Refusal :=
  match s.arriving msg with
  | none => .next s
  | some m =>
    match m.body with
    | .frameConfirm kind id arg who =>
      let no := (field id 0 12).toNat
      let e := s.frameEnt no
      let s1 := s.dropMsg msg
      if e.claim ≠ some who then .next s1
      else if kind = 0 then
        .next (s1.setFrame no { e with
          st := .opened, base := arg.toNat, claim := none,
          unit := match s.unitOf (e.gridAt s.devId) with
            | some u => u.toNat + 1
            | none => 0 })
      else if kind = 1 then
        .next ((s1.setFrame no { e with st := .closing, isDrop := false, n := arg.toNat, claim := none,
                                        toAnswer := s.frameSlices no }).frameFree no)
      else .next (s1.frameDrop no)
    | _ => .next s

/-- FRAME_CLAIM_CANCEL: the entry is unclaimed again (R274). -/
def execFrameClaimCancel (msg : Nat) (s : State) : Outcome State Fault Refusal :=
  match s.arriving msg with
  | none => .next s
  | some m =>
    match m.body with
    | .frameCancel id who =>
      let no := (field id 0 12).toNat
      let e := s.frameEnt no
      let s1 := s.dropMsg msg
      if e.claim ≠ some who then .next s1
      else if e.st = .free then .next (s1.setFrame no { e with claim := none, launch := 0, asid := 0, grid := 0, dev := 0 })
      else .next (s1.setFrame no { e with claim := none })
    | _ => .next s

/-- A grid of another module is over: the frames that its parties have opened here are dropped (R32, R273). -/
def State.dropFrames (s : State) (dev : BitVec 20) (grid : BitVec 32) : State :=
  (s.openFramesOf dev grid).foldl (fun (s : State) no => s.frameDrop no) s

/-- Work that parties of a grid have at another module begins or ends (R32, R273). -/
def State.awayBy (s : State) (grid : BitVec 32) (dev : BitVec 20) (frame : Bool) (d : Int) : State :=
  match s.grid? grid with
  | none => s
  | some g =>
    let g := if frame then { g with farFrames := Map.put g.farFrames dev.toNat (Map.getD g.farFrames dev.toNat 0 + d) 0 }
      else { g with farOps := g.farOps + d }
    { s with grids := Map.insert s.grids grid.toNat g }

/-! ## Versions at their homes (R275) -/

/-- A version without the bytes that a later one of its frame and position covers. -/
def Version.supersede (v : Version) (no pos pa n : Nat) : Version :=
  if v.frame = no ∧ v.pos = pos then
    { v with bytes := v.bytes.zipIdx.map (fun e => if pa ≤ v.pa + e.2 ∧ v.pa + e.2 < pa + n then none else e.1) }
  else v

/-- Discard versions; a page of which none remains is no longer marked VHELD (R316). -/
def State.dropVersions (s : State) (f : Version → Bool) : State :=
  let pas := (s.versions.filter f).map (fun v => v.pa)
  State.syncVheld { s with versions := s.versions.filter (fun v => !f v) } pas

/-- Record a version at its home slice, or refuse it for want of room (R275). -/
def State.recordVersion (s : State) (no : Nat) (x : Loc) (pos : Nat) (data : List Byte) : State :=
  let slice := s.tableSlice x
  let e := s.frameEnt no
  if storeBytes < s.storeUsed slice + 32 then s.setFrame no { e with refused := NatSet.add e.refused slice }
  else
    let old := (s.versions.map (fun v => v.supersede no pos x.pa data.length)).filter (fun v => v.bytes.any Option.isSome)
    let v : Version := { frame := no, gen := e.gen, pos := pos, pa := x.pa, bytes := data.map some, slice := slice }
    let s1 : State := { s with versions := old ++ [v] }
    ((s1.syncVheld [x.pa]).seeWatched x.pa data.length).wakeWatchers x.pa data.length

/-- STX_VERSION_APPLY: a version reaches its home: recorded, held until the step, or discarded (R275). -/
def execStxVersionApply (msg : Nat) (s : State) : Outcome State Fault Refusal :=
  match s.arriving msg with
  | none => .next s
  | some m =>
    match m.body with
    | .version x _ f pos data =>
      let no := (field f 0 12).toNat
      let e := s.frameEnt no
      let slice := s.tableSlice x
      if s.msgLocked m then .next s
      else if e.gen ≠ field f 32 8 ∨ field f 12 20 ≠ s.devId then .next (s.markApplied msg)
      else if e.st = .free then
        -- before the confirmation of its `spopen` a version waits (R274)
        (if e.claim.isSome then .next s else .next (s.markApplied msg))
      else if e.st = .opened ∨ (e.toAnswer.contains slice && !e.answered.contains slice) ∨
          (e.isDrop ∧ e.toStep.contains slice) then
        .next ((s.recordVersion no x pos data).markApplied msg)
      else if e.answered.contains slice ∧ (e.toAnswer ≠ [] ∨ e.toStep.contains slice) then .next s
      else .next (s.markApplied msg)
    | _ => .next s

/-! ## Closing (R277) -/

/-- FRAME_PREPARE: the prepare reaches a slice, which answers (R277). -/
def execFramePrepare (frame slice : Nat) (s : State) : Outcome State Fault Refusal :=
  let e := s.frameEnt frame
  if e.st = .closing ∧ e.toAnswer.contains slice ∧ !e.answered.contains slice then
    .next (s.setFrame frame { e with answered := e.answered ++ [slice] })
  else .next s

/-- FRAME_PREPARE_ANSWER: a slice's answer reaches the steward; with the last one the step goes out (R277). -/
def execFramePrepareAnswer (frame slice : Nat) (s : State) : Outcome State Fault Refusal :=
  let e := s.frameEnt frame
  if e.st = .closing ∧ e.toAnswer.contains slice ∧ e.answered.contains slice then
    let left := e.toAnswer.filter (· ≠ slice)
    .next (s.setFrame frame { e with
      toAnswer := left, refusal := e.refusal || NatSet.mem e.refused slice,
      toStep := if left.isEmpty then e.answered else [] })
  else .next s

/-- The bytes that versions of a frame cover at a slice. -/
def State.frameBytes (s : State) (no slice : Nat) : List Nat :=
  ((s.versions.filter (fun v => decide (v.frame = no) && decide (v.slice = slice))).flatMap (fun v =>
    v.bytes.zipIdx.filterMap (fun e => e.1.map (fun _ => v.pa + e.2)))).eraseDups

/-- Make the accepted versions of a frame at a slice current (R277). -/
def State.acceptAt (s : State) (no slice : Nat) : State :=
  let e := s.frameEnt no
  let vs := s.versions.filter (fun v => decide (v.frame = no) && decide (v.slice = slice))
  (s.frameBytes no slice).foldl (fun s pa =>
    match bestVersion vs (fun v => decide (e.base ≤ v.pos) && decide (v.pos < e.base + e.n)) pa with
    | some x => s.store ⟨e.gridAt s.devId, 0, false⟩ pa [x]
    | none => s) s

/-- FRAME_STEP_APPLY: a home applies the accept or drop step (R277). -/
def execFrameStepApply (frame slice : Nat) (s : State) : Outcome State Fault Refusal :=
  let e := s.frameEnt frame
  if e.st = .closing ∧ e.toStep.contains slice then
    let s1 := if e.isDrop || e.refusal then s else s.acceptAt frame slice
    let s2 := s1.dropVersions (fun v => decide (v.frame = frame) && decide (v.slice = slice))
    .next ((s2.setFrame frame { e with toStep := e.toStep.filter (· ≠ slice) }).frameFree frame)
  else .next s

end Sys2Proof.Machine
end

