-- ==== Sys2Proof/Machine/Record.lean ====
section
/-!
DEFINITION. The context record (R51, R52), what a party keeps when it leaves a core (R50, R289), the spill of outer
windows (R289, R291), and entry into an arrival queue (R57).
-/

namespace Sys2Proof.Machine

open Host

/-! ## The record (R51, R52) -/

/-- A field of the header at its first bit. -/
def headerAt (x pos : Nat) : Nat := x * 2 ^ pos

/-- A Bool as a bit. -/
def bit (b : Bool) : Nat := if b then 1 else 0

/-- The header of a party with one bundle (R52). -/
def Party.header (p : Party) (b : Bundle) (reason : Nat) : Nat :=
  let pc := match b.run with
    | some r => r.start
    | none => b.pc
  let modh := b.run.bind (fun r => if r.cont then r.modh0 else none)
  let imm := b.run.bind (fun r => if r.cont then r.imm0 else none)
  let smap := p.scal.foldl (fun a e => a + 2 ^ e.1) 0
  let hmap := p.hand.foldl (fun a e => a + 2 ^ e.1) 0
  let rj := match p.rejoin with
    | none => 0
    | some r => headerAt r.bar 464 + headerAt r.core 473 + headerAt r.dev.toNat 482 + headerAt 1 502 + headerAt (bit r.timed) 503
  headerAt 1 0 + headerAt p.flits 8 + headerAt reason 16 + headerAt (bit p.cb.isSome) 18 + headerAt (bit p.trap.isSome) 19 +
  headerAt p.partyId.toNat 32 + headerAt p.priority.toNat 40 + headerAt p.power.toNat 42 + headerAt p.asid.toNat 48 +
  headerAt p.teamId.toNat 64 + headerAt p.launchId.toNat 96 + headerAt p.gridId.toNat 128 + headerAt p.lineage.toNat 160 +
  headerAt p.originDev.toNat 192 + headerAt p.originCore.toNat 212 + headerAt p.depth.toNat 224 +
  headerAt p.fpflags.toNat 240 + headerAt b.mask.toNat 256 + headerAt pc.toNat 320 + headerAt (b.wb % 4096) 384 +
  headerAt p.winSize 396 + headerAt smap 416 + headerAt hmap 448 + rj + headerAt p.live.toNat 512 +
  headerAt (p.wstack + 256 * b.wb) 576 + headerAt p.frame.toNat 640 + headerAt p.limbFlags.toNat 704 +
  headerAt p.limbCtl.toNat 768 + headerAt p.rngStream.toNat 800 + headerAt p.rngLo.toNat 832 + headerAt p.rngHi.toNat 896 +
  (match modh with
    | some x => headerAt x.toNat 960 + headerAt 1 982
    | none => 0) +
  (match imm with
    | some x => headerAt x.toNat 984 + headerAt 1 1006
    | none => 0)

/-- The trap block (R51). -/
def TrapRec.block (t : TrapRec) : List Byte :=
  leBytes 8 t.cause.toNat ++ leBytes 8 t.lanes.toNat ++ leBytes 8 t.addr.toNat ++ leBytes 8 t.pc.toNat

/-- The whole record of a party with one bundle (R51). -/
def Party.record (p : Party) (b : Bundle) (reason : Nat) : List Byte :=
  let regs := (List.range 56).filter (fun i => p.live.getLsbD i)
  let body :=
    leBytes 128 (p.header b reason) ++ p.scal.flatMap (fun e => leBytes 8 e.2.toNat) ++
    p.hand.flatMap (fun e => leBytes 8 e.2.toNat) ++
    (List.range 64).flatMap (fun l => leBytes 2 (if b.mask.getLsbD l then (p.lane l).preds.toNat else 0)) ++
    (match p.trap with
      | some t => t.block
      | none => []) ++
    (match p.cb with
      | some x => leBytes 32 x.toNat
      | none => []) ++
    regs.flatMap (fun i => (List.range 64).flatMap (fun l =>
      leBytes 4 (if b.mask.getLsbD l then (Map.getD p.vregs (regKey (b.wb + i) l) 0).toNat else 0)))
  body ++ List.replicate (64 * p.flits - body.length) 0

/-! ## Leaving a core (R50, R289) -/

/-- The dirty lanes of a register, among those of a mask. -/
def Party.dirtyLanes (p : Party) (m : DWord) (r : Nat) : List Nat :=
  (lanesOf m).filter (fun l => NatSet.mem p.dirty (regKey r l) || decide ((p.lane l).dfrom ≤ r))

/-- The first register below a base that is dirty in some lane of a mask. -/
def Party.firstDirty (p : Party) (m : DWord) (wb : Nat) : Option Nat :=
  (List.range wb).find? (fun r => !(p.dirtyLanes m r).isEmpty)

/-- A register becomes clean in the lanes of a mask. -/
def Party.cleaned (p : Party) (m : DWord) (r : Nat) : Party :=
  { p with
    dirty := p.dirty.filter (fun k => decide (k / 64 ≠ r) || !m.getLsbD (k % 64)),
    lanes := (lanesOf m).foldl (fun m l =>
      let x := Map.getD m l Lane.init
      if x.dfrom = r then Map.put m l { x with dfrom := r + 1 } Lane.init else m) p.lanes }

/-- A party as its record leaves it: the live registers of the current window and nothing else; registers of outer
windows are in the window stack, the others dirty (R50, R289). -/
def Party.asRecord (p : Party) (wb : Nat) : Party :=
  let keep (k : Nat) : Bool := decide (wb ≤ k / 64) && decide (k / 64 < wb + 56) && p.live.getLsbD (k / 64 - wb)
  let marks (k : Nat) : Bool := decide (wideKey 0 ≤ k) || keep k
  { p with
    vregs := p.vregs.filter (fun e => keep e.1), poison := p.poison.filter marks, dirty := [],
    lanes := (lanesOf p.mask).foldl (fun m l =>
      Map.put m l { preds := (p.lane l).preds, lo := wb, dfrom := wb } Lane.init) [] }

/-- The outcome of writing one granule of a spill: posted, or the slot's address where no frame is found (R291). -/
inductive SpillRes where
  | done (s : State)
  | fault (va : Nat)

/-- Number under which a bundle keeps whether a page of its window-stack region at another module has a frame. -/
def slotKey (page : Nat) : Nat := 2 ^ 61 + page

/-- Pages of a region at another module that the spill of some lanes will write (R289). -/
def State.farSlots (s : State) (p : Party) (m : DWord) (wb : Nat) : List Nat :=
  if p.originDev = s.devId then []
  else (((List.range wb).filter (fun r => !(p.dirtyLanes m r).isEmpty)).map (fun r => (p.wstack + 256 * r) / 65536)).eraseDups

/-- Ask at the origin core for frames of pages, and wait for the answers (R62, R291). -/
def State.askSlots (s : State) (pid bid : Nat) (pages : List Nat) : State :=
  pages.foldl (fun s pg =>
    match s.party? pid with
    | none => s
    | some p =>
      match p.bundle? bid with
      | none => s
      | some b =>
        let req := s.keys
        let s1 := s.post p pid p.core b.mask [] (.core p.originDev p.originCore.toNat)
          (.slotQ (65536 * pg) ⟨s.devId, p.core, pid, bid, slotKey pg, req⟩)
        s1.setParty pid (p.setBundle { b with asked := b.asked ++ [req] })) s

/-- A page at another module has no frame, as the origin core has answered some bundle (R291). -/
def Party.noFrame (p : Party) (pg : Nat) : Bool :=
  p.bundles.any (fun b => decide (Map.find b.ans (slotKey pg) = some (.val 0)))

/-- Post the spill of one register of a party (R289): its dirty lanes' bytes of one granule. The region of a team of
another module is reached through the origin core (R62). -/
def State.spillReg (s : State) (pid : Nat) (p : Party) (m : DWord) (core r : Nat) : SpillRes :=
  let va := p.wstack + 256 * r
  let ls := p.dirtyLanes m r
  let data := (List.range 64).flatMap (fun l => leBytes 4 (Map.getD p.vregs (regKey r l) 0).toNat)
  let mask : List Byte := (List.range 64).flatMap (fun l => List.replicate 4 (if ls.contains l then 255 else 0))
  let bad := ls.any (fun l => NatSet.mem p.poison (regKey r l))
  let after (s : State) : State :=
    match s.party? pid with
    | some p => s.setParty pid { p.cleaned m r with spillPos := p.spillPos + 1 }
    | none => s
  if p.originDev ≠ s.devId then
    if p.noFrame (va / 65536) then .fault (va + 4 * (ls.headD 0))
    else .done (after (s.post p pid core (maskOf ls) [] (.core p.originDev p.originCore.toNat) (.spill va none data mask bad)))
  else
    let slotLoc (s : State) : Option Loc := match s.xlate (some core) p.asid va with
      | .ok l => s.locOn l va
      | _ => none
    let s1 := match slotLoc s with
      | some _ => some s
      | none => (s.wstackTeam p.asid va).bind (fun k => s.attachFrame k (va / 65536))
    match s1 with
    | none => .fault (va + 4 * (ls.headD 0))
    | some s1 =>
      match slotLoc s1 with
      | none => .fault (va + 4 * (ls.headD 0))
      | some x => .done (after (s1.post p pid core (maskOf ls) [] (s1.homeOf x) (.spill va (some x) data mask bad)))

/-- Spills of a party that have not been applied (R289). -/
def State.spillsOut (s : State) (pid : Nat) : Bool :=
  s.net.any (fun m => decide (m.party = pid) && decide (m.srcDev = s.devId) && !m.applied && (match m.body with
    | .spill _ _ _ _ _ => true
    | _ => false))

/-- Spill the dirty registers below a base in the lanes of a mask, ascending (R289); the address of the granule at which
it stops. -/
def State.spillAll (s : State) (pid : Nat) (m : DWord) (core wb : Nat) : Nat → State × Option Nat
  | 0 => (s, none)
  | n + 1 =>
    match s.party? pid with
    | none => (s, none)
    | some p =>
      match p.firstDirty m wb with
      | none => (s.setParty pid { p with spillPos := 0 }, none)
      | some r =>
        match s.spillReg pid p m core r with
        | .fault va => (s, some va)
        | .done s' => s'.spillAll pid m core wb n

/-! ## Arrival queues (R57, R58) -/

/-- A party takes its place in a core's arrival queue, or waits for slots as a head record does (R38, R43, R57). -/
def State.enqueue (s : State) (pid core : Nat) : State :=
  match s.party? pid with
  | none => s
  | some p =>
    match s.slotsFor core p.queueSlots with
    | some i => s.bump.setParty pid { p with place := .queued core, recQ := s.keys, homeCore := core, qAt := i }
    | none =>
      (s.setParty pid { p with place := .flight core, homeCore := core }).post p pid core p.mask [] (.core s.devId core) (.context pid)

/-- The records in a core's arrival queue move to its first slots, in order of slot (R58; log 115). -/
def State.packQueue (s : State) (core : Nat) : State :=
  let ms := s.net.filterMap (fun m =>
    if m.sent && !m.applied && decide (m.dst = .core s.devId core) then
      match m.body with
      | .context pid => (s.party? pid).map (fun p => (m.qAt, p.queueSlots))
      | .slots n => some (m.qAt, n)
      | _ => none
    else none)
  let ps := s.parties.filterMap (fun e => if e.2.place = .queued core then some (e.2.qAt, e.2.queueSlots) else none)
  let all := sortBy (fun x y => decide (x.1 ≤ y.1)) (ps ++ ms)
  let to' (i : Nat) : Nat := sumBy (fun x => x.2) (all.takeWhile (fun x => decide (x.1 < i)))
  { s with
    parties := s.parties.map (fun e => if e.2.place = .queued core then (e.1, { e.2 with qAt := to' e.2.qAt }) else e),
    net := s.net.map (fun (m : Msg) =>
      if m.sent && !m.applied && m.body.takesSlots && decide (m.dst = .core s.devId core) then { m with qAt := to' m.qAt }
      else m) }

/-- Blocks that a queue no longer needs return to the pool (R58). -/
def State.shrinkQueue (s : State) (core : Nat) : State :=
  let c := s.core core
  if c.blocks ≠ 0 ∧ s.queueUsed core ≤ 16 then
    let k := core / 32
    let st := s.stk k
    ((s.setCore core { c with blocks := 0 }).setStk k { st with poolUsed := st.poolUsed - c.blocks }).packQueue core
  else s

/-- The blocks of every queue return whose occupied slots have fallen, in a step from `old`, to what the queue itself holds (R58). -/
def State.returnBlocks (s old : State) : State :=
  (s.cores.filter (fun e => decide (e.2.blocks ≠ 0) && decide (s.queueUsed e.1 < old.queueUsed e.1))).foldl (fun s e => s.shrinkQueue e.1) s

end Sys2Proof.Machine
end

