-- ==== Sys2Proof/Machine/Migration.lean ====
section
/-!
DEFINITION. Departures and arrivals (R45, R46, R56, R57), the stack steward's queues (R58, R59), lineage counts (R54),
parking and whole-team saves (R38, R39, R327), and messages that are applied at their homes and acknowledged (R56, R75).
-/

namespace Sys2Proof.Machine

open Host

/-! ## Departure (R46, R56, R289) -/

/-- A message that a departure to another home waits for (R56): a store, posted operation, memory-side operation or
ticket fetch. -/
def MsgBody.isOp : MsgBody → Bool
  | .write _ _ _ => true
  | .elem _ _ _ _ _ => true
  | .atomic _ _ _ _ _ _ => true
  | .fetch _ => true
  | .att _ _ _ _ _ => true
  | .mso _ _ _ _ => true
  | .version _ _ _ _ _ => true
  | .block _ _ _ _ => true
  | .spill _ _ _ _ _ => true
  | .launch _ _ _ _ _ _ _ _ => true
  | .away _ _ _ _ => true
  | _ => false

/-- Operations of a party to homes other than the one it departs to are outstanding (R56). -/
def State.mustWait (s : State) (pid : Nat) (p : Party) (h : Home) : Bool :=
  s.net.any (fun m => m.ofParty pid p && decide (m.srcDev = s.devId) && m.body.isOp && decide (m.dst ≠ h))

/-- A party's record stands in an outbox. -/
def State.recordOut (s : State) (pid : Nat) : Bool :=
  s.net.any (fun m => match m.body with
    | .context q => decide (q = pid)
    | _ => false)

/-- A group of a split is still to form its record (R53). -/
def State.yetToForm (s : State) (pid : Nat) : Bool :=
  match s.party? pid with
  | none => false
  | some p => p.bundles.any Bundle.departs && !s.recordOut pid

/-- A party that has left its slot: it is in no list of the core. -/
def State.leaveCore (s : State) (pid : Nat) : State := { s with halts := s.halts.filter (fun h => decide (h.1 ≠ pid)) }

/-- The record of a departing party is formed and placed in the outbox FIFO for its destination (R46, R50). -/
def State.formRecord (s : State) (pid : Nat) (p : Party) (b : Bundle) (h : Home) : State :=
  let core := p.core
  let p1 := { p.asRecord b.wb with
    place := .flight core, homeCore := core, level := 0, starving := false, stopBy := false, haltBy := false, behind := [] }
  ((s.leaveCore pid).setParty pid p1).post p1 pid core p1.mask [] h (.context pid)

/-- A departing group of a split, which holds no slot (R23, R46). -/
def Party.leaving (p : Party) : Bool :=
  match p.place with
  | .flight _ => p.bundles.any Bundle.departs
  | _ => false

/-- DEPART_RECORD: with every flag clear, the lineage's count acknowledged and the outer windows spilled, the record is
formed once the operations to other homes are acknowledged and the groups of its split before it have formed theirs (R46,
R53, R54, R56); the outer windows are spilled before it (R289), and a spill that finds no frame traps NOT_PRESENT (R291). -/
def execDepartRecord (pid : Nat) (s : State) : Outcome State Fault Refusal :=
  match s.party? pid with
  | none => .next s
  | some p =>
    match p.bundles with
    | [b] =>
      match b.phase with
      | .departing h =>
        if b.asked ≠ [] ∨ p.pend ≠ [] ∨ s.recordOut pid ∨ s.mustWait pid p h ∨ p.behind.any s.yetToForm ∨
            (p.resident && !p.isActive) ∨ (!p.resident && !p.leaving) then .next s
        else if (s.farSlots p p.mask b.wb).any (fun pg => (Map.find b.ans (slotKey pg)).isNone) then
          .next (s.askSlots pid b.id ((s.farSlots p p.mask b.wb).filter (fun pg => (Map.find b.ans (slotKey pg)).isNone)))
        else
          match s.spillAll pid p.mask p.core b.wb (b.wb + 1) with
          | (s1, some va) =>
            let s2 := if p.resident then s1 else s1.enqueue pid p.core
            let pc := match b.run with
              | some r => r.start
              | none => b.pc
            .next (s2.raise pid b.id (allTrap (lanesOf b.mask) cNotPresent (BitVec.ofNat 64 va)) pc false)
          | (s1, none) =>
            match s1.party? pid with
            | none => .next s1
            | some p1 => if s1.mustWait pid p1 h then .next s1 else .next (s1.formRecord pid p1 b h)
      | _ => .next s
    | _ => .next s

/-! ## Sending (R56, R57, R361) -/

/-- Class of the packet that carries a message (R361). -/
def MsgBody.cls : MsgBody → PClass
  | .context _ => .context
  | .fetch _ => .fetch
  | .att _ _ _ _ _ => .fetch
  | .heldRead _ _ _ _ _ => .fetch
  | .heldElem _ _ _ => .fetch
  | .hostRead _ _ _ => .fetch
  | .fill _ _ _ => .fetch
  | .claim _ _ _ _ _ => .redeem
  | .test _ _ _ _ _ => .redeem
  | .confirm _ _ => .redeem
  | .cancel _ _ => .redeem
  | .trel _ _ => .redeem
  | .mso _ _ _ _ => .mso
  | .ticketValue _ _ _ => .data
  | .claimAns _ _ _ _ _ => .data
  | _ => .posted

/-- A message that answers another and is not itself answered. -/
def MsgBody.isReply : MsgBody → Bool
  | .ticketValue _ _ _ => true
  | .claimAns _ _ _ _ _ => true
  | _ => false

/-- Mark a message sent. -/
def State.markSent (s : State) (id : Nat) : State :=
  { s with net := mapWhere (fun m => decide (m.id = id)) (fun (m : Msg) => { m with sent := true }) s.net }

/-- A head record that waits for slots comes before another (R279): by the time from which it waits, then its source. -/
def Msg.waitsBefore (x m : Msg) : Bool :=
  decide (x.waited < m.waited) || (decide (x.waited = m.waited) &&
    (decide (x.srcDev.toNat < m.srcDev.toNat) || (decide (x.srcDev = m.srcDev) && decide (x.src < m.src))))

/-- The slots that a head record may reserve in a core's queue: `n` consecutive free ones, unless another head record
waits for slots there before it (R57, R279). -/
def State.mayReserve (s : State) (m : Msg) (core n : Nat) : Option Nat :=
  if s.net.any (fun x => decide (x.id ≠ m.id) && x.asked && !x.sent && x.body.takesSlots && decide (x.dst = m.dst) &&
      s.deliverable x && (!m.asked || x.waitsBefore m)) then none
  else s.queueRun core n

/-- A head record that finds no room begins to wait (R279). -/
def State.beginWait (s : State) (m : Msg) : State :=
  if m.asked then s
  else { s with net := mapWhere (fun x => decide (x.id = m.id)) (fun (x : Msg) => { x with asked := true, waited := s.ns }) s.net }

/-- A head record has reserved its slots: it is sent (R57). -/
def State.reserveAt (s : State) (id at_ : Nat) : State :=
  { s with net := mapWhere (fun m => decide (m.id = id)) (fun (m : Msg) => { m with sent := true, qAt := at_ }) s.net }

/-- Slots that a message asks for at its destination here. -/
def State.slotsOf (s : State) (m : Msg) : Option Nat :=
  match m.body with
  | .context pid => (s.party? pid).map (fun p => p.queueSlots)
  | .slots n => some n
  | _ => none

/-- Records that have come to the front of their FIFO and find no slots begin to wait in this clk (R279). -/
def State.noteHeads (s : State) : State :=
  { s with net := s.net.map (fun (m : Msg) =>
      match m.dst, s.slotsOf m with
      | .core d c, some n =>
        if d = s.devId ∧ !m.asked ∧ !m.sent ∧ s.deliverable m ∧ (s.mayReserve m c n).isNone then
          { m with asked := true, waited := s.ns } else m
      | _, _ => m) }

/-- OUTBOX_HEAD_SEND: the front of an outbox FIFO goes out: a record once its destination queue has reserved its slots
(R57), any message to another module as a packet (R361). Slots that another module has asked for are granted here. -/
def execOutboxHeadSend (msg : Nat) (s : State) : Outcome State Fault Refusal :=
  match s.msg? msg with
  | none => .next s
  | some m =>
    if m.sent || !s.deliverable m then .next s
    else
      match m.dst with
      | .port _ => .next s
      | .core dev core =>
        if dev = s.devId then
          (match m.body with
            | .context pid =>
              (match s.party? pid with
                | none => .next (s.dropMsg msg)
                | some p =>
                  match s.mayReserve m core p.queueSlots with
                  | some i => .next (s.reserveAt msg i)
                  | none => .next (s.beginWait m))
            | .slots n =>
              (match s.mayReserve m core n with
                | some i => .next ((s.reserveAt msg i).sendPacket m.srcDev m.src core .ack 1 m.orig (.granted m.orig))
                | none => .next (s.beginWait m))
            | _ => .next s)
        else
          (match m.body with
            | .context pid =>
              (match s.party? pid with
                | none => .next (s.dropMsg msg)
                | some p =>
                  if m.asked then .next s
                  else
                    let s1 := { s with net := mapWhere (fun x => decide (x.id = msg)) (fun (x : Msg) => { x with asked := true }) s.net }
                    .next (s1.sendPacket dev core m.src .ack 1 msg (.reserve msg p.queueSlots)))
            | b =>
              let r := b.isReply
              let s1 := s.sendPacket dev core m.src b.cls b.flits msg (.request { m with orig := if r then 0 else msg })
              .next (if r then s1.dropMsg msg else s1.markSent msg))

/-! ## Arrival (R57, R60, R62) -/

/-- A bundle whose record has arrived begins its continuation run there (R47). -/
def Bundle.arrive (b : Bundle) (clk : Nat) : Bundle :=
  match b.phase with
  | .departing _ => { b with phase := .fetched, since := clk, stalled := false, ans := [] }
  | _ => b

/-- ARRIVAL_ACCEPT: a record is accepted into its arrival queue (R57). A `rejoin` whose barrier stands here has then
arrived (R60). A record from another module whose ASID has no context here goes back (R62). -/
def execArrivalAccept (msg : Nat) (s : State) : Outcome State Fault Refusal :=
  match s.msg? msg with
  | none => .next s
  | some m =>
    match m.body, m.dst with
    | .context pid, .core dev core =>
      match s.party? pid with
      | none => .next s
      | some p =>
        if dev ≠ s.devId || !m.sent || !s.deliverable m then .next s
        else if m.srcDev ≠ s.devId && !s.asidValid p.asid then
          let s1 := s.sendPacket m.srcDev m.src core .ack p.flits m.orig (.returned m.orig)
          .next { s1 with net := s1.net.filter (fun x => decide (x.id ≠ msg)), parties := Map.erase s1.parties pid }
        else
          let clk := s.clk core
          let s1 := (s.dropMsg msg).tallyHist 4 0 (if m.srcDev = s.devId then 0 else m.waited)
          let p1 := { p with place := .queued core, recQ := s1.keys, qAt := m.qAt, homeCore := core, bundles := p.bundles.map (fun b => b.arrive clk) }
          let s2 := s1.bump.setParty pid p1
          .next (match p.rejoin with
            | some r => if r.dev = s.devId ∧ r.core = core then s2.arriveRejoin pid core r.bar r.timed r.timeout else s2
            | none => s2)
    | _, _ => .next s

/-- The queued record that enters next: the highest PRIORITY, then the order of arrival (R57). -/
def State.nextQueued (s : State) (core : Nat) : Option (Nat × Party) :=
  let l := s.parties.filter (fun e => decide (e.2.place = .queued core) && !e.2.wantPark)
  let top := l.foldl (fun a e => max a e.2.priority.toNat) 0
  leastBy (fun e => e.2.recQ) (l.filter (fun e => decide (e.2.priority.toNat = top)))

/-- ARRIVAL_ADMIT: a queued record enters a free party slot and is READY (R57); a stopped core admits none (R333). -/
def execArrivalAdmit (core : Nat) (s : State) : Outcome State Fault Refusal :=
  if s.freeSlots core = 0 ∨ (s.core core).stopped then .next s
  else
    match s.nextQueued core with
    | none => .next s
    | some (pid, p) =>
      let clk := s.clk core
      let p1 := { p with place := .slot core .ready, readyAt := clk, beganAt := clk, level := 0, starving := false, homeCore := core,
                         live := BitVec.allOnes 56 }
      .next ((s.setParty pid p1).shrinkQueue core)

/-! ## The steward (R58, R59) -/

/-- A record that waits for slots of a core's queue. -/
def State.queueFull (s : State) (core : Nat) : Bool :=
  s.net.any (fun m => decide (m.dst = .core s.devId core) && !m.sent && s.deliverable m &&
    (match m.body with
      | .context pid => (match s.party? pid with
          | some p => (s.queueRun core p.queueSlots).isNone
          | none => false)
      | .slots n => (s.queueRun core n).isNone
      | _ => false))

/-- Cores of a stack that are in service. -/
def State.stackCores (s : State) (k : Nat) : List Nat :=
  ((List.range 32).map (fun i => 32 * k + i)).filter (fun c => !(s.core c).dead)

/-- Every party slot of a stack is held by a BLOCKED party and some queue is full (R58). -/
def State.jammed (s : State) (k : Nat) : Bool :=
  (s.stackCores k).all (fun c =>
    let r := s.residents c
    decide (32 ≤ r.length) && r.all (fun e => e.2.isBlocked)) &&
  (s.stackCores k).any s.queueFull

/-- A record at the head of its FIFO reserves its slots, where it may. -/
def State.reserveHead (s : State) (m : Msg) (core : Nat) : Option State :=
  (s.slotsOf m).bind (fun n => (s.mayReserve m core n).map (fun i => match m.body with
    | .slots _ => (s.reserveAt m.id i).sendPacket m.srcDev m.src core .ack 1 m.orig (.granted m.orig)
    | _ => s.reserveAt m.id i))

/-- Waiting head records of a queue reserve its slots in the order in which they began to wait, as far as there is room (R279). -/
def State.reserveHeads (core : Nat) : Nat → State → State
  | 0, s => s
  | n + 1, s =>
    match s.net.findSome? (fun m =>
      if m.asked && !m.sent && m.body.takesSlots && decide (m.dst = .core s.devId core) && s.deliverable m then s.reserveHead m core
      else none) with
    | some t => t.reserveHeads core n
    | none => s

/-- Enlarge the full queue with the fewest slots, the lower core of equals (R58); the records that wait for them take the slots
(R279). -/
def State.enlarge (s : State) (k : Nat) : Option State :=
  let st := s.stk k
  if 1024 ≤ st.poolUsed then none
  else
    match leastBy s.queueSize ((s.stackCores k).filter s.queueFull) with
    | none => none
    | some c =>
      let x := s.core c
      let t := ((s.setCore c { x with blocks := x.blocks + 1 }).setStk k { st with poolUsed := st.poolUsed + 1 }).tally 5 k
      some (t.reserveHeads c t.net.length)

/-- A party that a park may take now or later: it is in no open `rejoin` round (R329). -/
def Party.parkable (p : Party) : Bool :=
  p.seed.isNone && p.bundles.all (fun b => match b.phase with
    | .held (.rejoin _ _) => false
    | _ => true)

/-- Park the party of a stack that has been BLOCKED longest (R59), the first listed of equals (log 144). -/
def State.parkOldest (s : State) (k : Nat) : State :=
  let l := (s.stackCores k).flatMap (fun c => (s.residents c).filter (fun e => e.2.isBlocked && e.2.parkable && !e.2.wantPark))
  let age (e : Nat × Party) : Nat := if e.2.blockedNs.1 = e.2.blockedAt then s.ns - e.2.blockedNs.2 else 0
  let top := l.foldl (fun a e => max a (age e)) 0
  match l.find? (fun e => decide (age e = top)) with
  | none => s
  | some (pid, p) =>
    let st := s.stk k
    ((s.setParty pid { p with wantPark := true }).setStk k { st with parked := st.parked ++ [(pid, p.core)] }).tally 6 k

/-- The step of R58 or R59, whichever applies. -/
def State.relieve (s : State) (k : Nat) : State := (s.enlarge k).getD (s.parkOldest k)

/-- STEWARD_EVALUATION: once every 1 µs the steward relieves a jammed stack, or raises QUEUE_FULL (R58, R59, R319). -/
def execStewardEvaluation (stack : Nat) (s : State) : Outcome State Fault Refusal :=
  let st := s.stk stack
  if 16 ≤ stack ∨ s.ns < st.evalAt + 1000 then .next s
  else
    let s1 := s.setStk stack { st with evalAt := s.ns }
    if !s1.jammed stack then .next s1
    else if s.regs.funcMode.getLsbD 2 then
      if st.qfull then .next s1
      else
        let core := (((s1.stackCores stack).filter s1.queueFull).head?).getD (32 * stack)
        .next ((s1.setStk stack { s1.stk stack with qfull := true }).raiseEvent {
          type := 3, asid := 0, core := core, addr := 0, aux := 0, subj := .queue stack })
    else .next (s1.relieve stack)

/-! ## Parking (R38, R327) -/

/-- Slots of a parking pool (R327): 16 KiB each. -/
def State.parkSlots (s : State) (k : Nat) : Nat := 4 * ((s.stk k).parkCnt.toNat % 2 ^ 32)

/-- First byte of a parking slot. -/
def State.slotBase (s : State) (k slot : Nat) : Nat := (s.stk k).parkBase.toNat + 16384 * slot

/-- The lowest free slot of a pool. -/
def State.freePark (s : State) (k : Nat) : Option Nat :=
  let st := s.stk k
  (List.range (min (s.parkSlots k) (st.slots.length + 4 * st.blocks.length + 1))).find?
    (fun i => !NatSet.mem st.slots i && !NatSet.mem st.blocks (i / 4))

/-- A request whose answer an abandoned run does not need. -/
def MsgBody.isQuery : MsgBody → Bool
  | .claim _ _ _ _ _ => true
  | .test _ _ _ _ _ => true
  | .hostRead _ _ _ => true
  | .frameReq _ _ _ _ _ _ _ => true
  | .lineageQ _ _ => true
  | .handleQ _ _ _ _ => true
  | .slotAsk _ _ _ _ _ _ => true
  | .phaseQ _ _ _ => true
  | _ => false

/-- A bundle may be brought to a run boundary now: what it still waits for belongs to a run (R38). An arrival at a barrier
has been withdrawn; a bundle that its round has released goes on to its next boundary (R329). -/
def State.parkBundle (s : State) (b : Bundle) : Bool :=
  b.asked.all (fun i => match s.msg? i with
    | none => true
    | some m => m.body.isQuery) &&
  (match b.phase with
    | .departing _ => false
    | .held (.barrier _ _) => (Map.find b.ans 69).isSome
    | .running => (Map.find b.ans 64).isNone || (match Map.find b.ans 64 with
        | some (.val _) => true
        | _ => false)
    | _ => true)

/-- A bundle of a party that is to be parked waits at a barrier, and its withdrawal has not been asked for (R329). -/
def Bundle.toWithdraw (b : Bundle) : Option (BarRef × Nat) :=
  match b.phase with
  | .held (.barrier x q) => if b.asked.isEmpty && (Map.find b.ans 69).isNone then some (x, q) else none
  | _ => none

/-- Ask the home of a barrier to withdraw the arrival of a bundle that a park waits for (R329). -/
def State.askWithdraw (s : State) (pid : Nat) (p : Party) (b : Bundle) (x : BarRef) (q : Nat) : State :=
  let req := s.keys
  let s1 := s.bump.post p pid p.core b.mask [] (s.barHome p x) (.withdraw x ⟨s.devId, p.core, pid, b.id, 64, q⟩ req)
  s1.setParty pid (p.setBundle { b with asked := [req] })

/-- Bring every bundle of a party to its restart point (R28, R38). -/
def State.toBoundary (s : State) (pid : Nat) (p : Party) : State :=
  let s1 := p.bundles.foldl (fun s b => s.abandon pid b.id b.mask) s
  match s1.party? pid with
  | none => s1
  | some q =>
    let clk := s1.clk q.core
    let one (b : Bundle) : Bundle := match b.phase with
      | .waiting => b
      | _ => b.restart b.id b.mask clk []
    -- a record has one window base: lanes of different bases go into records of their own (R52)
    let split (b : Bundle) : List Bundle :=
      let plain (r : Run) : Run := { r with wb0 := [], ov := { r.ov with wb := [] } }
      (byBase b.baseOf (lanesOf b.mask)).zipIdx.map (fun e =>
        { b with id := if e.2 = 0 then b.id else s1.keys + 64 * b.id + e.2, mask := maskOf e.1.2, wb := e.1.1, run := b.run.map plain })
    let mixed (b : Bundle) : Bool := b.run.any (fun r => !r.wb0.isEmpty)
    let bs := (q.bundles.map one).flatMap (fun b => if mixed b then split b else [b])
    let keys := if (q.bundles.map one).any mixed then s1.keys + 64 * (s1.keys + 1) else s1.keys
    ({ s1 with keys := keys }.leaveCore pid).setParty pid { q with bundles := bs, haltBy := false, stopBy := false }

/-- A grid belongs to a launch or descends from it (R328). -/
def State.inLaunch (s : State) (launch : BitVec 32) (asid : BitVec 16) : Nat → BitVec 32 → Bool
  | 0, _ => false
  | n + 1, g =>
    match s.grid? g with
    | none => false
    | some x =>
      if x.launch = launch ∧ x.asid = asid then true
      else
        match x.parent with
        | none => false
        | some p => s.inLaunch launch asid n p

/-- LAUNCH_ID of PREEMPT_CTL (R328). -/
def Regs.preLaunch (r : Regs) : BitVec 32 := field r.preempt 0 32
/-- ASID of PREEMPT_CTL. -/
def Regs.preAsid (r : Regs) : BitVec 16 := field r.preempt 32 16
/-- STATUS of PREEMPT_CTL replaced. -/
def Regs.preStatus (r : Regs) (k : Nat) : Regs :=
  { r with preempt := (r.preempt &&& ~~~((7 : DWord) <<< 56)) ||| (BitVec.ofNat 64 k <<< 56) }

/-- The launch that PREEMPT_CTL names covers a grid (R328). -/
def State.preempted (s : State) (g : BitVec 32) : Bool := s.inLaunch s.regs.preLaunch s.regs.preAsid 16 g

/-- A PARK of PREEMPT_CTL finds no room: what has not been parked stays resident, and STATUS says so (R328). -/
def State.noSpace (s : State) : State :=
  let r := s.regs
  if r.preempt.getLsbD 63 ∧ field r.preempt 48 2 = 0 then
    let kept (g : BitVec 32) : Bool := s.preempted g
    let steward (pid : Nat) : Bool := s.stks.any (fun (e : Nat × Stack) => e.2.parked.any (fun x => decide (x.1 = pid)))
    let off (e : Nat × Party) : Bool := e.2.wantPark && kept (e.2.gridAt s.devId) && !steward e.1
    let s1 := { s with
      regs := r.preStatus 2,
      teams := s.teams.map (fun (e : Nat × Team) => if kept e.2.grid then (e.1, { e.2 with wantSave := false }) else e),
      parties := s.parties.map (fun (e : Nat × Party) =>
        if off e then (e.1, Party.ready { e.2 with wantPark := false, bundles := e.2.bundles.map Bundle.again } (s.clk e.2.core))
        else e) }
    (s.parties.filter off).foldl (fun s e => match e.2.place with
      | .flight c => if s.recordOut e.1 || e.2.leaving then s else s.enqueue e.1 c
      | _ => s) s1
  else s

/-- A park that does not come about leaves the party resident (R291, R327); its lineage no longer counts the records that
its bundles would have made (R54). -/
def State.failPark (s : State) (pid : Nat) : State :=
  let s1 := { s with stks := s.stks.map (fun (e : Nat × Stack) => (e.1, { e.2 with parked := e.2.parked.filter (fun x => decide (x.1 ≠ pid)) })) }
  match s1.party? pid with
  | none => s1
  | some p =>
    let n : Int := 1 - (p.bundles.length : Int)
    let s1 := if p.counted then (s1.holdIf p pid p.core n).countMsg p pid p.core n else s1
    let fresh (b : Bundle) : Bundle := { b with ans := b.ans.filter (fun e => decide (e.1 < slotKey 0)) }
    let s2 := s1.setParty pid (Party.ready { p with
      wantPark := false, counted := false, bundles := p.bundles.map (fun b => (fresh b).again) } (s1.clk p.core))
    match p.place with
    | .flight c => if s1.recordOut pid || p.leaving then s2 else s2.enqueue pid c
    | _ => s2

/-- Write one bundle's record into a slot of the pool of its stack: the bundle is a parked party from now on (R38, R52,
R327). -/
def State.writeRecord (s : State) (pid : Nat) (p : Party) (b : Bundle) (i : Nat) : State :=
  let k := p.core / 32
  let st := s.stk k
  let p1 := { p.part b.mask [b] with live := BitVec.allOnes 56, trap := p.trap }
  let s1 := (s.setStk k { st with slots := NatSet.add st.slots i }).store Who.part (s.slotBase k i) (p1.record b 1)
  let p2 := { p1.asRecord b.wb with
    place := .parked k i, homeCore := p.core, wantPark := false, counted := false, level := 0, starving := false }
  s1.setParty pid p2

/-- A further record of a party that the steward parks is the steward's as well (R59). -/
def State.stewardsToo (s : State) (pid new core : Nat) : State :=
  { s with stks := s.stks.map (fun (e : Nat × Stack) =>
      if e.2.parked.any (fun x => decide (x.1 = pid)) then (e.1, { e.2 with parked := e.2.parked ++ [(new, core)] }) else e) }

/-- Write the records of a party's bundles, one for each; the pool lacks room for them otherwise (R52, R327). -/
def State.writeRecords (s : State) (pid : Nat) (p : Party) : List Bundle → State
  | [] => (s.leaveCore pid).shrinkQueue p.core
  | b :: rest =>
    match s.freePark (p.core / 32) with
    | none => s
    | some i =>
      let first := decide (p.bundles.head? = some b)
      let id := if first then pid else s.keys
      let s1 := if first then s else (s.bump.stewardsToo pid id p.core)
      (s1.writeRecord id p b i).writeRecords pid p rest

/-- The pool of a stack has `n` free slots. -/
def State.parkRoom (s : State) (k : Nat) : Nat → Bool
  | 0 => true
  | n + 1 =>
    match s.freePark k with
    | none => false
    | some i => State.parkRoom (s.setStk k { s.stk k with slots := NatSet.add (s.stk k).slots i }) k n

/-- Spill the outer windows of each bundle, ending at the first that finds no frame (R289, R291). -/
def State.spillBundles (s : State) (pid core : Nat) : List Bundle → State × Bool
  | [] => (s, true)
  | b :: rest =>
    match s.spillAll pid b.mask core b.wb (b.wb + 1) with
    | (s1, some _) => (s1, false)
    | (s1, none) => s1.spillBundles pid core rest

/-- PARK_WRITE: a party that is to be parked comes to its run boundaries; its lineage counts the records it is to make, one
for each bundle; its outer windows are spilled, and its records are written (R38, R52, R54, R289, R291, R327). -/
def execParkWrite (pid : Nat) (s : State) : Outcome State Fault Refusal :=
  match s.party? pid with
  | none => .next s
  | some p =>
    match (if p.wantPark && p.parkable then p.bundles.findSome? (fun b => b.toWithdraw.map (fun x => (b, x))) else none) with
    | some (b, x) => .next (s.askWithdraw pid p b x.1 x.2)
    | none =>
    if !p.wantPark || !p.parkable || !p.bundles.all s.parkBundle || p.pend.any (fun o => o.committed) || s.recordOut pid then .next s
    else if p.bundles.any (fun b => decide (b.phase ≠ .waiting) && !(decide (b.phase = .fetched) && (match b.run with
        | some r => r.cont
        | none => false))) then .next (s.toBoundary pid p)
    else if p.bundles.any (fun b => decide (b.asked ≠ [])) then .next s
    else if 1 < p.bundles.length ∧ !p.counted then
      let n : Int := (p.bundles.length : Int) - 1
      let s1 := (s.holdIf p pid p.core n).countMsg p pid p.core n
      .next (s1.setParty pid { p with counted := true, bundles := p.bundles.map (fun b => { b with asked := [s1.keys - 1] }) })
    else
      let need := p.bundles.flatMap (fun b =>
        ((s.farSlots p b.mask b.wb).filter (fun pg => (Map.find b.ans (slotKey pg)).isNone)).map (fun pg => (b.id, pg)))
      if !need.isEmpty then .next (need.foldl (fun s e => s.askSlots pid e.1 [e.2]) s)
      else
      match s.spillBundles pid p.core p.bundles with
      | (s1, false) => .next (s1.failPark pid)
      | (s1, true) =>
        match s1.party? pid with
        | none => .next s1
        | some p1 =>
          if s1.spillsOut pid then .next s1
          else if s1.parkRoom (p1.core / 32) p1.bundles.length then .next (s1.writeRecords pid p1 p1.bundles)
          else .next (if s1.preempted (p1.gridAt s1.devId) then (s1.failPark pid).noSpace else s1.failPark pid)

/-- A record leaves its slot of a parking pool, which is free with byte 0 at 0 (R327). -/
def State.freeSlotOf (s : State) (k i : Nat) : State :=
  (s.setStk k { s.stk k with slots := NatSet.del (s.stk k).slots i }).store Who.part (s.slotBase k i) [0]

/-- A parked party arrives at a core's arrival queue; the driver may have changed its PRIORITY (R38, R52, R327). -/
def State.unpark (s : State) (pid core : Nat) : State :=
  match s.party? pid with
  | none => s
  | some p =>
    match p.place with
    | .parked k i =>
      let st := s.stk k
      let prio := BitVec.ofNat 2 (memByte s.mem (s.slotBase k i + 5)).toNat
      let s1 := (s.setStk k { st with parked := st.parked.filter (fun x => decide (x.1 ≠ pid)) }).freeSlotOf k i
      (s1.setParty pid { p with priority := prio }).enqueue pid core
    | _ => s

/-- STEWARD_RESUME: the oldest party that the steward has parked and whose former core has a free slot and an empty
queue resumes there (R59). -/
def execStewardResume (stack : Nat) (s : State) : Outcome State Fault Refusal :=
  let ok (x : Nat × Nat) : Bool := decide (s.freeSlots x.2 ≠ 0) && decide (s.queueUsed x.2 = 0) &&
    (match s.party? x.1 with
      | some p => (match p.place with
          | .parked _ _ => true
          | _ => false)
      | none => false)
  match (s.stk stack).parked.find? ok with
  | none => .next s
  | some (pid, core) => .next (s.unpark pid core)

/-! ## Whole teams (R39, R327) -/

/-- Copy a 64 KiB frame as a state `old` holds it; poison goes with its granules (R335). -/
def State.copyFrameOf (s old : State) (src dst : Nat) : State :=
  let cells := old.mem.filter (fun e => decide (src ≤ e.1) && decide (e.1 < src + 65536))
  let bad := old.poison.filter (fun g => decide (src / 64 ≤ g) && decide (g < src / 64 + 1024))
  { s with
    mem := cells.foldl (fun m e => memPut m (e.1 - src + dst) e.2) (zeroFrame s.mem dst),
    poison := bad.foldl (fun p g => NatSet.add p (g - src / 64 + dst / 64))
      (s.poison.filter (fun g => !(decide (dst / 64 ≤ g) && decide (g < dst / 64 + 1024)))) }

/-- Copy 64 KiB from one frame to another. -/
def State.copyFrame (s : State) (src dst : Nat) : State := s.copyFrameOf s src dst

/-- First byte of a 64 KiB block of a cluster's scratchpad. -/
def scratchBlock (cluster b : Nat) : Nat := scratchBase + cluster * 2 ^ 23 + b * 65536

/-- The lowest run of `n` free blocks in a parking pool (R327). -/
def State.freeRun (s : State) (k n : Nat) : Option Nat :=
  let st := s.stk k
  let total := st.parkCnt.toNat % 2 ^ 32
  let free (j : Nat) : Bool := !NatSet.mem st.blocks j && (List.range 4).all (fun i => !NatSet.mem st.slots (4 * j + i))
  (List.range (min total (4 * (st.slots.length + st.blocks.length + 1) * n))).find? (fun j =>
    decide (j + n ≤ total) && (List.range n).all (fun i => free (j + i)))

/-- Blocks that a team's save takes: the sequencer state, the scratchpad and the tiles (log 27). -/
def Team.saveBlocks (t : Team) : Nat := 1 + t.blocks.length + ceilDiv (4096 * t.tiles.length) 65536

/-- A page is one of a team's scratchpad. -/
def Team.holdsLeaf (t : Team) (l : Leaf) : Bool :=
  match l.target with
  | .scratch cl off => decide (cl = t.cluster) && t.blocks.contains (off / 65536)
  | _ => false

/-- An engine operation works on a team's scratchpad (R32, R39). -/
def EngOp.onTeam (o : EngOp) (t : Team) : Bool := o.leaves.any t.holdsLeaf

/-- No engine operation works on a team's scratchpad; one of another module shows by its range locks here (R82). -/
def State.enginesOff (s : State) (t : Team) : Bool :=
  s.engines.all (fun e => e.2.ops.all (fun o => !o.onTeam t)) &&
  s.locks.all (fun k => decide (k.dev = s.devId) || !t.holdsLeaf k.leaf)

/-- The sequencer of a team stands at a word boundary with nothing in progress (R39, R256). -/
def Team.seqIdle (t : Team) : Bool :=
  match t.seqr with
  | none => true
  | some q => q.work.isEmpty && decide (q.step = 0)

/-- A byte lies in a window-stack frame of a team. -/
def Team.inFrame (t : Team) (pa : Nat) : Bool := t.frames.any (fun e => decide (e.2 ≤ pa) && decide (pa < e.2 + 65536))

/-- An engine works on a team's window-stack frames: they stay where they are (R288). -/
def State.framesBusy (s : State) (t : Team) : Bool :=
  s.engines.any (fun e => e.2.ops.any (fun o => o.leaves.any (fun l => match s.locOn l l.base with
    | some x => t.inFrame x.pa
    | none => false)))

/-- The image of a sequencer's state in a save: its layout is not given (R327; log 27). -/
def State.saveSeqr (s : State) (t : Team) (at_ : Nat) : State :=
  if t.seqr.isNone then s
  else { s with
    free := s.free + 65536,
    mem := memPuts s.mem at_ ((List.range 65536).map (fun i => Config.seqImage (s.free + i))) }

/-- Bytes of a team's scratchpad by the team's name: accesses to them are held while it is saved (R39). -/
def State.unplaced (s : State) (t : Team) (x : Loc) : Loc :=
  match regionOf x.pa, s.grid? t.grid with
  | .scratch cl off, some g =>
    if x.dev = s.devId ∧ cl = t.cluster ∧ t.blocks.contains (off / 65536) then
      let va := g.rcd.scratchWin + t.id.toNat * g.rcd.stride + t.blocks.idxOf (off / 65536) * 65536 + off % 65536
      ⟨x.dev, windowPa (heldCore t.id.toNat) t.grid va⟩
    else x
  | _, _ => x

/-- TEAM_SAVE: once its parties are parked, no engine works on its scratchpad and its sequencer stands at a word boundary,
a team's scratchpad and tiles are saved and its cluster is free; the accesses of others that are on their way to its scratchpad are
held until it is placed again (R39, R327). -/
def execTeamSave (team : Nat) (s : State) : Outcome State Fault Refusal :=
  match Map.find s.teams team with
  | none => .next s
  | some t =>
    let parked := (s.membersOf team).all (fun e => match e.2.place with
      | .parked _ _ => true
      | _ => false)
    if !t.wantSave || t.saved.isSome || !parked || !s.enginesOff t || !t.seqIdle then .next s
    else
      match s.freeRun t.stack t.saveBlocks with
      | none => .next (State.noSpace { s with teams := Map.insert s.teams team { t with wantSave := false } })
      | some j =>
        let st := s.stk t.stack
        let at_ (i : Nat) : Nat := st.parkBase.toNat + 65536 * (j + i)
        let s1 := t.blocks.zipIdx.foldl (fun s b => s.copyFrame (scratchBlock t.cluster b.1) (at_ (1 + b.2))) s
        let s2 := (List.range t.tiles.length).foldl (fun (s : State) a =>
          let bytes := (List.range 1024).flatMap (fun e => leBytes 4 (Map.getD s.tiles (t.tileKey a e) 0).toNat)
        { s with mem := memPuts s.mem (at_ (1 + t.blocks.length) + 4096 * a) bytes }) s1
        let s2 := s2.saveSeqr t (at_ 0)
        let s3 := s2.repoint (s2.unplaced t)
        .next { s3.setStk t.stack { s3.stk t.stack with
            blocks := (List.range t.saveBlocks).foldl (fun b i => NatSet.add b (j + i)) (s3.stk t.stack).blocks } with
          teams := Map.insert s3.teams team { t with
            saved := some j, wantSave := false, wantPlace := t.wantPlace || t.moving.isSome } }

/-! ## Lineage counts (R54) -/

/-- A change of a lineage's count is applied at its entry: an open rejoin round compares again (R54). -/
def State.countChanged (s : State) (core key : Nat) (d : Int) : State :=
  let x := s.lineage key
  let n := ((x.count : Int) + d).toNat
  if n = 0 then
    -- the last party of a seed has ended: its slot reads DONE (R307)
    { s with
      lineages := Map.erase s.lineages key,
      seeds := s.seeds.map (fun (e : Nat × Seed) =>
        if e.2.party = some key then (e.1, { e.2 with state := 5, party := none }) else e) }
  else
    let s1 := s.setLineage key { x with count := n }
    let s2 := x.far.foldl (fun s who =>
      s.postPart core (.core who.dev who.core) (.claimAns who (BitVec.ofNat 64 n) (some (leBytes 16 key)) 260 false)) s1
    x.rounds.foldl (fun s e =>
      let b := BarRef.named s.devId e.1 e.2
      let s3 := (s.lapseBar b).checkRejoin b
      settleBar b ((s3.bar b).held.length) s3) s2

/-- LINEAGE_COUNT_MSG: a change of a count, or a question about it, reaches the lineage entry (R54). -/
def execLineageCountMsg (msg : Nat) (s : State) : Outcome State Fault Refusal :=
  match s.arriving msg with
  | none => .next s
  | some m =>
    match m.body with
    | .lineage key d => .next ((s.dropMsg msg).countChanged m.core key d).recheck
    | .lineageQ key who =>
      let x := s.lineage key
      let others := x.far.filter (fun w => !(decide (w.dev = who.dev) && decide (w.core = who.core) && decide (w.bundle = who.bundle)))
      if who.lane = 66 then .next ((s.dropMsg msg).setLineage key { x with far := others })
      else
        let s1 := if who.lane = 65 ∧ who.dev ≠ s.devId then s.setLineage key { x with far := others ++ [who] } else s
        .next (s1.answerClaim m who (BitVec.ofNat 64 x.count) (if who.lane = 65 then some (leBytes 16 key) else none) 260 false)
    | _ => .next s

/-! ## Parties taken back (R338) -/

/-- A party's record leaves its outbox unsent or unread. -/
def State.dropRecord (s : State) (pid : Nat) : State :=
  match s.net.find? (fun m => match m.body with
    | .context q => decide (q = pid)
    | _ => false) with
  | some m => s.dropMsg m.id
  | none => s

/-- What a team has sent since its interval began that is taken back with it (R338; log 44). -/
def MsgBody.undone : MsgBody → Bool
  | .write _ _ _ => true
  | .elem _ _ _ _ _ => true
  | .block _ _ _ _ => true
  | .spill _ _ _ _ _ => true
  | .fill _ _ _ => true
  | .heldRead _ _ _ _ _ => true
  | .heldElem _ _ _ => true
  | .arrival _ _ => true
  | .withdraw _ _ _ => true
  | .barq _ _ _ => true
  | .lineage _ _ => true
  | .lineageQ _ _ => true
  | .fetch _ => true
  | .context _ => true
  | _ => false

/-- A party leaves the module without trace: its runs are abandoned and its count is not told (R338). -/
def State.erase (s : State) (pid : Nat) : State :=
  match s.party? pid with
  | none => s
  | some p =>
    let s1 := p.bundles.foldl (fun s b => s.abandon pid b.id b.mask) (s.dropRecord pid)
    let s2 := match p.place with
      | .parked k i => s1.freeSlotOf k i
      | _ => s1
    { (s2.leaveCore pid).dropParty pid with consumes := s2.consumes.filter (fun k => decide (k.party ≠ pid)) }

/-- What a team's parties have sent that is not yet applied is taken back, but a fetch that its slice has sent on. -/
def State.unsend (s : State) (key : Nat) : State :=
  let sent := s.net.filter (fun m => decide (m.team = key + 1) && !m.applied && m.body.undone &&
    !(m.sent && (match m.body with
      | .fetch _ => true
      | _ => false)))
  sent.foldl (fun s m => s.dropMsg m.id) s

/-- A team of another module is rolled back: its parties that stand here leave no trace (R338; log 130). -/
def State.undoVisit (s : State) (key : Nat) : State :=
  ((s.parties.filter (fun e => e.2.seed.isNone && decide (e.2.teamKey = key))).foldl (fun s e => s.erase e.1) s).unsend key

/-! ## Posted operations and acknowledgements (R56, R75, R84) -/

/-- A fill or a spill of a party of another module (R62, R288): its slot as translated here. -/
def State.farSlot (s : State) (core : Nat) (asid : BitVec 16) (va : Nat) : Option Loc :=
  match s.xlate (some core) asid va with
  | .ok l => s.locOn l va
  | _ => none

/-- POSTED_OP_APPLY: a message is applied at its home as one step, unless a range lock holds it there (R75, R84). -/
def execPostedOpApply (msg : Nat) (s : State) : Outcome State Fault Refusal :=
  match (s.arriving msg).or (s.tileWaits msg) with
  | none => .next s
  | some m =>
    match m.dst with
    | .port _ => .next s
    | .core _ core =>
      match m.body with
      | .seedTrap slot key cause addr => .next ((s.dropMsg msg).faultSeed slot key cause addr)
      | .slotAsk _ _ _ _ _ _ =>
        .next (State.markApplied { s with net := mapWhere (fun x => decide (x.id = msg)) (fun (x : Msg) => { x with waited := s.ns }) s.net } msg)
      | .slotHold key d => .next ((s.dropMsg msg).heldBy key d)
      | .outcome grid o => .next ((s.dropMsg msg).recordOutcome grid core o)
      | .away grid dev frame d => .next ((s.dropMsg msg).awayBy grid dev frame d)
      | .frameEnd dev grid => .next ((s.dropMsg msg).dropFrames dev grid)
      | .lock owner wr leaf lo hi =>
        .next (s.lockFor m { dev := m.srcDev, owner := owner, wr := wr, leaf := s.settledLeaf leaf, lo := lo, hi := hi })
      | .unlock owner => .next { s.dropMsg msg with
          locks := (s.dropMsg msg).locks.filter (fun k => decide (k.dev ≠ m.srcDev) || decide (k.owner ≠ owner)) }
      | .undo team => .next ((s.dropMsg msg).undoVisit team)
      | .phaseQ b phase who =>
        (match s.barStopped b with
          | some pc => .next (s.answerClaim m who 0 (some (leBytes 8 pc.toNat)) cMatrix false)
          | none => .next (s.answerClaim m who (if (s.bar b).phase.setWidth 64 = phase then 0 else 1) none 260 false))
      | .lenQ t who => .next (s.answerClaim m who (BitVec.ofNat 64 (s.blockLen t)) none 260 false)
      | .tileAsk team slot who => .next (s.tileAsked m team slot who)
      | .tilePush team slot t => .next ((s.dropMsg msg).unbook team slot [t])
      | .tileDrop team slot => .next ((s.dropMsg msg).unbook team slot [])
      | .tileRead team tile op => .next ((s.returnVals m op (s.tileVals team tile (lanesOf m.lanes)) false).dropMsg msg)
      | .handleQ h who launch wait => .next (s.handleAsked m h who launch wait)
      | .hostRead l n who =>
        if s.locked l n false then .next s
        else
          let r := s.load m.who l.pa n
          .next (r.2.answerClaim m who 0 (some r.1) 259 (s.poisoned l.pa n))
      | .fill va n op =>
        (match s.farSlot core m.asid va with
          | none => .next ((s.returnVals m op [0] false).dropMsg msg)
          | some x =>
            let r := s.load m.who x.pa n
            .next ((r.2.returnVals m op [leNat r.1] (s.poisoned x.pa n)).dropMsg msg))
      | .slotQ va who =>
        let s1 := match s.farSlot core m.asid va with
          | some _ => s
          | none => ((s.wstackTeam m.asid va).bind (fun k => s.attachFrame k (va / 65536))).getD s
        .next (s1.answerClaim m who (if (s1.farSlot core m.asid va).isSome then 1 else 0) none 260 false)
      | .spill va none data mask poison =>
        let s1 := match s.farSlot core m.asid va with
          | some _ => s
          | none => ((s.wstackTeam m.asid va).bind (fun k => s.attachFrame k (va / 65536))).getD s
        (match s1.farSlot core m.asid va with
          | none => .next (s1.dropMsg msg)
          | some x =>
            .next ((s1.applyBody { m with body := .spill va (some x) data mask poison }).map (fun t => t.dropMsg msg) |>.getD s1))
      | _ =>
        let r := s.elemReady m
        .next (if r.1 then (r.2.applyBody m).map (fun t => t.markApplied msg) |>.getD r.2 else r.2)

/-- A message that waits at its home although it is marked as no longer in its FIFO's way. -/
def MsgBody.waits : MsgBody → Bool
  | .claim _ _ _ _ _ => true
  | .trel _ _ => true
  | .handleQ _ _ _ _ => true
  | .tileAsk _ _ _ => true
  | .slotAsk _ _ _ _ _ _ => true
  | _ => false

/-- ACK_RECEIVE: the acknowledgement of a message that has been applied reaches the core that sent it (R56). -/
def execAckReceive (msg : Nat) (s : State) : Outcome State Fault Refusal :=
  match s.msg? msg with
  | none => .next s
  | some m => if m.applied && !m.body.waits then .next (s.dropMsg msg).recheck else .next s

end Sys2Proof.Machine
end

