-- ==== Sys2Proof/Machine/Launch.lean ====
section
/-!
DEFINITION. Launches: validation of a launch record and its image (R30, R300, R301, R308, R309), placement of teams (R29,
R33), the restoring of saved teams (R39), and the retirement of teams and grids (R32, R310, R340).
-/

namespace Sys2Proof.Machine

open Host

/-! ## The record (R308) -/

/-- Bits of a number. -/
def bitsAt (x lo n : Nat) : Nat := x / 2 ^ lo % 2 ^ n

/-- The launch record in 256 bytes (R308). -/
def parseRecord (b : List Byte) : LaunchRec :=
  let x := leNat b
  { image := bitsAt x 0 64, matrix := bitsAt x 64 64, param := BitVec.ofNat 64 (bitsAt x 128 64), compl := bitsAt x 192 64,
    handler := BitVec.ofNat 64 (bitsAt x 256 64), scratchWin := bitsAt x 320 64, wstackWin := bitsAt x 384 64,
    teams := bitsAt x 448 64, parties := bitsAt x 512 16, win := bitsAt x 528 16, accum := bitsAt x 544 16,
    mask := BitVec.ofNat 16 (bitsAt x 560 16), scratch := bitsAt x 576 32, prio := BitVec.ofNat 2 (bitsAt x 608 2),
    power := BitVec.ofNat 2 (bitsAt x 610 2), replay := decide (bitsAt x 612 1 = 1), ivOff := decide (bitsAt x 613 1 = 1),
    sfmt := bitsAt x 614 6, dlimit := bitsAt x 620 4, asid := BitVec.ofNat 16 (bitsAt x 640 16),
    launch := BitVec.ofNat 32 (bitsAt x 672 32), lease := bitsAt x 704 32, keyLo := BitVec.ofNat 64 (bitsAt x 768 64),
    keyHi := BitVec.ofNat 64 (bitsAt x 832 64), stream := BitVec.ofNat 32 (bitsAt x 896 32),
    resv := decide (bitsAt x 624 16 ≠ 0) || decide (bitsAt x 656 16 ≠ 0) || decide (bitsAt x 736 32 ≠ 0) ||
      decide (bitsAt x 928 32 ≠ 0) || decide (bitsAt x 960 1088 ≠ 0) }

/-! ## The image (R300, R301) -/

/-- One bit of a CRC-32 with the IEEE 802.3 polynomial, least significant bit first. -/
def crcBit (c : Word) : Word := if c.getLsbD 0 then (c >>> 1) ^^^ 0xEDB88320 else c >>> 1

/-- CRC-32 of bytes, before the final complement. -/
def crcFrom (c : Word) : List Byte → Word
  | [] => c
  | x :: l =>
    let c := c ^^^ x.setWidth 32
    crcFrom (crcBit (crcBit (crcBit (crcBit (crcBit (crcBit (crcBit (crcBit c)))))))) l

/-- CRC-32 (R300). -/
def crc32 (l : List Byte) : Word := ~~~(crcFrom 0xFFFFFFFF l)

/-- A section of an image: absent, with offset 0, or within the image beyond the header. -/
def sectionOk (off len size : Nat) : Bool :=
  (decide (len = 0) && decide (off = 0)) || (decide (0 < len) && decide (128 ≤ off) && decide (off % 64 = 0) && decide (off + len ≤ size))

/-- Two sections do not overlap. -/
def apart (a b : Nat × Nat) : Bool :=
  decide (a.2 = 0) || decide (b.2 = 0) || decide (a.1 + a.2 ≤ b.1) || decide (b.1 + b.2 ≤ a.1)

/-- The header of an image stands and agrees with the launch record (R300, R301). -/
def headerOk (h : List Byte) (r : LaunchRec) : Bool :=
  let x := leNat h
  let size := bitsAt x 64 32
  let code := (bitsAt x 128 32, bitsAt x 160 32)
  let dict := (bitsAt x 224 32, 4 * bitsAt x 192 16)
  let matrix := (bitsAt x 256 32, bitsAt x 288 32)
  let data := (bitsAt x 320 32, bitsAt x 352 32)
  let entry := bitsAt x 96 32
  decide (bitsAt x 0 32 = 0x304F584B) && decide (bitsAt x 32 16 = 1) && decide (bitsAt x 992 32 = (crc32 (h.take 124)).toNat) &&
  decide (bitsAt x 48 16 = 0) && decide (bitsAt x 208 16 = 0) && decide (bitsAt x 480 512 = 0) &&
  decide (size % 64 = 0) && decide (128 ≤ size) && decide (entry % 4 = 0) && decide (code.2 % 4 = 0) && decide (matrix.2 % 4 = 0) &&
  decide (dict.2 ≤ 4096) && decide (0 < code.2) && sectionOk code.1 code.2 size && sectionOk dict.1 dict.2 size &&
  sectionOk matrix.1 matrix.2 size && sectionOk data.1 data.2 size &&
  apart code dict && apart code matrix && apart code data && apart dict matrix && apart dict data && apart matrix data &&
  decide (code.1 ≤ entry) && decide (entry + 4 ≤ code.1 + code.2) &&
  decide (r.parties = bitsAt x 384 16) && decide (bitsAt x 400 16 ≤ r.win) && decide (bitsAt x 416 32 ≤ r.scratch) &&
  decide (bitsAt x 448 16 ≤ r.accum) &&
  (decide (r.matrix = 0) || (decide (r.matrix % 4 = 0) && decide (r.image + matrix.1 ≤ r.matrix) &&
    decide (r.matrix + 4 ≤ r.image + matrix.1 + matrix.2))) &&
  (decide (r.handler = 0) || (decide (r.image + code.1 ≤ r.handler.toNat) && decide (r.handler.toNat < r.image + code.1 + code.2)))

/-- 32-bit words of bytes. -/
def wordsIn : List Byte → List Word
  | a :: b :: c :: d :: l => BitVec.ofNat 32 (leNat [a, b, c, d]) :: wordsIn l
  | _ => []

/-- What validation of an image finds: its dictionary and entry, a breach, or something to wait for. -/
inductive ImageRes where
  | ok (dict : List Word) (entry : DWord)
  | bad
  | page (va : Nat)
  | wait
deriving DecidableEq, Repr

/-- Read on, where the bytes are at hand. -/
def VRead.onImage (r : VRead) (f : List Byte → ImageRes) : ImageRes :=
  match r with
  | .ok b => f b
  | .bad => .bad
  | .page va => .page va
  | .wait => .wait

/-- The checks of step 8 of R309 (R301). -/
def State.imageOf (s : State) (who : Reader) (core : Nat) (r : LaunchRec) : ImageRes :=
  (s.readVa who core r.asid r.image 128).onImage (fun h =>
    if !headerOk h r then .bad
    else
      let x := leNat h
      (s.readVa who core r.asid (r.image + bitsAt x 224 32) (4 * bitsAt x 192 16)).onImage (fun d =>
        (s.readVa who core r.asid (r.image + bitsAt x 96 32) 4).onImage (fun e =>
          let dict := wordsIn d
          if dict.any (fun w => decide (field w 26 6 = 0x3E)) ∨ leNat e / 2 ^ 26 ≠ 0x3E then .bad
          else .ok dict (BitVec.ofNat 64 (r.image + bitsAt x 96 32)))))

/-- Ask for the parts of an image that lie elsewhere: the header, then the dictionary and the entry word. -/
def State.askImage (s : State) (who : Reader) (core : Nat) (r : LaunchRec) : State :=
  match s.readVa who core r.asid r.image 128 with
  | .ok h =>
    let x := leNat h
    (s.askVa who core r.asid (r.image + bitsAt x 224 32) (4 * bitsAt x 192 16)).askVa who core r.asid (r.image + bitsAt x 96 32) 4
  | _ => s.askVa who core r.asid r.image 128

/-! ## Validation (R309) -/

/-- The launch record that has been read for a launch: it is read once (R308), and stands among the launch's reads as an entry of
length 0. -/
def State.keptRecord (s : State) (msg : Nat) : Option (List Byte) :=
  ((s.reads.find? (fun r => decide (r.by_ = .launch msg) && decide (r.n = 0))).bind (fun r => r.ans)).map (fun x => x.1)

/-- Keep the record. -/
def State.keepRecord (s : State) (msg : Nat) (b : List Byte) : State :=
  if (s.keptRecord msg).isSome then s
  else { s with reads := s.reads ++ [⟨.launch msg, ⟨s.devId, 0⟩, 0, 0, some (b, false)⟩] }

/-- The record of a launch: as it has been read, or now. -/
def State.recordOf (s : State) (msg core : Nat) (asid : BitVec 16) (va : Nat) : VRead :=
  match s.keptRecord msg with
  | some b => .ok b
  | none => s.readVa (.launch msg) core asid va 256

/-- A launch has been decided. -/
def State.endLaunch (s : State) (msg : Nat) : State := (s.dropMsg msg).dropReads (.launch msg)

/-- A launch tag is held by a resident launch of an ASID. -/
def State.launchHeld (s : State) (launch : BitVec 32) (asid : BitVec 16) : Bool :=
  s.grids.any (fun e => decide (e.2.launch = launch) && decide (e.2.asid = asid))

/-- Step 1 of R309. -/
def State.recordBad (s : State) (r : LaunchRec) (asid : BitVec 16) : Bool :=
  r.resv || decide (r.teams = 0) || decide (2 ^ 32 < r.teams) ||
  (decide (r.lease ≠ 0) && (decide (r.lease < 1000) || decide (10 ^ 9 < r.lease))) || decide (r.asid ≠ asid) ||
  (decide (r.launch ≠ 0) && s.launchHeld r.launch r.asid) || decide (r.image % 4096 ≠ 0) ||
  decide (r.scratchWin % 65536 ≠ 0) || decide (r.wstackWin % 65536 ≠ 0) ||
  (decide (r.scratchWin = 0) && decide (0 < r.scratch)) || decide (10 < r.dlimit) ||
  decide (2 ^ 64 < r.scratchWin + r.teams * r.stride) || decide (2 ^ 64 < r.wstackWin + r.teams * r.parties * r.region)

/-- The greatest DEPTH that a grid and those it descends from allow (R308, R309). -/
def State.depthLimit (s : State) : Nat → BitVec 32 → Nat
  | 0, _ => 10
  | n + 1, g =>
    match s.grid? g with
    | none => 10
    | some x =>
      let own := if x.rcd.dlimit = 0 then 10 else x.rcd.dlimit
      match x.parent with
      | none => own
      | some p => min own (s.depthLimit n p)

/-- The module and the grid of a launch by a party of another module (R32). -/
def launchedFrom (dev : BitVec 20) (lin : Nat) : Option (BitVec 20 × BitVec 32) :=
  if lin = 0 ∨ (lin - 1) / 2 ^ 64 = dev.toNat then none
  else some (BitVec.ofNat 20 ((lin - 1) / 2 ^ 64), BitVec.ofNat 32 ((lin - 1) / 2 ^ 32))

/-- The greatest DEPTH that a launch may have for its launcher; of a grid of another module this module knows its own limit, not
those of the grids that it descends from (log 134). -/
def State.launchCap (s : State) (lin : Nat) (grid : BitVec 32) : Nat :=
  match launchedFrom s.devId lin with
  | some (d, g) =>
    (match Map.find s.visits (d.toNat * 2 ^ 32 + g.toNat) with
      | some v => if v.rcd.dlimit = 0 then 10 else v.rcd.dlimit
      | none => 10)
  | none => s.depthLimit 16 grid

/-- A launch by a party of another module is over: its grid is told (R32). -/
def State.launchOver (s : State) (lin : Nat) : State :=
  match launchedFrom s.devId lin with
  | some (d, g) => s.postPart 0 (.core d 0) (.away g s.devId false (-1))
  | none => s

/-- The status of steps 1 to 7 of R309; 0 when they pass. -/
def State.limitStatus (s : State) (r : LaunchRec) (cap : Nat) (seed : Bool) (asid : BitVec 16) (depth prio : Nat) : Nat :=
  let new := if seed then 0 else depth + 1
  if s.recordBad r asid then 6
  else if r.parties = 0 ∨ 128 < r.parties then 3
  else if r.win < 64 ∨ 4096 < r.win ∨ r.win % 64 ≠ 0 then 1
  else if 8 * 2 ^ 20 < r.scratch then 2
  else if 512 < r.accum then 4
  else if 10 < new ∨ (!seed ∧ cap < new) then 5
  else if !seed ∧ prio < r.prio.toNat then 8
  else 0

/-- A value of a module counter that is neither 0 nor held, from a value on (R309). -/
def freeId (held : BitVec 32 → Bool) : Nat → BitVec 32 → BitVec 32
  | 0, x => x
  | n + 1, x => if x = 0 ∨ held x then freeId held n (x + 1) else x

/-- Write a completion word: a system-scope release, made once everything it covers has been acknowledged (R310). -/
def State.writeCompl (s : State) (core : Nat) (asid : BitVec 16) (va w : Nat) : State :=
  let loc (s : State) : Option Loc := match s.access core asid va 8 false true with
    | .ok _ x => some x
    | _ => none
  let s1 := match loc s with
    | some _ => s
    | none => ((s.wstackTeam asid va).bind (fun k => s.attachFrame k (va / 65536))).getD s
  match loc s1 with
  | none => s1
  | some x => s1.postPart core (s1.homeOf x) (.write x (leBytes 8 w) [])

/-- A completion word (R310). -/
def complWord (status outcome replays : Nat) : Nat := 2 ^ 63 + replays * 2 ^ 16 + outcome * 2 ^ 8 + status

/-- Bring an accepted grid into being (R309). -/
def State.acceptGrid (s : State) (r : LaunchRec) (lin : Nat) (seed : Bool) (asid : BitVec 16) (depth party : Nat)
    (dict : List Word) (entry : DWord) : State :=
  let n := s.grids.length + 2
  let tag := if r.launch = 0 then freeId (fun x => s.grids.any (fun e => decide (e.2.launch = x))) n s.regs.launchNext else r.launch
  let id := freeId (fun x => (s.grid? x).isSome) n s.regs.gridNext
  let g : Grid := {
    id := id, launch := tag, asid := r.asid, rcd := r, depth := if seed then 0 else depth + 1,
    parent := if seed ∨ (launchedFrom s.devId lin).isSome then none else some (gridFor lin s.devId), byAsid := asid,
    byParty := party, byLin := if seed then 0 else lin, dict := dict, entry := entry,
    order := s.keys, nextTeam := 0, lineages := 0, outcome := 0, replays := 0, ending := false, relaunch := false,
    prot := r.replay, undo := [], foreign := false, discard := false, spent := [], failAt := 0, failCore := 0,
    farOps := 0, farFrames := [], framesTold := false }
  { s.bump with
    grids := Map.insert s.grids id.toNat g,
    regs := { s.regs with
      launchNext := if r.launch = 0 then tag + 1 else s.regs.launchNext, gridNext := id + 1 } }

/-- Whether the completion word of a record can be written under the launcher's ASID (step 0 of R309). -/
def State.complAt (s : State) (core : Nat) (asid : BitVec 16) (va : Nat) : Acc :=
  if va = 0 ∨ va % 8 ≠ 0 then .trap cAlign else s.access core asid va 8 false true

/-- A launch that is dropped without a word (R309). -/
def State.dropLaunch (s : State) (msg : Nat) : State :=
  let s1 := s.endLaunch msg
  { s1 with regs := { s1.regs with launchDrops := s1.regs.launchDrops + 1 } }

/-- LAUNCH_VALIDATE: a launch record is read and validated, and the launch is dropped, rejected or accepted (R309). -/
def execLaunchValidate (msg : Nat) (s : State) : Outcome State Fault Refusal :=
  match s.arriving msg with
  | none => .next s
  | some m =>
    match m.body with
    | .launch va party _ _ seed asid depth prio =>
      let core := m.src
      let lin := if seed then 0 else m.lin
      (match s.recordOf msg core asid va.toNat with
        | .wait => .next (s.askVa (.launch msg) core asid va.toNat 256)
        | .page a => .next (s.askPage asid a core)
        | .bad => .next ((s.dropLaunch msg).launchOver lin)
        | .ok b =>
          let r := parseRecord b
          match s.complAt core asid r.compl with
          | .trap _ => .next ((s.dropLaunch msg).launchOver lin)
          | .wait => .next (s.keepRecord msg b)
          | .page => .next ((s.keepRecord msg b).askPage asid r.compl core)
          | _ =>
            match s.limitStatus r (s.launchCap lin (gridFor lin s.devId)) seed asid depth prio with
            | 0 =>
              (match s.imageOf (.launch msg) core r with
                | .wait => .next ((s.keepRecord msg b).askImage (.launch msg) core r)
                | .page a => .next ((s.keepRecord msg b).askPage r.asid a core)
                | .bad => .next (((s.endLaunch msg).writeCompl core asid r.compl (complWord 7 0 0)).launchOver lin)
                | .ok dict entry => .next ((s.endLaunch msg).acceptGrid r lin seed asid depth party dict entry))
            | k => .next (((s.endLaunch msg).writeCompl core asid r.compl (complWord k 0 0)).launchOver lin))
    | _ => .next s

/-! ## Room (R29, R33) -/

/-- Cores of a cluster that are in service (R354). -/
def State.liveCores (s : State) (cl : Nat) : List Nat := (clusterCores cl).filter (fun c => !(s.core c).dead)

/-- Teams that stand on a cluster. -/
def State.teamsOn (s : State) (cl : Nat) : List Team :=
  (s.teams.filter (fun e => decide (e.2.cluster = cl) && e.2.saved.isNone)).map (fun e => e.2)

/-- Free 64 KiB blocks of a cluster's scratchpad, ascending; a team takes the lowest of them (R29; log 148). -/
def State.freeBlocks (s : State) (cl : Nat) : List Nat :=
  (List.range 128).filter (fun b => !(s.teamsOn cl).any (fun t => t.blocks.contains b))

/-- Free accumulator tiles of a cluster, ascending; a team takes the lowest of them (R29; log 148). -/
def State.freeTiles (s : State) (cl : Nat) : List Nat :=
  (List.range 512).filter (fun b => !(s.teamsOn cl).any (fun t => t.tiles.contains b))

/-- Free party slots of a cluster. -/
def State.clusterSlots (s : State) (cl : Nat) : Nat := sumBy s.freeSlots (s.liveCores cl)

/-- A cluster has room for a team (R33): blocks, tiles and party slots. -/
def State.roomAt (s : State) (blocks tiles parties cl : Nat) : Bool :=
  decide (blocks ≤ (s.freeBlocks cl).length) && decide (tiles ≤ (s.freeTiles cl).length) &&
  decide (parties ≤ s.clusterSlots cl) && !(s.liveCores cl).isEmpty

/-- The lowest cluster of a stack with room. -/
def State.roomOn (s : State) (blocks tiles parties k : Nat) : Option Nat :=
  (List.range 8).find? (fun i => s.roomAt blocks tiles parties (8 * k + i)) |>.map (fun i => 8 * k + i)

/-- Resident teams of a stack with a power class (R33). -/
def State.classTeams (s : State) (k : Nat) (p : BitVec 2) : Nat :=
  (s.teams.filter (fun e => decide (e.2.stack = k) && e.2.saved.isNone && (match s.grid? e.2.grid with
    | some g => decide (g.rcd.power = p)
    | none => false))).length

/-- Free party slots of a stack. -/
def State.stackSlots (s : State) (k : Nat) : Nat := sumBy s.freeSlots ((List.range 32).map (fun i => 32 * k + i))

/-- Measure by which a stack is chosen, the least first (R33). -/
def State.stackRank (s : State) (p : BitVec 2) (k : Nat) : Nat :=
  if p = 0 then 2 ^ 32 + s.classTeams k 0 - s.classTeams k 1
  else if p = 1 then 2 ^ 32 + s.classTeams k 1 - s.classTeams k 0
  else 2 ^ 32 - s.stackSlots k

/-- The cluster on which a team goes, among the stacks that are allowed (R33). -/
def State.chooseCluster (s : State) (r : LaunchRec) (parties : Nat) (allowed : Nat → Bool) : Option Nat :=
  let blocks := ceilDiv r.scratch 65536
  let room (k : Nat) : Bool := allowed k && (s.roomOn blocks r.accum parties k).isSome
  let named := (List.range 16).filter (fun k => (decide (r.mask = 0) || r.mask.getLsbD k) && room k)
  let cands := if named.isEmpty then (List.range 16).filter room else named
  (leastBy (s.stackRank r.power) cands).bind (s.roomOn blocks r.accum parties)

/-! ## Placement (R19, R29, R33) -/

/-- A party of a newly placed team (R19, R22, R52, R271, R288). -/
def Grid.newParty (g : Grid) (dev : BitVec 20) (team p core lineage clk bid : Nat) : Party :=
  { partyId := BitVec.ofNat 7 p, teamId := BitVec.ofNat 32 team, gridId := g.id, launchId := g.launch,
    lineage := BitVec.ofNat 32 lineage, asid := g.asid, originDev := dev, originCore := BitVec.ofNat 9 core,
    depth := BitVec.ofNat 4 g.depth, priority := g.rcd.prio, power := g.rcd.power, winSize := g.rcd.win,
    wstack := g.rcd.wstackWin + (team * g.rcd.parties + p) * g.rcd.region, seed := none, handler := g.rcd.handler,
    place := .slot core .ready, vregs := [], dirty := [], lanes := [], scal := Map.put [] 0 g.rcd.param 0, hand := [],
    cb := none, fpflags := 0, limbCtl := 0, limbFlags := 0, wseq := [], frame := 0, rngLo := g.rcd.keyLo, rngHi := g.rcd.keyHi,
    rngStream := g.rcd.stream, trap := none, nested := false, outer := none, spillPos := 0, rejoin := none,
    bundles := [Bundle.at bid (BitVec.allOnes 64) g.entry 0 clk], pend := [], fenceW := [], fenceR := [], poison := [],
    readyAt := 0, beganAt := 0, level := 0, starving := false, blockedAt := 0, blockedNs := (0, 0), formedAt := 0, homeCore := core,
    returned := false, recQ := 0, qAt := 0, flagAt := [], behind := [], counted := false, live := BitVec.allOnes 56,
    stopBy := false, haltBy := false, wantPark := false }

/-- The core of a cluster that comes first for a team: the one with the most free slots, the lowest of equals (R29). -/
def State.firstCore (s : State) (cores : List Nat) : Nat :=
  match leastBy (fun c => 64 - s.freeSlots c) cores with
  | some c => cores.idxOf c
  | none => 0

/-- A matrix sequencer at its start (R256, R257). -/
def Seqr.start (pc : Nat) : Seqr :=
  { st := .running, pc := BitVec.ofNat 64 pc, last := BitVec.ofNat 64 pc, m := [], loops := [], book := none, queues := [], booked := [],
    work := [], step := 0, fault := 0, freed := false, owners := [], page := none }

/-- Place a team of a grid for the first time on a cluster (R19, R29, R256, R336). -/
def State.placeNew (s : State) (g : Grid) (cl : Nat) : State :=
  let id := g.nextTeam
  let key := teamKey s.devId g.id id
  let t : Team := {
    grid := g.id, id := BitVec.ofNat 32 id, stack := cl / 8, cluster := cl,
    blocks := (s.freeBlocks cl).take (ceilDiv g.rcd.scratch 65536), tiles := (s.freeTiles cl).take g.rcd.accum, frames := [],
    bars := [], seqr := if g.rcd.matrix = 0 then none else some (Seqr.start g.rcd.matrix), interval := none, saved := none,
    movedAt := none, moving := none, wantSave := false, wantPlace := false, queue := [] }
  let cores := s.liveCores cl
  let c0 := s.firstCore cores
  let s1 := { s with
    teams := Map.insert s.teams key t,
    grids := Map.insert s.grids g.id.toNat { g with nextTeam := id + 1, lineages := g.lineages + g.rcd.parties } }
  let s2 := (List.range g.rcd.parties).foldl (fun s p =>
    let core := cores.getD ((c0 + p) % cores.length) 0
    let x := g.newParty s.devId id p core (g.lineages + 1 + p) (s.clk core) s.keys
    (s.bump.form core x).setLineage x.lineageKey { Lineage.init with count := 1, team := key + 1 }) s1
  s2.beginInterval key

/-! ## Restoring a saved team (R39, R288) -/

/-- The index in a stack's window-stack pool of a frame. -/
def State.wspIndex (s : State) (k f : Nat) : Option Nat :=
  let st := s.stk k
  st.wspUsed.find? (fun i => decide (memNat s.mem (st.wspBase.toNat + 8 * i) 8 = f))

/-- A frame returns to its stack's pool (R323). -/
def State.freeFrameAt (s : State) (f : Nat) : State :=
  let k := f / 2 ^ 36 % 16
  match s.wspIndex k f with
  | none => s
  | some i => s.setStk k { s.stk k with wspUsed := NatSet.del (s.stk k).wspUsed i }

/-- A window-stack frame moves with its team to another stack's pool, where that pool has a frame; what is on its way to the frame
follows it (R288). -/
def State.moveFrame (s : State) (k f : Nat) : Nat × State :=
  match s.nextWspFrame k with
  | none => (f, s)
  | some (i, f') =>
    let s1 := s.setStk k { s.stk k with wspUsed := NatSet.add (s.stk k).wspUsed i }
    (f', ((s1.copyFrame f f').repoint (s1.moving [(f, f')])).freeFrameAt f)

/-- The window-stack frames of a team move to the stack on which it is placed. -/
def State.moveFrames (s : State) (k : Nat) : Map Nat → Map Nat × State
  | [] => ([], s)
  | (pg, f) :: l =>
    let r := if f / 2 ^ 36 % 16 = k then (f, s) else s.moveFrame k f
    let rest := r.2.moveFrames k l
    ((pg, r.1) :: rest.1, rest.2)

/-- The blocks of a team's save are free again, byte 0 of each slot of them 0 (R327). -/
def State.freeSave (s : State) (t : Team) : State :=
  match t.saved with
  | none => s
  | some j =>
    let s1 := s.setStk t.stack { s.stk t.stack with
      blocks := (List.range t.saveBlocks).foldl (fun b i => NatSet.del b (j + i)) (s.stk t.stack).blocks }
    (List.range (4 * t.saveBlocks)).foldl (fun s i => s.store Who.part (s.slotBase t.stack (4 * j + i)) [0]) s1

/-- What is held under the name of a window page goes to where that page now stands (R39). -/
def State.settle (s : State) : State := s.repoint s.settled

/-- Restore a saved team on a cluster: scratchpad, tiles and window stacks, then its parties (R39). -/
def State.restoreTeam (s : State) (key cl : Nat) : State :=
  match Map.find s.teams key with
  | none => s
  | some t =>
    match t.saved with
    | none => s
    | some j =>
      let base := (s.stk t.stack).parkBase.toNat
      let at_ (i : Nat) : Nat := base + 65536 * (j + i)
      let blocks := (s.freeBlocks cl).take t.blocks.length
      let tiles := (s.freeTiles cl).take t.tiles.length
      let s1 := blocks.zipIdx.foldl (fun s b => s.copyFrame (at_ (1 + b.2)) (scratchBlock cl b.1)) s
      let t0 := { t with cluster := cl, tiles := tiles }
      let s2 := { s1 with tiles := (List.range tiles.length).foldl (fun m a =>
        (List.range 1024).foldl (fun m e =>
          Map.put m (t0.tileKey a e) (BitVec.ofNat 32 (memNat s1.mem (at_ (1 + t.blocks.length) + 4096 * a + 4 * e) 4)) 0) m) s1.tiles }
      let s3 := s2.freeSave t
      let r := s3.moveFrames (cl / 8) t.frames
      let t1 := { t with
        stack := cl / 8, cluster := cl, blocks := blocks, tiles := tiles, frames := r.1, saved := none, wantPlace := false,
        moving := none }
      let s4 := State.settle { r.2 with teams := Map.insert r.2.teams key t1 }
      let cores := s4.liveCores cl
      let c0 := s4.firstCore cores
      (s4.membersOf key).zipIdx.foldl (fun s e => s.unpark e.1.1 (cores.getD ((c0 + e.2) % cores.length) 0)) s4

/-! ## The placement queue (R33, R319, R322) -/

/-- A team that waits for placement: its grid, its number and, if it has been saved, its key. -/
structure Waiting where
  g    : Grid
  id   : Nat
  old  : Option Nat
deriving DecidableEq, Repr

/-- Teams that wait for placement: of each grid the lowest new one, and saved ones that are to be placed (R33, R39). -/
def State.waitingTeams (s : State) : List Waiting :=
  (s.grids.filter (fun e => !e.2.ending && decide (e.2.nextTeam < e.2.rcd.teams))).map (fun e => ⟨e.2, e.2.nextTeam, none⟩) ++
  (s.teams.filter (fun e => e.2.wantPlace && e.2.saved.isSome && !s.framesBusy e.2)).filterMap (fun e =>
    (s.grid? e.2.grid).bind (fun g => if g.ending then none else some ⟨g, e.2.id.toNat, some e.1⟩))

/-- The head of the placement queue: by priority, then launch order, then team number (R33). -/
def State.placeHead (s : State) : Option Waiting :=
  let l := s.waitingTeams
  let top := l.foldl (fun a (w : Waiting) => max a w.g.rcd.prio.toNat) 0
  let l1 := l.filter (fun (w : Waiting) => decide (w.g.rcd.prio.toNat = top))
  (leastBy (fun (w : Waiting) => w.g.order) l1).bind (fun x => leastBy (fun (w : Waiting) => w.id) (l1.filter (fun w => decide (w.g.order = x.g.order))))

/-- Party slots that a waiting team needs. -/
def Waiting.slots (w : Waiting) (s : State) : Nat :=
  match w.old with
  | none => w.g.rcd.parties
  | some k => (s.membersOf k).length

/-- Place a waiting team on a cluster. -/
def State.place (s : State) (w : Waiting) (cl : Nat) : State :=
  match w.old with
  | none => s.placeNew w.g cl
  | some k => s.restoreTeam k cl

/-- The stacks on which a waiting team may go: one that is moved for heat goes to a stack that is not hot (R358). -/
def State.mayGo (s : State) (w : Waiting) (k : Nat) : Bool :=
  match w.old.bind (Map.find s.teams) with
  | some t => t.moving.isNone || !(s.stk k).hot
  | none => true

/-- The cluster that a thermal move's response has named, if it has room (R358). -/
def State.namedCluster (s : State) (w : Waiting) : Option Nat :=
  (w.old.bind (Map.find s.teams)).bind (fun t => t.moving.bind (fun n =>
    if n ≠ 0 ∧ s.roomAt (ceilDiv w.g.rcd.scratch 65536) w.g.rcd.accum (w.slots s) (n - 1) then some (n - 1) else none))

/-- TEAM_PLACE: the team at the head of the placement queue is placed, if some cluster has room; in host-assisted
placement the driver is asked (R33, R319, R322). -/
def execTeamPlace (s : State) : Outcome State Fault Refusal :=
  match s.placeHead with
  | none => .next s
  | some w =>
    match s.namedCluster w with
    | some cl => .next (s.place w cl)
    | none =>
      if s.regs.funcMode.getLsbD 4 then
        if s.regs.placeHold || s.eventOpen (.place w.g.id w.id) then .next s
        else .next (s.raiseEvent {
          type := 5, asid := w.g.asid, core := 0, addr := 0, aux := BitVec.ofNat 64 (w.g.launch.toNat * 2 ^ 32 + w.id),
          subj := .place w.g.id w.id })
      else
        match s.chooseCluster w.g.rcd (w.slots s) (s.mayGo w) with
        | none => .next s
        | some cl => .next (s.place w cl)

/-! ## Retirement (R32, R256) -/

/-- TEAM_RETIRE: a team whose last party has ended retires once its sequencer has no word in progress and no engine works
on its scratchpad; what it held is free (R32, R256). -/
def execTeamRetire (team : Nat) (s : State) : Outcome State Fault Refusal :=
  match Map.find s.teams team with
  | none => .next s
  | some t =>
    if !(s.membersOf team).isEmpty || s.lineages.any (fun e => decide (e.2.team = team + 1)) || !t.seqIdle || !s.enginesOff t then .next s
    else
      let s1 := s.freeSave t
      let grids := match s1.grid? t.grid with
        | some g => Map.insert s1.grids t.grid.toNat { g with spent := t.frames.foldl (fun m e => Map.insert m e.1 e.2) g.spent }
        | none => s1.grids
      .next (State.settle { s1 with
        teams := Map.erase s1.teams team, grids := grids, regs := { s1.regs with placeHold := false } })

/-- A grid's work is over (R32): its teams, the grids its parties launched, the engine operations they issued, and what
they have sent. -/
def State.gridIdle (s : State) (g : Grid) : Bool :=
  (g.ending || decide (g.rcd.teams ≤ g.nextTeam)) && !s.teams.any (fun e => decide (e.2.grid = g.id)) &&
  !s.grids.any (fun e => decide (e.2.parent = some g.id)) &&
  s.engines.all (fun e => e.2.ops.all (fun o => decide (gridFor o.lin s.devId ≠ g.id))) && decide (g.farOps = 0) &&
  !s.net.any (fun m => decide (m.grid = g.id)) &&
  !s.parties.any (fun e => decide (e.2.gridAt s.devId = g.id) && e.2.seed.isNone) &&
  !s.consumes.any (fun k => decide (k.grid = g.id))

/-- Everything that a grid's retirement waits for (R32): its work is over and the frames that it opened, at other modules too, are
FREE. -/
def State.gridDone (s : State) (g : Grid) : Bool :=
  s.gridIdle g && g.farFrames.isEmpty &&
  s.frames.all (fun e => decide (e.2.st = .free) || decide (e.2.grid ≠ g.id) || decide (e.2.dev ≠ s.devId))

/-- The frames that a grid has left open are dropped, at other modules once those have been told (R273). -/
def State.closeFrames (s : State) (g : Grid) : State :=
  let s1 := s.dropFrames s.devId g.id
  if g.framesTold then s1
  else
    let s2 := g.farFrames.foldl (fun s e =>
      s.postPart 0 (.core (BitVec.ofNat 20 e.1) 0) (.frameEnd s.devId g.id)) s1
    { s2 with grids := Map.insert s2.grids g.id.toNat { g with framesTold := true } }

/-- A unit's shadows are discarded: what lies below them, poison included, is what is read again (R341). -/
def State.restoreGranules (s : State) (g : Grid) : State :=
  g.undo.foldl (fun (s : State) e =>
    (e.2.old.zipIdx.foldl (fun (s : State) b => match b.1 with
      | some x => s.putByte g.order (64 * e.1 + b.2) x
      | none => s) s).setPoison g.order e.1 e.2.poison) s

/-- Of two shadows of a granule the enclosing unit keeps the values below its own, and below the inner one's where it has not
written. -/
def Shadow.under (x y : Shadow) : Shadow :=
  { x with old := (List.range 64).map (fun i => match x.old.getD i none with
    | some b => some b
    | none => y.old.getD i none) }

/-- The shadows of a unit become those of the unit that encloses it, or current (R340). -/
def State.settleShadows (s : State) (g : Grid) : State :=
  if !g.rcd.replay then s
  else
    match (g.parent.bind s.unitOf).bind s.grid? with
    | none => s
    | some x =>
      if !x.prot then s
      else
        let undo := g.undo.foldl (fun m e => match Map.find m e.1 with
          | some y => Map.insert m e.1 (y.under e.2)
          | none => Map.insert m e.1 e.2) x.undo
        { s with grids := Map.insert s.grids x.id.toNat { x with undo := undo, foreign := x.foreign || g.foreign } }

/-- Requested function modes come into force; a host-assisted mode needs the event ring (R319, R352). -/
def State.applyModes (s : State) : State :=
  let r := s.regs
  if r.funcReq ≠ 0 ∧ r.evqLog2 = 0 then { s with regs := { r with funcWait := false } }
  else
    { s with
      regs := { r with funcMode := r.funcReq, funcWait := false },
      boot := { s.boot with host := r.funcReq.getLsbD 8 } }

/-- A grid is gone: its launch's tickets and frames are reclaimed, and deferred function modes come into force (R90, R319,
R323). -/
def State.removeGrid (s : State) (g : Grid) : State :=
  let s1 := s.reclaimLaunch g.launch g.asid
  let s2 := g.spent.foldl (fun s e => s.freeFrameAt e.2) s1
  let s3 := { s2 with
    grids := Map.erase s2.grids g.id.toNat,
    lineages := s2.lineages.filter (fun e => decide (e.1 / 2 ^ 32 ≠ s2.devId.toNat * 2 ^ 32 + g.id.toNat)),
    cores := s2.cores.map (fun e => (e.1, { e.2 with dicts := e.2.dicts.filter (· ≠ g.id.toNat) })) }
  if s3.grids.isEmpty && s3.regs.funcWait then s3.applyModes else s3

/-- A unit's shadows are gone from the version store once `f` has ended it: VHELD of their pages follows (R316). -/
def State.afterUnit (s : State) (g : Grid) (f : State → State) : State :=
  if g.undo.isEmpty then f s else (f s).syncVheld (g.undo.map (fun e => 64 * e.1))

/-- GRID_RETIRE: a grid whose work is done retires, and its completion word is written; a unit that replays is launched
again from its record (R32, R310, R340, R341). Frames still open when the work is over go to CLOSING as by `spdrop`, and
the grid retires once they are FREE (R273). -/
def execGridRetire (grid : BitVec 32) (s : State) : Outcome State Fault Refusal :=
  match s.grid? grid with
  | none => .next s
  | some g =>
    if !s.gridDone g then
      if s.gridIdle g then .next (s.closeFrames g) else .next s
    else
      let s1 := if g.discard then s.restoreGranules g else s.settleShadows g
      if g.relaunch then
        let s2 := g.spent.foldl (fun s e => s.freeFrameAt e.2) (s1.reclaimLaunch g.launch g.asid)
        .next <| s2.afterUnit g fun s2 => { s2 with grids := Map.insert s2.grids grid.toNat { g with
          nextTeam := 0, ending := false, relaunch := false, discard := false, undo := [], foreign := false, prot := true,
          replays := g.replays + 1, spent := [], framesTold := false } }
      else
        -- a second-tier page of the completion word is brought in first (R68)
        match s.access 0 g.byAsid g.rcd.compl 8 false true with
        | .page => .next (s.askPage g.byAsid g.rcd.compl 0)
        | .wait => .next s
        | _ => .next (((s1.afterUnit g (fun s => s.removeGrid g)).writeCompl 0 g.byAsid g.rcd.compl
            (complWord 0 g.outcome g.replays)).launchOver g.byLin)

/-! ## Ending a grid (R328, R341) -/

/-- The handle of an engine operation. -/
def State.opHandle (s : State) (eng seq : Nat) (check : BitVec 7) : DWord := mkHandle s.devId eng seq (check.setWidth 32)

/-- End every party of a grid, cancel its engine operations, close its frames and reclaim its tickets; its sequencers stop
with its parties (R328). A launch that it has sent and that is not validated is dropped (log 43). -/
def State.endGrid (s : State) (g : Grid) : State :=
  let s1 := (s.parties.filter (fun e => decide (e.2.gridAt s.devId = g.id) && e.2.seed.isNone)).foldl (fun s e =>
    let s := match e.2.place with
      | .parked k i => s.freeSlotOf k i
      | _ => s
    (s.dropRecord e.1).endParty e.1) s
  let s2 := s1.engines.foldl (fun s e => e.2.ops.foldl (fun (s : State) o =>
    if gridFor o.lin s.devId = g.id then s.postPart (32 * (e.1 / 16)) (.core s.devId (32 * (e.1 / 16))) (.engCancel (s.opHandle e.1 o.seq o.lcheck))
    else s) s) s1
  let s3 := s2.dropFrames s2.devId g.id
  let s4 := s3.reclaimLaunch g.launch g.asid
  let sent := s4.net.filter (fun m => match m.body with
    | .launch _ _ _ _ sd _ _ _ => !sd && decide (gridFor m.lin s4.devId = g.id)
    | _ => false)
  let s5 := sent.foldl (fun s m => s.dropMsg m.id) s4
  match s5.grid? g.id with
  | none => s5
  | some x => { s5 with grids := Map.insert s5.grids g.id.toNat { x with ending := true } }

end Sys2Proof.Machine
end

