-- ==== Sys2Proof/Machine/Contain.lean ====
section
/-!
DEFINITION. Error containment (R335 to R347): poison, the rollback of team intervals, replay units and the containment
log; and the shadow latches with their deratings (R348).
-/

namespace Sys2Proof.Machine

open Host

/-! ## The log (R347) -/

/-- Write an entry of the containment log, and count it (R347, R375). -/
def State.logC (s : State) (type count core : Nat) (launch team : BitVec 32) (addr : Nat) : State :=
  let e : CLog := { type := type, count := count % 256, core := core, launch := launch, team := team, addr := addr, time := s.ns }
  let s1 := { s with clog := Map.insert s.clog (s.clogCount.toNat % 16) e, clogCount := s.clogCount + 1 }
  if type = 1 then s1.tally 11 0
  else if type = 3 then s1.tally 11 1
  else if type = 4 ∨ type = 5 ∨ type = 7 then s1.tally 11 2
  else s1

/-- LAUNCH_ID of a grid. -/
def State.gridLaunch (s : State) (g : BitVec 32) : BitVec 32 :=
  match s.grid? g with
  | some x => x.launch
  | none => 0

/-- The DPA of a consumption's granule: 0 for a register, and for a granule of a scratchpad or of the second tier, which has none
(R313, R346, R347; log 135). -/
def Consume.dpa (k : Consume) : Nat := if k.pa < scratchBase then k.pa else 0

/-- Log an action on a consumption. -/
def State.logK (s : State) (k : Consume) (type count : Nat) : State :=
  s.logC type count k.core (s.gridLaunch k.grid) (BitVec.ofNat 32 ((k.team - 1) % 2 ^ 32)) k.dpa

/-! ## Detection (R335) -/

/-- UNCORRECTABLE_DETECT: data is marked as poisoned where the error is found (R335). -/
def execUncorrectableDetect (site : PoisonSite) (s : State) : Outcome State Fault Refusal :=
  match site with
  | .mem pa => .next (if pa < hostBase then { s with poison := NatSet.add s.poison (granuleOf pa) } else s)
  | .ticket slice entry =>
    let key := slice * 4096 + entry
    let e := s.ticket key
    .next (if e.st = .free then s else s.setTicket key { e with poison := true })
  | .reg pid key =>
    match s.party? pid with
    | none => .next s
    | some p => .next (s.setParty pid { p with poison := NatSet.add p.poison key })

/-! ## Rollback of an interval (R338) -/

/-- Arrivals of parties leave the open rounds of a team's barriers. -/
def Barrier.noParties (b : Barrier) : Barrier :=
  let keep (a : Arrival) : Bool := decide (a.kind = .msig) || decide (a.kind = .msync)
  let left := b.arrived.filter keep
  { b with
    arrived := left, count := if left.isEmpty then 0 else b.count, expiry := none,
    held := b.held.filter (fun h => match h with
      | .arr a => keep a
      | _ => true) }

/-- The lineages of a rolled back team return to their boundary counts; a slot is held by those of the restored parties that are
trap parties (R338, R44). -/
def State.restoreLineages (s : State) (iv : Interval) : State :=
  iv.counts.foldl (fun s e =>
    let traps := iv.snap.filterMap (fun x => if x.2.lineageKey = e.1 then (x.2.outer.or x.2.trap) else none)
    s.setLineage e.1 { s.lineage e.1 with count := e.2, slot := traps.head?, holders := traps.length, rounds := [] }) s

/-- Roll a team back to the boundary of its interval (R338). -/
def State.rollback (s : State) (key : Nat) (t : Team) (iv : Interval) (k : Consume) : State :=
  let s1 := (s.membersOf key).foldl (fun s e => s.erase e.1) s
  let s2 := iv.sites.foldl (fun s d => s.postPart 0 (.core d 0) (.undo key)) (s1.unsend key)
  let own := s2.tickets.filter (fun e => decide (e.2.team = key + 1) && decide (iv.since ≤ e.2.since) &&
    (decide (e.2.st = .pending) || decide (e.2.st = .ready)))
  let s3 := own.foldl (fun s e =>
    s.postPart (e.1 / 4096) (.core s.devId (e.1 / 4096)) (.trel (s.ticketOf e.1) e.2.launch)) s2
  let s3 := iv.given.foldl (fun s t => s.postPart 0 (ticketHome t) (.trel t (s.gridLaunch k.grid))) s3
  let s4 := iv.log.foldl (fun (s : State) e =>
    let g := t.granuleAt e.1
    { s with mem := memPuts s.mem (64 * g) e.2.1, poison := if e.2.2 then NatSet.add s.poison g else NatSet.del s.poison g }) s3
  let s6 := iv.snap.foldl (fun s e => (s.setParty e.1 e.2).enqueue e.1 e.2.core) (s4.restoreLineages iv)
  let iv' := { iv with log := [], sites := [], given := [], rollbacks := iv.rollbacks + 1 }
  let t' := (Map.find s6.teams key).getD t
  let s7 := { s6 with
    teams := Map.insert s6.teams key { t' with
      interval := some iv', bars := t'.bars.map (fun (e : Nat × Barrier) => (e.1, e.2.noParties)) },
    consumes := s6.consumes.filter (fun x => decide (x.team ≠ key + 1)) }
  s7.logK k 1 (iv.rollbacks + 1)

/-! ## Units (R341 to R344) -/

/-- Grids that belong to a unit or descend from it. -/
def State.unitGrids (s : State) (u : BitVec 32) : List Grid :=
  (s.grids.filter (fun e => s.inUnit u 16 e.2.id)).map (fun e => e.2)

/-- End a unit: every party and descendant grid of it, with its shadows discarded; it is launched again if `again`
(R341, R342). -/
def State.endUnit (s : State) (u : BitVec 32) (again : Bool) : State :=
  let gs := s.unitGrids u
  let s0 := gs.foldl (fun s g => s.endGrid g) s
  -- a frame that is closing under `spacc` is closed as by `spdrop` (R283)
  let closing := s0.frames.filter (fun e => decide (e.2.st = .closing) && !e.2.isDrop && gs.any (fun g => decide (e.2.grid = g.id)))
  let s1 := closing.foldl (fun s e => s.frameDrop e.1) s0
  match s1.grid? u with
  | none => s1
  | some g => { s1 with grids := Map.insert s1.grids u.toNat { g with discard := true, relaunch := again } }

/-- Trap UNCORRECTABLE on the consuming lanes, in whichever bundles and parties of the lineage they now are; a trap waits where the
lineage's slot is held (R42). A sequencer's NaNs remain (R344). -/
def State.trapConsumer (s : State) (k : Consume) : State :=
  let found := (s.parties.filter (fun e => decide (e.2.lineageKey + 1 = k.lin))).flatMap (fun e =>
    (e.2.bundles.filter (fun b => decide (b.mask &&& k.lanes ≠ 0))).map (fun b => (e.1, b.id, b.mask &&& k.lanes)))
  found.foldl (fun s x => s.raise x.1 x.2.1 (allTrap (lanesOf x.2.2) cUncorrectable k.va) k.pc true) s

/-- Remove a consumption that is acted on. -/
def State.doneConsume (s : State) (k : Consume) : State := { s with consumes := s.consumes.filter (fun x => decide (x ≠ k)) }

/-- The driver is asked before a consumption is escalated to a unit, or the unit is replayed for it (R346). -/
def State.askContain (s : State) (k : Consume) : State :=
  let team := (k.team - 1) % 2 ^ 32
  State.raiseEvent { s with consumes := s.consumes ++ [{ k with asked := true }] } {
    type := 6, asid := 0, core := k.core % 512, addr := BitVec.ofNat 64 k.dpa,
    aux := BitVec.ofNat 64 ((s.gridLaunch k.grid).toNat * 2 ^ 32 + team), subj := .contain k.grid (k.party * 2 ^ 64 + k.pa) }

/-- What is done about a consumption that no interval contains, at the unit that it has come to: an escalation to that unit is
logged, then the unit is ended, escalated to the unit that encloses it or replayed; outside of every unit, and in one that is no
longer protected, the lanes trap (R341 to R344, R347). With FUNC_MODE bit 6 each escalation and each replay is the driver's to
answer first (R346). -/
def State.containIn (s : State) : Nat → Consume → State
  | 0, _ => s
  | n + 1, k =>
    let asks := s.regs.funcMode.getLsbD 6 && !k.granted
    match k.unit.bind s.grid? with
    | none => (s.logK k 6 0).trapConsumer k
    | some g =>
      if !g.prot then ((s.recordOutcome g.id k.core 0x12).logK k 7 g.replays).trapConsumer k
      else
        match k.esc with
        | some count => if asks then s.askContain k else (s.logK k 2 count).containIn n { k with esc := none, granted := false }
        | none =>
          if g.foreign then
            match g.parent.bind s.unitOf with
            | some u => s.containIn n { k with unit := some u, esc := some g.replays }
            | none => ((s.recordOutcome g.id k.core 0x10).logK k 4 g.replays).endUnit g.id false
          else if 3 ≤ g.replays then ((s.recordOutcome g.id k.core 0x11).logK k 5 g.replays).endUnit g.id false
          else if asks then s.askContain k
          else (s.logK k 3 (g.replays + 1)).endUnit g.id true

/-- A consumption comes to the replay unit it lies in: escalated, where an interval of its team had to give it up (R338, R341). -/
def State.contain (s : State) (k : Consume) (rollbacks : Option Nat) : State :=
  (s.doneConsume k).containIn 64 { k with unit := s.unitOf k.grid, esc := rollbacks, granted := false }

/-- Poisoned data has reached its consumer: the team rolls back, the unit replays, the driver is asked, or the lanes trap
(R338, R341 to R346). -/
def State.consumeOne (s : State) (idx : Nat) : State :=
  match s.consumes[idx]? with
  | none => s
  | some k =>
    if k.asked then s
    else
      match (if k.team = 0 then none else Map.find s.teams (k.team - 1)).bind (fun t => t.interval.map (fun iv => (t, iv))) with
      | some (t, iv) =>
        if !iv.published && decide (iv.rollbacks < 2) then s.rollback (k.team - 1) t iv k else s.contain k (some iv.rollbacks)
      | none => s.contain k none

/-- POISON_CONSUME: a consumption is acted on (R338, R341 to R346), as the next event of its clk (log 149). -/
def execPoisonConsume (idx : Nat) (s : State) : Outcome State Fault Refusal := .next (s.consumeOne idx)

/-- Every consumption of the present clk takes effect in it, after the other events of that clk (R335, R337). -/
def State.drain (s : State) : Nat → State
  | 0 => s
  | n + 1 =>
    match s.consumes.zipIdx.find? (fun e => !e.1.asked) with
    | none => s
    | some e => (s.consumeOne e.2).drain n

/-! ## Shadow latches (R348) -/

/-- Units with detectors: cores, matrix engines, slice agents, copy-engine groups (R375). -/
def shadowUnits : Nat := 1168

/-- A unit. -/
def State.shadowUnit (s : State) (u : Nat) : ShadowUnit := Map.getD s.tel.units u ShadowUnit.init

/-- Replace a unit. -/
def State.setShadow (s : State) (u : Nat) (x : ShadowUnit) : State :=
  { s with tel := { s.tel with units := Map.put s.tel.units u x ShadowUnit.init } }

/-- Change a core's clock from now on; its count goes on (R12). -/
def State.setClock (s : State) (c mhz : Nat) : State :=
  if mhz = (s.core c).mhz then s else s.setCore c { s.core c with clkBase := s.clk c, clkAt := s.ns, mhz := mhz }

/-- A core runs at the lower of its unit's clock and its stack's cap (R348, R357). -/
def State.retune (s : State) (c : Nat) : State := s.setClock c (min (s.shadowUnit c).mhz (s.stk (c / 32)).cap)

/-- Set the clock of a unit. -/
def State.setUnitClock (s : State) (u mhz : Nat) : State :=
  let s1 := s.setShadow u { s.shadowUnit u with mhz := mhz }
  if u < 512 then s1.retune u else s1

/-- The 1 ms window of a unit that has passed is closed: the unit is derated after more than 64 events in it, and restored after
1 s without. Windows follow each other without a gap (R348). -/
def State.endWindow (s : State) (unit : Nat) : State :=
  let x := s.shadowUnit unit
  if s.ns < x.since + 1000000 then s
  else
    let start := x.since + (s.ns - x.since) / 1000000 * 1000000
    let s1 := (s.tallyHist 1 unit x.window).setShadow unit { x with window := 0, since := start }
    let core := if unit < 512 then unit else 0x1FF
    if 64 < x.window then
      let s2 := s1.setShadow unit { s1.shadowUnit unit with quiet := s.ns }
      if 1200 < x.mhz then
        let mhz := max 1200 (x.mhz - 50)
        ((s2.setUnitClock unit mhz).logC 8 (mhz / 50) core 0 0 0).tally 2 unit
      else s2
    else if x.quiet + 1000000000 ≤ s.ns ∧ x.mhz < 1700 then
      let mhz := min 1700 (x.mhz + 50)
      let s2 := s1.setShadow unit { s1.shadowUnit unit with quiet := s.ns }
      (s2.setUnitClock unit mhz).logC 9 (mhz / 50) core 0 0 0
    else s1

/-- SHADOW_LATCH_EVENT: a late transition is replayed, which shows in counts only: it belongs to the window that runs now
(R348, R375). -/
def execShadowLatchEvent (unit : Nat) (s : State) : Outcome State Fault Refusal :=
  if shadowUnits ≤ unit then .next s
  else
    let s1 := s.endWindow unit
    let x := s1.shadowUnit unit
    .next ((s1.setShadow unit { x with window := x.window + 1 }).tally 1 unit)

/-- DERATE_WINDOW_END: a 1 ms window of a unit ends (R348). -/
def execDerateWindowEnd (unit : Nat) (s : State) : Outcome State Fault Refusal :=
  .next (if shadowUnits ≤ unit then s else s.endWindow unit)

end Sys2Proof.Machine
end

