-- ==== Sys2Proof/Machine/Paging.lean ====
section
/-!
DEFINITION. The second tier: page-in with the eviction of a resident page, and the reference sweep (R68, R69, R318).
-/

namespace Sys2Proof.Machine

open Host

/-- A bundle waits for a second-tier page. -/
def Bundle.waitsPage (b : Bundle) (asid : BitVec 16) (va : Nat) : Bool :=
  match b.phase with
  | .held (.pageIn a v) => decide (a = asid) && decide (v = va)
  | _ => false

/-- A sequencer of an ASID waits for a second-tier page. -/
def State.seqWaits (s : State) (t : Team) (asid : BitVec 16) (va : Nat) : Bool :=
  (match t.seqr with
    | some q => decide (q.page = some va)
    | none => false) &&
  (match s.grid? t.grid with
    | some g => decide (g.asid = asid)
    | none => false)

/-- The steward is to bring a page in: something waits for it, and in host-assisted paging the driver has answered (R68,
R319, R320). -/
def State.pageWanted (s : State) (asid : BitVec 16) (va : Nat) : Bool :=
  s.wanted.contains (asid, va) ||
  (!s.regs.funcMode.getLsbD 0 &&
   (s.parties.any (fun e => e.2.bundles.any (fun b => b.waitsPage asid va)) || s.teams.any (fun e => s.seqWaits e.2 asid va)))

/-- Some physical byte of a 64 KiB frame is named by a location. -/
def inFrame (f : Nat) (x : Loc) (n : Nat) : Bool := decide (x.pa < f + 65536) && decide (f < x.pa + n)

/-- Work that has been translated to a frame is not yet applied: a message, or an event of an uncommitted run (R69). -/
def State.frameBusy (s : State) (f : Nat) : Bool :=
  let hits (b : MsgBody) : Bool := match b.target with
    | some (x, n, _) => decide (x.dev = s.devId) && inFrame f x n
    | none => false
  s.net.any (fun m => !m.applied && hits m.body) ||
  s.parties.any (fun e => e.2.bundles.any (fun b => match b.run with
    | some r => r.eff.any (fun x => match x.item with
        | .send d => hits d.body
        | _ => false)
    | none => false))

/-- A resident page: a 64 KiB page of span 0 of this module's DRAM, by its frame, with the entries that name it (R68, R69). -/
structure Resident where
  frame   : Nat
  entries : List (Nat × Leaf)

/-- The entries that name a 64 KiB frame of this module's DRAM with span 0, and what they name. -/
def frameOf (dev : BitVec 20) (l : Leaf) : Option Nat :=
  match l.target with
  | .dram d k sl o => if d = dev ∧ l.span = 0 ∧ l.bits = 16 then some (dramPa k sl o) else none
  | _ => none

/-- The resident pages of a stack. -/
def State.residentPages (s : State) (k : Nat) : List Resident :=
  let all := s.pages.filterMap (fun e => match e.2 with
    | .ok l => (frameOf s.devId l).bind (fun f => if f / 2 ^ 36 = k then some (f, e.1, l) else none)
    | _ => none)
  ((all.map (fun e => e.1)).eraseDups).map (fun f => ⟨f, (all.filter (fun e => decide (e.1 = f))).map (fun e => e.2)⟩)

/-- A resident page may be evicted (R69, R316): no range lock, no versions, no PENDING ticket for it, neither PIN nor
VHELD. -/
def State.evictable (s : State) (p : Resident) : Bool :=
  !s.locked ⟨s.devId, p.frame⟩ 65536 true && !s.versions.any (fun v => decide (v.pa / 65536 = p.frame / 65536)) &&
  !s.grids.any (fun g => g.2.undo.any (fun u => decide (64 * u.1 / 65536 = p.frame / 65536))) &&
  !s.tickets.any (fun t => decide (t.1 / 4096 = p.frame / 2 ^ 31) && decide (t.2.st = .pending) && (match t.2.src with
    | some x => decide (x.dev = s.devId) && inFrame p.frame x t.2.len
    | none => false)) &&
  p.entries.all (fun e => !(s.tableWord e.1).getLsbD 14 && !(s.tableWord e.1).getLsbD 15)

/-- Positions of a frame from the rotating pointer on. -/
def frameRank (hand f : Nat) : Nat := (f + 2 ^ 40 - hand) % 2 ^ 40

/-- The victim of R69: the first eligible page in frame order from the rotating pointer whose reference bit is clear. -/
def State.victim (s : State) (k : Nat) : Option Resident :=
  let st := s.stk k
  leastBy (fun p => frameRank st.hand p.frame)
    ((s.residentPages k).filter (fun p => !NatSet.mem st.refd (p.frame / 65536) && s.evictable p))

/-- Some byte of a frame is mapped by a page, or lies in a table that the part walks (R313, R317). -/
def State.frameUsed (s : State) (f : Nat) : Bool :=
  let near (a n : Nat) : Bool := decide (a < f + 65536) && decide (f < a + n)
  s.pages.any (fun e => match e.2 with
    | .ok l => (List.range 16).any (fun i => (s.vaOn l ⟨s.devId, f + 4096 * i⟩).isSome)
    | _ => false) ||
  near s.regs.asidTable.toNat (2 ^ 21) ||
  s.contexts.any (fun c => near c.2.2 2048 || (s.tablesUnder 4 0 c.2.1).any (fun t => near t 4096))

/-- A frame is free for a page-in: 64 KiB of mappable DRAM of the stack that no page maps, that holds no table and that is in
no pool of the stack (R68; log 17). -/
def State.frameFreeFor (s : State) (k f : Nat) : Bool :=
  let st := s.stk k
  let park := st.parkBase.toNat
  decide (f % 65536 = 0) && decide (f / 2 ^ 36 = k) && s.tableOk f && s.tableOk (f + 65535) && !s.frameUsed f &&
  !(decide (park ≤ f) && decide (f < park + 65536 * (st.parkCnt.toNat % 2 ^ 32))) &&
  !(List.range (st.wspCount.toNat % 2 ^ 32)).any (fun i => decide (memNat s.mem (st.wspBase.toNat + 8 * i) 8 = f))

/-- A stack has no free frame (R69). -/
def State.noFrame (s : State) (k : Nat) : Bool := (List.range (2 ^ 20)).all (fun i => !s.frameFreeFor k (k * 2 ^ 36 + 65536 * i))

/-- Release what waited for a page (R68). -/
def State.releasePage (s : State) (asid : BitVec 16) (va : Nat) : State :=
  State.recheck { s with
    wanted := s.wanted.filter (fun x => decide (x ≠ (asid, va))),
    parties := s.parties.map (fun e => (e.1, { e.2 with bundles := e.2.bundles.map (fun b =>
      if b.waitsPage asid va then { b with phase := if b.run.isSome then .running else .waiting, stalled := false } else b) })),
    teams := s.teams.map (fun (e : Nat × Team) => if s.seqWaits e.2 asid va then
        (e.1, { e.2 with seqr := e.2.seqr.map (fun (q : Seqr) => { q with page := none }) }) else e) }

/-- An entry's bits with a second-tier page for its home (R316). -/
def tierEntry (old k page : Nat) : Nat := old % 2 ^ 16 + 2 * 2 ^ 16 + page * 2 ^ 18 + k * 2 ^ 39

/-- An entry's bits with a frame of this module for its home (R316). -/
def dramEntry (old : Nat) (dev : BitVec 20) (f : Nat) : Nat :=
  old % 2 ^ 16 + f % 2 ^ 31 / 65536 * 2 ^ 18 + f / 2 ^ 31 % 32 * 2 ^ 33 + f / 2 ^ 36 % 16 * 2 ^ 38 + dev.toNat * 2 ^ 42

/-- Rewrite entries, each as one step (R318). -/
def State.setEntries (s : State) (es : List (Nat × Leaf)) (x : Nat → Nat) : State :=
  es.foldl (fun s e => s.setEntry e.1 e.2 (x (s.tableWord e.1).toNat)) s

/-- The entries that name a page of a stack's second tier. -/
def State.tierEntries (s : State) (k page : Nat) : List (Nat × Leaf) :=
  s.pages.filterMap (fun e => match e.2 with
    | .tier _ l a => if l.target = .tier k page then some (a, l) else none
    | _ => none)

/-- Move a second-tier page into a frame: its bytes, and the new home in every entry that names it; what waits for it goes on
(R68, R318). A page that stands in the frame takes the place that the incoming one leaves (R69; log 99). Watched words follow their page; a move
changes no byte, so that the comparison it brings about finds what the last one found (R81). -/
def State.bringIn (s : State) (asid : BitVec 16) (va k page f : Nat) (out : Option Resident) : State :=
  let far := tierBase + k * 2 ^ 37 + page * 65536
  let inn := s.tierEntries k page
  let s1 := match out with
    | none => s.copyFrame far f
    | some _ => (s.copyFrame far f).copyFrameOf s f far
  let s2 := match out with
    | none => s1
    | some p =>
      let s2 := s1.setEntries p.entries (fun x => tierEntry x k page)
      s2.setStk k { s2.stk k with hand := f + 65536 }
  let s3 := s2.setEntries inn (fun x => dramEntry x s.devId f)
  let s4 := s3.repoint (s3.moving ((far, f) :: (if out.isSome then [(f, far)] else [])))
  (s4.setStk k { s4.stk k with refd := NatSet.del (s4.stk k).refd (f / 65536) }).releasePage asid va

/-- PAGE_IN: the steward moves a second-tier page that is waited for into the frame given: a free one, or, where no frame is
free, that of the victim of R69, which is evicted (R68, R69). -/
def execPageIn (asid : BitVec 16) (va frame : Nat) (s : State) : Outcome State Fault Refusal :=
  let page := va / 65536 * 65536
  if !s.pageWanted asid page then .next s
  else
    match s.xlate none asid page with
    | .tier k l _ =>
      let home := match l.target with
        | .tier _ p => p
        | _ => 0
      if s.frameFreeFor k frame then .next (s.bringIn asid page k home frame none)
      else
        (match s.victim k with
          | some p => if p.frame = frame && !s.frameBusy frame && s.noFrame k then .next (s.bringIn asid page k home frame (some p)) else .next s
          | none => .next s)
    | _ => .next (s.releasePage asid page)

/-- REFERENCE_SWEEP: every 1 ms the reference bits of a stack's pages are cleared (R69). -/
def execReferenceSweep (stack : Nat) (s : State) : Outcome State Fault Refusal :=
  let st := s.stk stack
  if 16 ≤ stack ∨ s.ns < st.sweepAt + 1000000 then .next s
  else .next (s.setStk stack { st with sweepAt := s.ns, refd := [] })

end Sys2Proof.Machine
end

