-- ==== Sys2Proof/Machine/HostPort.lean ====
section
/-!
DEFINITION. The host ports: HDM windows and host accesses (R303, R304), the port side of device accesses to host memory
(R15, R284), and the arrival windows with their seeds (R306, R307).
-/

namespace Sys2Proof.Machine

open Host

/-- A host port. -/
def State.port (s : State) (p : Nat) : Port := Map.getD s.ports p Port.init

/-- Replace a host port. -/
def State.setPort (s : State) (p : Nat) (x : Port) : State := { s with ports := Map.put s.ports p x Port.init }

/-! ## HDM windows (R303) -/

/-- HPA_BASE of a descriptor. -/
def hdmBase (d : BitVec 256) : Nat := (field d 0 64).toNat
/-- VA_BASE of a descriptor. -/
def hdmVa (d : BitVec 256) : Nat := (field d 64 64).toNat
/-- SIZE_LOG2 of a descriptor. -/
def hdmLog2 (d : BitVec 256) : Nat := (field d 128 6).toNat
/-- ASID of a descriptor. -/
def hdmAsid (d : BitVec 256) : BitVec 16 := field d 144 16
/-- EN of a descriptor. -/
def hdmEn (d : BitVec 256) : Bool := d.getLsbD 255

/-- The descriptor's writable bits (R303). -/
def hdmMask : BitVec 256 :=
  BitVec.ofNat 256 (2 ^ 128 - 1 + (2 ^ 6 - 1) * 2 ^ 128 + (2 ^ 16 - 1) * 2 ^ 144 + 2 ^ 255)

/-- A descriptor may be enabled: SIZE_LOG2 from 21 to 40 and both bases aligned. -/
def hdmValid (d : BitVec 256) : Bool :=
  decide (21 ≤ hdmLog2 d) && decide (hdmLog2 d ≤ 40) && decide (hdmBase d % 2 ^ hdmLog2 d = 0) &&
  decide (hdmVa d % 2 ^ hdmLog2 d = 0)

/-- A descriptor after a write of one of its doublewords (R303). -/
def hdmWrite (d : BitVec 256) (dword : Nat) (val : DWord) : BitVec 256 :=
  let hole : BitVec 256 := ~~~((BitVec.ofNat 256 (2 ^ 64 - 1)) <<< (64 * dword))
  let new := ((d &&& hole) ||| (val.setWidth 256 <<< (64 * dword))) &&& hdmMask
  let enBit : BitVec 256 := 1#256 <<< 255
  if hdmEn d then (if dword = 3 ∧ !hdmEn new then d &&& ~~~enBit else d)
  else if hdmEn new ∧ !hdmValid new then new &&& ~~~enBit
  else new

/-- HDM_WINDOW_WRITE: a write of a doubleword of a window's descriptor (R303). -/
def execHdmWindowWrite (port win dword : Nat) (val : DWord) (s : State) : Outcome State Fault Refusal :=
  if 2 ≤ port ∨ 8 ≤ win ∨ 4 ≤ dword then .next s
  else
    let x := s.port port
    .next (s.setPort port { x with hdm := Map.put x.hdm win (hdmWrite (Map.getD x.hdm win 0) dword val) 0 })

/-- The enabled window of a port that serves a host address, the lowest one: its device address and ASID (R303, R304). -/
def Port.window (x : Port) (hpa : Nat) : Option (Nat × BitVec 16) :=
  (List.range 8).findSome? (fun k =>
    let d := Map.getD x.hdm k 0
    if hdmEn d && decide (hdmBase d ≤ hpa) && decide (hpa < hdmBase d + 2 ^ hdmLog2 d) then
      some (hdmVa d + (hpa - hdmBase d), hdmAsid d) else none)

/-! ## Host accesses (R113, R304) -/

/-- A dropped write or a poisoned read is counted and its address kept (R304). -/
def State.hostFault (s : State) (p hpa : Nat) : State :=
  let x := s.port p
  s.setPort p { x with faults := x.faults + 1, faultAddr := BitVec.ofNat 64 hpa }

/-- A read that returns all ones, poisoned, or a write that is dropped (R304). -/
def State.hostBad (s : State) (p : Nat) (a : HostAcc) : State :=
  let s1 := s.hostFault p a.hpa
  { s1 with out := s1.out ++ [match a.data with
    | none => .readData p a.tag (List.replicate 64 255) true
    | some _ => .writeDone p a.tag] }

/-- What becomes of a host access. -/
inductive HostRes where
  | done (s : State)
  | held (s : State)

/-- A host access whose home is another module or a host port: a request there, and its answer once it has come (R113, R304,
R361). -/
def State.hostFar (s : State) (p : Nat) (a : HostAcc) (x : Loc) : HostRes :=
  let who := Reader.host p a.tag
  match a.data with
  | some d =>
    let r := s.farWrite who 0 x (d.take 64)
    if !r.1 then .held r.2
    else
      let s1 := s.dropReads who
      .done { s1 with out := s1.out ++ [.writeDone p a.tag] }
  | none =>
    match s.farRead who 0 x 64 with
    | (none, t) => .held t
    | (some (b, bad), _) =>
      let s1 := s.dropReads who
      if bad then .done (s1.hostBad p a) else .done { s1 with out := s1.out ++ [.readData p a.tag b false] }

/-- A host access at the bytes its page gives (R113, R304, R84, R335). -/
def State.hostAt (s : State) (p : Nat) (a : HostAcc) (x : Loc) : HostRes :=
  if x.isHost ∨ x.dev ≠ s.devId then s.hostFar p a x
  else if s.locked x 64 a.data.isSome then .held s
  else
    match a.data with
    | some d =>
      let s1 := s.store Who.ofHost x.pa (d.take 64)
      .done { s1 with out := s1.out ++ [.writeDone p a.tag] }
    | none =>
      if s.poisoned x.pa 64 then .done ((s.load Who.ofHost x.pa 64).2.hostBad p a)
      else
        let r := s.load Who.ofHost x.pa 64
        .done { r.2 with out := r.2.out ++ [.readData p a.tag r.1 false] }

/-- Make a host access to the 64 B line that holds its address, or find what holds it back (R304). -/
def State.hostAccess (s : State) (p : Nat) (a : HostAcc) : HostRes :=
  match (s.port p).window (a.hpa / 64 * 64) with
  | none => .done (s.hostBad p a)
  | some (va, asid) =>
    match s.xlate none asid va with
    | .np => .done (s.hostBad p a)
    | .prot => .done (s.hostBad p a)
    | .parked _ => .held s
    | .tier k _ _ => .held (s.askPage asid va (32 * k))
    | .ok l =>
      if (a.data.isNone && !l.r) || (a.data.isSome && !l.w) then .done (s.hostBad p a)
      else
        match s.locOn l va with
        | some x => s.hostAt p a x
        | none =>
          match a.data with
          | none => .done { s with out := s.out ++ [.readData p a.tag (List.replicate 64 0) false] }
          | some _ =>
            match (s.wstackTeam asid va).bind (fun k => s.attachFrame k (va / 65536)) with
            | none => .done (s.hostBad p a)
            | some s1 =>
              match s1.xlate none asid va with
              | .ok l1 =>
                (match s1.locOn l1 va with
                  | some x => s1.hostAt p a x
                  | none => .done (s1.hostBad p a))
              | _ => .done (s1.hostBad p a)

/-- A host access that is held awaits the driver's RESUME for the second-tier page it met (R320). -/
def State.hostAwaits (s : State) (p : Nat) (a : HostAcc) : Bool :=
  match (s.port p).window (a.hpa / 64 * 64) with
  | some (va, asid) => s.eventOpen (.tier asid (va / 65536 * 65536))
  | none => false

/-- Two accesses touch one line. -/
def HostAcc.sameLine (a b : HostAcc) : Bool := decide (a.hpa / 64 = b.hpa / 64)

/-- A host access arrives, or one that is held is tried again; accesses to one line keep their order (R84, R304). -/
def State.hostMem (s : State) (p : Nat) (a : HostAcc) : State :=
  if 2 ≤ p ∨ s.mode = 3 then s
  else
    let x := s.port p
    let before := x.pending.takeWhile (fun b => decide (b ≠ a))
    let old := x.pending.contains a
    let keep (s : State) : State :=
      if old then s
      else
        let x := s.port p
        s.setPort p { x with pending := x.pending ++ [a] }
    let done (s : State) : State :=
      if old then
        let x := s.port p
        s.setPort p { x with pending := x.pending.erase a }
      else s
    if before.any (fun b => b.sameLine a) ∨ (old ∧ s.hostAwaits p a) then keep s
    else
      match s.hostAccess p a with
      | .done t => done t
      | .held t => keep t

/-- HOST_MEM_READ: a host CXL.mem read (R304). -/
def execHostMemRead (port tag hpa : Nat) (s : State) : Outcome State Fault Refusal :=
  .next (s.hostMem port ⟨tag, hpa % 2 ^ 64, none⟩).recheck

/-- HOST_MEM_WRITE: a host CXL.mem write of a 64 B line (R304). -/
def execHostMemWrite (port tag hpa : Nat) (data : List Byte) (s : State) : Outcome State Fault Refusal :=
  .next (s.hostMem port ⟨tag, hpa % 2 ^ 64, some ((data ++ List.replicate 64 0).take 64)⟩).recheck

/-! ## Device accesses to host windows (R15, R284) -/

/-- The bytes of host memory that a message touches, as the host has them now, reach the port (log 18). -/
def State.hostFresh (s : State) (m : Msg) (fresh : List Byte) : State :=
  match m.body with
  | .write _ _ [] => s
  | b =>
    match b.target with
    | none => s
    | some (l, n, _) => { s with mem := memPuts s.mem l.pa (fresh.take n) }

/-- HOST_WINDOW_RESPONSE: an access to a host window is performed at its port, with the bytes that the host holds there at
that moment; its data or acknowledgement goes back (R15, R284). -/
def execHostWindowResponse (msg : Nat) (fresh : List Byte) (s : State) : Outcome State Fault Refusal :=
  match s.arriving msg with
  | none => .next s
  | some m =>
    match m.dst with
    | .core _ _ => .next s
    | .port _ =>
      let s1 := s.hostFresh m fresh
      match m.body with
      | .hostRead l n who =>
        let r := s1.load m.who l.pa n
        if m.srcDev = s.devId then .next ((r.2.dropMsg msg).answerRead who r.1 false)
        else .next (r.2.answerClaim m who 0 (some r.1) 259 false)
      | _ =>
        let r := s1.elemReady m
        .next (if r.1 then (r.2.applyBody m).map (fun t => (t.markApplied msg).recheck) |>.getD s else r.2)

/-- CXL_CACHE_REQUEST: a request of an absent protocol is answered as the standard prescribes (R5, R302). -/
def execCxlCacheRequest (port : Nat) (s : State) : Outcome State Fault Refusal :=
  if 2 ≤ port then .next s else .next { s with out := s.out ++ [.cxlAbsent port] }

/-! ## Seeds (R306, R307) -/

/-- A seed slot. -/
def State.seedAt (s : State) (k : Nat) : Seed := Map.getD s.seeds k Seed.init

/-- Replace a seed slot. -/
def State.setSeed (s : State) (k : Nat) (x : Seed) : State := { s with seeds := Map.put s.seeds k x Seed.init }

/-- SEED_SUBMIT: a write to SLOT_CTL: CORE is kept, and GO copies the record of a slot that is free to be submitted (R306). -/
def execSeedSubmit (slot : Nat) (val : DWord) (s : State) : Outcome State Fault Refusal :=
  if 128 ≤ slot then .next s
  else
    let x := s.seedAt slot
    let core := (field val 8 5).toNat
    if !val.getLsbD 0 then .next (s.setSeed slot { x with core := core })
    else if x.state = 1 ∨ x.state = 2 then .next s
    else
      let copy := (List.range 320).map (fun i => Map.getD x.bytes i 0)
      .next (s.setSeed slot { x with
        state := 1, core := core, cause := 0, copy := copy ++ [BitVec.ofNat 8 core], party := none })

/-- Fields of a seed's header that the host chooses. -/
def seedHeader (x : Nat) : Nat :=
  headerAt 1 0 + headerAt 5 8 + headerAt 2 16 + headerAt (bitsAt x 40 2) 40 + headerAt (bitsAt x 42 2) 42 +
  headerAt (bitsAt x 48 16) 48 + headerAt 1 256 + headerAt (bitsAt x 320 64) 320 + headerAt 64 396 + headerAt 1 416

/-- A seed record is well formed: every field that R307 gives a value has it. -/
def seedOk (b : List Byte) : Bool :=
  let x := leNat (b.take 128)
  decide (x = seedHeader x) && ((b.drop 136).take 184).all (fun y => decide (y = 0))

/-- The party of a seed (R307): lane 0 at the header it names, no team and no grid, and a lineage of its own. -/
def seedParty (dev : BitVec 20) (core slot clk bid : Nat) (lineage : BitVec 32) (b : List Byte) : Party :=
  let x := leNat (b.take 128)
  { partyId := 0, teamId := 0, gridId := 0, launchId := 0, lineage := lineage, asid := BitVec.ofNat 16 (bitsAt x 48 16),
    originDev := dev, originCore := BitVec.ofNat 9 core, depth := 0, priority := BitVec.ofNat 2 (bitsAt x 40 2),
    power := BitVec.ofNat 2 (bitsAt x 42 2), winSize := 64, wstack := 0, seed := some slot, handler := 0,
    place := .flight core, vregs := [], dirty := [], lanes := [],
    scal := Map.put [] 0 (BitVec.ofNat 64 (leNat ((b.drop 128).take 8))) 0, hand := [], cb := none, fpflags := 0, limbCtl := 0,
    limbFlags := 0, wseq := [], frame := 0, rngLo := 0, rngHi := 0, rngStream := 0, trap := none, nested := false, outer := none,
    spillPos := 0, rejoin := none, bundles := [Bundle.at bid 1 (BitVec.ofNat 64 (bitsAt x 320 64)) 0 clk], pend := [],
    fenceW := [], fenceR := [], poison := [], readyAt := 0, beganAt := 0, level := 0, starving := false, blockedAt := 0, blockedNs := (0, 0),
    formedAt := 0, homeCore := core, returned := false, recQ := 0, qAt := 0, flagAt := [], behind := [], counted := false, live := 0,
    stopBy := false, haltBy := false, wantPark := false }

/-- SEED_ACCEPT: a submitted seed is refused, or takes its place in its core's arrival queue once that has room (R307). -/
def execSeedAccept (slot : Nat) (s : State) : Outcome State Fault Refusal :=
  let x := s.seedAt slot
  if x.state ≠ 1 then .next s
  else
    let core := 32 * (slot / 8) + (x.copy.getD 320 0).toNat
    let asid := BitVec.ofNat 16 (bitsAt (leNat (x.copy.take 128)) 48 16)
    let refuse (k : Nat) : State := s.setSeed slot { x with state := 3, cause := k }
    if !seedOk x.copy then .next (refuse 1)
    else if !s.asidValid asid then .next (refuse 2)
    else if bitsAt (leNat (x.copy.take 128)) 320 64 % 4 ≠ 0 then .next (refuse 3)
    else
      let p := seedParty s.devId core slot (s.clk core) (s.keys + 1) (BitVec.ofNat 32 s.keys) x.copy
      if (s.core core).dead ∨ (s.slotsFor core p.queueSlots).isNone then .next s
      else
        let pid := s.keys
        let key := p.lineageKey
        let s1 := (s.bump.bump.setParty pid { p with formedAt := s.steps }).setSeed slot { x with state := 2, party := some key }
        .next ((s1.setLineage key { Lineage.init with count := 1 }).enqueue pid core)

end Sys2Proof.Machine
end

