-- ==== Sys2Proof/Machine/Boot.lean ====
section
/-!
DEFINITION. Boot (R349 to R355): the steps, the boot record, the alternates and the answers to BOOT_CTL; SPDM (R356); loss
of power. What an attempt at a step finds is an input (log 20).
-/

namespace Sys2Proof.Machine

open Host

/-! ## The state without power -/

/-- The module as it stands when power is gone: flash keeps the boot record, the retire masks and the saved telemetry
and images (R350, R352, R353, R355, R377), fuses stand; the rest is as after reset. What the model itself counts goes on (log 20). -/
def State.cold (s : State) : State :=
  let boot := { State.reset.boot with
    ents := s.boot.ents, host := s.boot.host, retire := s.boot.retire, slots := s.boot.slots, slot := s.boot.slot,
    minVersion := s.boot.minVersion }
  { State.reset with
    schedule := s.schedule, turn := s.turn, steps := s.steps, keys := s.keys, free := s.free, out := s.out, ns := s.ns,
    devId := s.devId,
    boot := boot,
    tel := { State.reset.tel with flash := s.tel.flash } }

/-! ## The steps (R349) -/

/-- An optional step. -/
def stepOptional (n : Nat) : Bool := decide (n = 4) || decide (n = 7) || decide (n = 8) || decide (n = 9)

/-- How many alternates a step has. -/
def stepAlternates (n : Nat) : Nat :=
  match n with
  | 2 | 3 | 5 | 7 | 8 => 1
  | 6 => 2
  | _ => 0

/-- An entry of the boot record. -/
def State.bootEnt (s : State) (n : Nat) : BootEnt := Map.getD s.boot.ents n BootEnt.init

/-- Write an entry of the boot record; a RESULT of 2 is counted (R350, R375). -/
def State.setBootEnt (s : State) (n : Nat) (e : BootEnt) : State :=
  let s1 := { s with boot := { s.boot with ents := Map.put s.boot.ents n e BootEnt.init } }
  if e.result = 2 then s1.tally 12 (n - 1) else s1

/-- Mark slices of a stack absent (R349, R353, R354). -/
def State.markAbsent (s : State) (k : Nat) (m : BitVec 32) : State :=
  s.setStk k { s.stk k with absent := (s.stk k).absent ||| m }

/-- Slices marked absent by step 5 take their cores out of service (R354). -/
def State.markDead (s : State) (k : Nat) (m : BitVec 32) : State :=
  ((List.range 32).filter (fun i => m.getLsbD i)).foldl (fun s i =>
    s.setCore (32 * k + i) { s.core (32 * k + i) with dead := true }) (s.markAbsent k m)

/-- The work of an attempt at a step with a method, whatever its outcome: retired slices are marked first at step 3, and
a slice remap marks the failing slices (R349, R353, R354). -/
def State.stepWork (s : State) (n m : Nat) (inp : BootInput) : State :=
  if n = 3 then
    let s1 := (List.range 16).foldl (fun s k => s.markAbsent k (Map.getD s.boot.retire k 0)) s
    if m = 1 then inp.slices.foldl (fun s e => s.markAbsent (e.1 % 16) e.2) s1 else s1
  else if n = 5 ∧ m = 1 then inp.cores.foldl (fun s e => s.markDead (e.1 % 16) e.2) s
  else s

/-- Fabric ports: local ones and all (R362). -/
def localPorts : Nat := 31
/-- Fabric ports of a module (R362). -/
def allPorts : Nat := 1055

/-- A link whose training step has passed with a method, or has not. -/
def Link.boot (lanes : BitVec 16) (m : Option Nat) : Link :=
  match m with
  | some v => { Link.init with st := .training, speed := v, good := lanes }
  | none => { Link.init with st := .disabled }

/-- Replace the ports from `lo` up to below `hi`. -/
def State.setLinks (s : State) (lo hi : Nat) (x : Link) : State :=
  let below := s.fab.links.filter (fun e => decide (e.1 < lo))
  let above := s.fab.links.filter (fun e => decide (hi ≤ e.1))
  { s with fab := { s.fab with links := below ++ (List.range (hi - lo)).map (fun i => (lo + i, x)) ++ above } }

/-- The latest copy of the telemetry in flash that passes its CRC-32 (R377). -/
def BootInput.copy (inp : BootInput) (s : State) : Option (Map Nat) := (s.tel.flash.drop inp.bad).head?

/-- The image of a slot may be loaded: it is signed, and its security version is not below the fused minimum (R355). -/
def State.imageOk (s : State) (slot : Nat) : Bool :=
  let x := if slot = 0 then s.boot.slots.1 else s.boot.slots.2
  x.signed && decide (s.boot.minVersion ≤ x.version)

/-- Every absent slice is one that the operator has retired (R353). -/
def State.onlyRetired (s : State) : Bool :=
  (List.range 16).all (fun k => decide ((s.stk k).absent &&& ~~~(Map.getD s.boot.retire k 0) = 0))

/-- What follows a step that has passed with a method, or was skipped or failed (R349, R359, R377). -/
def State.stepDone (s : State) (n : Nat) (m : Option Nat) (inp : BootInput) : State :=
  match n with
  | 2 => (match m with
      | some v => { s with boot := { s.boot with slot := v } }
      | none => s)
  | 4 => if m.isSome then s else (List.range 16).foldl (fun s k => s.setStk k { s.stk k with noTier := true }) s
  | 7 => s.setLinks 0 localPorts (Link.boot 0xFFFF m)
  | 8 =>
    let s1 := s.setLinks localPorts allPorts (Link.boot 0x3 m)
    { s1 with fab := { s1.fab with routes := inp.plan, peers := inp.peers } }
  | 9 =>
    let t := match m, inp.copy s with
      | some _, some x => s.tel.restore x
      | _, _ => { s.tel with restored := true }
    { s with tel := { t with savedAt := s.ns } }
  | _ => s

/-- The method with which a step begins in hardware mode (R351). -/
def BootEnt.first (e : BootEnt) (n : Nat) : Nat :=
  if stepOptional n && decide (8 ≤ e.skips) then 0
  else if e.result = 2 then (if e.method < stepAlternates n then e.method + 1 else 0)
  else if e.result = 4 then e.method
  else 0

/-- RECOVERY, with CXL.io and management only: the fabric's links are disabled (R116, R351; log 150). -/
def State.toRecovery (s : State) (n : Nat) : State :=
  { (s.setLinks 0 allPorts (Link.boot 0 none)) with mode := 3, boot := { s.boot with step := n, waiting := false } }

/-- Skip an optional step (R351, R352). -/
def State.skipStep (s : State) (n : Nat) (inp : BootInput) : State :=
  let e := s.bootEnt n
  (s.setBootEnt n { e with result := 3, skips := min 255 (e.skips + 1) }).stepDone n none inp

/-- Run the steps from step `n` on, in order, with the method given or the one the record asks for (R349 to R352).
`pass` holds the outcomes of the attempts to come; step 9 passes when flash holds a good copy of the telemetry (R377), step 2
only with an image that may be loaded (R355). Power lost during a step leaves its entry as it stood (R350). -/
def bootFrom : Nat → State → Nat → Option Nat → List Bool → BootInput → State
  | 0, s, _, _, _, _ => s
  | f + 1, s, n, given, pass, inp =>
    if 10 < n then { s with mode := 0, boot := { s.boot with step := 10, waiting := false } }
    else if inp.lost = n ∧ n ≠ 0 then s.cold
    else
      let e := s.bootEnt n
      let held := s.boot.booted && decide (n ≠ 1)
      if given.isNone && !held && stepOptional n && (decide (e.result = 2) || decide (e.result = 3)) && decide (e.skips < 8) then
        bootFrom f (s.skipStep n inp) (n + 1) none pass inp
      else
        let m := match given with
          | some m => m
          | none => if held then 0 else e.first n
        let ok := if n = 9 then (inp.copy s).isSome else pass.headD true && (decide (n ≠ 2) || s.imageOk m)
        let rest := if n = 9 then pass else pass.tail
        let s1 := { (s.stepWork n m inp) with boot := { s.boot with step := n, method := m, waiting := false } }
        if ok then
          let plain := decide (m = 0) || decide (n = 3) && s1.onlyRetired
          let s2 := s1.setBootEnt n { result := if plain then 1 else 4, method := if plain then 0 else m, fails := 0, skips := 0 }
          bootFrom f (s2.stepDone n (some m) inp) (n + 1) none rest inp
        else if !held && decide (m < stepAlternates n) then bootFrom f s1 n (some (m + 1)) rest inp
        else
          let fails := if held && given.isSome then e.fails else min 255 (e.fails + 1)
          let s2 := s1.setBootEnt n { result := 2, method := m, fails := fails, skips := 0 }
          if held then { s2 with boot := { s2.boot with waiting := true } }
          else if stepOptional n then bootFrom f (s2.stepDone n none inp) (n + 1) none rest inp
          else s2.toRecovery n

/-- POWER_ON: Numilis runs the boot steps (R349, R351, R352). -/
def execPowerOn (inp : BootInput) (s : State) : Outcome State Fault Refusal :=
  let c := s.cold
  .next (bootFrom 64 { c with boot := { c.boot with booted := c.boot.host } } 1 none inp.pass inp)

/-- The boot waits for the host and may go on: the module state changes only while no launch is resident (R115, R352;
log 121). -/
def State.bootWaits (s : State) : Bool := s.boot.waiting && s.grids.isEmpty

/-- BOOT_RETRY: the stopped step is tried again with the same method (R352). -/
def execBootRetry (inp : BootInput) (s : State) : Outcome State Fault Refusal :=
  if !s.bootWaits then .next s else .next (bootFrom 64 s s.boot.step (some s.boot.method) inp.pass inp)

/-- BOOT_NEXT_ALTERNATE: the stopped step is tried with its next alternate; without one it acts as entering RECOVERY
(R352). -/
def execBootNextAlternate (inp : BootInput) (s : State) : Outcome State Fault Refusal :=
  if !s.bootWaits then .next s
  else if stepAlternates s.boot.step ≤ s.boot.method then .next (s.toRecovery s.boot.step)
  else .next (bootFrom 64 s s.boot.step (some (s.boot.method + 1)) inp.pass inp)

/-- BOOT_SKIP: a stopped optional step is skipped; on a required one it acts as entering RECOVERY (R352). -/
def execBootSkip (inp : BootInput) (s : State) : Outcome State Fault Refusal :=
  if !s.bootWaits then .next s
  else if !stepOptional s.boot.step then .next (s.toRecovery s.boot.step)
  else .next (bootFrom 64 (s.skipStep s.boot.step inp) (s.boot.step + 1) none inp.pass inp)

/-- BOOT_ENTER_RECOVERY: the boot stops in RECOVERY (R352). -/
def execBootEnterRecovery (s : State) : Outcome State Fault Refusal :=
  if !s.bootWaits then .next s else .next (s.toRecovery s.boot.step)

/-- POWER_LOSS: what is not in flash is gone (R350, R377). -/
def execPowerLoss (s : State) : Outcome State Fault Refusal := .next s.cold

/-! ## SPDM (R356; codes of the standard, log 19) -/

/-- Answer an SPDM request. -/
def State.spdm (s : State) (code : Nat) (body : List Nat) : State := { s with out := s.out ++ [.spdm code body] }

/-- `n` bytes the spec does not give, from an index on: the same at every request. -/
def fixedBytes (base n : Nat) : List Nat := (List.range n).map (fun i => (Config.spdmByte (base + i)).toNat)

/-- An answer that carries a signature: 64 bytes, fresh each time. -/
def State.spdmSigned (s : State) (code : Nat) (body : List Nat) : State :=
  let sig := fixedBytes (2 ^ 64 + 64 * s.free) 64
  { (s.spdm code (body ++ sig)) with free := s.free + 1 }

/-- GET_VERSION: version 1.3 alone. -/
def execGetVersion (s : State) : Outcome State Fault Refusal := .next (s.spdm 0x04 [0x1300])

/-- GET_CAPABILITIES: certificates, challenge and signed measurements; no sessions. A request of another version than 1.3 is
answered VersionMismatch (R5, R356; log 19). -/
def execGetCapabilities (s : State) : Outcome State Fault Refusal :=
  if s.boot.peer.version ≠ 0x13 then .next (s.spdm 0x7F [0x41]) else .next (s.spdm 0x61 [0x16])

/-- NEGOTIATE_ALGORITHMS: of the algorithms that the peer offers, EdDSA Ed25519 and SHA-512; where it offers neither, none is
selected, and a request of another version than 1.3 is answered VersionMismatch (R5, R356; log 19). -/
def execNegotiateAlgorithms (s : State) : Outcome State Fault Refusal :=
  let r := s.boot.peer
  if r.version ≠ 0x13 then .next (s.spdm 0x7F [0x41]) else .next (s.spdm 0x63 [r.asym &&& 0x400, r.hash &&& 0x04])

/-- GET_DIGESTS: the digest of slot 0. -/
def execGetDigests (s : State) : Outcome State Fault Refusal := .next (s.spdm 0x01 (0x01 :: fixedBytes (2 ^ 40) 64))

/-- GET_CERTIFICATE: bytes of slot 0's chain: manufacturer root, module identity. -/
def execGetCertificate (slot off len : Nat) (s : State) : Outcome State Fault Refusal :=
  if slot ≠ 0 then .next (s.spdm 0x7F [0x01]) else .next (s.spdm 0x02 (0 :: fixedBytes off (len % 2 ^ 16)))

/-- CHALLENGE: a signed answer. -/
def execChallenge (slot : Nat) (s : State) : Outcome State Fault Refusal :=
  if slot ≠ 0 then .next (s.spdm 0x7F [0x01]) else .next (s.spdmSigned 0x03 (0 :: fixedBytes (2 ^ 40) 64))

/-- An entry of the boot record as a dword (R350). -/
def BootEnt.dword (e : BootEnt) : Nat := e.result + e.method * 2 ^ 4 + e.fails * 2 ^ 8 + e.skips * 2 ^ 16

/-- What a measurement measures: nothing that changes, the image in use, the fuses, the boot record (R356). -/
def State.measured (s : State) (idx : Nat) : List Nat :=
  let x := if s.boot.slot = 0 then s.boot.slots.1 else s.boot.slots.2
  match idx with
  | 2 => [x.version.toNat, if x.signed then 1 else 0]
  | 3 => [s.boot.minVersion.toNat, s.devId.toNat]
  | 4 => (List.range 10).map (fun i => (s.bootEnt (i + 1)).dword) ++ [if s.boot.host then 1 else 0] ++
      (List.range 16).map (fun k => (Map.getD s.boot.retire k 0).toNat)
  | _ => []

/-- The bytes of a measurement. -/
def State.measurement (s : State) (idx : Nat) : List Nat :=
  let x := s.measured idx
  (List.range 64).map (fun i => (Config.measureByte idx x i).toNat)

/-- GET_MEASUREMENTS: boot ROM, firmware image, fuse state and boot record under indices 1 to 4, signed; index 0 asks how
many there are. -/
def execGetMeasurements (idx : Nat) (s : State) : Outcome State Fault Refusal :=
  if idx = 0 then .next (s.spdmSigned 0x60 [4])
  else if idx ≤ 4 then .next (s.spdmSigned 0x60 (idx :: s.measurement idx))
  else .next (s.spdm 0x7F [0x01])

/-- SPDM_UNSUPPORTED: sessions, key exchange, PSK and mutual authentication are answered UnsupportedRequest. -/
def execSpdmUnsupported (code : Nat) (s : State) : Outcome State Fault Refusal := .next (s.spdm 0x7F [0x07, code])

end Sys2Proof.Machine
end

