-- ==== Sys2Proof/Machine/Codebook.lean ====
section
/-!
DEFINITION. The CB family (R224 to R226).
-/

namespace Sys2Proof.Machine

open Host

/-- A CB form that computes in each active lane; FORMAT while the party holds no codebook (R226). -/
def cbOp (s : State) (g : BitVec 4) (d a : BitVec 6) (f : BitVec 256 → Word → Nat × BitVec 16) :
    Outcome State Fault Refusal :=
  issue s g [.vw d.toNat, .vr a.toNat] (fun c => c.cbWait.then (c.needFmt c.book.isSome))
    (fun c => .done (c.each (fun x l =>
      let r := f (c.book.getD 0) (c.v a.toNat l)
      (x.setV d.toNat l (BitVec.ofNat 32 r.1)).addFp l r.2)))

/-- `cbdec` (R226). -/
def execCbdec (g : BitVec 4) (d a : BitVec 6) (s : State) : Outcome State Fault Refusal :=
  cbOp s g d a (fun book x => let r := decodeElem 9 x.toNat book none; (r.1.toNat, r.2))

/-- `cbenc` (R226). -/
def execCbenc (g : BitVec 4) (d a : BitVec 6) (s : State) : Outcome State Fault Refusal :=
  cbOp s g d a (fun book x => cb4Encode book (val32 x))

/-- `cbrd` (R226). -/
def execCbrd (g : BitVec 4) (d a : BitVec 6) (s : State) : Outcome State Fault Refusal :=
  cbOp s g d a (fun book x => (bookEntry book (x.toNat % 16), 0))

/-- The target of `cbld`, in every active lane. -/
def Ctx.bookChk (c : Ctx) (a : Nat) : Chk := c.check 32 true false (c.act.map (fun l => (l, (c.sc a).toNat)))

/-- `cbld` (R225): a read made without migration, held by a range lock (R84); an address of 0 clears the codebook. -/
def execCbld (g : BitVec 4) (a : BitVec 6) (s : State) : Outcome State Fault Refusal :=
  issue s g [.sr a.toNat]
    (fun c => c.cbWait.then (
      if c.sc a.toNat = 0 then .go
      else c.readWait.then ((c.bookChk a.toNat).bind (fun ts =>
        let held := ts.any (fun t => match t.loc with
          | some x => !x.isHost && decide (x.dev = c.s.devId) && !c.isHeld t.lane (c.s.homeOf x) && c.s.locked x 32 false
          | none => false)
        if held then .hold c.stall else c.orderWait ts))))
    (fun c =>
      if c.sc a.toNat = 0 then .done ((c.cutLate (fun d => decide (d = .cb))).pwrite (.cb none))
      else
        match (c.bookChk a.toNat).tgts with
        | [] => .done c
        | t :: _ => .done (c.readOne c.act t 32 15 [.cb] false))

end Sys2Proof.Machine
end

