-- ==== Sys2Proof/Machine/Compare.lean ====
section
/-!
DEFINITION. Comparisons (R159, R160).
-/

namespace Sys2Proof.Machine

open Host

/-- `cmp` on 32-bit lane values (R159). -/
def execCmp (g : BitVec 4) (a b : BitVec 6) (k : BitVec 4) (s : State) : Outcome State Fault Refusal :=
  lanewise s g [.vr a.toNat, .vr b.toNat, .need (decide (k.toNat ≤ 11))]
    (fun c l => c.push l (intCond k.toNat 32 (c.op 32 a.toNat l) (c.op 32 b.toNat l)))

/-- `cmp.d` on 64-bit lane values (R159). -/
def execCmpD (g : BitVec 4) (a b : BitVec 6) (k : BitVec 4) (s : State) : Outcome State Fault Refusal :=
  lanewise s g [.pr a.toNat, .pr b.toNat, .need (decide (k.toNat ≤ 11))]
    (fun c l => c.push l (intCond k.toNat 64 (c.op 64 a.toNat l) (c.op 64 b.toNat l)))

/-- `cmpi` against an immediate of 32 bits (R159). -/
def execCmpi (g : BitVec 4) (k a : BitVec 6) (i : BitVec 10) (s : State) : Outcome State Fault Refusal :=
  lanewise s g [.vr a.toNat, .need (decide (k.toNat ≤ 11))]
    (fun c l => c.push l (intCond k.toNat 32 (c.opImm 32 a.toNat l i) (wrapInt 32 (c.immInt i false))))

/-- The format that D selects in `fcmp` (R160). -/
def fcmpFmt (f : Nat) : FpFmt := if f = 0 then fmtFP32 else if f = 1 then fmtBF16 else fmtFP16

/-- `fcmp` (R160); a signalling NaN sets INVALID. -/
def execFcmp (g : BitVec 4) (f a b : BitVec 6) (k : BitVec 4) (s : State) : Outcome State Fault Refusal :=
  lanewise s g [.vr a.toNat, .vr b.toNat, .need (decide (f.toNat ≤ 2)), .need (decide (k.toNat ≤ 13))]
    (fun c l =>
      let w := if f = 0 then 32 else 16
      let x := decodeFp (fcmpFmt f.toNat) (c.op 32 a.toNat l % 2 ^ w)
      let y := decodeFp (fcmpFmt f.toNat) (c.op 32 b.toNat l % 2 ^ w)
      (c.push l (fpCond k.toNat x y)).addFp l (if x.isSig || y.isSig then fInvalid else 0))

/-- `scmp`: one result, pushed into every active lane (R159). -/
def execScmp (g : BitVec 4) (a b : BitVec 6) (k : BitVec 4) (s : State) : Outcome State Fault Refusal :=
  lanewise s g [.sr a.toNat, .sr b.toNat, .need (decide (k.toNat ≤ 11))]
    (fun c l => c.push l (intCond k.toNat 64 (c.sc a.toNat).toNat (c.sc b.toNat).toNat))

end Sys2Proof.Machine
end

