-- ==== Sys2Proof/Machine/Control.lean ====
section
/-!
DEFINITION. Branches, calls and returns (R162 to R164), windows (R165, R290), and the creating and ending of fibres
(R166 to R168).
-/

namespace Sys2Proof.Machine

open Host

/-! ## Branches (R162 to R164) -/

/-- Lanes of integers that a branch would divide: an integer some of whose lanes do not take it, or whose lanes name
different targets (R164, R203). -/
def Ctx.divided (c : Ctx) (tgt : Nat → Nat) : List Nat :=
  if c.limbCtl = 0 then []
  else c.act.filter (fun l => (integerOf c.limbCtl l).any (fun k => !c.act.contains k || decide (tgt k ≠ tgt l)))

/-- The checks of a taken target: a run header, reached by whole integers (R145, R164). -/
def Ctx.checkTargets (c : Ctx) (tgt : Nat → Nat) : Pre :=
  let rs := c.act.map (fun l => (l, c.headerAt (tgt l)))
  match rs.find? (fun e => decide (e.2 = .page)) with
  | some e => .hold (c.holdPage (tgt e.1))
  | none =>
    match rs.find? (fun e => decide (e.2 = .far)) with
    | some e => .hold (c.s.askFetch c.pid c.p c.b (tgt e.1))
    | none =>
      Pre.ofTraps ((rs.filter (fun e => decide (e.2 = .bad))).map (fun e => ⟨e.1, cRunForm, BitVec.ofNat 64 (tgt e.1)⟩) ++
        allTrap (c.divided tgt) cBoundSplit 0)

/-- A lane takes a branch. -/
def Ctx.take (c : Ctx) (l tgt : Nat) : Ctx := { c with r := { c.r with taken := Map.insert c.r.taken l tgt } }

/-- A branch: every active lane goes to its target, and with `link` receives the return address in `v54:v55` (R162). -/
def branch (s : State) (g : BitVec 4) (args : List Arg) (link : Bool) (tgt : Ctx → Nat → Nat) :
    Outcome State Fault Refusal :=
  issue s g (if link then .pw 54 :: args else args) (fun c => c.checkTargets (tgt c))
    (fun c => .done (c.each (fun x l => (if link then x.setV64 54 l c.r.next else x).take l (tgt c l))))

/-- The target of an F-B word (R142). -/
def Ctx.relTarget (c : Ctx) (o : BitVec 22) (_ : Nat) : Nat := (c.r.header + (sext64 o <<< 2)).toNat

/-- `br` (R162). -/
def execBr (g : BitVec 4) (o : BitVec 22) (s : State) : Outcome State Fault Refusal :=
  branch s g [] false (fun c => c.relTarget o)

/-- `call` (R162). -/
def execCall (g : BitVec 4) (o : BitVec 22) (s : State) : Outcome State Fault Refusal :=
  branch s g [] true (fun c => c.relTarget o)

/-- `ret` (R163). -/
def execRet (g : BitVec 4) (a : BitVec 6) (s : State) : Outcome State Fault Refusal :=
  branch s g [.pr a.toNat] false (fun c l => (c.v64 a.toNat l).toNat)

/-- `callr` (R163). -/
def execCallr (g : BitVec 4) (a : BitVec 6) (s : State) : Outcome State Fault Refusal :=
  branch s g [.pr a.toNat] true (fun c l => (c.v64 a.toNat l).toNat)

/-- `brr` (R163). -/
def execBrr (g : BitVec 4) (a : BitVec 6) (s : State) : Outcome State Fault Refusal :=
  branch s g [.pr a.toNat] false (fun c l => (c.v64 a.toNat l).toNat)

/-- `tbr` (R163): s[B] + 4 × the lane's value of A. -/
def execTbr (g : BitVec 4) (a b : BitVec 6) (s : State) : Outcome State Fault Refusal :=
  branch s g [.vr a.toNat, .sr b.toNat] false
    (fun c l => (c.sc b.toNat + ((c.v a.toNat l).setWidth 64 <<< 2)).toNat)

/-! ## Windows (R165) -/

/-- Set a lane's window base. -/
def Ctx.setBase (c : Ctx) (l w : Nat) : Ctx :=
  { c with r := { c.r with ov := { c.r.ov with wb := Map.insert c.r.ov.wb l w } } }

/-- `enter` (R165). Lanes of one bound integer that it leaves with different window bases go on in bundles of their own (R20,
R203; log 146). -/
def execEnter (g : BitVec 4) (n : BitVec 6) (s : State) : Outcome State Fault Refusal :=
  issue s g [.need (decide (1 ≤ n.toNat ∧ n.toNat ≤ 56))]
    (fun c => Pre.ofTraps (allTrap (c.act.filter (fun l => decide (c.p.winSize < c.wbOf l + n.toNat + 56))) cWindow 0))
    (fun c => .done (c.each (fun x l => x.setBase l (c.wbOf l + n.toNat))))

/-- The lowest window register of a lane that is on the core, as the run has left it (R289, R290). -/
def Ctx.lowReg (c : Ctx) (l : Nat) : Nat := Map.getD c.r.ov.fills l (c.p.lane l).lo

/-- The registers of a lane that a `leave` to base `w` takes from the window stack (R290). -/
def Ctx.fillRegs (c : Ctx) (l w : Nat) : List Nat :=
  (List.range (min (c.wbOf l) (c.lowReg l) - w)).map (fun i => w + i)

/-- The party's window-stack region is reached through another module (R62, log 1). -/
def Ctx.farStack (c : Ctx) : Bool := decide (c.p.originDev ≠ c.s.devId)

/-- The slot of a window register of a lane (R288). -/
def Ctx.slotAddr (c : Ctx) (reg l : Nat) : Nat := c.p.wstack + 256 * reg + 4 * l

/-- Where the slot of a register lies, when it is mapped here. -/
def Ctx.slotLoc (c : Ctx) (reg l : Nat) : Option Loc :=
  match c.s.xlate (some c.core) c.p.asid (c.slotAddr reg l) with
  | .ok lf => c.s.locOn lf (c.slotAddr reg l)
  | _ => none

/-- A fill stands behind an event of its own run to the slot's home: it is a held read (R104, R290). A slot at another
module is reached through the origin core. -/
def Ctx.fillHeld (c : Ctx) (l r : Nat) : Bool :=
  if c.farStack then
    c.r.eff.any (fun e => e.lanes.getLsbD l && (e.item.holdsReads || (match e.item with
      | .send d => c.s.isFar d.home && d.body.isEvent
      | _ => false)))
  else
    match c.slotLoc r l with
    | some x => c.isHeld l (c.s.homeOf x)
    | none => false

/-- A fill waits: for messages of its lane to the slot's home, for a range lock there, or for an acquire or a fence
(R84, R104, R107, R108). -/
def Ctx.fillWaits (c : Ctx) (l w : Nat) : Bool :=
  (c.fillRegs l w).any (fun r =>
    c.acqPending || !c.p.fenceR.isEmpty ||
    (if c.farStack then c.s.net.any (fun m => decide (m.party = c.pid) && !m.applied && m.lanes.getLsbD l && m.body.isEvent && c.s.isFar m.dst)
     else
      match c.slotLoc r l with
      | some x => (c.unsent l (c.s.homeOf x) || c.s.locked x 4 false) && !c.isHeld l (c.s.homeOf x)
      | none => false))

/-- The fills of a `leave` in a lane: reads of the slots, made without migration (R290). -/
def Ctx.fillLane (c : Ctx) (l w : Nat) : Ctx :=
  let all := c.fillRegs l w
  let late := all.filter (c.fillHeld l)
  let regs := all.filter (fun r => !c.fillHeld l r)
  let hold (x : Ctx) (r : Nat) (d : Draft) : Ctx :=
    let x1 := x.lateOp [l] [.fill r l] false
    { x1 with r := { x1.r with eff := x1.r.eff ++ [⟨maskOf [l], .send d⟩] } }
  let c := late.foldl (fun (x : Ctx) r =>
    let op := x.s.keys
    match c.slotLoc r l with
    | some y => hold x r (Draft.plain (c.s.homeOf y) (.heldRead y 4 4 0 op))
    | none => hold x r { Draft.plain (.core c.p.originDev c.p.originCore.toNat) (.fill (c.slotAddr r l) 4 op) with release := some 4 }) c
  let c := (if regs.isEmpty then c
    else if c.farStack then
      regs.foldl (fun (x : Ctx) r =>
        let op := x.s.keys
        (x.asyncOp [l] [.fill r l] false).sendNow l (.core x.p.originDev x.p.originCore.toNat) (.fill (x.slotAddr r l) 4 op)) c
    else
      let vals := regs.map (fun r => match c.slotLoc r l with
        | some x => memNat c.s.mem x.pa 4
        | none => 0)
      let bad := regs.any (fun r => match c.slotLoc r l with
        | some x => c.s.poisoned x.pa 4
        | none => false)
      let at_ := (regs.find? (fun r => match c.slotLoc r l with
        | some x => c.s.poisoned x.pa 4
        | none => false)).getD 0
      (c.memOp [l] (regs.map (fun r => .fill r l)) vals bad false).noteAddr c.s.keys (c.slotAddr at_ l) (c.slotLoc at_ l))
  if all.isEmpty then c else { c with r := { c.r with ov := { c.r.ov with fills := Map.insert c.r.ov.fills l w } } }

/-- `leave` (R165, R290). -/
def execLeave (g : BitVec 4) (n : BitVec 6) (s : State) : Outcome State Fault Refusal :=
  issue s g [.need (decide (1 ≤ n.toNat ∧ n.toNat ≤ 56))]
    (fun c =>
      let late := c.act.any (fun l => c.fillWaits l (c.wbOf l - n.toNat))
      (Pre.ofTraps (allTrap (c.act.filter (fun l => decide (c.wbOf l < n.toNat))) cWindow 0)).then
        (if late then .hold c.stall else .go))
    (fun c => .done (c.each (fun x l => (x.fillLane l (c.wbOf l - n.toNat)).setBase l (c.wbOf l - n.toNat))))

/-! ## Fibres (R166 to R168) -/

/-- Lane slots that forks of runs in progress will fill at their commit. -/
def Ctx.promised (c : Ctx) : DWord :=
  let of (es : List Eff) : DWord := es.foldl (fun m e => match e.item with
    | .child l _ _ _ _ => m ||| maskOf [l]
    | _ => m) 0
  c.p.bundles.foldl (fun m b => if b.id = c.b.id then m else m ||| (match b.run with
    | some r => of r.eff
    | none => 0)) (of c.r.eff)

/-- The slots given to the active lanes in ascending order, from the free ones (R166). -/
def forkSlots : List Nat → List Nat → List (Nat × Option Nat)
  | [], _ => []
  | l :: ls, [] => (l, none) :: forkSlots ls []
  | l :: ls, k :: ks => (l, some k) :: forkSlots ls ks

/-- The child of a lane: its registers, `v0` to `v55` of the current window, with D naming its parent (R166). -/
def Ctx.child (c : Ctx) (d a l k : Nat) : EffItem :=
  .child k (c.v64 a l) (c.wbOf l) (c.preds l) ((List.range 56).map (fun i =>
    (c.wbOf l + i, if i = d then BitVec.ofNat 32 (0x80000000 + l) else c.v i l)))

/-- `fork` (R166): the lineage count is read at the origin core; of another module it is asked for (R62). -/
def execFork (g : BitVec 4) (d a : BitVec 6) (s : State) : Outcome State Fault Refusal :=
  issue s g [.vw d.toNat, .pr a.toNat, .gr 0 56]
    (fun c =>
      if c.limbCtl ≠ 0 then .traps (allTrap c.act cBoundSplit 0)
      else if c.p.originDev ≠ c.s.devId ∧ (Map.find c.b.ans 64).isNone then
        .hold (c.ask 64 (.core c.p.originDev c.p.originCore.toNat) (fun who => .lineageQ c.p.lineageKey who)).save
      else .go)
    (fun c =>
      let count : Nat := match Map.find c.b.ans 64 with
        | some (.val x) => x.toNat
        | _ => (c.s.lineage c.p.lineageKey).count
      let free := if count = 1 then lanesOf (~~~(c.p.mask ||| c.promised)) else []
      let slots := forkSlots c.act free
      let c1 := slots.foldl (fun x e => match e.2 with
        | some k => x.effectOf e.1 (c.child d.toNat a.toNat e.1 k)
        | none => x) c
      .done (c1.memOp c.act (c.act.map (fun l => c.dest d.toNat 0 l))
        (slots.map (fun e => e.2.getD 0xFFFFFFFF)) false false))

/-- `fend` (R167). -/
def execFend (g : BitVec 4) (s : State) : Outcome State Fault Refusal :=
  issue s g [] (fun c => Pre.ofTraps (allTrap (c.divided (fun _ => 0)) cBoundSplit 0)) (fun c => .done (c.effect .fend))

/-- `exit` (R168). -/
def execExit (g : BitVec 4) (s : State) : Outcome State Fault Refusal := partywise s g [] (fun c => c.effect .exit)

end Sys2Proof.Machine
end

