-- ==== Sys2Proof/Machine/Convert.lean ====
section
/-!
DEFINITION. The CVT family (R212, R213).
-/

namespace Sys2Proof.Machine

open Host

/-- Width of an integer format 16 to 23 (R117). -/
def cvtBits (f : Nat) : Nat := if f ≤ 17 then 8 else if f ≤ 19 then 16 else if f ≤ 21 then 32 else 64

/-- Register width of an integer format. -/
def cvtWide (f : Nat) : Nat := if f = 22 ∨ f = 23 then 64 else 32

/-- The accepted signed codes. -/
def isSignedCode (f : Nat) : Bool := [16, 18, 20, 22].contains f

/-- The accepted unsigned codes. -/
def isUnsignedCode (f : Nat) : Bool := [17, 19, 21, 23].contains f

/-- The float formats of `i2f`, `f2i` and their kin. -/
def Ctx.cvtFmt (c : Ctx) : Pre := c.needFmt (decide (c.fmtOr 0 ≤ 2))

/-- Width of a float format 0 to 2. -/
def floatBits (f : Nat) : Nat := if f = 0 then 32 else 16

/-- A float operand in a format 0 to 2 (R212). -/
def floatVal (f : Nat) (x : Word) : Val :=
  if f = 0 then val32 x else decodeFp (if f = 1 then fmtFP16 else fmtBF16) (x.toNat % 2 ^ 16)

/-- INVALID of a signalling operand (R205). -/
def sigFlag (v : Val) : BitVec 16 := if v.isSig then fInvalid else 0

/-- `i2f` and `u2f`. -/
def toFloat (s : State) (g : BitVec 4) (d a b : BitVec 6) (signed : Bool) : Outcome State Fault Refusal :=
  issueBy s g (fun c => [.vw d.toNat, .src (cvtWide b.toNat) a.toNat,
      .need (if signed then isSignedCode b.toNat else isUnsignedCode b.toNat)] ++ c.drawArgs) Ctx.cvtFmt
    (fun c0 => .done (c0.each (fun c l =>
      let n := cvtBits b.toNat
      let x := c0.op (cvtWide b.toNat) a.toNat l % 2 ^ n
      let r := c.roundCall l (fun w => roundTo (c0.fmtOr 0) c0.rmode c0.mods.sat w (ofInt (asInt n signed x)))
      r.1.setV d.toNat l (BitVec.ofNat 32 r.2))))

/-- `i2f` (R212). -/
def execI2f (g : BitVec 4) (d a b : BitVec 6) (s : State) : Outcome State Fault Refusal := toFloat s g d a b true

/-- `u2f` (R212). -/
def execU2f (g : BitVec 4) (d a b : BitVec 6) (s : State) : Outcome State Fault Refusal := toFloat s g d a b false

/-- Least value of an integer format. -/
def intMin (n : Nat) (signed : Bool) : Int := if signed then -(2 ^ (n - 1) : Nat) else 0

/-- Greatest value of an integer format. -/
def intMax (n : Nat) (signed : Bool) : Int := if signed then (2 ^ (n - 1) : Nat) - 1 else (2 ^ n : Nat) - 1

/-- `f2i`, `f2iz` and `f2u` (R125, R212). -/
def fromFloat (s : State) (g : BitVec 4) (d a b : BitVec 6) (signed trunc : Bool) : Outcome State Fault Refusal :=
  issueBy s g (fun c => [.dst (cvtWide b.toNat) d.toNat, .vr a.toNat,
      .need (if signed then isSignedCode b.toNat else isUnsignedCode b.toNat)] ++ (if trunc then [] else c.drawArgs)) Ctx.cvtFmt
    (fun c0 => .done (c0.each (fun c l =>
      let n := cvtBits b.toNat
      let w := cvtWide b.toNat
      let v := floatVal (c0.fmtOr 0) (c0.v a.toNat l)
      let conv (m : RMode) (word : Word) : Nat × BitVec 16 :=
        let r := toIntClamp m word (intMin n signed) (intMax n signed) v
        (wrapInt w r.1, r.2)
      let r := if trunc then (c.addFp l (conv .rz 0).2, (conv .rz 0).1) else c.roundCall l (conv c0.rmode)
      r.1.setOp w d.toNat l r.2)))

/-- `f2i` (R212). -/
def execF2i (g : BitVec 4) (d a b : BitVec 6) (s : State) : Outcome State Fault Refusal := fromFloat s g d a b true false

/-- `f2iz` (R212). -/
def execF2iz (g : BitVec 4) (d a b : BitVec 6) (s : State) : Outcome State Fault Refusal := fromFloat s g d a b true true

/-- `f2u` (R212). -/
def execF2u (g : BitVec 4) (d a b : BitVec 6) (s : State) : Outcome State Fault Refusal := fromFloat s g d a b false false

/-- A conversion from FP32 with one rounding call (R212). -/
def narrow (s : State) (g : BitVec 4) (d a : BitVec 6) (extra : List Arg) (pre : Ctx → Pre) (draws : Bool)
    (f : Ctx → Word → Word → Nat × BitVec 16) : Outcome State Fault Refusal :=
  issueBy s g (fun c => [.vw d.toNat, .vr a.toNat] ++ extra ++ (if draws then c.drawArgs else [])) pre
    (fun c0 => .done (c0.each (fun c l =>
      let x := c0.v a.toNat l
      let r := if draws then c.roundCall l (f c0 x) else (c.addFp l (f c0 x 0).2, (f c0 x 0).1)
      (r.1.addFp l (sigFlag (val32 x))).setV d.toNat l (BitVec.ofNat 32 r.2))))

/-- `f2bf` (R212). -/
def execF2bf (g : BitVec 4) (d a : BitVec 6) (s : State) : Outcome State Fault Refusal :=
  narrow s g d a [] noChecks true (fun c x w => roundTo 2 c.rmode c.mods.sat w (val32 x))

/-- `f2h` (R212). -/
def execF2h (g : BitVec 4) (d a : BitVec 6) (s : State) : Outcome State Fault Refusal :=
  narrow s g d a [] noChecks true (fun c x w => roundTo 1 c.rmode c.mods.sat w (val32 x))

/-- An exact widening to FP32 (R125). -/
def widen (s : State) (g : BitVec 4) (d a : BitVec 6) (fmt : Nat) : Outcome State Fault Refusal :=
  lanewise s g [.vw d.toNat, .vr a.toNat] (fun c l =>
    let v := floatVal fmt (c.v a.toNat l)
    (c.setV d.toNat l (rne32 v)).addFp l (sigFlag v))

/-- `bf2f` (R212). -/
def execBf2f (g : BitVec 4) (d a : BitVec 6) (s : State) : Outcome State Fault Refusal := widen s g d a 2

/-- `h2f` (R212). -/
def execH2f (g : BitVec 4) (d a : BitVec 6) (s : State) : Outcome State Fault Refusal := widen s g d a 1

/-- A narrow code of R213. -/
def narrowCode (f : Nat) : Bool := decide (3 ≤ f) && decide (f ≤ 9)

/-- CB4 needs a codebook (R213). -/
def Ctx.needBook (c : Ctx) (fmt : Nat) : Pre :=
  if decide (fmt = 9) && c.widePending .cb then .hold c.stall else c.needFmt (decide (fmt ≠ 9) || c.book.isSome)

/-- `f2n` (R213); CB4 makes no draw. -/
def execF2n (g : BitVec 4) (d a b : BitVec 6) (s : State) : Outcome State Fault Refusal :=
  narrow s g d a [.need (narrowCode b.toNat)] (fun c => c.needBook b.toNat) (decide (b.toNat ≠ 9))
    (fun c x w => encodeElem b.toNat x (c.book.getD 0) none c.rmode c.mods.sat w)

/-- `n2f` (R213). -/
def execN2f (g : BitVec 4) (d a b : BitVec 6) (s : State) : Outcome State Fault Refusal :=
  issue s g [.vw d.toNat, .vr a.toNat, .need (narrowCode b.toNat)] (fun c => c.needBook b.toNat)
    (fun c => .done (c.each (fun x l =>
      let r := decodeElem b.toNat (c.v a.toNat l).toNat (c.book.getD 0) none
      (x.setV d.toNat l r.1).addFp l r.2)))

end Sys2Proof.Machine
end

