-- ==== Sys2Proof/Machine/Power.lean ====
section
/-!
DEFINITION. Power and heat (R357, R358) and lifetime telemetry (R375 to R380).
-/

namespace Sys2Proof.Machine

open Host

/-! ## The power limit (R357) -/

/-- Lower or raise what the power limit leaves a stack's cores by one step. -/
def Stack.stepCap (st : Stack) (over_ : Bool) : Stack :=
  if over_ || st.throttle then { st with cap := max 1000 (st.cap - 50) }
  else { st with cap := min 1700 (st.cap + 50) }

/-- POWER_LIMIT_ENFORCE: every 100 µs the stewards lower the core clocks while the module draws more than its limit, and
those of stacks that are throttled for heat; otherwise they raise them (R357, R358). -/
def execPowerLimitEnforce (watts : Nat) (s : State) : Outcome State Fault Refusal :=
  if s.ns < s.regs.powerAt + 100000 then .next s
  else
    let s1 := (List.range 16).foldl (fun s k =>
      s.setStk k ((s.stk k).stepCap (decide (s.regs.powerLimit < watts)))) s
    let s2 := (List.range 512).foldl (fun s c => s.retune c) s1
    .next { s2 with regs := { s2.regs with powerAt := s.ns } }

/-! ## Heat (R358) -/

/-- A party is to be parked. -/
def State.wantParkOf (s : State) (pid : Nat) : State :=
  match s.party? pid with
  | none => s
  | some p => s.setParty pid { p with wantPark := true }

/-- A team is to be parked whole (R39). -/
def State.wantSaveOf (s : State) (key : Nat) : State :=
  match Map.find s.teams key with
  | none => s
  | some t =>
    if t.saved.isSome then s
    else
      let s1 := (s.membersOf key).foldl (fun s e => match e.2.place with
        | .parked _ _ => s
        | _ => s.wantParkOf e.1) s
      { s1 with teams := Map.insert s1.teams key { t with wantSave := true } }

/-- The power class of a team is C. -/
def State.classC (s : State) (t : Team) : Bool :=
  match s.grid? t.grid with
  | some g => decide (g.rcd.power = 0)
  | none => false

/-- The team that the steward of a hot stack selects: one of class C, or failing that the one of highest power, which the
sensors name (R358; log 21). -/
def State.hotTeam (s : State) (k named : Nat) : Option (Nat × Team) :=
  let l := s.teams.filter (fun e => decide (e.2.stack = k) && e.2.saved.isNone)
  let c := l.filter (fun e => s.classC e.2)
  if c.isEmpty then l.find? (fun e => decide (e.1 = named))
  else
    match c.find? (fun e => decide (e.1 = named)) with
    | some e => some e
    | none => c.head?

/-- Some stack that is not hot has room for a team (R33, R358). -/
def State.coolRoom (s : State) (key : Nat) (t : Team) : Bool :=
  match s.grid? t.grid with
  | none => false
  | some g => (s.chooseCluster g.rcd (s.membersOf key).length (fun k => !(s.stk k).hot)).isSome

/-- A move may start: no engine operation of the team targets its scratchpad, and both rates allow it (R358). -/
def State.moveOk (s : State) (k key : Nat) (t : Team) : Bool :=
  !t.wantSave && t.moving.isNone &&
  s.engines.all (fun e => e.2.ops.all (fun o => decide (o.team ≠ key + 1) || !o.onTeam t)) &&
  (match (s.stk k).moveAt with
    | some a => decide (a + 10000000 ≤ s.ns)
    | none => true) &&
  (match t.movedAt with
    | some a => decide (a + 100000000 ≤ s.ns)
    | none => true)

/-- Start a move: a whole-team park, followed by placement on the cluster named, or where R33 places it (R358). -/
def State.startMove (s : State) (k key : Nat) (named : Nat) : State :=
  let s1 := s.wantSaveOf key
  let s2 := match Map.find s1.teams key with
    | some t => { s1 with teams := Map.insert s1.teams key { t with moving := some named, movedAt := some s.ns } }
    | none => s1
  (s2.setStk k { s2.stk k with moveAt := some s.ns, throttle := false }).tally 10 k

/-- THERMAL_HOT: the hottest sensor of a stack is read: a stack above 95 °C moves a team, asks the driver, or is throttled
(R358). -/
def execThermalHot (stack celsius team : Nat) (s : State) : Outcome State Fault Refusal :=
  if 16 ≤ stack then .next s
  else
    let st := s.stk stack
    -- a stack is throttled until the driver has answered
    if celsius ≤ 95 then
      .next (s.setStk stack { st with hot := false, throttle := s.teams.any (fun e => decide (e.2.stack = stack) && s.eventOpen (.thermal e.1)) })
    else
      let s1 := s.setStk stack { st with hot := true, throttle := true }
      match s1.hotTeam stack team with
      | none => .next s1
      | some (key, t) =>
        if s1.regs.funcMode.getLsbD 5 then
          if s1.eventOpen (.thermal key) || !s1.moveOk stack key t then .next s1
          else .next (s1.raiseEvent {
            type := 7, asid := 0, core := 32 * stack, addr := 0,
            aux := BitVec.ofNat 64 ((s1.gridLaunch t.grid).toNat * 2 ^ 32 + t.id.toNat), subj := .thermal key })
        else if s1.moveOk stack key t && s1.coolRoom key t then .next (s1.startMove stack key 0)
        else .next s1

/-! ## Telemetry (R375 to R380) -/

/-- Instances of an item, whether it has a counter, whether it has a histogram (R375). -/
def telItem (id : Nat) : Nat × Bool × Bool :=
  match id with
  | 1 => (1168, true, true)
  | 2 => (1168, true, false)
  | 3 => (512, true, false)
  | 4 => (1, false, true)
  | 5 => (16, true, false)
  | 6 => (16, true, false)
  | 7 => (512, true, false)
  | 8 => (1055, true, false)
  | 9 => (1055, true, false)
  | 10 => (16, true, false)
  | 11 => (3, true, false)
  | 12 => (10, true, false)
  | _ => (0, false, false)

/-- Bytes of one instance of an item in a snapshot (R378). -/
def telBytes (id : Nat) : Nat :=
  let x := telItem id
  (if x.2.1 then 8 else 0) + (if x.2.2 then 256 else 0)

/-- Items in order. -/
def telIds : List Nat := [1, 2, 3, 4, 5, 6, 7, 8, 9, 10, 11, 12]

/-- Length of a snapshot in bytes. -/
def snapLen : Nat := sumBy (fun i => (telItem i).1 * telBytes i) telIds

/-- The byte of a snapshot at an offset: items in ID order, instances ascending, in each the counter before the histogram
(R378; log 45). -/
def snapByte (m : Map Nat) : List Nat → Nat → Nat
  | [], _ => 0
  | i :: l, off =>
    let n := (telItem i).1 * telBytes i
    if off < n then
      let inst := off / telBytes i
      let r := off % telBytes i
      let k := if (telItem i).2.1 then (if r < 8 then 32 else (r - 8) / 8) else r / 8
      Map.getD m (telKey i inst k) 0 / 256 ^ (r % 8) % 256
    else snapByte m l (off - n)

/-- Answer a PLDM command. -/
def State.pldm (s : State) (code : Nat) (body : List Nat) : State := { s with out := s.out ++ [.pldm code body] }

/-- A PLDM command or an MCTP control request that the spec does not name is answered unsupported, error 0x05 of its standard
(R5; log 19). -/
def State.unnamed (s : State) (mctp : Bool) (code : Nat) : State :=
  if mctp then { s with out := s.out ++ [.mctp code [0x05]] }
  else if [0x01, 0x02, 0x03, 0x04, 0x05, 0x11].contains code then s
  else s.pldm code [0x05]

/-- ECC corrects a granule as it is read: counted for its slice and stack (R375). -/
def State.corrected (s : State) (pa : Nat) : State :=
  match regionOf pa with
  | .dram slice _ => s.tally 3 slice
  | _ => s

/-- GET_SNAPSHOT: the set is latched and its identity, time and length returned; the snapshot before it is gone (R378,
R379). -/
def execGetSnapshot (s : State) : Outcome State Fault Refusal :=
  let id := (s.tel.snapNo + 1) % 2 ^ 32
  .next ({ s with tel := { s.tel with snap := some (id, s.ns, s.latched), snapNo := id } }.pldm 0x01 [id, s.ns, snapLen])

/-- READ_SNAPSHOT: bytes of the snapshot held, or completion code 0x80 (R378). -/
def execReadSnapshot (id off len : Nat) (s : State) : Outcome State Fault Refusal :=
  match s.tel.snap with
  | some (i, _, m) =>
    if i = id then
      let n := min (min len 1024) (snapLen - off)
      .next (s.pldm 0x02 (0 :: (List.range n).map (fun k => snapByte m telIds (off + k))))
    else .next (s.pldm 0x02 [0x80])
  | none => .next (s.pldm 0x02 [0x80])

/-- CLEAR_BOOT_RECORD: every entry is cleared, unless a boot step waits (R380). -/
def execClearBootRecord (s : State) : Outcome State Fault Refusal :=
  if s.boot.waiting then .next (s.pldm 0x03 [0x82])
  else .next ({ s with boot := { s.boot with ents := [] } }.pldm 0x03 [0])

/-- SET_POWER_LIMIT: the limit is replaced, within its range (R357, R378). -/
def execSetPowerLimit (watts : Nat) (s : State) : Outcome State Fault Refusal :=
  if watts < 1500 ∨ 3200 < watts then .next (s.pldm 0x04 [0x81])
  else .next ({ s with regs := { s.regs with powerLimit := watts } }.pldm 0x04 [0])

/-- SET_SLICE_RETIRE: a stack's mask for the next boot is stored (R353, R378). -/
def execSetSliceRetire (stack : Nat) (mask : BitVec 32) (s : State) : Outcome State Fault Refusal :=
  if 16 ≤ stack then .next (s.pldm 0x05 [0x81])
  else if mask = BitVec.allOnes 32 then .next (s.pldm 0x05 [0x83])
  else .next ({ s with boot := { s.boot with retire := Map.put s.boot.retire stack mask 0 } }.pldm 0x05 [0])

/-- SENSOR_READ: the live value of a counter (R378, R379). -/
def execSensorRead (id : Nat) (s : State) : Outcome State Fault Refusal :=
  let x := telItem (id / 4096)
  if x.2.1 && decide (id % 4096 < x.1) then
    .next (s.pldm 0x11 [0, Map.getD s.tel.live (telKey (id / 4096) (id % 4096) 32) 0])
  else .next (s.pldm 0x11 [0x80])

/-- The set as it stands is written to flash, which keeps the copy before it too; before boot step 9 the counts of before
power came are taken up first, so that no event is lost or counted twice (R377; log 138). -/
def State.saveTel (s : State) : State :=
  let t := s.tel.restore (s.tel.flash.headD [])
  { s with tel := { t with flash := (t.live :: t.flash).take 2, savedAt := s.ns } }

/-- A firmware update is written to the slot that is not in use, once the set has been saved; it takes effect at the next boot
(R355, R377). -/
def State.update (s : State) (x : Image) : State :=
  let s1 := s.saveTel
  { s1 with boot := { s1.boot with slots := if s.boot.slot = 0 then (s.boot.slots.1, x) else (x, s.boot.slots.2) } }

/-- TELEMETRY_SAVE: every 10 min (R377). -/
def execTelemetrySave (s : State) : Outcome State Fault Refusal :=
  if s.ns < s.tel.savedAt + 600000000000 then .next s else .next s.saveTel

/-- ORDERLY_POWER_DOWN: the set is written before power goes (R377). -/
def execOrderlyPowerDown (s : State) : Outcome State Fault Refusal := .next s.saveTel.cold

end Sys2Proof.Machine
end

