-- ==== Sys2Proof/Machine/Fabric.lean ====
section
/-!
DEFINITION. The fabric as this module sees it: routes (R359, R360, R364, R365), channels and credits (R362, R363), frames
and replay (R367, R368), disabled links and their drains (R369, R370), retraining (R371, R372), and the delivery of
packets to this module's homes and cores (R361).
-/

namespace Sys2Proof.Machine

open Host

/-! ## Names (R359) -/

/-- GROUP of a device. -/
def devGroup (d : BitVec 20) : Nat := d.toNat / 32
/-- MEMBER of a device. -/
def devMember (d : BitVec 20) : Nat := d.toNat % 32

/-- The local port that leads to a member: members in ascending order without this one (log 46). -/
def State.localPort (s : State) (x : Nat) : Nat := if x < devMember s.devId then x else x - 1

/-- The member to which a local port leads. -/
def State.portMember (s : State) (p : Nat) : Nat := if p < devMember s.devId then p else p + 1

/-- A fabric port. -/
def State.link (s : State) (p : Nat) : Link := Map.getD s.fab.links p Link.init

/-- Replace a fabric port. -/
def State.setLink (s : State) (p : Nat) (x : Link) : State :=
  { s with fab := { s.fab with links := Map.put s.fab.links p x Link.init } }

/-- A link is disabled. -/
def State.linkOff (s : State) (p : Nat) : Bool := decide ((s.link p).st = .disabled)

/-! ## Channels (R361, R362) -/

/-- Channel group of a packet. -/
def Packet.grp (p : Packet) : Nat :=
  match p.cls with
  | .data => 4
  | .ack => 5
  | .mgmt => 6
  | _ => p.dstCore % 4

/-- Channel of a packet at its stage. -/
def Packet.chan (p : Packet) : Nat := 8 * p.grp + p.stage % 8

/-- A packet of an ordered class. -/
def Packet.ordered (p : Packet) : Bool := decide (p.grp < 4)

/-- Two packets travel between the same devices. -/
def Packet.samePair (p q : Packet) : Bool := decide (p.srcDev = q.srcDev) && decide (p.dstDev = q.dstDev)

/-! ## Routes (R364) -/

/-- A link is up. -/
def State.linkUp (s : State) (p : Nat) : Bool := decide ((s.link p).st = .up)

/-- The port of a local hop. When disabled links are avoided, it goes through the lowest-numbered member whose two links are
up, as far as this module can tell: it sees the first of them (R364; log 22). -/
def State.localHop (s : State) (avoid : Bool) (x : Nat) : Option Nat :=
  if avoid && s.linkOff (s.localPort x) then
    ((List.range 32).find? (fun y => decide (y ≠ devMember s.devId) && decide (y ≠ x) && s.linkUp (s.localPort y))).map s.localPort
  else some (s.localPort x)

/-- Valid route-table entries of a group: member and link, the lower index first (R360). -/
def State.entries (s : State) (g : Nat) : List (Nat × Nat) :=
  [2 * g, 2 * g + 1].filterMap (fun i =>
    let e := Map.getD s.fab.routes i 0
    if e.getLsbD 15 then some ((field e 0 5).toNat, (field e 5 10).toNat) else none)

/-- The entry that leads to a group. Where a route is chosen, an entry whose link is known to be disabled is ignored; a packet
whose route was chosen before goes by the entry that stands first, and so through the drain of a disabled link (R360, R364,
R370). -/
def State.entryFor (s : State) (avoid : Bool) (g : Nat) : Option (Nat × Nat) :=
  let l := s.entries g
  if avoid then l.find? (fun e => decide (e.1 ≠ devMember s.devId) || !s.linkOff (localPorts + e.2)) else l.head?

/-- The port on which a packet leaves this module for a group and, in this group, for a member. -/
def State.hopTo (s : State) (avoid : Bool) (g member : Nat) : Option Nat :=
  if g = devGroup s.devId then s.localHop avoid member
  else
    match s.entryFor avoid g with
    | none => none
    | some (m, k) => if m = devMember s.devId then some (localPorts + k) else s.localHop avoid m

/-- The port for a packet: towards its intermediate group while it takes the non-minimal route, else to its destination. -/
def State.portFor (s : State) (avoid : Bool) (p : Packet) : Option Nat :=
  if p.valiant && decide (p.mid ≠ devGroup s.devId) then s.hopTo avoid p.mid 0
  else s.hopTo avoid (devGroup p.dstDev) (devMember p.dstDev)

/-! ## The route of a pair (R365) -/

/-- The route of the pair of this module and a device. -/
def State.route (s : State) (d : BitVec 20) : Route := Map.getD s.fab.pairs d.toNat Route.init

/-- Replace the route of a pair. -/
def State.setRoute (s : State) (d : BitVec 20) (x : Route) : State :=
  { s with fab := { s.fab with pairs := Map.put s.fab.pairs d.toNat x Route.init } }

/-- The groups that the route table names, ascending. -/
def State.groups (s : State) : List Nat := ((s.fab.routes.filter (fun e => e.2.getLsbD 15)).map (fun e => e.1 / 2)).eraseDups

/-- A draw of an intermediate group among those of the system other than the two of a pair (R365; log 22). -/
def State.drawMid (s : State) (d : BitVec 20) : Option Nat :=
  let l := s.groups.filter (fun g => decide (g ≠ devGroup s.devId) && decide (g ≠ devGroup d))
  l[Config.midGroup s.free % l.length]?

/-- Flits that wait at a port. -/
def State.queued (s : State) (p : Nat) : Nat := sumBy (fun x => x.pkt.len - x.sent) (s.link p).out

/-- Flits that wait at the global port towards a group; the queue of another member's port is not seen here (log 22). -/
def State.globalQueue (s : State) (g draw : Nat) : Option Nat :=
  (s.entryFor true g).map (fun e => if e.1 = devMember s.devId then s.queued (localPorts + e.2) else Config.farQueue draw)

/-- What a re-evaluation chooses for a pair: none for the minimal route, or the intermediate group (R365). -/
def State.chooseRoute (s : State) (d : BitVec 20) : Option Nat :=
  if devGroup d = devGroup s.devId then none
  else
    match s.drawMid d with
    | none => none
    | some mid =>
      match s.globalQueue (devGroup d) (s.free + 1), s.globalQueue mid (s.free + 2) with
      | none, _ => some mid
      | some _, none => none
      | some a, some b => if 2 * b + 256 < a then some mid else none

/-- A pair's route as chosen. -/
def Route.take (r : Route) (c : Option Nat) : Route := { r with valiant := c.isSome, mid := c.getD 0 }

/-- ROUTE_REEVALUATE: at most every 10 µs, and only while no ordered packet of the pair is unanswered, so that a change takes
effect at once (R365; log 60). -/
def execRouteReevaluate (dst : BitVec 20) (s : State) : Outcome State Fault Refusal :=
  let r := s.route dst
  if dst = s.devId ∨ r.open_ ≠ 0 ∨ (r.at_ ≠ 0 ∧ s.ns < r.at_ + 10000) then .next s
  else
    let c := s.chooseRoute dst
    let s1 := { s with free := s.free + 3 }
    let r1 := if c.isSome = r.valiant then r else r.take c
    .next (s1.setRoute dst { r1 with at_ := s.ns })

/-- An ordered packet of a pair has been answered (R361, R365). -/
def State.answeredBy (s : State) (d : BitVec 20) : State :=
  let r := s.route d
  s.setRoute d { r with open_ := r.open_ - 1 }

/-! ## Delivery at this module -/

/-- Remove a message without an acknowledgement. -/
def State.forget (s : State) (p : Msg → Bool) : State := { s with net := s.net.filter (fun m => !p m) }

/-- Credits for flits that have left an input queue go back (R363). -/
def State.giveBack (s : State) (port chan n : Nat) : State :=
  if allPorts ≤ port then s
  else
    let x := s.link port
    s.setLink port { x with back := Map.put x.back chan (Map.getD x.back chan 0 + n) 0 }

/-- The packets whose last flits a frame holds, in order. -/
def LinkFrame.whole (f : LinkFrame) : List Packet :=
  f.flits.filterMap (fun t => match t.pkt with
    | some p => if t.k + 1 = p.len then some p else none
    | none => none)

/-- Flits in a drain, those among them that held frames may still bring there. -/
def Link.drained (x : Link) : Nat :=
  sumBy (fun p => p.len) x.drain + sumBy (fun p => p.len) (x.replay.flatMap LinkFrame.whole)

/-- Packets chosen for a disabled link enter its drain, in order, while it has room; whose input queues and channels they
leave, and how many flits (R370). -/
def Link.refill : Nat → Link → Link × List (Nat × Nat × Nat)
  | 0, x => (x, [])
  | n + 1, x =>
    match x.out with
    | [] => (x, [])
    | o :: rest =>
      if 4096 < x.drained + o.pkt.len then (x, [])
      else
        let r := Link.refill n { x with out := rest, drain := x.drain ++ [o.pkt] }
        (r.1, (o.src, o.chan, o.pkt.len - o.sent) :: r.2)

/-- Move what waits for a disabled link into its drain (R363, R370). -/
def State.refill (s : State) (port : Nat) : State :=
  let r := (s.link port).refill (s.link port).out.length
  r.2.foldl (fun s e => s.giveBack e.1 e.2.1 e.2.2) (s.setLink port r.1)

/-- A disabled link's report: frames that the far end accepted are discarded, the others enter the drain ahead of every
packet there; one that comes before this end is disabled is kept (R369, R370). A packet is resent whole when its last flit
was not accepted (log 26). -/
def State.reportAt (s : State) (port fseq : Nat) : State :=
  let x := s.link port
  if x.st ≠ .disabled then s.setLink port { x with early := some fseq }
  else if x.reported then s
  else
    let rest := if x.replay.any (fun f => decide (f.fseq = fseq)) then
        (x.replay.dropWhile (fun f => decide (f.fseq ≠ fseq))).drop 1
      else x.replay
    (s.setLink port { x with
      replay := [], resend := 0, reported := true, drain := rest.flatMap LinkFrame.whole ++ x.drain }).refill port

/-- A party of a team of this module leaves for another one: its interval names it (R338; log 130). -/
def State.noteSite (s : State) (q : Party) (dev : BitVec 20) : State :=
  if q.seed.isSome then s
  else { s with teams := s.teams.map (fun e => if e.1 = q.teamKey then
      (e.1, { e.2 with interval := e.2.interval.map (fun (iv : Interval) =>
        if iv.sites.contains dev then iv else { iv with sites := iv.sites ++ [dev] }) }) else e) }

/-- A packet has reached its destination module. -/
def State.deliver (s : State) (p : Packet) : State :=
  let msg (m : Msg) : Msg :=
    { m with id := s.keys, srcDev := p.srcDev, src := p.srcCore, dst := .core s.devId p.dstCore, after := [], applied := false,
             sent := false, asked := false, old := false, qAt := 0 }
  match p.body with
  | .request m => s.bump.takeIn (msg m)
  | .record m q v =>
    let at_ := ((s.net.find? (fun x => decide (x.srcDev = p.srcDev) && decide (x.orig = m.id) && x.body.takesSlots)).map
      (fun x => x.qAt)).getD 0
    let s1 := s.forget (fun x => decide (x.srcDev = p.srcDev) && decide (x.orig = m.id) && x.body.takesSlots)
    let pid := s.keys + 1
    let arr := { msg m with orig := m.id, party := pid, sent := true, waited := p.hops + 1, qAt := at_, body := .context pid }
    { s1 with
      keys := s.keys + 2, net := s1.net ++ [arr],
      parties := Map.insert s1.parties pid { q with place := .flight p.dstCore },
      visits := match v with
        | some x => if q.originDev = s1.devId then s1.visits else Map.insert s1.visits q.visitKey x
        | none => s1.visits }
  | .ack id =>
    let s1 := s.answeredBy p.srcDev
    let s2 := match s1.msg? id with
      | some m => (match m.body with
          | .context pid => s1.dropParty pid
          | _ => s1)
      | none => s1
    (s2.dropMsg id).recheck
  | .reserve id n =>
    { s.bump with net := s.net ++ [{
        id := s.keys, srcDev := p.srcDev, src := p.srcCore, dst := .core s.devId p.dstCore, party := 0, lin := 0, lanes := 0,
        grid := 0, team := 0, asid := 0, after := [], applied := false, sent := false, waited := s.ns, orig := id, asked := false,
        old := false, qAt := 0, body := .slots n }] }
  | .granted id =>
    (match s.msg? id with
      | some m =>
        (match m.body with
          | .context pid =>
            (match s.party? pid with
              | some q => ((s.markSent id).noteSite q p.srcDev).sendPacket p.srcDev p.srcCore m.src .context (1 + q.flits) id (.record m q (s.launchOf q))
              | none => (s.dropMsg id).sendPacket p.srcDev p.srcCore p.dstCore .ack 1 id (.unslot id))
          | _ => s)
      | none => s.sendPacket p.srcDev p.srcCore p.dstCore .ack 1 id (.unslot id))
  | .unslot id => s.forget (fun x => decide (x.srcDev = p.srcDev) && decide (x.orig = id) && x.body.takesSlots)
  | .returned id =>
    let s1 := s.answeredBy p.srcDev
    (match s1.msg? id with
      | some m =>
        (match m.body with
          | .context pid =>
            let s2 := s1.dropMsg id
            (match s2.party? pid with
              | some q =>
                (s2.setParty pid { q with
                  returned := true, bundles := q.bundles.map (fun b => b.arrive (s2.clk q.homeCore)) }).enqueue pid q.homeCore
              | none => s2)
          | _ => s1)
      | none => s1)
  | .opValue _ op vals poison => (s.opValue op vals poison).recheck
  | .report port fseq => s.reportAt port fseq

/-! ## Forwarding (R363, R364, R370) -/

/-- Put a packet on its way through a port: among its packets, or in the drain of a disabled link while that has room and
nothing waits for room before it (R370). -/
def State.leaveBy (s : State) (port : Nat) (p : Packet) (src chan : Nat) : Option State :=
  let x := s.link port
  if x.st = .disabled then
    if !x.out.isEmpty ∨ 4096 < x.drained + p.len then none
    else some ((s.setLink port { x with drain := x.drain ++ [p] }).giveBack src chan p.len)
  else some (s.setLink port { x with out := x.out ++ [⟨p, 0, src, chan⟩] })

/-- Held frames of a disabled link are of a packet's pair (R369). -/
def Link.holds (x : Link) (p : Packet) : Bool :=
  x.replay.any (fun f => f.flits.any (fun t => match t.pkt with
    | some q => q.samePair p
    | none => false))

/-- Move a packet of input queue `src` one hop on, or deliver it. -/
def State.forwardIn (s : State) (src : Nat) (p : Packet) : Option State :=
  if p.dstDev = s.devId then some ((s.giveBack src p.chan p.len).deliver p)
  else
    let p1 := { p with stage := p.stage + 1, hops := p.hops + 1, valiant := p.valiant && decide (p.mid ≠ devGroup s.devId) }
    (s.portFor false p1).bind (fun port => s.leaveBy port p1 src p.chan)

/-- The first hop of a packet of this module and its route: as it stands, or non-minimal where that leads over no link that is
in use (R360, R365). -/
def State.startOf (s : State) (p : Packet) : Option (Nat × Packet) :=
  match s.portFor true p with
  | some port => some (port, p)
  | none =>
    if devGroup p.dstDev = devGroup s.devId then none
    else
      (s.drawMid p.dstDev).bind (fun mid =>
        let p1 := { p with valiant := true, mid := mid }
        (s.portFor true p1).map (fun port => (port, p1)))

/-- Move a packet of this module to its first port, or deliver it. An ordered one goes by its pair's route, which stands while
one of the pair is unanswered; where the link it begins with has been disabled, the source changes routes, and holds the
pair's packets until all are answered (R365, R369). Others choose their route each. -/
def State.forwardOwn (s : State) (p : Packet) : Option State :=
  if p.dstDev = s.devId then some (s.deliver p)
  else if p.ordered then
    let r := s.route p.dstDev
    let p1 := { p with valiant := r.valiant, mid := r.mid }
    if r.open_ ≠ 0 then
      if s.linkOff r.port then none
      else (s.setRoute p.dstDev { r with open_ := r.open_ + 1 }).leaveBy r.port p1 allPorts 0
    else
      (s.startOf p1).bind (fun e =>
        ({ s.setRoute p.dstDev { r with valiant := e.2.valiant, mid := e.2.mid, port := e.1, open_ := 1 } with
          free := s.free + 1 }).leaveBy e.1 e.2 allPorts 0)
  else (s.startOf p).bind (fun e => ({ s with free := s.free + 1 }).leaveBy e.1 e.2 allPorts 0)

/-- The first packet of a queue that goes on, where none before it shares its order. -/
def firstOf (same : Packet → Packet → Bool) (go_ : Packet → Option State) :
    List Packet → List Packet → Option (List Packet × State)
  | _, [] => none
  | seen, p :: l =>
    if seen.any (same p) then firstOf same go_ (seen ++ [p]) l
    else
      match go_ p with
      | some t => some (seen ++ l, t)
      | none => firstOf same go_ (seen ++ [p]) l

/-- PACKET_FORWARD: a packet goes on: from the input queue of a fabric port, from this module (number 1055), or from the
drain of link q (number 1056 + q), which it leaves at stage 0 on the minimal route (R364, R370). -/
def execPacketForward (port : Nat) (s : State) : Outcome State Fault Refusal :=
  if port < allPorts then
    match firstOf (fun p q => decide (p.chan = q.chan)) (s.forwardIn port) [] (s.link port).inq with
    | none => .next s
    | some (l, t) => .next (t.setLink port { t.link port with inq := l })
  else if port = allPorts then
    match firstOf (fun p q => decide (p.dstDev = q.dstDev) && p.ordered && q.ordered)
        (fun p => ({ s with fab := { s.fab with egress := s.fab.egress.erase p } }).forwardOwn p) [] s.fab.egress with
    | none => .next s
    | some (_, t) => .next t
  else
    let q := port - allPorts - 1
    let x := s.link q
    match x.drain with
    | [] => .next s
    | p :: l =>
      let p1 := { p with stage := 0, valiant := false }
      if allPorts ≤ q ∨ x.holds p then .next s
      else
        let s1 := s.setLink q { x with drain := l }
        match s1.portFor true p1 with
        | none => .next s
        | some a =>
          match s1.leaveBy a p1 allPorts 0 with
          | none => .next s
          | some t => .next (t.refill q)

/-! ## Frames (R363, R367, R368) -/

/-- Flit buffers of an input port (R363). -/
def poolFlits : Nat := 4096
/-- Channels in use: GRP 7 has none (R362). -/
def usedChannels : Nat := 56

/-- A credit is left for a channel: its reserved flit, or one of those that are shared (R363). -/
def creditFor (spent : Map Nat) (c : Nat) : Bool :=
  decide (Map.getD spent c 0 = 0) || decide (sumBy (fun e => e.2 - 1) spent < poolFlits - usedChannels)

/-- The first packet that has a credit, where none before it is on its channel: its place. -/
def nextFlit (spent : Map Nat) : List OutPkt → List Nat → Nat → Option Nat
  | [], _, _ => none
  | o :: l, seen, i =>
    let c := o.pkt.chan
    if !seen.contains c && creditFor spent c then some i else nextFlit spent l (c :: seen) (i + 1)

/-- CLASS of a packet (R361). -/
def PClass.code : PClass → Nat
  | .context => 0
  | .posted => 1
  | .fetch => 2
  | .data => 3
  | .redeem => 4
  | .mso => 5
  | .ack => 6
  | .mgmt => 7

/-- The first 16 bytes of a packet's header flit (R361). -/
def Packet.header (p : Packet) : BitVec 128 :=
  BitVec.ofNat 128 (p.dstDev.toNat + p.srcDev.toNat * 2 ^ 20 + p.dstCore % 512 * 2 ^ 40 + p.srcCore % 512 * 2 ^ 49 +
    p.cls.code * 2 ^ 58 + p.stage % 8 * 2 ^ 61 + p.len % 256 * 2 ^ 64 + (if p.valiant then 2 ^ 72 else 0) +
    p.mid % 2 ^ 15 * 2 ^ 73 + p.tag % 2 ^ 32 * 2 ^ 88)

/-- Up to `n` flits of a port's packets against its credits; flits whose buffers are free; the packets left. -/
def takeFlits : Nat → Map Nat → List OutPkt → List Flit × List (Nat × Nat) × Map Nat × List OutPkt
  | 0, spent, out => ([], [], spent, out)
  | n + 1, spent, out =>
    match nextFlit spent out [] 0 with
    | none =>
      let r := takeFlits n spent out
      (⟨none, 0, 0⟩ :: r.1, r.2)
    | some i =>
      match out[i]? with
      | none => ([], [], spent, out)
      | some o =>
        let c := o.pkt.chan
        let out1 := if o.sent + 1 = o.pkt.len then out.eraseIdx i else out.set i { o with sent := o.sent + 1 }
        let r := takeFlits n (Map.put spent c (Map.getD spent c 0 + 1) 0) out1
        (⟨some o.pkt, o.sent, if o.sent = 0 then o.pkt.header else 0⟩ :: r.1, (o.src, o.chan) :: r.2.1, r.2.2)

/-- Credit returns that a control flit carries: at most 63 for each channel (R367). -/
def creditsNow (back : Map Nat) : List (Nat × Nat) := back.map (fun e => (e.1, min 63 e.2))

/-- The control fields of a frame as they stand at its sending (R367). -/
def Link.control (x : Link) (ns : Nat) (f : LinkFrame) : LinkFrame :=
  { f with ack := x.acc, nak := x.nak, time := BitVec.ofNat 32 ns }

/-- LINK_FRAME_SEND: a frame goes out: one that is to be sent again, or a new one while the replay buffer has room (R367,
R368). -/
def execLinkFrameSend (port : Nat) (s : State) : Outcome State Fault Refusal :=
  let x := s.link port
  if allPorts ≤ port ∨ x.st ≠ .up then .next s
  else if x.resend ≠ 0 then
    match x.replay[x.replay.length - x.resend]? with
    | none => .next (s.setLink port { x with resend := 0 })
    | some f =>
      let s1 := s.setLink port { x with resend := x.resend - 1 }
      .next { s1 with out := s1.out ++ [.frame port (x.control s.ns f)] }
  else if 256 ≤ x.replay.length then .next s
  else
    let r := takeFlits 15 x.credits x.out
    let cr := creditsNow x.back
    let f := x.control s.ns {
      fseq := x.fseq, ack := 0, nak := false, train := false, good := x.good, speed := x.speed, credits := cr, time := 0,
      crcOk := true, flits := r.1 }
    let back := cr.foldl (fun m e => Map.put m e.1 (Map.getD m e.1 0 - e.2) 0) x.back
    let s1 := s.setLink port { x with
      fseq := (x.fseq + 1) % 65536, replay := x.replay ++ [f], credits := r.2.2.1, out := r.2.2.2, back := back }
    let s2 := r.2.1.foldl (fun s e => s.giveBack e.1 e.2 1) s1
    .next { s2 with out := s2.out ++ [.frame port f] }

/-- An acknowledgement discards the frames that it covers; a NAK has the rest sent again (R368). -/
def Link.acknowledge (x : Link) (f : LinkFrame) : Link :=
  let rest := if x.replay.any (fun g => decide (g.fseq = f.ack)) then
      (x.replay.dropWhile (fun g => decide (g.fseq ≠ f.ack))).drop 1
    else x.replay
  { x with replay := rest, resend := if f.nak then rest.length else min x.resend rest.length }

/-- The port whose time-base samples this module follows: the one that leads to the lowest-numbered module that it reaches
(R366; log 59). -/
def State.timePort (s : State) : Option Nat :=
  let g := devGroup s.devId
  let near (y : Nat) : Option Nat := if y < devMember s.devId ∧ s.linkUp (s.localPort y) then some (s.localPort y) else none
  match (s.groups.filter (fun h => decide (h < g))).findSome? (fun h => (s.hopTo true h 0).filter s.linkUp) with
  | some port => some port
  | none => (List.range 32).findSome? near

/-- A time-base sample: what this module's time base differs by from the one it follows (R366). -/
def State.sample (s : State) (port : Nat) (time : BitVec 32) : State :=
  if s.timePort ≠ some port then s
  else { s with fab := { s.fab with slew := (time + Config.linkDelay port - BitVec.ofNat 32 s.ns).toInt } }

/-- LINK_FRAME_RECEIVE: a frame is accepted when it is intact and next in order; a damaged or later one is answered with
NAK, one already accepted is discarded (R368). The control flit of an intact one is a sample of the time base (R366). -/
def execLinkFrameReceive (port : Nat) (fr : LinkFrame) (s : State) : Outcome State Fault Refusal :=
  let x := s.link port
  if allPorts ≤ port ∨ x.st ≠ .up then .next s
  else if !fr.crcOk then .next (s.setLink port { x with nak := true })
  else
    let s := s.sample port fr.time
    let x := x.acknowledge fr
    let want := (x.acc + 1) % 65536
    if fr.fseq = want then
      .next (s.setLink port { x with
        acc := fr.fseq, nak := false, inq := x.inq ++ fr.whole,
        credits := fr.credits.foldl (fun m e => Map.put m e.1 (Map.getD m e.1 0 - e.2) 0) x.credits })
    else if (want + 65536 - fr.fseq % 65536) % 65536 ≤ 32768 then .next (s.setLink port x)
    else .next (s.setLink port { x with nak := true })

/-! ## Degradation (R369, R371, R372) -/

/-- The far end of a link, as device and port: of a local link a member of the group, of a global one what the operator's
plan names (log 46). -/
def State.farEnd (s : State) (port : Nat) : Option (BitVec 20 × Nat) :=
  if port < localPorts then
    let m := s.portMember port
    let me := devMember s.devId
    some (BitVec.ofNat 20 (devGroup s.devId * 32 + m), if me < m then me else me - 1)
  else Map.find s.fab.peers port

/-- Disable a link: its neighbour is told, in a management packet, the last frame accepted; packets chosen for it enter its
drain, and a report that has come before is taken (R369 to R371). Where the plan does not name the neighbour of a global
link, the report leaves as an output (log 46). -/
def State.disableLink (s : State) (port : Nat) : State :=
  let x := s.link port
  let s1 := ((s.setLink port { x with st := .disabled, lanes := 0, reported := false, early := none }).refill port).tally 9 port
  let s2 := match s1.farEnd port with
    | some (dev, far) =>
      let s2 := s1.sendPacket dev 0 0 .mgmt 1 s1.fab.tags (.report far x.acc);
      { s2 with fab := { s2.fab with tags := s2.fab.tags + 1 } }
    | none => { s1 with out := s1.out ++ [.linkReport port x.acc] }
  match x.early with
  | some fseq => s2.reportAt port fseq
  | none => s2

/-- Every lane of a range is in a mask. -/
def lanesIn (mask : BitVec 16) (base w : Nat) : Bool := (List.range w).all (fun i => mask.getLsbD (base + i))

/-- The lanes that `choose` of R371 takes from a mask. -/
def chooseLanes (mask : BitVec 16) : Option (BitVec 16) :=
  [16, 8, 4, 2, 1].findSome? (fun w =>
    ((List.range (16 / w)).find? (fun i => lanesIn mask (i * w) w)).map (fun i => BitVec.ofNat 16 ((2 ^ w - 1) * 2 ^ (i * w))))

/-- The slowest speed of a port (R371). -/
def lastSpeed (port : Nat) : Nat := if port < localPorts then 2 else 1

/-- Step 4 of R371: the AND of the masks and the next lower speed, and training again. -/
def State.stepDown (s : State) (port : Nat) (remote : BitVec 16) (rspeed : Nat) : State :=
  let x := s.link port
  let v := max x.speed rspeed + 1
  if lastSpeed port < v then s.disableLink port
  else s.setLink port { x with st := .training, good := x.good &&& remote, speed := v }

/-- LANE_LOSS: a lost lane is counted and starts retraining of the link (R371). -/
def execLaneLoss (port lane : Nat) (s : State) : Outcome State Fault Refusal :=
  let x := s.link port
  if allPorts ≤ port ∨ (x.st ≠ .up ∧ x.st ≠ .training) ∨ !x.good.getLsbD lane then .next s
  else
    let good := x.good &&& ~~~((1 : BitVec 16) <<< lane)
    .next ((s.setLink port { x with st := .training, good := good, lanes := 0 }).tally 8 port)

/-- The first control flit after training, with this end's mask and speed (R367, R371). -/
def Link.trained (x : Link) (ns : Nat) : LinkFrame :=
  x.control ns {
    fseq := x.fseq, ack := 0, nak := false, train := true, good := x.good, speed := x.speed, credits := [], time := 0,
    crcOk := true, flits := [] }

/-- TRAINING_EXCHANGE: lanes that training does not find good are lost; this end sends its mask and speed, and those of both
ends are compared (R371, R372). -/
def execTrainingExchange (port : Nat) (mine remote : BitVec 16) (rspeed : Nat) (s : State) : Outcome State Fault Refusal :=
  let x := s.link port
  if allPorts ≤ port ∨ x.st ≠ .training then .next s
  else
    let good := x.good &&& mine
    let x1 := { x with good := good }
    let s := ((List.range 16).filter (fun i => x.good.getLsbD i && !mine.getLsbD i)).foldl (fun s _ => s.tally 8 port) s
    let s := { s with out := s.out ++ [Out.frame port (x1.trained s.ns)] }
    if good = remote ∧ x.speed = rspeed then
      match chooseLanes good with
      | none => .next ((s.setLink port x1).disableLink port)
      | some l => .next (s.setLink port { x1 with st := .up, lanes := l, mism := 0, nak := false, resend := x.replay.length })
    else
      let s1 := s.setLink port { x1 with mism := x.mism + 1 }
      if 3 ≤ x.mism + 1 then .next (s1.disableLink port)
      else if s.regs.funcMode.getLsbD 7 then
        .next ((s1.setLink port { s1.link port with st := .down }).raiseEvent {
          type := 8, asid := 0, core := 0, addr := BitVec.ofNat 64 port,
          aux := BitVec.ofNat 64 (good.toNat + remote.toNat * 2 ^ 16 + (x.mism + 1) * 2 ^ 32), subj := .link port remote rspeed })
      else .next (s1.stepDown port remote rspeed)

/-- LINK_REPORT_RECEIVE: the neighbour of a disabled link reports the last frame it accepted (R369). -/
def execLinkReportReceive (port fseq : Nat) (s : State) : Outcome State Fault Refusal := .next (s.reportAt port fseq)

end Sys2Proof.Machine
end

