-- ==== Sys2Proof/Machine/RunEvents.lean ====
section
/-!
DEFINITION. Reading and beginning runs, commit, regrouping, the active set, ageing and long-latency completion
(R20, R23 to R27, R35 to R37, R132, R133, R143 to R149, R169).
-/

namespace Sys2Proof.Machine

open Host

/-! ## Reading words of a run (R132, R133, R145, R316) -/

/-- The word a body position holds; what cannot be read counts as a word of major 0x3E (log 31). -/
def FetchRes.body : FetchRes → Word
  | .word w => w
  | _ => 0xF8000000

/-- A halfword of a coded body, if its word can be read. -/
def FetchRes.half (hi : Bool) : FetchRes → Option (BitVec 16)
  | .word w => some (if hi then field w 16 16 else field w 0 16)
  | _ => none

/-- The major opcode (R134). -/
def majorOf (w : Word) : Nat := (field w 26 6).toNat

/-- A run-ending instruction (R144): known by its major and FN, whatever its other fields hold (log 145). -/
def runEnding (w : Word) : Bool :=
  let m := majorOf w
  let fn := (field w 0 4).toNat
  decide (m = 1) || decide (m = 2) || (decide (m = 0) && (decide (fn = 1) || decide (fn = 3) || decide (fn = 6))) ||
  (decide (m = 3) && decide (fn ≤ 2))

/-- A hint word (R146). -/
def isHint (w : Word) : Bool := decide (majorOf w = 0x3F)

/-- An `imm` or `mod` hint (R146). -/
def binds (w : Word) : Bool := isHint w && (decide ((field w 22 4).toNat = 0) || decide ((field w 22 4).toNat = 2))

/-- Body word `i` of a coded run: the dictionary entry its code names (R149), or why the code is no code. -/
def codedWord (dict : List Word) (addr : DWord) (code : BitVec 16) : FWord × Bool :=
  let idx := (field code 6 10).toNat
  let govr := field code 2 4
  match dict[idx]? with
  | none => (⟨addr, 0, none, true⟩, decide (field code 0 2 ≠ 0))
  | some w => (⟨addr, w, if govr = 15 then none else some govr, isHint w && decide (govr ≠ 15)⟩, decide (field code 0 2 ≠ 0))

/-- The body of a run and the first breach of its structure, as the address at fault (R145, R149). -/
def readRun (fetch : Nat → FetchRes) (dict : List Word) (h : Nat) (len : Nat) (coded : Bool) : List FWord × Option Nat :=
  if len = 0 ∨ 24 < len then ([], some h)
  else if coded then
    let half (i : Nat) : Option (BitVec 16) := (fetch (h + 4 + 4 * (i / 2))).half (decide (i % 2 = 1))
    let ws := (List.range len).map (fun i =>
      let a := BitVec.ofNat 64 (h + 4 + 2 * i)
      match half i with
      | some x => codedWord dict a x
      | none => (⟨a, 0, none, true⟩, true))
    let bads := ws.zipIdx.filterMap (fun e =>
      let rest := (ws.drop (e.2 + 1)).map (fun x => x.1)
      let w := e.1.1.w
      if e.1.2 || (!e.1.1.bad && decide (majorOf w = 0x3E)) || (runEnding w && !e.1.1.bad && decide (e.2 + 1 < len)) ||
          (binds w && rest.all (fun x => isHint x.w)) then some (h + 4 + 2 * e.2) else none)
    let pad := if len % 2 = 1 ∧ half len ≠ some 3 then [h + 4 + 2 * len] else []
    (ws.map (fun e => e.1), (bads ++ pad).head?)
  else
    let ws := (List.range len).map (fun i => (fetch (h + 4 + 4 * i)).body)
    let bads := ws.zipIdx.filterMap (fun e =>
      if decide (majorOf e.1 = 0x3E) || (runEnding e.1 && decide (e.2 + 1 < len)) ||
          (binds e.1 && (ws.drop (e.2 + 1)).all isHint) then some (h + 4 + 4 * e.2) else none)
    (ws.zipIdx.map (fun e => ⟨BitVec.ofNat 64 (h + 4 + 4 * e.2), e.1, none, false⟩), bads.head?)

/-- A flag field of a header: a flag, or none for 12 to 15 (R143). -/
def flagField (f : BitVec 4) : Option Nat := if f.toNat < 12 then some f.toNat else none

/-- The run header word: the part reads the run and checks its structure; a breach traps RUN_FORM on every live lane of
the bundle (R132, R133, R143 to R145, R149). -/
def execRunHeader (l : BitVec 5) (c : BitVec 1) (w : BitVec 12) (a b : BitVec 4) (s : State) : Outcome State Fault Refusal :=
  match s.actor with
  | .bundle pid bid =>
    match s.party? pid with
    | none => .fault .noActor
    | some p =>
      match p.bundle? bid with
      | none => .fault .noActor
      | some bd =>
        if !p.isActive ∨ bd.phase ≠ .waiting ∨ bd.asked ≠ [] then .next s
        else
          let core := p.core
          let h := bd.pc.toNat
          let dict := match s.launchOf p with
            | some v => v.dict
            | none => []
          let len := l.toNat
          let coded := decide (c = 1)
          -- the words of the body; a breach of LEN is found without reading them (R145)
          let n := if len = 0 ∨ 24 < len then 0 else if coded then (len + 1) / 2 else len
          let words := (List.range n).map (fun i => h + 4 + 4 * i)
          -- a second-tier page is brought in before its words are read (R68, R145)
          match words.find? (fun va => decide (s.fetchWord core p.asid va = .page)) with
          | some va =>
            .next (s.setParty pid (p.setBundle { bd with phase := .held (.pageIn p.asid (va / 65536 * 65536)) }))
          | none =>
            match words.find? (fun va => decide (s.fetchFor bd core p.asid va = .far)) with
            | some va => .next (s.askFetch pid p bd va)
            | none =>
              let r := readRun (s.fetchFor bd core p.asid) dict h len coded
              match r.2 with
              | some at_ => .next (s.raise pid bid (allTrap (lanesOf bd.mask) cRunForm 0) (BitVec.ofNat 64 at_) false)
              | none =>
                let next := h + 4 + 4 * (if coded then (len + 1) / 2 else len)
                let run : Run := {
                  header := bd.pc, start := bd.pc, cont := false, coded := coded, wait := w, seta := flagField a,
                  setb := flagField b, words := r.1, next := BitVec.ofNat 64 next, idx := 0, imm := none, modh := none,
                  imm0 := none, modh0 := none, live0 := none, last0 := [], live := none, last := [], ov := Overlay.empty, eff := [], taken := [],
                  wb0 := [], skip := bd.skip, snap := [] }
                let k := s.core core
                let s := if coded then s.setCore core { k with dicts := (p.gridId.toNat :: k.dicts.filter (· ≠ p.gridId.toNat)).take 4 }
                  else s
                -- the clk at which the flags it waits for were clear, or at which it came to its header (R36)
                let since := (List.range 12).foldl (fun t f =>
                  if w.getLsbD f then max t (Map.getD p.flagAt f 0) else t) bd.since
                .next (s.setParty pid (p.setBundle { bd with run := some run, phase := .fetched, ans := [], since := since }))
  | _ => .fault .noActor

/-- RUN_FORM for a bundle that stands at an address that is no header (R144, R145). -/
def State.noHeader (s : State) (pid bid : Nat) (page : Bool) : State :=
  match s.party? pid with
  | none => s
  | some p =>
    match p.bundle? bid with
    | none => s
    | some b =>
      let addr (l : Nat) : DWord := if page || b.jump.getLsbD l then b.pc else 0
      s.raise pid bid ((lanesOf b.mask).map (fun l => ⟨l, cRunForm, addr l⟩)) b.pc false

/-! ## Beginning and committing (R24, R26, R27) -/

/-- The replay unit of a party waits for the driver's answer to a CONTAIN event (R346). -/
def State.unitHeld (s : State) (p : Party) : Bool :=
  s.consumes.any (fun k => k.asked && k.unit.isSome && decide (s.unitOf (p.gridAt s.devId) = k.unit))

/-- RUN_BEGIN: a bundle begins the run it has read once every flag of its WAIT mask is clear, and its operations have found
room in the outbox (R24, R36, R56). -/
def execRunBegin (pid bid : Nat) (s : State) : Outcome State Fault Refusal :=
  match s.party? pid with
  | none => .next s
  | some p =>
    match p.bundle? bid with
    | none => .next s
    | some b =>
      match b.run with
      | none => .next s
      | some r =>
        let clk := s.clk p.core
        let free := b.yieldTo.isNone || b.yieldOn.isEmpty || decide (b.yieldTo.getD 0 ≤ clk)
        if !p.isActive ∨ b.phase ≠ .fetched ∨ b.asked ≠ [] ∨ !(p.waitOk r.wait) ∨ !(p.gatesClear b) ∨ !free ∨
            (s.core p.core).stopped ∨ s.unitHeld p ∨ s.noRoom pid b.mask ∨ p.counted then .next s
        else
          let r := { r with snap := p.snapRegs, skip := if b.skip.isSome then b.skip else r.skip }
          let b := { b with phase := .running, run := some r, skip := none, gates := [], yieldTo := none, yieldOn := [],
                            stalled := false }
          let p := { p.setBundle b with beganAt := clk, level := 0, starving := false }
          let s := s.setParty pid p
          -- a bundle that yielded to this party alone may begin from now on (R36, R169)
          let begun (x : Bundle) : Bundle :=
            let l := x.yieldOn.filter (· ≠ pid)
            { x with yieldOn := l, since := if l.isEmpty && !x.yieldOn.isEmpty then clk else x.since }
          .next { s with parties := s.parties.map (fun e =>
            if e.2.core = p.core then (e.1, { e.2 with bundles := e.2.bundles.map begun }) else e) }

/-- RUN_COMMIT: a run every instruction of which has executed commits for its lanes (R26, R27); where claims alone keep it from
that, it commits for the lanes whose own claims have their data (R91, R92). -/
def execRunCommit (pid bid : Nat) (s : State) : Outcome State Fault Refusal :=
  match s.party? pid with
  | none => .next s
  | some p =>
    match p.bundle? bid with
    | none => .next s
    | some b =>
      if !p.isActive ∨ b.phase ≠ .executed ∨ b.asked ≠ [] ∨ s.consumes.any (fun k => decide (k.party = pid)) then .next s
      else if !p.commitReady bid then
        (match s.raiseClaims pid bid with
        | some s => .next s
        | none =>
          if p.unclaimed b ≠ 0 then .next (s.commitSome pid bid (p.unclaimed b))
          else if b.stalled then .next s
         else .next (s.setParty pid (p.setBundle { b with stalled := true, stallAt := s.clk p.core })))
      else .next (s.finishRun pid bid)

/-- Poisoned data has been written to a scalar, or to a handle, whose numbers start at 64 (R335). -/
def Party.poisonWide (p : Party) (bad : Bool) (k : Nat) : Party :=
  if bad then { p with poison := NatSet.add p.poison (wideKey k) } else p

/-- LONG_OP_COMPLETE: a long-latency result is written where it belongs (R25, R26, R229). A result that carries poison
is consumed as it is written (R335). -/
def execLongOpComplete (pid op : Nat) (s : State) : Outcome State Fault Refusal :=
  match s.party? pid with
  | none => .next s
  | some p =>
    match p.pend.find? (fun o => decide (o.id = op) && o.ready && (!o.late || o.committed)) with
    | none => .next s
    | some o =>
        let run := (p.bundle? o.bundle).bind (fun b => b.run)
        let ov0 := match run with
          | some r => r.ov
          | none => Overlay.empty
        let step (a : Party × Overlay) (d : Dest × Nat) : Party × Overlay :=
          let p := a.1
          let ov := a.2
          let x := d.2
          match d.1 with
          | .v r l =>
            let k := regKey r l
            if o.committed then
              (if r < tempBase then
                let q := p.putReg k (BitVec.ofNat 32 x)
                (if o.poison then { q with poison := NatSet.add q.poison k } else q, ov)
               else (p, ov))
            else (p, { ov with v := Map.insert ov.v k (BitVec.ofNat 32 x) })
          | .fill r l =>
            let k := regKey r l
            ({ p with vregs := Map.put p.vregs k (BitVec.ofNat 32 x) 0, dirty := NatSet.del p.dirty k,
                      poison := if o.poison then NatSet.add p.poison k else p.poison }, ov)
          | .s n =>
            let i := PItem.s n (BitVec.ofNat 64 x)
            if o.committed then ((p.putWide (o.id, i)).poisonWide o.poison n, ov)
            else (p, { ov with pw := ov.pw ++ [(o.lanes, o.id, i)] })
          | .h n =>
            let i := PItem.h n (BitVec.ofNat 64 x)
            if o.committed then ((p.putWide (o.id, i)).poisonWide o.poison (64 + n), ov) else (p, { ov with pw := ov.pw ++ [(o.lanes, o.id, i)] })
          | .push l =>
            if o.committed then (p.putPreds l (pushBit (p.lane l).preds (decide (x ≠ 0))), ov)
            else
              let q := pushBit (Map.getD ov.preds l (p.lane l).preds) (decide (x ≠ 0))
              (p, { ov with preds := Map.insert ov.preds l q })
          | .cb =>
            let i := PItem.cb (some (BitVec.ofNat 256 x))
            if o.committed then (p.putWide (o.id, i), ov) else (p, { ov with pw := ov.pw ++ [(o.lanes, o.id, i)] })
          | .fp l =>
            let f := BitVec.ofNat 16 x
            if o.committed then ({ p with fpflags := p.fpflags ||| f }, ov)
            else
              let k := ov.fpEpoch * 64 + l
              (p, { ov with fp := Map.insert ov.fp k (Map.getD ov.fp k 0 ||| f) })
          | .drop => (p, ov)
        let r := (o.dests.zip o.vals).foldl step (p, ov0)
        let p := { r.1 with pend := r.1.pend.filter (fun x => decide (x ≠ o)) }
        let clk := s.clk p.core
        -- a flag clears with the last of its operations; a run that waited for it is eligible from now on (R26, R36)
        let cleared (f : Nat) : Bool := o.committed && decide (o.flag = some f) && !p.flagSet f
        let held (b : Bundle) : Bool := b.gates.contains op || (match b.run with
          | some q => decide (b.phase = .fetched) && (List.range 12).any (fun f => q.wait.getLsbD f && cleared f)
          | none => false)
        let p := match o.flag with
          | some f => if cleared f then { p with flagAt := Map.put p.flagAt f clk 0 } else p
          | none => p
        let p := { p with bundles := p.bundles.map (fun b =>
          let b := { b with stalled := false, since := if held b then clk else b.since }
          if b.id = o.bundle && !o.committed then
            (match b.run with
              | some q => { b with run := some { q with ov := r.2 } }
              | none => b)
          else b) }
        let s := (s.setParty pid p).recheck
        if o.poison then
          .next { s with consumes := s.consumes ++ [{
            party := pid, bundle := o.bundle, lanes := o.lanes, team := (p.who s.devId).team, grid := p.gridAt s.devId, core := p.core,
            pa := o.pa / 64 * 64, va := BitVec.ofNat 64 o.va, asked := false, pc := o.pc, lin := p.lineageKey + 1, unit := none,
            esc := none, granted := false }] }
        else .next s

/-! ## Regrouping and the active set (R20, R23, R35 to R37) -/

/-- A bundle that waits at a header and may be merged with others there (R20). -/
def Bundle.mergeable (b : Bundle) : Bool := b.atHeader && b.asked.isEmpty

/-- Merge a bundle into the first of equal PC and base. -/
def mergeInto (b : Bundle) : List Bundle → List Bundle
  | [] => [b]
  | x :: l =>
    if x.mergeable && b.mergeable && decide (x.pc = b.pc) && decide (x.wb = b.wb) then
      { x with mask := x.mask ||| b.mask, gates := x.gates ++ b.gates, since := min x.since b.since,
               jump := x.jump ||| b.jump } :: l
    else x :: mergeInto b l

/-- REGROUPING_PASS: waiting fibres of a party with equal PC and window base become one bundle (R20). -/
def execRegroupingPass (core : Nat) (s : State) : Outcome State Fault Refusal :=
  .next { s with parties := s.parties.map (fun e =>
    if e.2.resident && decide (e.2.core = core) && !e.2.counted then
      (e.1, { e.2 with bundles := e.2.bundles.foldl (fun l b => mergeInto b l) [] })
    else e) }

/-- Rank of a party for the active set: starving parties above all, then effective priority (R35, R37). -/
def Party.rank (p : Party) : Nat := if p.starving then 4 else p.effPrio

/-- Whether some run of a party is in progress. -/
def Party.midRun (p : Party) : Bool :=
  p.bundles.any (fun b => match b.phase with
    | .running => true
    | .executed => true
    | .departing _ => true
    | .held _ => b.run.isSome
    | _ => false)

/-- The READY party that enters next: highest rank, then oldest (R35). -/
def State.nextReady (s : State) (core : Nat) : Option (Nat × Party) :=
  let l := ((s.residents core).filter (fun e => match e.2.place with
    | .slot _ .ready => true
    | _ => false)).map (fun e => (e.1, e.2.aged (s.clk core)))
  let top := l.foldl (fun a e => max a e.2.rank) 0
  leastBy (fun e => e.2.readyAt) (l.filter (fun e => decide (e.2.rank = top)))

/-- ACTIVE_SET_FILL: a free place of the active set is filled, or a party of lower effective priority is displaced at
its run boundary (R22, R35, R37). Of several such parties the one of lowest rank goes, the first listed of equals; a party
is at a run boundary when none of its bundles stands within a run (log 114). -/
def execActiveSetFill (core : Nat) (s : State) : Outcome State Fault Refusal :=
  match s.nextReady core with
  | none => .next s
  | some (pid, p) =>
    let act := ((s.residents core).filter (fun e => e.2.isActive)).map (fun e => (e.1, e.2.aged (s.clk core)))
    let enter (s : State) : State := s.setParty pid { p with place := .slot core .active }
    if act.length < 8 then .next (enter s)
    else
      match leastBy (fun e => e.2.rank) (act.filter (fun e => decide (e.2.rank < p.rank) && !e.2.midRun)) with
      | none => .next s
      | some (q, x) => .next (enter (s.setParty q { x with place := .slot core .ready, readyAt := s.clk core }))

/-- PRIORITY_AGING: one level for each full 4,096 clk READY or ACTIVE without beginning a run, to at most 3 (R35). -/
def execPriorityAging (pid : Nat) (s : State) : Outcome State Fault Refusal :=
  match s.party? pid with
  | none => .next s
  | some p =>
    .next (s.setParty pid { p with level := (p.aged (s.clk p.core)).level })

/-- STARVATION_MARK: 61,440 clk READY or ACTIVE without beginning a run (R37). -/
def execStarvationMark (pid : Nat) (s : State) : Outcome State Fault Refusal :=
  match s.party? pid with
  | none => .next s
  | some p =>
    .next (s.setParty pid { p with starving := (p.aged (s.clk p.core)).starving })

/-- A bundle that cannot go on: it waits, or has stalled inside a run, for a register or for an answer, for more than 256 clk
(R23). -/
def Party.stuck (p : Party) (b : Bundle) (clk : Nat) : Bool :=
  if (b.stalled || !b.asked.isEmpty) && (decide (b.phase = .running) || decide (b.phase = .executed)) then decide (256 < clk - b.stallAt)
  else !p.able b

/-- STALL_BLOCK: an ACTIVE party none of whose bundles can go on becomes BLOCKED (R23). -/
def execStallBlock (pid : Nat) (s : State) : Outcome State Fault Refusal :=
  match s.party? pid with
  | none => .next s
  | some p =>
    if p.isActive && p.bundles.all (fun b => !b.departs && p.stuck b (s.clk p.core)) then .next (s.setParty pid (p.block (s.clk p.core)))
    else .next s

/-- YIELD_EXPIRY: 256 clk after a `yield` the bundle's next run may begin (R169). -/
def execYieldExpiry (pid bid : Nat) (s : State) : Outcome State Fault Refusal :=
  match s.party? pid with
  | none => .next s
  | some p =>
    match p.bundle? bid with
    | none => .next s
    | some b =>
      match b.yieldTo with
      | none => .next s
      | some t =>
        if t ≤ s.clk p.core then
          .next (s.setParty pid (p.setBundle { b with yieldTo := none, yieldOn := [], since := s.clk p.core }))
        else .next s

end Sys2Proof.Machine
end

