-- ==== Sys2Proof/Machine/Driver.lean ====
section
/-!
DEFINITION. The driver's registers (R3, R312, R326, R331, R347, R352, R373): invalidation (R318), function modes (R319),
event responses (R320 to R322), preemption (R328), and the debug port (R331 to R334).
-/

namespace Sys2Proof.Machine

open Host

/-! ## Invalidation (R318) -/

/-- BUSY of INVAL_CTL. -/
def State.invalBusy (s : State) : Bool := s.regs.invalCtl.getLsbD 63

/-- SCOPE of a value of INVAL_CTL. -/
def invalScope (v : DWord) : Nat := (field v 16 2).toNat
/-- SIZE of a value of INVAL_CTL, as a page's log2. -/
def invalBits (v : DWord) : Nat :=
  match (field v 18 2).toNat with
  | 0 => 16
  | 1 => 21
  | _ => 30

/-- The bits of INVAL_CTL that a write keeps. -/
def invalMask : DWord := 0x80000000000FFFFF

/-- Mark what has been translated before an invalidation and is not applied yet. -/
def State.markOld (s : State) : State :=
  let mark (e : Eff) : Eff := match e.item with
    | .send d => { e with item := .send { d with old := true } }
    | _ => e
  { s with
    net := s.net.map (fun (m : Msg) => if !m.applied && m.body.target.isSome then { m with old := true } else m),
    parties := s.parties.map (fun (e : Nat × Party) => (e.1, { e.2 with bundles := e.2.bundles.map (fun (b : Bundle) =>
      { b with run := b.run.map (fun (r : Run) => { r with eff := r.eff.map mark }) }) })) }

/-- Watching bundles compare again, with translations made anew (R81, R318). -/
def State.wakeAll (s : State) : State :=
  { s with parties := s.parties.map (fun (e : Nat × Party) => (e.1, { e.2 with bundles := e.2.bundles.map (fun (b : Bundle) =>
      if b.watched.isEmpty then b else b.wake) })) }

/-- Start an invalidation: the buffers drop the entries concerned; it completes later (R318). -/
def State.invalidate (s : State) (val : DWord) (f : Leaf → Bool) : State :=
  if s.invalBusy then s
  else
    let s1 := ((s.dropTlb f).markOld).wakeAll
    { s1 with regs := { s1.regs with invalCtl := val &&& invalMask, invalMark := s1.keys } }

/-- A value starts an invalidation of a scope. -/
def invalStarts (val : DWord) (scope : Nat) : Bool := val.getLsbD 63 && decide (invalScope val = scope)

/-- INVAL_PAGE: the translations of the page of an ASID that holds INVAL_VA (R318). -/
def execInvalPage (val : DWord) (s : State) : Outcome State Fault Refusal :=
  if !invalStarts val 0 || decide (field val 18 2 = 3) then .next s
  else
    let n := 2 ^ invalBits val
    let base := s.regs.invalVa.toNat / n * n
    .next (s.invalidate val (fun l =>
      decide (l.asid = field val 0 16) && decide (l.base < base + n) && decide (base < l.base + 2 ^ l.bits)))

/-- INVAL_ASID: every translation and format entry of an ASID (R318). -/
def execInvalAsid (val : DWord) (s : State) : Outcome State Fault Refusal :=
  if !invalStarts val 1 then .next s else .next (s.invalidate val (fun l => decide (l.asid = field val 0 16)))

/-- INVAL_ALL: the translations of every ASID (R318). -/
def execInvalAll (val : DWord) (s : State) : Outcome State Fault Refusal :=
  if !invalStarts val 2 then .next s else .next (s.invalidate val (fun _ => true))

/-- Something that was translated before the invalidation in progress is not applied yet (R318). -/
def State.oldWork (s : State) : Bool :=
  s.net.any (fun m => m.old && !m.applied) ||
  s.parties.any (fun e => e.2.bundles.any (fun b => match b.run with
    | some r => r.eff.any (fun x => match x.item with
        | .send d => d.old
        | _ => false)
    | none => false)) ||
  s.engines.any (fun e => e.2.ops.any (fun o => decide (o.op < s.regs.invalMark))) ||
  s.teams.any (fun e => match e.2.seqr with
    | some q => q.work.any (fun w => decide (w.op < s.regs.invalMark))
    | none => false)

/-- INVAL_COMPLETE: BUSY clears once everything translated before has been applied or has trapped (R318). -/
def execInvalComplete (s : State) : Outcome State Fault Refusal :=
  if !s.invalBusy || s.oldWork then .next s
  else .next { s with regs := { s.regs with invalCtl := s.regs.invalCtl &&& ~~~((1 : DWord) <<< 63) } }

/-! ## Function modes (R319) -/

/-- FUNC_APPLY: requested modes come into force while no launch is resident, else when the last one retires (R319). -/
def execFuncApply (val : DWord) (s : State) : Outcome State Fault Refusal :=
  if !val.getLsbD 63 then .next s
  else
    let s1 := { s with regs := { s.regs with funcReq := field val 0 9, funcWait := true } }
    .next (if s1.grids.isEmpty then s1.applyModes else s1)

/-! ## Events (R320 to R322, R346, R358, R372) -/

/-- EVQ_HEAD_WRITE: records consumed; events that wait are written (R321). -/
def execEvqHeadWrite (val : DWord) (s : State) : Outcome State Fault Refusal :=
  .next (flushEvents (s.evWait.length + 1) { s with regs := { s.regs with evqHead := field val 0 32 } })

/-- A response that is ignored is counted (R321). -/
def State.badResp (s : State) : State := { s with regs := { s.regs with evBad := s.regs.evBad + 1 } }

/-- Take a response with an ACTION: `f` is the step for the event it answers, or nothing when the ACTION does not belong
to the event's type (R321). A value that holds another ACTION is no response of this kind. -/
def State.respond (s : State) (val : DWord) (action : Nat) (f : State → EvSubject → Nat → Option State) : State :=
  let a := (field val 32 8).toNat
  if a = 0 ∨ 8 < a then s.badResp
  else if a ≠ action then s
  else
    match s.evOpen.find? (fun e => decide (e.1 = (field val 0 32).toNat)) with
    | none => s.badResp
    | some e =>
      match f { s with evOpen := s.evOpen.erase e } e.2.subj (field val 40 24).toNat with
      | none => s.badResp
      | some t => t

/-- A bundle that waits for the driver's answer to a page fault. -/
def State.eventBundle (s : State) (pid bid : Nat) : Option (Party × Bundle) :=
  match s.party? pid with
  | none => none
  | some p =>
    match p.bundle? bid with
    | none => none
    | some b =>
      match b.phase with
      | .held (.event _ _ _) => some (p, b)
      | _ => none

/-- RESUME of a page fault: the party restarts at its restart point (R320). -/
def State.pageResume (s : State) (pid bid : Nat) : State :=
  match s.eventBundle pid bid with
  | none => s
  | some (p, b) =>
    let b1 := { b with phase := if b.run.isSome then .fetched else .waiting, stalled := false }
    s.setParty pid ((p.setBundle b1).ready (s.clk p.core))

/-- DELIVER of a page fault: NOT_PRESENT with the record that it would have had (R320). -/
def State.pageDeliver (s : State) (pid bid : Nat) : State :=
  match s.eventBundle pid bid with
  | none => s
  | some (_, b) =>
    match b.phase with
    | .held (.event cause addr pc) =>
      s.raise pid bid (allTrap (lanesOf b.mask) cause addr) pc true
    | _ => s

/-- The consumption that a CONTAIN event is about. -/
def State.askedConsume (s : State) (grid : BitVec 32) (idx : Nat) : Option Consume :=
  s.consumes.find? (fun k => k.asked && decide (k.grid = grid) && decide (k.party * 2 ^ 64 + k.pa = idx))

/-- RESUME of CONTAIN: the hardware step (R346). -/
def State.containResume (s : State) (grid : BitVec 32) (idx : Nat) : State :=
  match s.askedConsume grid idx with
  | none => s
  | some k => (s.doneConsume k).containIn 64 { k with asked := false, granted := true }

/-- DELIVER of CONTAIN: the consuming lanes trap, OUTCOME 0x13 is recorded, and the unit runs on unprotected (R346). -/
def State.containDeliver (s : State) (grid : BitVec 32) (idx : Nat) : State :=
  match s.askedConsume grid idx with
  | none => s
  | some k =>
    let s1 := s.doneConsume k
    let s2 := match k.unit.bind s1.grid? with
      | some g =>
        let s := s1.recordOutcome g.id k.core 0x13
        (match s.grid? g.id with
          | some x => s.afterUnit x (fun s => { s with grids := Map.insert s.grids g.id.toNat { x with prot := false, undo := [] } })
          | none => s)
      | none => s1
    (s2.logK k 6 0).trapConsumer k

/-- EV_RESUME: the hardware step (R320, R321, R346, R372). -/
def execEvResume (val : DWord) (s : State) : Outcome State Fault Refusal :=
  .next (s.respond val 1 (fun s x _ =>
    match x with
    | .tier asid va => some { s with wanted := if s.wanted.contains (asid, va) then s.wanted else s.wanted ++ [(asid, va)] }
    | .page pid bid => some (s.pageResume pid bid)
    | .contain g i => some (s.containResume g i)
    | .link p m v => some (if (s.link p).st = .down then s.stepDown p m v else s)
    | _ => none))

/-- EV_DELIVER: the trap is delivered (R320, R346). -/
def execEvDeliver (val : DWord) (s : State) : Outcome State Fault Refusal :=
  .next (s.respond val 2 (fun s x _ =>
    match x with
    | .page pid bid => some (s.pageDeliver pid bid)
    | .contain g i => some (s.containDeliver g i)
    | _ => none))

/-- A QUEUE_FULL event of a stack has been answered (R322). -/
def State.queueAnswered (s : State) (k : Nat) : State := s.setStk k { s.stk k with qfull := false, evalAt := s.ns }

/-- EV_ENLARGE: the step of R58 for the queue's stack (R322). -/
def execEvEnlarge (val : DWord) (s : State) : Outcome State Fault Refusal :=
  .next (s.respond val 3 (fun s x _ =>
    match x with
    | .queue k => some (((s.queueAnswered k).enlarge k).getD (s.queueAnswered k))
    | _ => none))

/-- EV_PARK_OLDEST: the step of R59 for the queue's stack (R322). -/
def execEvParkOldest (val : DWord) (s : State) : Outcome State Fault Refusal :=
  .next (s.respond val 4 (fun s x _ =>
    match x with
    | .queue k => some ((s.queueAnswered k).parkOldest k)
    | _ => none))

/-- EV_NONE: no step (R322). -/
def execEvNone (val : DWord) (s : State) : Outcome State Fault Refusal :=
  .next (s.respond val 5 (fun s x _ =>
    match x with
    | .queue k => some (s.queueAnswered k)
    | _ => none))

/-- EV_RECLAIM: an EXPIRED entry is reclaimed and counted, if it still is that of the event (R90, R97, R322). -/
def execEvReclaim (val : DWord) (s : State) : Outcome State Fault Refusal :=
  .next (s.respond val 6 (fun s x _ =>
    match x with
    | .ticket sl e gen =>
      let key := sl * 4096 + e
      some (if (s.ticket key).st = .expired ∧ (s.ticket key).gen = gen then s.reclaim key else s)
    | _ => none))

/-- PLACE of a waiting team on a cluster; without room there a new PLACE event is raised (R322). -/
def State.placeAt (s : State) (grid : BitVec 32) (team cl : Nat) : State :=
  match s.waitingTeams.find? (fun w => decide (w.g.id = grid) && decide (w.id = team)) with
  | none => s
  | some w =>
    if s.roomAt (ceilDiv w.g.rcd.scratch 65536) w.g.rcd.accum (w.slots s) cl then s.place w cl
    else s.raiseEvent {
      type := 5, asid := w.g.asid, core := 0, addr := 0, aux := BitVec.ofNat 64 (w.g.launch.toNat * 2 ^ 32 + w.id),
      subj := .place grid team }

/-- EV_PLACE: a team is placed on the stack and cluster that ARG names, or moved there (R322, R358). -/
def execEvPlace (val : DWord) (s : State) : Outcome State Fault Refusal :=
  .next (s.respond val 7 (fun s x arg =>
    match x with
    | .place g t => some (s.placeAt g t (arg % 128))
    | .thermal key =>
      (match Map.find s.teams key with
        | none => some s
        | some t => some (if s.moveOk t.stack key t then s.startMove t.stack key (arg % 128 + 1) else s))
    | _ => none))

/-- EV_DEFER: placement is asked for again after a team has retired, a hot stack stays throttled, a link is disabled (R322,
R358, R372). -/
def execEvDefer (val : DWord) (s : State) : Outcome State Fault Refusal :=
  .next (s.respond val 8 (fun s x _ =>
    match x with
    | .place _ _ => some { s with regs := { s.regs with placeHold := true } }
    | .thermal _ => some s
    | .link p _ _ => some (if (s.link p).st = .down then s.disableLink p else s)
    | _ => none))

/-- EV_BAD_RESP_CLEAR: bits written as 1 clear (R3, R312). -/
def execEvBadRespClear (val : DWord) (s : State) : Outcome State Fault Refusal :=
  .next { s with regs := { s.regs with evBad := s.regs.evBad &&& ~~~val } }

/-! ## Preemption (R328) -/

/-- Grids that PREEMPT_CTL covers. -/
def State.preGrids (s : State) : List Grid := (s.grids.filter (fun e => s.preempted e.2.id)).map (fun e => e.2)

/-- BUSY of PREEMPT_CTL: a started action has not come to its end (R328). -/
def State.preBusy (s : State) : Bool :=
  s.regs.preempt.getLsbD 63 &&
  (match (field s.regs.preempt 48 2).toNat with
    | 0 => s.parties.any (fun e => e.2.wantPark && e.2.seed.isNone && s.preempted (e.2.gridAt s.devId)) ||
      s.teams.any (fun e => e.2.wantSave && s.preempted e.2.grid)
    | 2 => !s.preGrids.isEmpty
    | _ => false)

/-- A started action of PREEMPT_CTL that has come to its end: BUSY reads 0, and what is parked later is not its own (R328). -/
def State.preDone (s : State) : State :=
  if s.regs.preempt.getLsbD 63 && !s.preBusy then
    { s with regs := { s.regs with preempt := s.regs.preempt &&& ~~~((1 : DWord) <<< 63) } }
  else s

/-- The writable bits of PREEMPT_CTL. -/
def preMask : DWord := 0x8007FFFFFFFFFFFF

/-- Start an action of PREEMPT_CTL on a resident launch; NO_LAUNCH when there is none (R328). -/
def State.preStart (s : State) (val : DWord) (action : Nat) (f : State → State) : State :=
  if s.preBusy ∨ !val.getLsbD 63 ∨ (field val 48 2).toNat ≠ action then s
  else
    let s1 := { s with regs := { s.regs with preempt := val &&& preMask } }
    if s1.launchHeld s1.regs.preLaunch s1.regs.preAsid then f s1
    else { s1 with regs := { (s1.regs.preStatus 1) with preempt := (s1.regs.preStatus 1).preempt &&& ~~~((1 : DWord) <<< 63) } }

/-- A thermal move of a team is abandoned, and the steward no longer answers for its parties (R328, R358). -/
def State.ownParks (s : State) : State :=
  let kept (pid : Nat) : Bool := match s.party? pid with
    | some p => !s.preempted (p.gridAt s.devId)
    | none => true
  { s with
    teams := s.teams.map (fun (e : Nat × Team) =>
      if s.preempted e.2.grid then (e.1, { e.2 with moving := none, wantPlace := false }) else e),
    stks := s.stks.map (fun (e : Nat × Stack) => (e.1, { e.2 with parked := e.2.parked.filter (fun x => kept x.1) })) }

/-- PREEMPT_PARK: every party of the launch and of those descended from it is to be parked, its teams whole if so asked
(R328). -/
def execPreemptPark (val : DWord) (s : State) : Outcome State Fault Refusal :=
  .next (s.preStart val 0 (fun s =>
    let s1 := s.ownParks
    let ps := s1.parties.filter (fun e => e.2.seed.isNone && s1.preempted (e.2.gridAt s1.devId) && (match e.2.place with
      | .parked _ _ => false
      | _ => true))
    let s2 := ps.foldl (fun s e => s.wantParkOf e.1) s1
    if val.getLsbD 50 then
      (s2.teams.filter (fun e => s2.preempted e.2.grid)).foldl (fun s e => s.wantSaveOf e.1) s2
    else s2))

/-- The core on which a parked party resumes: one of its team's cluster, that with the most free slots; where its team
stands at another module, the one it left (R38). -/
def State.resumeCore (s : State) (p : Party) : Nat :=
  match Map.find s.teams p.teamKey with
  | none => p.homeCore
  | some t =>
    let l := s.liveCores t.cluster
    l.getD (s.firstCore l) p.homeCore

/-- PREEMPT_RESUME: parked records arrive at their queues, and teams parked whole wait for placement, where the ASID has
its context (R328). -/
def execPreemptResume (val : DWord) (s : State) : Outcome State Fault Refusal :=
  .next (s.preStart val 1 (fun s =>
    let asids := (s.parties.filter (fun e => s.preempted (e.2.gridAt s.devId) && (match e.2.place with
      | .parked _ _ => true
      | _ => false))).map (fun e => e.2.asid)
    let bad := asids.any (fun a => !s.asidValid a)
    let single (p : Party) : Bool := match Map.find s.teams p.teamKey with
      | some t => t.saved.isNone
      | none => true
    let go_ := s.parties.filter (fun e => s.preempted (e.2.gridAt s.devId) && s.asidValid e.2.asid && single e.2 && (match e.2.place with
      | .parked _ _ => true
      | _ => false))
    let s1 := go_.foldl (fun s e => s.unpark e.1 (s.resumeCore e.2)) s
    let off (e : Nat × Party) : Bool := e.2.wantPark && s1.preempted (e.2.gridAt s1.devId)
    let s2 := { s1 with
      parties := s1.parties.map (fun (e : Nat × Party) => if off e then (e.1, { e.2 with wantPark := false }) else e),
      teams := s1.teams.map (fun (e : Nat × Team) =>
        if s1.preempted e.2.grid then
          (e.1, { e.2 with
            wantSave := false,
            moving := none,
            wantPlace := e.2.wantPlace || (e.2.saved.isSome && (match s1.grid? e.2.grid with
              | some g => s1.asidValid g.asid
              | none => false)) })
        else e) }
    { s2 with regs := if bad then s2.regs.preStatus 3 else s2.regs }))

/-- PREEMPT_END: the launch and those descended from it are ended with OUTCOME 0x03 (R325, R328). -/
def execPreemptEnd (val : DWord) (s : State) : Outcome State Fault Refusal :=
  .next (s.preStart val 2 (fun s =>
    let ids := s.preGrids.map (fun g => g.id)
    let s1 := (s.ownParks.preGrids).foldl (fun s g => s.endGrid g) s.ownParks
    ids.foldl (fun (s : State) id => match s.grid? id with
      | some g => { s with grids := Map.insert s.grids id.toNat { g with outcome := 3, relaunch := false } }
      | none => s) s1))

/-! ## The debug port (R331 to R334) -/

/-- Release the oldest halted party: `f` is what its halt comes to (R332). -/
def State.releaseHalt (s : State) (f : State → Ctx → State) : State :=
  match s.halts with
  | [] => s
  | (pid, bid) :: rest =>
    let s1 := { s with halts := rest }
    match s1.party? pid with
    | none => s1
    | some p =>
      match p.bundle? bid with
      | none => s1
      | some b =>
        let still := rest.any (fun h => decide (h.1 = pid))
        let p1 := Party.ready { (p.setBundle { b with phase := .running }) with haltBy := still } (s1.clk p.core)
        let s2 := s1.setParty pid p1
        match ({ s2 with actor := .bundle pid bid }).ctx? with
        | none => s2
        | some c => { (f { s2 with actor := .bundle pid bid } c) with actor := s.actor }

/-- DBG_CONTINUE: the `halt` completes as `nop` (R332). -/
def execDbgContinue (s : State) : Outcome State Fault Refusal := .next (s.releaseHalt (fun _ c => c.advance))

/-- The guard of an encoded word. -/
def FWord.guard (f : FWord) : BitVec 4 := f.govr.getD (field f.w 22 4)

/-- DBG_DELIVER_DEBUG: the `halt` traps DEBUG on its active lanes (R332). -/
def execDbgDeliverDebug (s : State) : Outcome State Fault Refusal :=
  .next (s.releaseHalt (fun s c => s.raise c.pid c.b.id (allTrap (c.guarded c.word.guard) cDebug 0) c.here false))

/-- A resident party is stopped: BLOCKED in its slot (R333). -/
def Party.stopAt (p : Party) (clk : Nat) : Party := { p.block clk with stopBy := true }

/-- The parties of stopped cores that stand at a run boundary become BLOCKED there, each as it reaches its own (R23, R333;
log 120). -/
def State.stopIdle (s : State) : State :=
  if s.cores.all (fun e => !e.2.stopped) then s
  else { s with parties := s.parties.map (fun e =>
    match e.2.place with
    | .slot c _ => if (s.core c).stopped && !e.2.stopBy && !e.2.midRun then (e.1, e.2.stopAt (s.clk c)) else e
    | _ => e) }

/-- DBG_STOP: issue on the named core stops at run boundaries (R333). -/
def execDbgStop (val : DWord) (s : State) : Outcome State Fault Refusal :=
  if !val.getLsbD 9 then .next s
  else
    let c := (field val 0 9).toNat
    let s1 := s.setCore c { s.core c with stopped := true }
    .next (State.stopIdle { s1 with regs := { s1.regs with dbgStop := (val &&& 0x3FF) ||| ((1 : DWord) <<< 63) } })

/-- DBG_STOP_DRAINED: every run in progress on the stopped cores has ended: their parties are BLOCKED and BUSY clears
(R333). -/
def execDbgStopDrained (s : State) : Outcome State Fault Refusal :=
  let v := s.regs.dbgStop
  if !v.getLsbD 63 || s.parties.any (fun e => e.2.resident && (s.core e.2.core).stopped && e.2.midRun) then .next s
  else
    let s1 := s.stopIdle
    .next { s1 with regs := { s1.regs with dbgStop := v &&& ~~~((1 : DWord) <<< 63) } }

/-- DBG_START: issue on the named core is restored (R333). -/
def execDbgStart (val : DWord) (s : State) : Outcome State Fault Refusal :=
  if val.getLsbD 9 then .next s
  else
    let c := (field val 0 9).toNat
    let s1 := s.setCore c { s.core c with stopped := false }
    let s2 := (s1.residents c).foldl (fun s e => s.setParty e.1 { e.2 with stopBy := false }) s1
    .next (State.recheck { s2 with regs := { s2.regs with dbgStop := val &&& 0x3FF } })

/-- The DPA of a debug access may be accessed: it is well formed, and names no reserved region in SERVICE (R334). -/
def State.dbgOk (s : State) (a : DWord) : Bool :=
  decide (a.toNat % 4 = 0) && s.dpaOk a.toNat && (decide (s.mode ≠ 0) || s.tableOk a.toNat)

/-- The power of the logic layer at the home of a debug access (R334). -/
def State.layerAt (s : State) (a : DWord) : LayerPower :=
  match s.homeOf ⟨s.devId, a.toNat⟩ with
  | .core _ c => (s.stk (c / 32)).layer
  | .port _ => .on

/-- MSTAT of a debug access that is made: whether the layer had to be woken (R334). -/
def State.woken (s : State) (a : DWord) : Nat := if s.layerAt a = .gated then 1 else 0

/-- MSTAT of DBG_MEM_CTL. -/
def Regs.mstat (r : Regs) (write : Bool) (k : Nat) : Regs :=
  { r with dbgCtl := BitVec.ofNat 64 ((if write then 2 else 0) + 8 * k) }

/-- DBG_MEM_READ: one 4 B read, apart from translation, range locks and frames (R334). -/
def execDbgMemRead (val : DWord) (s : State) : Outcome State Fault Refusal :=
  if !val.getLsbD 0 || val.getLsbD 1 then .next s
  else
    let a := s.regs.dbgAddr
    if !s.dbgOk a then .next { s with regs := { (s.regs.mstat false 3) with dbgData := 0xFFFFFFFF } }
    else if s.layerAt a = .fused then .next { s with regs := { (s.regs.mstat false 2) with dbgData := 0xFFFFFFFF } }
    else
      let r := s.load Who.ofHost a.toNat 4
      .next { r.2 with regs := { (r.2.regs.mstat false (s.woken a)) with dbgData := BitVec.ofNat 32 (leNat r.1) } }

/-- DBG_MEM_WRITE: one 4 B write, apart from translation, range locks and frames (R334). -/
def execDbgMemWrite (val : DWord) (s : State) : Outcome State Fault Refusal :=
  if !val.getLsbD 0 || !val.getLsbD 1 then .next s
  else
    let a := s.regs.dbgAddr
    if !s.dbgOk a then .next { s with regs := s.regs.mstat true 3 }
    else if s.layerAt a = .fused then .next { s with regs := s.regs.mstat true 2 }
    else
      let s1 := s.store Who.ofHost a.toNat (leBytes 4 s.regs.dbgData.toNat)
      .next (State.recheck { s1 with regs := s1.regs.mstat true (s.woken a) })

/-! ## Registers without behaviour of their own (R3, R306, R312, R326 to R328, R331) -/

/-- A write of 8 B of a seed record (R306). -/
def State.seedWrite (s : State) (slot off : Nat) (val : DWord) : State :=
  let x := s.seedAt slot
  s.setSeed slot { x with bytes := (leBytes 8 val.toNat).zipIdx.foldl (fun m e => Map.put m (off + e.2) e.1 0) x.bytes }

/-- The register block, per stack: WSP_BASE and WSP_COUNT, PARK_BASE and PARK_BLOCKS (R312, R327). -/
def State.poolWrite (s : State) (off : Nat) (val : DWord) : State :=
  let k := off % 256 / 16
  let st := s.stk k
  let lowHalf : DWord := val &&& 0xFFFFFFFF
  if off < 0x2200 then
    s.setStk k (if off % 16 = 0 then { st with wspBase := val } else { st with wspCount := lowHalf })
  else s.setStk k (if off % 16 = 0 then { st with parkBase := val } else { st with parkCnt := lowHalf })

/-- REGISTER_WRITE: a write of 8 B to a register; a write that does more than keep a value is an event of its own (R3). -/
def execRegisterWrite (off : Nat) (val : DWord) (s : State) : Outcome State Fault Refusal :=
  let r := s.regs
  if off % 8 ≠ 0 then .next s
  else if off = 0x2000 then .next { s with regs := { r with asidTable := val } }
  else if off = 0x2008 then
    .next (if s.invalBusy ∨ (val.getLsbD 63 ∧ invalScope val ≠ 3 ∧ ¬(invalScope val = 0 ∧ field val 18 2 = 3)) then s
      else { s with regs := { r with invalCtl := val &&& 0xFFFFF } })
  else if off = 0x2010 then .next { s with regs := { r with invalVa := val } }
  else if off = 0x2020 then .next (if val.getLsbD 63 then s else { s with regs := { r with funcReq := field val 0 9 } })
  else if off = 0x2040 then .next { s with regs := { r with evqBase := val } }
  else if off = 0x2048 then
    .next { s with regs := { r with evqLog2 := if 6 ≤ val.toNat ∧ val.toNat ≤ 16 then val else 0 } }
  else if 0x2100 ≤ off ∧ off < 0x2300 then .next (s.poolWrite off val)
  else if off = 0x3000 then
    .next (if s.preBusy ∨ (val.getLsbD 63 ∧ field val 48 2 ≠ 3) then s
      else { s with regs := { r with preempt := (val &&& 0x0007FFFFFFFFFFFF) ||| (r.preempt &&& ((7 : DWord) <<< 56)) } })
  else if off = 0x3010 then .next { s with regs := { r with seqQuery := val } }
  else if 0x4000 ≤ off ∧ off < 0x4040 then
    .next { s with regs := { r with haltEn := Map.put r.haltEn ((off - 0x4000) / 8) val 0 } }
  else if off = 0x4060 then .next { s with regs := { r with dbgAddr := val } }
  else if off = 0x4068 then .next { s with regs := { r with dbgData := field val 0 32 } }
  else if off = 0x4070 then
    .next (if val.getLsbD 0 then s else { s with regs := { r with dbgCtl := (val &&& 2) ||| (r.dbgCtl &&& 0x38) } })
  else if 0x100000 ≤ off ∧ off < 0x140000 ∧ off % 0x4000 < 0x2000 ∧ off % 0x400 < 0x140 then
    .next (s.seedWrite ((off - 0x100000) / 0x4000 * 8 + off % 0x4000 / 0x400) (off % 0x400) val)
  else .next s

/-! ## Reading a register -/

/-- SEQ_STATUS (R326). -/
def State.seqStatus (s : State) : DWord :=
  let q := s.regs.seqQuery
  let t := s.teams.find? (fun e => decide (e.2.id = field q 0 32) && (match s.grid? e.2.grid with
    | some g => decide (g.launch = field q 32 32)
    | none => false))
  match t.bind (fun e => e.2.seqr) with
  | none => 0
  | some x =>
    let st := match x.st with
      | .running => 1
      | .waitQueue => 2
      | .waitBar => 3
      | .stopped => 4
      | .ended => 5
    let fault := if x.st = .stopped then x.fault else 0
    BitVec.ofNat 64 (st + fault * 2 ^ 8 + x.last.toNat % 2 ^ 32 * 2 ^ 32)

/-- LINK_STATUS (R373). -/
def Link.status (x : Link) : DWord :=
  let st := match x.st with
    | .down => 0
    | .training => 1
    | .up => 2
    | .disabled => 3
  BitVec.ofNat 64 (st + x.speed % 4 * 2 ^ 2 + x.lanes.toNat * 2 ^ 4 + x.good.toNat * 2 ^ 20 + x.mism % 4 * 2 ^ 36)

/-- A doubleword of a containment log entry (R347). -/
def CLog.dword (e : CLog) (i : Nat) : DWord :=
  match i with
  | 0 => BitVec.ofNat 64 (e.type + e.count % 256 * 2 ^ 8 + e.core % 512 * 2 ^ 16 + e.launch.toNat * 2 ^ 32)
  | 1 => BitVec.ofNat 64 e.team.toNat
  | 2 => BitVec.ofNat 64 e.addr
  | _ => BitVec.ofNat 64 e.time

/-- The oldest halt: its party, and the address of the `halt` (R332). -/
def State.haltEvent (s : State) : Option (Party × DWord) :=
  match s.halts with
  | [] => none
  | (pid, bid) :: _ =>
    (s.party? pid).bind (fun p => (p.bundle? bid).bind (fun b => b.run.map (fun r =>
      (p, (r.words.getD r.idx { addr := r.start, w := 0, govr := none, bad := true }).addr))))

/-- A doubleword of a seed slot (R306). -/
def Seed.dword (x : Seed) (off : Nat) : DWord :=
  if off < 0x140 then BitVec.ofNat 64 (leNat ((List.range 8).map (fun i => Map.getD x.bytes (off + i) 0)))
  else if off = 0x3F0 then x.fault
  else if off = 0x3F8 then BitVec.ofNat 64 (x.state * 2 + x.core % 32 * 2 ^ 8 + x.cause % 256 * 2 ^ 16)
  else 0

/-- What a read of 8 B at an offset of BAR0 of a host port returns; offsets without a register read 0. -/
def State.readReg (s : State) (port off : Nat) : DWord :=
  let r := s.regs
  let ofBool (b : Bool) (k : Nat) : DWord := if b then (1 : DWord) <<< k else 0
  if off = 0x0F00 then (s.port port).faults
  else if off = 0x0F08 then (s.port port).faultAddr
  else if off = 0x0F10 then r.launchDrops
  else if 0x1000 ≤ off ∧ off < 0x1100 then
    field (Map.getD (s.port port).hdm ((off - 0x1000) / 32) 0) (64 * (off % 32 / 8)) 64
  else if off = 0x2000 then r.asidTable
  else if off = 0x2008 then r.invalCtl
  else if off = 0x2010 then r.invalVa
  else if off = 0x2018 then r.funcMode.setWidth 64
  else if off = 0x2020 then r.funcReq.setWidth 64
  else if off = 0x2040 then r.evqBase
  else if off = 0x2048 then r.evqLog2
  else if off = 0x2050 then r.evqTail.setWidth 64
  else if off = 0x2058 then r.evqHead.setWidth 64
  else if off = 0x2068 then r.evBad
  else if 0x2100 ≤ off ∧ off < 0x2200 then
    (if off % 16 = 0 then (s.stk (off % 256 / 16)).wspBase else (s.stk (off % 256 / 16)).wspCount)
  else if 0x2200 ≤ off ∧ off < 0x2300 then
    (if off % 16 = 0 then (s.stk (off % 256 / 16)).parkBase else (s.stk (off % 256 / 16)).parkCnt)
  else if off = 0x3000 then (r.preempt &&& ~~~((1 : DWord) <<< 63)) ||| ofBool s.preBusy 63
  else if off = 0x3010 then r.seqQuery
  else if off = 0x3018 then s.seqStatus
  else if off = 0x3100 then s.clogCount.setWidth 64
  else if 0x3200 ≤ off ∧ off < 0x3400 then
    (match Map.find s.clog ((off - 0x3200) / 32) with
      | some e => e.dword (off % 32 / 8)
      | none => 0)
  else if 0x4000 ≤ off ∧ off < 0x4040 then Map.getD r.haltEn ((off - 0x4000) / 8) 0
  else if off = 0x4040 then
    (match s.haltEvent with
      | some (p, _) => BitVec.ofNat 64 (1 + 2 * p.core + p.launchId.toNat * 2 ^ 32)
      | none => 0)
  else if off = 0x4048 then (match s.haltEvent with
      | some (_, pc) => pc
      | none => 0)
  else if off = 0x4058 then r.dbgStop
  else if off = 0x4060 then r.dbgAddr
  else if off = 0x4068 then r.dbgData.setWidth 64
  else if off = 0x4070 then r.dbgCtl
  else if off = 0x5000 ∧ s.boot.step = 0 then 0
  else if off = 0x5000 then BitVec.ofNat 64 (s.boot.step % 16 + (if s.boot.waiting then 16 else 0) + s.mode.toNat * 32)
  else if 0x5010 ≤ off ∧ off < 0x5090 then (s.stk ((off - 0x5010) / 8)).absent.setWidth 64
  else if 0x6000 ≤ off ∧ off < 0x6000 + 8 * allPorts then (s.link ((off - 0x6000) / 8)).status
  else if 0x100000 ≤ off ∧ off < 0x140000 ∧ off % 0x4000 < 0x2000 then
    (s.seedAt ((off - 0x100000) / 0x4000 * 8 + off % 0x4000 / 0x400)).dword (off % 0x400)
  else 0

end Sys2Proof.Machine
end

