-- ==== Sys2Proof/Machine/Float.lean ====
section
/-!
DEFINITION. The FP family on FP32 values (R205 to R209).
-/

namespace Sys2Proof.Machine

open Host

/-- The register operands of a form with A and, when `two`, B; `acc` reads D. -/
def fpArgs (d a b : Nat) (two acc : Bool) : List Arg :=
  [.vw d, .vr a] ++ (if two then [.vr b] else []) ++ (if acc then [.vr d] else [])

/-- An FP instruction that rounds: the format check (R206), one rounding call in each active lane (R205), and the result,
short or long. -/
def fpRound (s : State) (g : BitVec 4) (d a b : BitVec 6) (two acc isLong : Bool)
    (f : RMode → Bool → Word → Val → Val → Val → Nat × BitVec 16) : Outcome State Fault Refusal :=
  issueBy s g (fun c => fpArgs d.toNat a.toNat b.toNat two acc ++ c.drawArgs)
    (fun c => c.needFmt (decide (c.fmtOr 0 = 0)))
    (fun c0 =>
      let one (c : Ctx) (l : Nat) : Ctx × Nat :=
        c.roundCall l (fun w => f c0.rmode c0.mods.sat w (val32 (c0.v a.toNat l)) (val32 (c0.v b.toNat l)) (val32 (c0.v d.toNat l)))
      if isLong then
        let r := c0.act.foldl (fun (x : Ctx × List Nat) l => ((one x.1 l).1, x.2 ++ [(one x.1 l).2])) (c0, [])
        .done (r.1.long (c0.act.map (fun l => c0.dest d.toNat 0 l)) r.2)
      else .done (c0.each (fun c l => let r := one c l; r.1.setV d.toNat l (BitVec.ofNat 32 r.2))))

/-- An FP instruction that rounds nothing (R205). -/
def fpPlain (s : State) (g : BitVec 4) (d a b : BitVec 6) (two : Bool) (f : Word → Word → Nat × BitVec 16) :
    Outcome State Fault Refusal :=
  issue s g (fpArgs d.toNat a.toNat b.toNat two false) (fun c => c.needFmt (decide (c.fmtOr 0 = 0)))
    (fun c => .done (c.each (fun c l =>
      let r := f (c.v a.toNat l) (c.v b.toNat l)
      (c.setV d.toNat l (BitVec.ofNat 32 r.1)).addFp l r.2)))

/-- `fabs` and `fneg` on a pattern: bit 31 changed, or the canonical NaN (R206). -/
def signOp (f : Word → Word) (x : Word) : Nat × BitVec 16 :=
  match val32 x with
  | .nan sig => (0x7FC00000, if sig then fInvalid else 0)
  | _ => ((f x).toNat, 0)

/-- `fadd` (R206). -/
def execFadd (g : BitVec 4) (d a b : BitVec 6) (s : State) : Outcome State Fault Refusal :=
  fpRound s g d a b true false false (fun m st w x y _ => fpAdd 0 m st w x y)

/-- `fsub` (R206). -/
def execFsub (g : BitVec 4) (d a b : BitVec 6) (s : State) : Outcome State Fault Refusal :=
  fpRound s g d a b true false false (fun m st w x y _ => fpAdd 0 m st w x y.negate)

/-- `fmul` (R206). -/
def execFmul (g : BitVec 4) (d a b : BitVec 6) (s : State) : Outcome State Fault Refusal :=
  fpRound s g d a b true false false (fun m st w x y _ => fpMul 0 m st w x y)

/-- `ffma` (R206). -/
def execFfma (g : BitVec 4) (d a b : BitVec 6) (s : State) : Outcome State Fault Refusal :=
  fpRound s g d a b true true false (fun m st w x y z => fpFma 0 m st w x y z)

/-- `fmin` (R207). -/
def execFmin (g : BitVec 4) (d a b : BitVec 6) (s : State) : Outcome State Fault Refusal :=
  fpPlain s g d a b true (fun x y => fpMinMax fmtFP32 false x.toNat y.toNat)

/-- `fmax` (R207). -/
def execFmax (g : BitVec 4) (d a b : BitVec 6) (s : State) : Outcome State Fault Refusal :=
  fpPlain s g d a b true (fun x y => fpMinMax fmtFP32 true x.toNat y.toNat)

/-- `fabs` (R206). -/
def execFabs (g : BitVec 4) (d a : BitVec 6) (s : State) : Outcome State Fault Refusal :=
  fpPlain s g d a 60 false (fun x _ => signOp (fun x => x &&& 0x7FFFFFFF) x)

/-- `fneg` (R206). -/
def execFneg (g : BitVec 4) (d a : BitVec 6) (s : State) : Outcome State Fault Refusal :=
  fpPlain s g d a 60 false (fun x _ => signOp (fun x => x ^^^ 0x80000000) x)

/-- `frcp` (R208). -/
def execFrcp (g : BitVec 4) (d a : BitVec 6) (s : State) : Outcome State Fault Refusal :=
  fpRound s g d a 60 false false true (fun m st w x _ _ => fpRcp m st w x)

/-- `fsqrt` (R208). -/
def execFsqrt (g : BitVec 4) (d a : BitVec 6) (s : State) : Outcome State Fault Refusal :=
  fpRound s g d a 60 false false true (fun m st w x _ _ => fpSqrt m st w x)

/-- `frsq` (R208). -/
def execFrsq (g : BitVec 4) (d a : BitVec 6) (s : State) : Outcome State Fault Refusal :=
  fpRound s g d a 60 false false true (fun m st w x _ _ => fpRsq m st w x)

/-- `fexp2` (R208). -/
def execFexp2 (g : BitVec 4) (d a : BitVec 6) (s : State) : Outcome State Fault Refusal :=
  fpRound s g d a 60 false false true (fun m st w x _ _ => fpExp2 m st w x)

/-- `flog2` (R208). -/
def execFlog2 (g : BitVec 4) (d a : BitVec 6) (s : State) : Outcome State Fault Refusal :=
  fpRound s g d a 60 false false true (fun m st w x _ _ => fpLog2 m st w x)

/-- `ftanh` (R208). -/
def execFtanh (g : BitVec 4) (d a : BitVec 6) (s : State) : Outcome State Fault Refusal :=
  fpRound s g d a 60 false false true (fun m st w x _ _ => fpTanh m st w x)

/-- `fdiv` (R206, R208). -/
def execFdiv (g : BitVec 4) (d a b : BitVec 6) (s : State) : Outcome State Fault Refusal :=
  fpRound s g d a b true false true (fun m st w x y _ => fpDiv m st w x y)

/-- `fcls` (R209). -/
def execFcls (g : BitVec 4) (d a : BitVec 6) (s : State) : Outcome State Fault Refusal :=
  fpPlain s g d a 60 false (fun x _ => (fpClass x, 0))

end Sys2Proof.Machine
end

