-- ==== Sys2Proof/Machine/Half.lean ====
section
/-!
DEFINITION. The HFP family on packed BF16 and FP16 elements (R210, R211).
-/

namespace Sys2Proof.Machine

open Host

/-- Element `e` of a packed register. -/
def halfOf (x : Word) (e : Nat) : Nat := x.toNat / 2 ^ (16 * e) % 2 ^ 16

/-- A format 1 (FP16) or 2 (BF16). -/
def halfFmt (fmt : Nat) : FpFmt := if fmt = 1 then fmtFP16 else fmtBF16

/-- Element `e` as a value. -/
def halfVal (fmt : Nat) (x : Word) (e : Nat) : Val := decodeFp (halfFmt fmt) (halfOf x e)

/-- A packed operation with one rounding call for each element, element 0 first (R210). -/
def halfRound (s : State) (g : BitVec 4) (fmt : Nat) (d a b : BitVec 6) (acc : Bool)
    (f : RMode → Bool → Word → Val → Val → Val → Nat × BitVec 16) : Outcome State Fault Refusal :=
  issueBy s g (fun c => [.vw d.toNat, .vr a.toNat, .vr b.toNat] ++ (if acc then [.vr d.toNat] else []) ++ c.drawArgs) noChecks
    (fun c0 => .done (c0.each (fun c l =>
      let el (e : Nat) (w : Word) := f c0.rmode c0.mods.sat w (halfVal fmt (c0.v a.toNat l) e)
        (halfVal fmt (c0.v b.toNat l) e) (halfVal fmt (c0.v d.toNat l) e)
      let r0 := c.roundCall l (el 0)
      let r1 := r0.1.roundCall l (el 1)
      r1.1.setV d.toNat l (BitVec.ofNat 32 (r0.2 + r1.2 * 2 ^ 16)))))

/-- A packed `fmin` or `fmax` (R207, R210). -/
def halfMinMax (s : State) (g : BitVec 4) (fmt : Nat) (d a b : BitVec 6) (wantMax : Bool) : Outcome State Fault Refusal :=
  lanewise s g [.vw d.toNat, .vr a.toNat, .vr b.toNat] (fun c l =>
    let el (e : Nat) := fpMinMax (halfFmt fmt) wantMax (halfOf (c.v a.toNat l) e) (halfOf (c.v b.toNat l) e)
    (c.setV d.toNat l (BitVec.ofNat 32 ((el 0).1 + (el 1).1 * 2 ^ 16))).addFp l ((el 0).2 ||| (el 1).2))

/-- `hdot2` (R211). -/
def halfDot (s : State) (g : BitVec 4) (fmt : Nat) (d a b : BitVec 6) : Outcome State Fault Refusal :=
  issueBy s g (fun c => [.vw d.toNat, .vr a.toNat, .vr b.toNat, .vr d.toNat] ++ c.drawArgs) noChecks
    (fun c0 => .done (c0.each (fun c l =>
      let x := c0.v a.toNat l
      let y := c0.v b.toNat l
      let r := c.roundCall l (fun w => fpDot2 c0.rmode c0.mods.sat w (halfVal fmt x 0) (halfVal fmt x 1) (halfVal fmt y 0)
        (halfVal fmt y 1) (val32 (c0.v d.toNat l)))
      r.1.setV d.toNat l (BitVec.ofNat 32 r.2))))

/-- `haddBf16` (R210). -/
def execHaddBf16 (g : BitVec 4) (d a b : BitVec 6) (s : State) : Outcome State Fault Refusal :=
  halfRound s g 2 d a b false (fun m st w x y _ => fpAdd 2 m st w x y)

/-- `hsubBf16` (R210). -/
def execHsubBf16 (g : BitVec 4) (d a b : BitVec 6) (s : State) : Outcome State Fault Refusal :=
  halfRound s g 2 d a b false (fun m st w x y _ => fpAdd 2 m st w x y.negate)

/-- `hmulBf16` (R210). -/
def execHmulBf16 (g : BitVec 4) (d a b : BitVec 6) (s : State) : Outcome State Fault Refusal :=
  halfRound s g 2 d a b false (fun m st w x y _ => fpMul 2 m st w x y)

/-- `hfmaBf16` (R210). -/
def execHfmaBf16 (g : BitVec 4) (d a b : BitVec 6) (s : State) : Outcome State Fault Refusal :=
  halfRound s g 2 d a b true (fun m st w x y z => fpFma 2 m st w x y z)

/-- `hminBf16` (R210). -/
def execHminBf16 (g : BitVec 4) (d a b : BitVec 6) (s : State) : Outcome State Fault Refusal :=
  halfMinMax s g 2 d a b false

/-- `hmaxBf16` (R210). -/
def execHmaxBf16 (g : BitVec 4) (d a b : BitVec 6) (s : State) : Outcome State Fault Refusal :=
  halfMinMax s g 2 d a b true

/-- `hdot2Bf16` (R211). -/
def execHdot2Bf16 (g : BitVec 4) (d a b : BitVec 6) (s : State) : Outcome State Fault Refusal :=
  halfDot s g 2 d a b

/-- `haddFp16` (R210). -/
def execHaddFp16 (g : BitVec 4) (d a b : BitVec 6) (s : State) : Outcome State Fault Refusal :=
  halfRound s g 1 d a b false (fun m st w x y _ => fpAdd 1 m st w x y)

/-- `hsubFp16` (R210). -/
def execHsubFp16 (g : BitVec 4) (d a b : BitVec 6) (s : State) : Outcome State Fault Refusal :=
  halfRound s g 1 d a b false (fun m st w x y _ => fpAdd 1 m st w x y.negate)

/-- `hmulFp16` (R210). -/
def execHmulFp16 (g : BitVec 4) (d a b : BitVec 6) (s : State) : Outcome State Fault Refusal :=
  halfRound s g 1 d a b false (fun m st w x y _ => fpMul 1 m st w x y)

/-- `hfmaFp16` (R210). -/
def execHfmaFp16 (g : BitVec 4) (d a b : BitVec 6) (s : State) : Outcome State Fault Refusal :=
  halfRound s g 1 d a b true (fun m st w x y z => fpFma 1 m st w x y z)

/-- `hminFp16` (R210). -/
def execHminFp16 (g : BitVec 4) (d a b : BitVec 6) (s : State) : Outcome State Fault Refusal :=
  halfMinMax s g 1 d a b false

/-- `hmaxFp16` (R210). -/
def execHmaxFp16 (g : BitVec 4) (d a b : BitVec 6) (s : State) : Outcome State Fault Refusal :=
  halfMinMax s g 1 d a b true

/-- `hdot2Fp16` (R211). -/
def execHdot2Fp16 (g : BitVec 4) (d a b : BitVec 6) (s : State) : Outcome State Fault Refusal :=
  halfDot s g 1 d a b

end Sys2Proof.Machine
end

