-- ==== Sys2Proof/Machine/Hints.lean ====
section
/-!
DEFINITION. Hint words (R49, R146 to R148).
-/

namespace Sys2Proof.Machine

open Host

/-- `imm`: a payload for the next instruction; a later one replaces it (R146). -/
def execImm (p : BitVec 22) (s : State) : Outcome State Fault Refusal := hint s (fun r => some { r with imm := some p })

/-- Registers that a `live` hint names, as a set of 56 (R49). -/
def liveMask (b : BitVec 2) (m : BitVec 16) : BitVec 56 := (m.setWidth 56) <<< (16 * b.toNat)

/-- `live`: the union of the registers named; a reserved MASK bit traps ILLEGAL (R49). -/
def execLive (b : BitVec 2) (m : BitVec 16) (s : State) : Outcome State Fault Refusal :=
  hint s (fun r =>
    if b = 3 ∧ field m 8 8 ≠ 0 then none else some { r with live := some (r.live.getD 0 ||| liveMask b m) })

/-- `mod`: scope, order, rounding, saturate and format; reserved values trap with the consuming instruction (R147). -/
def execMod (sc : BitVec 3) (o r : BitVec 2) (t : BitVec 1) (f : BitVec 6) (s : State) : Outcome State Fault Refusal :=
  hint s (fun x => some { x with modh := some (sc ++ o ++ r ++ t ++ f ++ (0 : BitVec 8)) })

/-- A slot code of `last` (R148). -/
def lastCode (n : BitVec 6) : Bool := decide (n.toNat < 56) || decide (n = 60)

/-- `last`: marks for the reads of the next instruction, as a union (R148). -/
def execLast (c b a : BitVec 6) (s : State) : Outcome State Fault Refusal :=
  hint s (fun r =>
    if lastCode a && lastCode b && lastCode c then
      some { r with last := r.last ++ ([a, b, c].filter (fun n => decide (n.toNat < 56))).map (fun n => n.toNat) }
    else none)

end Sys2Proof.Machine
end

