-- ==== Sys2Proof/Machine/IntArith.lean ====
section
/-!
DEFINITION. The INT family and the immediate forms (R180 to R185).
-/

namespace Sys2Proof.Machine

open Host

/-- `add` (R181). -/
def execAdd (g : BitVec 4) (d a b : BitVec 6) (s : State) : Outcome State Fault Refusal :=
  intSat s g d a b (fun x y => x + y)

/-- `sub` (R181). -/
def execSub (g : BitVec 4) (d a b : BitVec 6) (s : State) : Outcome State Fault Refusal :=
  intSat s g d a b (fun x y => x - y)

/-- `mul` (R181). -/
def execMul (g : BitVec 4) (d a b : BitVec 6) (s : State) : Outcome State Fault Refusal :=
  intSat s g d a b (fun x y => x * y)

/-- `mulh` (R181). -/
def execMulh (g : BitVec 4) (d a b : BitVec 6) (s : State) : Outcome State Fault Refusal := intBin s g d a b mulhNat

/-- `mulhu` (R181). -/
def execMulhu (g : BitVec 4) (d a b : BitVec 6) (s : State) : Outcome State Fault Refusal := intBin s g d a b mulhuNat

/-- `and` (R181). -/
def execAnd (g : BitVec 4) (d a b : BitVec 6) (s : State) : Outcome State Fault Refusal :=
  intBin s g d a b (fun _ x y => x &&& y)

/-- `or` (R181). -/
def execOr (g : BitVec 4) (d a b : BitVec 6) (s : State) : Outcome State Fault Refusal :=
  intBin s g d a b (fun _ x y => x ||| y)

/-- `xor` (R181). -/
def execXor (g : BitVec 4) (d a b : BitVec 6) (s : State) : Outcome State Fault Refusal :=
  intBin s g d a b (fun _ x y => x ^^^ y)

/-- `shl` (R182). -/
def execShl (g : BitVec 4) (d a b : BitVec 6) (s : State) : Outcome State Fault Refusal :=
  intBin s g d a b (fun w x y => shlNat w x (y % 2 ^ 32))

/-- `shr` (R182). -/
def execShr (g : BitVec 4) (d a b : BitVec 6) (s : State) : Outcome State Fault Refusal :=
  intBin s g d a b (fun w x y => shrNat w x (y % 2 ^ 32))

/-- `sar` (R182). -/
def execSar (g : BitVec 4) (d a b : BitVec 6) (s : State) : Outcome State Fault Refusal :=
  intBin s g d a b (fun w x y => sarNat w x (y % 2 ^ 32))

/-- `rot` (R182). -/
def execRot (g : BitVec 4) (d a b : BitVec 6) (s : State) : Outcome State Fault Refusal :=
  intBin s g d a b (fun w x y => rotNat w x (y % 2 ^ 32))

/-- `min` (R181). -/
def execMin (g : BitVec 4) (d a b : BitVec 6) (s : State) : Outcome State Fault Refusal := intBin s g d a b minNat

/-- `max` (R181). -/
def execMax (g : BitVec 4) (d a b : BitVec 6) (s : State) : Outcome State Fault Refusal := intBin s g d a b maxNat

/-- `minu` (R181). -/
def execMinu (g : BitVec 4) (d a b : BitVec 6) (s : State) : Outcome State Fault Refusal :=
  intBin s g d a b (fun _ x y => min x y)

/-- `maxu` (R181). -/
def execMaxu (g : BitVec 4) (d a b : BitVec 6) (s : State) : Outcome State Fault Refusal :=
  intBin s g d a b (fun _ x y => max x y)

/-! ## Immediate forms (R184, R185) -/

/-- `addi`: the exact result is the value of a, by the format's signedness, plus the signed value of k (R184). -/
def execAddi (g : BitVec 4) (d a : BitVec 6) (i : BitVec 10) (s : State) : Outcome State Fault Refusal :=
  intOp s g 20 (fun w => [.dst w d.toNat, .src w a.toNat])
    (fun w sg c l => c.putInt w sg true d.toNat l (asInt w sg (c.opImm w a.toNat l i) + c.immInt i false))

/-- A bitwise immediate form (R184). -/
def immBit (s : State) (g : BitVec 4) (d a : BitVec 6) (i : BitVec 10) (f : Nat → Nat → Nat) :
    Outcome State Fault Refusal :=
  intOp s g 20 (fun w => [.dst w d.toNat, .src w a.toNat])
    (fun w _ c l => c.setOp w d.toNat l (f (c.opImm w a.toNat l i) (wrapInt w (c.immInt i true))))

/-- `andi` (R184). -/
def execAndi (g : BitVec 4) (d a : BitVec 6) (i : BitVec 10) (s : State) : Outcome State Fault Refusal :=
  immBit s g d a i (fun x y => x &&& y)

/-- `ori` (R184). -/
def execOri (g : BitVec 4) (d a : BitVec 6) (i : BitVec 10) (s : State) : Outcome State Fault Refusal :=
  immBit s g d a i (fun x y => x ||| y)

/-- `xori` (R184). -/
def execXori (g : BitVec 4) (d a : BitVec 6) (i : BitVec 10) (s : State) : Outcome State Fault Refusal :=
  immBit s g d a i (fun x y => x ^^^ y)

/-- `shi`: a 32-bit shift by a constant; an `imm` hint in force is ILLEGAL (R141, R185). -/
def execShi (g : BitVec 4) (d a : BitVec 6) (o : BitVec 2) (n : BitVec 5) (s : State) : Outcome State Fault Refusal :=
  issueBy s g (fun c => [.need c.r.imm.isNone, .vw d.toNat, .vr a.toNat]) noChecks
    (fun c => .done (c.each (fun c l => c.setOp 32 d.toNat l (shiftNat o.toNat 32 (c.op 32 a.toNat l) n.toNat))))

/-- `movi` (R184). -/
def execMovi (g : BitVec 4) (d : BitVec 6) (i : BitVec 10) (s : State) : Outcome State Fault Refusal :=
  intOp s g 20 (fun w => [.dst w d.toNat]) (fun w _ c l => c.setOp w d.toNat l (wrapInt w (c.immInt i false)))

/-- `movhi`: always 32 bits wide (R184). -/
def execMovhi (g : BitVec 4) (d : BitVec 6) (i : BitVec 10) (s : State) : Outcome State Fault Refusal :=
  issueBy s g (fun _ => [.vw d.toNat, .vr d.toNat])
    (fun c => c.needFmt (decide (c.fmtOr 20 = 20) || decide (c.fmtOr 20 = 21)))
    (fun c => .done (c.each (fun c l =>
      c.setOp 32 d.toNat l (wrapInt 16 (c.immInt i false) * 2 ^ 16 + c.op 32 d.toNat l % 2 ^ 16))))

end Sys2Proof.Machine
end

