-- ==== Sys2Proof/Machine/IntX.lean ====
section
/-!
DEFINITION. The INTX family (R186 to R189).
-/

namespace Sys2Proof.Machine

open Host

/-- `mad` (R186): low bits of a × b + d, saturating. -/
def execMad (g : BitVec 4) (d a b : BitVec 6) (s : State) : Outcome State Fault Refusal :=
  intOp s g 20 (fun w => [.dst w d.toNat, .src w a.toNat, .src w b.toNat, .old w d.toNat])
    (fun w sg c l => c.putInt w sg true d.toNat l
      (asInt w sg (c.op w a.toNat l) * asInt w sg (c.op w b.toNat l) + asInt w sg (c.op w d.toNat l)))

/-- `madh` (R186): the high half of a × b + d, by the format's signedness; default UINT32. -/
def execMadh (g : BitVec 4) (d a b : BitVec 6) (s : State) : Outcome State Fault Refusal :=
  intOp s g 21 (fun w => [.dst w d.toNat, .src w a.toNat, .src w b.toNat, .old w d.toNat])
    (fun w sg c l => c.setOp w d.toNat l (wrapInt w
      ((asInt w sg (c.op w a.toNat l) * asInt w sg (c.op w b.toNat l) + asInt w sg (c.op w d.toNat l)) / (2 ^ w : Nat))))

/-- `abs` (R186): the operand is read as signed whatever the format (log 32). -/
def execAbs (g : BitVec 4) (d a : BitVec 6) (s : State) : Outcome State Fault Refusal :=
  intOp s g 20 (fun w => [.dst w d.toNat, .src w a.toNat])
    (fun w sg c l => c.putInt w sg true d.toNat l ((signedOf w (c.op w a.toNat l)).natAbs : Int))

/-- `neg` (R186). -/
def execNeg (g : BitVec 4) (d a : BitVec 6) (s : State) : Outcome State Fault Refusal :=
  intOp s g 20 (fun w => [.dst w d.toNat, .src w a.toNat])
    (fun w sg c l => c.putInt w sg true d.toNat l (-(asInt w sg (c.op w a.toNat l))))

/-- `clz` (R186). -/
def execClz (g : BitVec 4) (d a : BitVec 6) (s : State) : Outcome State Fault Refusal :=
  intUn s g d a (fun w x => if x = 0 then w else w - 1 - Nat.log2 x)

/-- Set bits of a number, by `n` bits from bit 0. -/
def popNat (n x : Nat) : Nat := ((List.range n).filter (fun i => x.testBit i)).length

/-- `popc` (R186). -/
def execPopc (g : BitVec 4) (d a : BitVec 6) (s : State) : Outcome State Fault Refusal := intUn s g d a popNat

/-- The bits of a number in reverse. -/
def revNat (w x : Nat) : Nat := (List.range w).foldl (fun r i => 2 * r + (if x.testBit i then 1 else 0)) 0

/-- `brev` (R186). -/
def execBrev (g : BitVec 4) (d a : BitVec 6) (s : State) : Outcome State Fault Refusal := intUn s g d a revNat

/-- `bfe` on patterns (R189). -/
def bfeNat (w : Nat) (signed : Bool) (a b : Nat) : Nat :=
  let pos := b % 256
  let len := b / 256 % 256
  let f := a / 2 ^ (min pos (2 * w)) % 2 ^ len
  if signed && decide (0 < len) && decide (len ≤ w) && f.testBit (len - 1) then wrapInt w ((f : Int) - (2 ^ len : Nat))
  else f % 2 ^ w

/-- `bfe` (R189); default UINT32. -/
def execBfe (g : BitVec 4) (d a b : BitVec 6) (s : State) : Outcome State Fault Refusal :=
  intOp s g 21 (fun w => [.dst w d.toNat, .src w a.toNat, .src w b.toNat])
    (fun w sg c l => c.setOp w d.toNat l (bfeNat w sg (c.op w a.toNat l) (c.op w b.toNat l)))

/-- `bfi` on patterns (R189). -/
def bfiNat (w d a b : Nat) : Nat :=
  let pos := b % 256
  let len := b / 256 % 256
  let mask := (2 ^ len - 1) * 2 ^ pos % 2 ^ w
  (d &&& (2 ^ w - 1 - mask)) ||| (a * 2 ^ pos % 2 ^ w &&& mask)

/-- `bfi` (R189). -/
def execBfi (g : BitVec 4) (d a b : BitVec 6) (s : State) : Outcome State Fault Refusal :=
  intOp s g 20 (fun w => [.dst w d.toNat, .src w a.toNat, .src w b.toNat, .old w d.toNat])
    (fun w _ c l => c.setOp w d.toNat l (bfiNat w (c.op w d.toNat l) (c.op w a.toNat l) (c.op w b.toNat l)))

/-- `sel` (R186): by the predicate at depth 0. -/
def execSel (g : BitVec 4) (d a b : BitVec 6) (s : State) : Outcome State Fault Refusal :=
  intOp s g 20 (fun w => [.dst w d.toNat, .src w a.toNat, .src w b.toNat])
    (fun w _ c l => c.setOp w d.toNat l (if c.pred 0 l then c.op w a.toNat l else c.op w b.toNat l))

/-- `mov` (R186). -/
def execMov (g : BitVec 4) (d a : BitVec 6) (s : State) : Outcome State Fault Refusal := intUn s g d a (fun _ x => x)

/-- `addc` (R188): the carry enters from depth 0 and leaves by a push. -/
def execAddc (g : BitVec 4) (d a b : BitVec 6) (s : State) : Outcome State Fault Refusal :=
  intOp s g 20 (fun w => [.dst w d.toNat, .src w a.toNat, .src w b.toNat])
    (fun w _ c l =>
      let x := c.op w a.toNat l + c.op w b.toNat l + (c.pred 0 l).toNat
      (c.setOp w d.toNat l (x % 2 ^ w)).push l (decide (2 ^ w ≤ x)))

/-- `subb` (R188). -/
def execSubb (g : BitVec 4) (d a b : BitVec 6) (s : State) : Outcome State Fault Refusal :=
  intOp s g 20 (fun w => [.dst w d.toNat, .src w a.toNat, .src w b.toNat])
    (fun w _ c l =>
      let x := c.op w a.toNat l
      let y := c.op w b.toNat l + (c.pred 0 l).toNat
      (c.setOp w d.toNat l (wrapInt w ((x : Int) - y))).push l (decide (x < y)))

/-! ## Division (R187) -/

/-- `divu`. -/
def divuNat (w a b : Nat) : Nat := if b = 0 then 2 ^ w - 1 else a / b

/-- `divs`, truncating toward zero. -/
def divsNat (w a b : Nat) : Nat := if b = 0 then 2 ^ w - 1 else wrapInt w (Int.tdiv (signedOf w a) (signedOf w b))

/-- `rem`, unsigned or signed. -/
def remNat (w : Nat) (signed : Bool) (a b : Nat) : Nat :=
  if b = 0 then a
  else if signed then wrapInt w (Int.tmod (signedOf w a) (signedOf w b))
  else a % b

/-- A division: a long-latency result of the execution class (R187, R26). -/
def divOp (s : State) (g : BitVec 4) (dflt : Nat) (d a b : BitVec 6) (f : Nat → Bool → Nat → Nat → Nat) :
    Outcome State Fault Refusal :=
  issueBy s g
    (fun c => let w := fmtWidth (c.fmtOr dflt); [.dst w d.toNat, .src w a.toNat, .src w b.toNat])
    (fun c => c.needFmt (isIntFmt (c.fmtOr dflt)))
    (fun c =>
      let w := fmtWidth (c.fmtOr dflt)
      let sg := fmtSigned (c.fmtOr dflt)
      .done (c.long (c.act.flatMap (c.longDest w d.toNat))
        (c.act.flatMap (fun l => valWords w (f w sg (c.op w a.toNat l) (c.op w b.toNat l))))))

/-- `divu` (R187); default UINT32. -/
def execDivu (g : BitVec 4) (d a b : BitVec 6) (s : State) : Outcome State Fault Refusal :=
  divOp s g 21 d a b (fun w _ x y => divuNat w x y)

/-- `divs` (R187). -/
def execDivs (g : BitVec 4) (d a b : BitVec 6) (s : State) : Outcome State Fault Refusal :=
  divOp s g 20 d a b (fun w _ x y => divsNat w x y)

/-- `rem` (R187); default UINT32. -/
def execRem (g : BitVec 4) (d a b : BitVec 6) (s : State) : Outcome State Fault Refusal := divOp s g 21 d a b remNat

end Sys2Proof.Machine
end

