-- ==== Sys2Proof/Machine/Limb.lean ====
section
/-!
DEFINITION. Bound limbs (R192 to R202).
-/

namespace Sys2Proof.Machine

open Host

/-! ## Integers of a binding -/

/-- LOG2_LANES in force. -/
def Ctx.limbLog (c : Ctx) : Nat := c.limbCtl.toNat % 8

/-- Lanes per integer. -/
def Ctx.limbLanes (c : Ctx) : Nat := 2 ^ c.limbLog

/-- Bits per integer. -/
def Ctx.limbBits (c : Ctx) : Nat := 64 * c.limbLanes

/-- The integers that the instruction acts on: those with an active lane, ascending. -/
def Ctx.integers (c : Ctx) : List Nat :=
  (List.range (64 / c.limbLanes)).filter (fun i => c.act.any (fun l => decide (l / c.limbLanes = i)))

/-- The lanes of an integer. -/
def Ctx.limbsOf (c : Ctx) (i : Nat) : List Nat := (List.range c.limbLanes).map (fun j => i * c.limbLanes + j)

/-- The unsigned value of a pair operand over an integer's limbs. -/
def Ctx.bigOf (c : Ctx) (n i : Nat) : Nat :=
  (c.limbsOf i).foldr (fun l x => (c.v64 n l).toNat + 2 ^ 64 * x) 0

/-- A form of R196: unbound parties trap LIMB_WIDTH, guards that differ within an integer BOUND_SPLIT. -/
def Ctx.limbChecks (c : Ctx) : Pre :=
  if c.limbCtl = 0 then .traps (allTrap c.act cLimbWidth 0)
  else Pre.ofTraps (allTrap (c.act.filter (fun l => (integerOf c.limbCtl l).any (fun k => !c.act.contains k))) cBoundSplit 0)

/-- Replace C and V of an integer; where the run is abandoned for it, they are kept (R194, R204). -/
def Ctx.setLimbFlags (c : Ctx) (i : Nat) (carry ovf : Bool) : Ctx :=
  c.pwriteBy (c.limbsOf i) (.limbFlags (BitVec.ofNat 64 (3 * 2 ^ (2 * i)))
    (BitVec.ofNat 64 ((carry.toNat + 2 * ovf.toNat) * 2 ^ (2 * i))))

/-- Destinations of the limbs of an integer. -/
def Ctx.limbDests (c : Ctx) (d i : Nat) : List Dest := (c.limbsOf i).flatMap (fun l => [c.dest d 0 l, c.dest d 1 l])

/-- The result of a limb form for one integer: its value, carry and overflow. -/
structure LimbRes where
  x     : Nat
  carry : Bool
  ovf   : Bool
deriving DecidableEq, Repr

/-- A limb form that writes one long integer and its flags (R196, R202). -/
def limbOp (s : State) (g : BitVec 4) (args : List Arg) (d : Nat) (more : Ctx → List Trap) (f : Ctx → Nat → LimbRes) :
    Outcome State Fault Refusal :=
  issue s g args (fun c => match c.limbChecks with
      | .go => Pre.ofTraps (more c)
      | .traps l => .traps (if c.limbCtl = 0 then l else l ++ more c)
      | .hold s => .hold s)
    (fun c =>
      let rs := c.integers.map (fun i => (i, f c i))
      let c1 := c.long (rs.flatMap (fun e => c.limbDests d e.1)) (rs.flatMap (fun e => wordsOf (2 * c.limbLanes) e.2.x))
      .done (rs.foldl (fun x e => x.setLimbFlags e.1 e.2.carry e.2.ovf) c1))

/-! ## Binding (R195) -/

/-- `lbind`. -/
def execLbind (g : BitVec 4) (n : BitVec 6) (s : State) : Outcome State Fault Refusal :=
  issue s g [.need (decide (1 ≤ n.toNat ∧ n.toNat ≤ 6))]
    (fun c =>
      let w := 2 ^ n.toNat
      if maskOf c.act ≠ c.p.mask then .traps (allTrap c.act cBoundSplit 0)
      else if c.limbCtl ≠ 0 then .traps (allTrap c.act cLimbWidth 0)
      else if c.act.any (fun l => (List.range w).any (fun j => !c.act.contains (l / w * w + j))) then
        .traps (allTrap c.act cLimbWidth 0)
      else .go)
    (fun c => .done ((c.pwrite (.limbCtl (n.setWidth 32))).pwrite (.limbFlags (BitVec.allOnes 64) 0)))

/-- `lunbind`. -/
def execLunbind (g : BitVec 4) (s : State) : Outcome State Fault Refusal :=
  issue s g []
    (fun c => if c.limbCtl ≠ 0 ∧ maskOf c.act ≠ c.p.mask then .traps (allTrap c.act cBoundSplit 0) else .go)
    (fun c => .done (if c.limbCtl = 0 then c
      else (c.pwrite (.limbCtl 0)).pwrite (.limbFlags (BitVec.allOnes 64) 0)))

/-! ## Arithmetic (R197 to R201) -/

/-- A signed value lies outside `n` bits. -/
def outside (n : Nat) (x : Int) : Bool := decide (x < -(2 ^ (n - 1) : Nat)) || decide ((2 ^ (n - 1) : Nat) ≤ x)

/-- `ladd` on integers of `n` bits. -/
def laddNat (n a b : Nat) : LimbRes :=
  ⟨(a + b) % 2 ^ n, decide (2 ^ n ≤ a + b), outside n (signedOf n a + signedOf n b)⟩

/-- `lsub` on integers of `n` bits. -/
def lsubNat (n a b : Nat) : LimbRes :=
  ⟨(a + 2 ^ n - b) % 2 ^ n, decide (a < b), outside n (signedOf n a - signedOf n b)⟩

/-- `lneg` on integers of `n` bits. -/
def lnegNat (n a : Nat) : LimbRes := ⟨(2 ^ n - a) % 2 ^ n, decide (a ≠ 0), decide (a = 2 ^ (n - 1))⟩

/-- `lshl` on integers of `n` bits. -/
def lshlNat (n a k : Nat) : LimbRes :=
  let d := a * 2 ^ k % 2 ^ n
  ⟨d, decide (0 < k) && a.testBit (n - k), decide (signedOf n d ≠ signedOf n a * (2 ^ k : Nat))⟩

/-- `lshr` on integers of `n` bits. -/
def lshrNat (n a k : Nat) : LimbRes := ⟨a / 2 ^ k % 2 ^ n, decide (0 < k) && a.testBit (k - 1), false⟩

/-- `lsar` on integers of `n` bits. -/
def lsarNat (n a k : Nat) : LimbRes :=
  ⟨wrapInt n (signedOf n a / (2 ^ k : Nat)), decide (0 < k) && a.testBit (k - 1), false⟩

/-- `ladd` (R197). -/
def execLadd (g : BitVec 4) (d a b : BitVec 6) (s : State) : Outcome State Fault Refusal :=
  limbOp s g [.pw d.toNat, .pr a.toNat, .pr b.toNat] d.toNat (fun _ => [])
    (fun c i => laddNat c.limbBits (c.bigOf a.toNat i) (c.bigOf b.toNat i))

/-- `lsub` (R197). -/
def execLsub (g : BitVec 4) (d a b : BitVec 6) (s : State) : Outcome State Fault Refusal :=
  limbOp s g [.pw d.toNat, .pr a.toNat, .pr b.toNat] d.toNat (fun _ => [])
    (fun c i => lsubNat c.limbBits (c.bigOf a.toNat i) (c.bigOf b.toNat i))

/-- `lneg` (R197). -/
def execLneg (g : BitVec 4) (d a : BitVec 6) (s : State) : Outcome State Fault Refusal :=
  limbOp s g [.pw d.toNat, .pr a.toNat] d.toNat (fun _ => []) (fun c i => lnegNat c.limbBits (c.bigOf a.toNat i))

/-- The count of a limb shift: from the integer's lowest lane (R198). -/
def Ctx.limbCount (c : Ctx) (b i : Nat) : Nat := (c.v b (i * c.limbLanes)).toNat

/-- Integers whose count reaches their width trap LIMB_WIDTH (R198). -/
def Ctx.limbCountTraps (c : Ctx) (b : Nat) : List Trap :=
  allTrap ((c.integers.filter (fun i => decide (c.limbBits ≤ c.limbCount b i))).flatMap c.limbsOf) cLimbWidth 0

/-- A limb shift (R198). -/
def limbShift (s : State) (g : BitVec 4) (d a b : BitVec 6) (f : Nat → Nat → Nat → LimbRes) :
    Outcome State Fault Refusal :=
  limbOp s g [.pw d.toNat, .pr a.toNat, .vr b.toNat] d.toNat (fun c => c.limbCountTraps b.toNat)
    (fun c i => f c.limbBits (c.bigOf a.toNat i) (c.limbCount b.toNat i))

/-- `lshl` (R198). -/
def execLshl (g : BitVec 4) (d a b : BitVec 6) (s : State) : Outcome State Fault Refusal := limbShift s g d a b lshlNat

/-- `lshr` (R198). -/
def execLshr (g : BitVec 4) (d a b : BitVec 6) (s : State) : Outcome State Fault Refusal := limbShift s g d a b lshrNat

/-- `lsar` (R198). -/
def execLsar (g : BitVec 4) (d a b : BitVec 6) (s : State) : Outcome State Fault Refusal := limbShift s g d a b lsarNat

/-- `lcmp` (R199): one result, pushed into every lane of the integer. -/
def execLcmp (g : BitVec 4) (k a b : BitVec 6) (s : State) : Outcome State Fault Refusal :=
  issue s g [.pr a.toNat, .pr b.toNat, .need (decide (k.toNat ≤ 11))] Ctx.limbChecks
    (fun c => .done ((c.integers.foldl (fun x i =>
      let r := intCond k.toNat c.limbBits (c.bigOf a.toNat i) (c.bigOf b.toNat i)
      (c.limbsOf i).foldl (fun x l => x.push l r) x) c).long [] []))

/-- `lmac` (R200): the high limb replaces the multiplier in the lowest lane, after D. -/
def execLmac (g : BitVec 4) (d a b : BitVec 6) (s : State) : Outcome State Fault Refusal :=
  issue s g [.pw d.toNat, .pr d.toNat, .pr a.toNat, .pr b.toNat] Ctx.limbChecks
    (fun c =>
      let n := c.limbBits
      let rs := c.integers.map (fun i =>
        (i, c.bigOf d.toNat i + c.bigOf a.toNat i * (c.v64 b.toNat (i * c.limbLanes)).toNat))
      let hi (i : Nat) : List Dest := [c.dest b.toNat 0 (i * c.limbLanes), c.dest b.toNat 1 (i * c.limbLanes)]
      let c1 := c.long (rs.flatMap (fun e => c.limbDests d.toNat e.1 ++ hi e.1))
        (rs.flatMap (fun e => wordsOf (2 * c.limbLanes) (e.2 % 2 ^ n) ++ wordsOf 2 (e.2 / 2 ^ n)))
      .done (rs.foldl (fun x e => x.setLimbFlags e.1 (decide (e.2 / 2 ^ n ≠ 0)) false) c1))

/-- `lcarry` (R201). -/
def execLcarry (g : BitVec 4) (d : BitVec 6) (s : State) : Outcome State Fault Refusal :=
  issue s g [.vw d.toNat] Ctx.limbChecks
    (fun c => .done (c.each (fun x l =>
      x.setV d.toNat l (BitVec.ofNat 32 (c.limbFlags.toNat / 2 ^ (2 * (l / c.limbLanes)) % 4)))))

end Sys2Proof.Machine
end

