-- ==== Sys2Proof/Machine/Mso.lean ====
section
/-!
DEFINITION. Memory-side operations: the `mso` instructions (R242, R243) and their steps at the slice agents (R76 to
R79).
-/

namespace Sys2Proof.Machine

open Host

/-! ## Issue (R242, R243) -/

/-- The addresses of the active lanes. -/
def Ctx.msoAddrs (c : Ctx) (a : Nat) : List (Nat × Nat) := c.addrs 31 a

/-- Send the operation of a lane: posted with D = 60, and otherwise with results that arrive after commit (R243). -/
def Ctx.sendMso (c : Ctx) (d : Nat) (l : Nat) (x : Loc) (k : MsoKind) (len results : Nat) : Ctx :=
  let fetch (op : Nat) : Fetch := { c.fetchFor x len (if len = 8 then 5 else 6) false op with frame := 0 }
  let draft (f f2 : Option Fetch) : EffItem :=
    .send { Draft.plain (c.s.homeOf x) (.mso x k f f2) with release := c.modRelease, posted := decide (d = 60) }
  if d = 60 then c.effectOf l (draft none none)
  else if results = 2 then
    let op := c.s.keys
    let c1 := c.lateOp [l] [c.dest d 0 l, c.dest d 1 l] false
    let op2 := c1.s.keys
    let c2 := c1.lateOp [l] [c.dest d 2 l, c.dest d 3 l] false
    c2.effectOf l (draft (some (fetch op)) (some (fetch op2)))
  else
    let op := c.s.keys
    (c.lateOp [l] [c.dest d 0 l, c.dest d 1 l] false).effectOf l (draft (some (fetch op)) none)

/-- The shape of `cas2`, `cas4` and `enq`. -/
def msoOp (s : State) (g : BitVec 4) (d a : BitVec 6) (args : List Arg) (n group len results : Nat)
    (kind : Ctx → Nat → MsoKind) : Outcome State Fault Refusal :=
  issue s g (args ++ [.gr a.toNat group, .need (decide (a.toNat + group ≤ 56))])
    (fun c => c.acqWait.then ((c.checkMem n true true (c.msoAddrs a.toNat)).bind (fun _ => .go)))
    (fun c => .done ((c.check n true true (c.msoAddrs a.toNat)).tgts.foldl (fun x t => match t.loc with
      | some y => x.sendMso d.toNat t.lane y (kind c t.lane) len results
      | none => x) c))

/-- The 64-bit value at a place of a lane's operand group. -/
def Ctx.groupD (c : Ctx) (a i l : Nat) : DWord := c.vAt a (i + 1) l ++ c.vAt a i l

/-- `mso.cas2` (R76, R242). -/
def execMsoCas2 (g : BitVec 4) (d a : BitVec 6) (s : State) : Outcome State Fault Refusal :=
  msoOp s g d a [.pw d.toNat, .need (decide (a.toNat % 4 = 0))] 16 12 16 1 (fun c l =>
    .cas2 (c.groupD a.toNat 4 l) (c.groupD a.toNat 6 l) (c.groupD a.toNat 8 l) (c.groupD a.toNat 10 l))

/-- `mso.cas4` (R76, R242). -/
def execMsoCas4 (g : BitVec 4) (d a : BitVec 6) (s : State) : Outcome State Fault Refusal :=
  msoOp s g d a [.qw d.toNat, .need (decide (a.toNat % 4 = 0))] 32 20 16 2 (fun c l =>
    .cas4 (c.groupD a.toNat 4 l) (c.groupD a.toNat 6 l) (c.groupD a.toNat 8 l) (c.groupD a.toNat 10 l)
      (c.groupD a.toNat 12 l) (c.groupD a.toNat 14 l) (c.groupD a.toNat 16 l) (c.groupD a.toNat 18 l))

/-- `mso.enq` (R77, R242). -/
def execMsoEnq (g : BitVec 4) (d a : BitVec 6) (s : State) : Outcome State Fault Refusal :=
  msoOp s g d a [.pw d.toNat, .need (decide (a.toNat % 2 = 0))] 32 4 8 1 (fun c l => .enq (c.groupD a.toNat 2 l))

/-- The first link of a lane's chase (R78); a null pointer makes none. -/
def Ctx.links (c : Ctx) (a : Nat) : List (Nat × Nat) :=
  ((c.msoAddrs a).filter (fun e => decide (e.2 ≠ 0))).map (fun e => (e.1, (e.2 + (c.vAt a 2 e.1).toNat) % 2 ^ 64))

/-- Link offsets outside 0 to 4,088, or no multiple of 8 (R242). -/
def Ctx.badOffsets (c : Ctx) (a : Nat) : List Trap :=
  (c.msoAddrs a).filterMap (fun e =>
    let k := (c.vAt a 2 e.1).toNat
    if 4088 < k ∨ k % 8 ≠ 0 then some ⟨e.1, cAlign, BitVec.ofNat 64 (e.2 + k)⟩ else none)

/-- `mso.chase` (R78, R242): a lane whose pointer is 0 sends nothing and receives the null ticket. -/
def execMsoChase (g : BitVec 4) (d a : BitVec 6) (s : State) : Outcome State Fault Refusal :=
  issue s g [.pw d.toNat, .gr a.toNat 3, .need (decide (a.toNat % 2 = 0)), .need (decide (a.toNat ≤ 52))]
    (fun c => c.acqWait.then (
      match c.checkMem 8 true false (c.links a.toNat) with
      | .stop (.traps ts) => .traps (ts ++ c.badOffsets a.toNat)
      | .stop p => p
      | .ok ts => (Pre.ofTraps (c.badOffsets a.toNat)).then (c.fetchChecks (.ok ts) (fun _ => .go))))
    (fun c =>
      let c1 := (c.check 8 true false (c.links a.toNat)).tgts.foldl (fun x t => match t.loc with
        | some y => x.sendMso d.toNat t.lane y
            (.chase (c.addr 31 a.toNat t.lane) (c.vAt a.toNat 2 t.lane).toNat) 16 1
        | none => x) c
      let nulls := (c.msoAddrs a.toNat).filter (fun e => decide (e.2 = 0))
      .done (if d = 60 then c1
        else nulls.foldl (fun x e => x.addOp { PendOp.mk' x false [c.dest d.toNat 0 e.1, c.dest d.toNat 1 e.1] [0, 0] with
          lanes := maskOf [e.1], late := true }) c1))

/-- The parts of a source of `rowput`, page by page; nothing unless all of it lies in the scratchpad of the cluster
where the party stands (R79). -/
def Ctx.rowSource (c : Ctx) (va n : Nat) : Option (List (Loc × Nat)) :=
  let own (a : Nat) : Option Loc := match c.s.access c.core c.p.asid a 1 true false with
    | .ok _ x => if x.isScratch && c.s.isLocal c.core x then some x else none
    | _ => none
  let first := min n (65536 - va % 65536)
  match own va, own (va + n - 1), own (va + first) with
  | some x, some _, y =>
    if first = n then some [(x, n)] else y.map (fun z => [(x, first), (z, n - first)])
  | _, _, _ => none

/-- The operands of a lane's `rowput`: source and length. -/
def Ctx.rowOps (c : Ctx) (a l : Nat) : Nat × Nat := ((c.groupD a 2 l).toNat, (c.vAt a 4 l).toNat)

/-- ALIGN of `rowput` (R79). -/
def Ctx.rowTraps (c : Ctx) (a : Nat) : List Trap :=
  (c.msoAddrs a).filterMap (fun e =>
    let o := c.rowOps a e.1
    if !blockLenOk o.2 || !oneGranule e.2 o.2 || decide (o.1 % 16 ≠ 0) || (c.rowSource o.1 o.2).isNone then
      some ⟨e.1, cAlign, BitVec.ofNat 64 e.2⟩ else none)

/-- `mso.rowput` (R79, R242). -/
def execMsoRowput (g : BitVec 4) (a : BitVec 6) (s : State) : Outcome State Fault Refusal :=
  issue s g [.gr a.toNat 5, .need (decide (a.toNat % 2 = 0)), .need (decide (a.toNat ≤ 50))]
    (fun c => c.acqWait.then (
      match c.checkMem 16 false true (c.msoAddrs a.toNat) with
      | .stop (.traps ts) => .traps (ts ++ c.rowTraps a.toNat)
      | .stop p => p
      | .ok _ => Pre.ofTraps (c.rowTraps a.toNat)))
    (fun c => .done ((c.check 16 false true (c.msoAddrs a.toNat)).tgts.foldl (fun x t =>
      let o := c.rowOps a.toNat t.lane
      match t.loc, c.rowSource o.1 o.2 with
      | some y, some src => x.sendMso 60 t.lane y (.rowputFrom src) 0 0
      | _, _ => x) c))

/-! ## Steps at the agent -/

/-- Where the agent finds a virtual address under an ASID, with the permissions asked for. -/
def State.agentLoc (s : State) (asid : BitVec 16) (va : Nat) (wr : Bool) : Option Loc :=
  match s.xlate none asid va with
  | .ok l => if (if wr then l.w else l.r) then s.locOn l va else none
  | _ => none

/-- A page of the second tier that hardware paging brings in before the agent goes on (R16, R68). -/
def State.agentTier (s : State) (asid : BitVec 16) (va : Nat) : Bool :=
  !s.regs.funcMode.getLsbD 0 && (match s.xlate none asid va with
    | .tier _ _ _ => true
    | _ => false)

/-- Where a chase goes on: a link at this home, a second-tier page that is brought in first, or the reason to stop (R78). -/
inductive Hop where
  | at (x : Loc)
  | page (va : Nat)
  | stop (reason : Nat)
deriving DecidableEq, Repr

/-- The next link of a chase that began at `x0`. In host-assisted paging a second-tier page does not translate (R16; log 39). -/
def State.hop (s : State) (asid : BitVec 16) (x0 : Loc) (p k hops : Nat) : Hop :=
  let va := (p + k) % 2 ^ 64
  if p = 0 then .stop 1
  else if hops = 16 then .stop 2
  else if va % 8 ≠ 0 then .stop 4
  else
    match s.xlate none asid va with
    | .tier _ _ _ => if s.agentTier asid va then .page va else .stop 3
    | .ok l =>
      if !l.r then .stop 3
      else
        match s.locOn l va with
        | none => .stop 3
        | some x => if x.seat = x0.seat then .at x else .stop 0
    | _ => .stop 3

/-- How a chase ends: the final pointer, the hops and the reason, the words read, and a page that it waits for. -/
structure Chased where
  ptr    : Nat
  hops   : Nat
  reason : Nat
  seen   : List Loc
  page   : Option Nat
deriving DecidableEq, Repr

/-- Follow the links of a chase (R78). -/
def State.chase (s : State) (asid : BitVec 16) (x0 : Loc) (k : Nat) : Nat → Nat → Nat → List Loc → Chased
  | 0, p, hops, seen => ⟨p, hops, 2, seen, none⟩
  | n + 1, p, hops, seen =>
    match s.hop asid x0 p k hops with
    | .stop r => ⟨p, hops, r, seen, none⟩
    | .page va => ⟨p, hops, 0, seen, some va⟩
    | .at x => s.chase asid x0 k n (memNat s.mem x.pa 8) (hops + 1) (seen ++ [x])

/-- The header of a ring (R77). -/
structure Ring where
  base : Nat
  tail : Nat
  head : Nat
  cap  : Nat
deriving DecidableEq, Repr

/-- Read a ring header, and whether its own fields are well formed (R77). -/
def ringOf (b : List Byte) : Ring × Bool :=
  let x := leNat b
  let r : Ring := ⟨x % 2 ^ 64, x / 2 ^ 64 % 2 ^ 32, x / 2 ^ 96 % 2 ^ 32, x / 2 ^ 128 % 32⟩
  (r, decide (x / 2 ^ 133 = 0) && decide (1 ≤ r.cap) && decide (r.cap ≤ 24) && decide (r.base % (8 * 2 ^ r.cap) = 0))

/-- Addresses of a ring's slots, one for each 4 KiB granule: slots of one granule share a home (R65). -/
def Ring.granules (r : Ring) : List Nat := (List.range (max 1 (8 * 2 ^ r.cap / 4096))).map (fun i => (r.base + 4096 * i) % 2 ^ 64)

/-- Every slot of a ring is homed with its header at `x` (R77). -/
def State.ringHere (s : State) (asid : BitVec 16) (x : Loc) (r : Ring) : Bool :=
  r.granules.all (fun a => match s.agentLoc asid a true with
    | some y => decide (y.seat = x.seat)
    | none => false)

/-- The slot that the next `enq` fills, when the ring is well formed and not full. -/
def State.enqSlot (s : State) (asid : BitVec 16) (x : Loc) : Option (Ring × Option Loc) :=
  let r := ringOf (memBytes s.mem x.pa 32)
  if !r.2 || !(s.ringHere asid x r.1) then none
  else if 2 ^ r.1.cap ≤ (r.1.tail + 2 ^ 32 - r.1.head) % 2 ^ 32 then some (r.1, none)
  else some (r.1, s.agentLoc asid (r.1.base + 8 * (r.1.tail % 2 ^ r.1.cap)) true)

/-- The second-tier page that an operation's step would reach: it is brought in before the step is made (R16, R68, R76). -/
def State.msoPage (s : State) (m : Msg) (x : Loc) (k : MsoKind) : Option Nat :=
  match k with
  | .enq _ =>
    let r := ringOf (memBytes s.mem x.pa 32)
    if r.2 then r.1.granules.find? (s.agentTier m.asid) else none
  | .chase p k => (s.chase m.asid x k 17 p 0 []).page
  | _ => none

/-- A range lock holds an operation at its home (R84). -/
def State.msoLocked (s : State) (m : Msg) (x : Loc) (k : MsoKind) : Bool :=
  match k with
  | .cas2 _ _ _ _ => s.locked x 16 true
  | .cas4 _ _ _ _ _ _ _ _ => s.locked x 32 true
  | .enq _ => s.locked x 32 true || (match s.enqSlot m.asid x with
      | some (_, some y) => s.locked y 8 true
      | _ => false)
  | .chase p k => (s.chase m.asid x k 17 p 0 []).seen.any (fun y => s.locked y 8 false)
  | .rowput d _ => s.locked x d.length true
  | .rowputFrom _ => false

/-- Bytes of doublewords. -/
def dwords (l : List DWord) : List Byte := l.flatMap (fun x => leBytes 8 x.toNat)

/-- A compare and swap of whole doublewords: the old bytes. -/
def State.swapAt (s : State) (m : Msg) (x : Loc) (old new : List DWord) : List Byte × State :=
  let r := s.load m.who x.pa (8 * old.length)
  (r.1, if r.1 = dwords old then r.2.store m.who x.pa (dwords new) else r.2)

/-- The step of an operation at its home: the data of its results (R76 to R79). -/
def State.msoStep (s : State) (m : Msg) (x : Loc) (k : MsoKind) : List Byte × State :=
  match k with
  | .cas2 e0 e1 n0 n1 => s.swapAt m x [e0, e1] [n0, n1]
  | .cas4 e0 e1 e2 e3 n0 n1 n2 n3 => s.swapAt m x [e0, e1, e2, e3] [n0, n1, n2, n3]
  | .enq payload =>
    let s1 := (s.load m.who x.pa 32).2
    (match s.enqSlot m.asid x with
      | none => (leBytes 8 0xFFFFFFFFFFFFFFFE, s1)
      | some (_, none) => (leBytes 8 0xFFFFFFFFFFFFFFFF, s1)
      | some (r, some y) =>
        let s2 := s1.store m.who y.pa (leBytes 8 payload.toNat)
        (leBytes 8 r.tail, s2.store m.who (x.pa + 8) (leBytes 4 ((r.tail + 1) % 2 ^ 32))))
  | .chase p k =>
    let r := s.chase m.asid x k 17 p 0 []
    (leBytes 8 r.ptr ++ leBytes 8 (r.hops + r.reason * 32), r.seen.foldl (fun s y => (s.load m.who y.pa 8).2) s)
  | .rowput d poison =>
    let s1 := s.store m.who x.pa d
    ([], if poison then { s1 with poison := (granules x.pa d.length).foldl NatSet.add s1.poison } else s1)
  | .rowputFrom _ => ([], s)

/-- Bytes that an operation reads, for poison (R335). -/
def State.msoPoison (s : State) (m : Msg) (x : Loc) (k : MsoKind) : Bool :=
  match k with
  | .chase p k => (s.chase m.asid x k 17 p 0 []).seen.any (fun y => s.poisoned y.pa 8)
  | .cas2 _ _ _ _ => s.poisoned x.pa 16
  | .rowput _ _ => false
  | _ => s.poisoned x.pa 32

/-- Apply an operation that returns tickets: nothing while an entry is wanting (R88, R242). -/
def State.msoServe (s : State) (m : Msg) (x : Loc) (k : MsoKind) (f : Fetch) (f2 : Option Fetch) : State :=
  let slice := s.tableSlice x
  match s.allocTicket m slice f f.len [] false none 0 with
  | none => s
  | some (i, s1) =>
    let key := slice * 4096 + i
    let bad := s.msoPoison m x k
    match f2 with
    | none =>
      let r := s1.msoStep m x k
      let s2 := r.2.setTicket key { r.2.ticket key with data := r.1, poison := bad }
      (s2.returnTicket m f key).dropMsg m.id
    | some g =>
      match s1.allocTicket m slice g g.len [] false none 0 with
      | none => s
      | some (j, s2) =>
        let key2 := slice * 4096 + j
        let r := s2.msoStep m x k
        let s3 := r.2.setTicket key { r.2.ticket key with data := r.1.take 16, poison := bad }
        let s4 := s3.setTicket key2 { s3.ticket key2 with data := r.1.drop 16, poison := bad }
        ((s4.returnTicket m f key).returnTicket m g key2).dropMsg m.id

/-- MSO_APPLY: an operation at the front of its FIFO is applied as one step, when no lock holds it (R76, R84). -/
def execMsoApply (msg : Nat) (s : State) : Outcome State Fault Refusal :=
  match s.arriving msg with
  | none => .next s
  | some m =>
    match m.body with
    | .mso x k f f2 =>
      if let some va := s.msoPage m x k then .next (s.askPage m.asid va m.core)
      else if s.msoLocked m x k then .next s
      else
        (match f with
          | some f => .next (s.msoServe m x k f f2)
          | none => .next ((s.msoStep m x k).2.markApplied msg))
    | _ => .next s

end Sys2Proof.Machine
end

