-- ==== Sys2Proof/Machine/Mx.lean ====
section
/-!
DEFINITION. The MX family (R214 to R217).
-/

namespace Sys2Proof.Machine

open Host

/-- The element format in force (R214). -/
def Ctx.mxFmt (c : Ctx) : Nat := c.fmtOr 3

/-- The accepted formats (R214). -/
def Ctx.mxOk (c : Ctx) : Bool := decide (3 ≤ c.mxFmt) && decide (c.mxFmt ≤ 8)

/-- `mxscale` (R215). -/
def execMxscale (g : BitVec 4) (d a : BitVec 6) (s : State) : Outcome State Fault Refusal :=
  issue s g [.vw d.toNat, .vr a.toNat] (fun c => c.needFmt c.mxOk)
    (fun c =>
      let scaleOf (k : Nat) : Nat :=
        blockScale c.mxFmt ((c.act.filter (fun l => decide (l / 32 = k))).map (fun l => val32 (c.v a.toNat l)))
      let sc0 := scaleOf 0
      let sc1 := scaleOf 1
      .done (c.long (c.act.map (fun l => c.dest d.toNat 0 l)) (c.act.map (fun l => if l < 32 then sc0 else sc1))))

/-- `mxq` (R216). Under scale 0xFF an element of E4M3 or E5M2 is a NaN and sets no flag, also where the operand is signalling
(log 91). -/
def execMxq (g : BitVec 4) (d a b : BitVec 6) (s : State) : Outcome State Fault Refusal :=
  issueBy s g (fun c => [.vw d.toNat, .vr a.toNat, .vr b.toNat] ++ c.drawArgs) (fun c => c.needFmt c.mxOk)
    (fun c0 => .done (c0.each (fun c l =>
      let x := c0.v a.toNat l
      let sc := (c0.v b.toNat l).toNat % 256
      let r := c.roundCall l (fun w => encodeElem c0.mxFmt x 0 (some sc) c0.rmode c0.mods.sat w)
      (r.1.addFp l (if sc = 255 then 0 else sigFlag (val32 x))).setV d.toNat l (BitVec.ofNat 32 r.2))))

/-- `mxdq` (R216). -/
def execMxdq (g : BitVec 4) (d a b : BitVec 6) (s : State) : Outcome State Fault Refusal :=
  issue s g [.vw d.toNat, .vr a.toNat, .vr b.toNat] (fun c => c.needFmt c.mxOk)
    (fun c => .done (c.each (fun x l =>
      let r := decodeElem c.mxFmt (c.v a.toNat l).toNat 0 (some ((c.v b.toNat l).toNat % 256))
      (x.setV d.toNat l r.1).addFp l r.2)))

/-- Bits of a plane per element (R217). -/
def mxPlane (fmt p : Nat) : Nat := if p = 1 then 2 else planeBits fmt

/-- The plane bits of a code (R217). -/
def mxPlaneOf (fmt p code : Nat) : Nat :=
  if p = 1 then code / 16 % 4 else if planeBits fmt = 8 then code % 256 else code % 16

/-- The formats that `mxpack` and `mxunp` accept for a plane (R217). -/
def Ctx.mxPlaneOk (c : Ctx) (p : Nat) : Bool := c.mxOk && (decide (p = 0) || hasComp c.mxFmt)

/-- Pairs of reader and source lane, for sources in the bundle (R218). -/
def Ctx.pairs (c : Ctx) (src : Nat → List Nat) : List (Nat × Nat) :=
  (lanesOf c.b.mask).flatMap (fun l => ((src l).filter (fun k => decide (k < 64) && c.b.mask.getLsbD k)).map (fun k => (l, k)))

/-- A register of another lane; a lane outside the bundle supplies 0 (R218). -/
def Ctx.vFrom (c : Ctx) (n l : Nat) : Word := if decide (l < 64) && c.b.mask.getLsbD l then c.v n l else 0

/-- `mxpack` (R217). -/
def execMxpack (g : BitVec 4) (d a b : BitVec 6) (s : State) : Outcome State Fault Refusal :=
  issueBy s g
    (fun c =>
      let k := 32 / mxPlane c.mxFmt b.toNat
      [.vw d.toNat, .need (decide (b.toNat ≤ 1)), .xr a.toNat (c.pairs (fun l =>
        ((List.range k).map (fun j => k * l + j)).filter (c.guarded (c.word.govr.getD g)).contains))])
    (fun c => c.needFmt (c.mxPlaneOk b.toNat))
    (fun c =>
      let nb := mxPlane c.mxFmt b.toNat
      let k := 32 / nb
      let word (l : Nat) : Nat := (List.range k).foldl (fun w j =>
        if k * l + j < 64 ∧ c.act.contains (k * l + j) then
          w + mxPlaneOf c.mxFmt b.toNat (c.v a.toNat (k * l + j)).toNat * 2 ^ (nb * j) else w) 0
      .done (c.long (c.act.map (fun l => c.dest d.toNat 0 l)) (c.act.map word)))

/-- `mxunp` (R217). -/
def execMxunp (g : BitVec 4) (d a b : BitVec 6) (s : State) : Outcome State Fault Refusal :=
  issueBy s g
    (fun c =>
      let k := 32 / mxPlane c.mxFmt b.toNat
      [.vw d.toNat, .need (decide (b.toNat ≤ 1)), .xr a.toNat (c.pairs (fun l => [l / k]))] ++
      (if b.toNat = 1 then [.vr d.toNat] else []))
    (fun c => c.needFmt (c.mxPlaneOk b.toNat))
    (fun c =>
      let nb := mxPlane c.mxFmt b.toNat
      let k := 32 / nb
      let word (l : Nat) : Nat :=
        let f := (c.vFrom a.toNat (l / k)).toNat / 2 ^ (nb * (l % k)) % 2 ^ nb
        if b.toNat = 0 then f else (c.v d.toNat l).toNat % 16 + f * 16
      .done (c.long (c.act.map (fun l => c.dest d.toNat 0 l)) (c.act.map word)))

end Sys2Proof.Machine
end

