-- ==== Sys2Proof/Machine/Pred.lean ====
section
/-!
DEFINITION. The PRED family (R158, R161). The cross-lane forms are long-latency operations of the execution class
(R26, R295): their pushes take their place in program order, and the run's SETB flag stands for them.
-/

namespace Sys2Proof.Machine

open Host

/-- A field that names a depth accepts 0 to 15 (R158). -/
def depthArg (a : BitVec 6) : Arg := .need (decide (a.toNat ≤ 15))

/-- `ppop` (R161). -/
def execPpop (g : BitVec 4) (n : BitVec 6) (s : State) : Outcome State Fault Refusal :=
  lanewise s g [.need (decide (1 ≤ n.toNat ∧ n.toNat ≤ 16))] (fun c l => c.setPreds l (c.preds l >>> n.toNat))

/-- `pdup` (R161). -/
def execPdup (g : BitVec 4) (a : BitVec 6) (s : State) : Outcome State Fault Refusal :=
  lanewise s g [depthArg a] (fun c l => c.push l (c.pred a.toNat l))

/-- `pand` (R161). -/
def execPand (g : BitVec 4) (a b : BitVec 6) (s : State) : Outcome State Fault Refusal :=
  lanewise s g [depthArg a, depthArg b] (fun c l => c.push l (c.pred a.toNat l && c.pred b.toNat l))

/-- `por` (R161). -/
def execPor (g : BitVec 4) (a b : BitVec 6) (s : State) : Outcome State Fault Refusal :=
  lanewise s g [depthArg a, depthArg b] (fun c l => c.push l (c.pred a.toNat l || c.pred b.toNat l))

/-- `pxor` (R161). -/
def execPxor (g : BitVec 4) (a b : BitVec 6) (s : State) : Outcome State Fault Refusal :=
  lanewise s g [depthArg a, depthArg b] (fun c l => c.push l (c.pred a.toNat l != c.pred b.toNat l))

/-- `pnot` (R161). -/
def execPnot (g : BitVec 4) (a : BitVec 6) (s : State) : Outcome State Fault Refusal :=
  lanewise s g [depthArg a] (fun c l => c.push l (!(c.pred a.toNat l)))

/-- `pany` (R161): the OR over the active lanes. -/
def execPany (g : BitVec 4) (a : BitVec 6) (s : State) : Outcome State Fault Refusal :=
  partywise s g [depthArg a] (fun c => (c.each (fun d l => d.push l (c.act.any (c.pred a.toNat)))).long [] [])

/-- `pall` (R161): the AND over the active lanes. -/
def execPall (g : BitVec 4) (a : BitVec 6) (s : State) : Outcome State Fault Refusal :=
  partywise s g [depthArg a] (fun c => (c.each (fun d l => d.push l (c.act.all (c.pred a.toNat)))).long [] [])

/-- `pcnt` (R161): how many active lanes hold true. -/
def execPcnt (g : BitVec 4) (d a : BitVec 6) (s : State) : Outcome State Fault Refusal :=
  partywise s g [.vw d.toNat, depthArg a] (fun c =>
    let n := (c.act.filter (c.pred a.toNat)).length
    c.long (c.act.map (fun l => c.dest d.toNat 0 l)) (c.act.map (fun _ => n)))

/-- `pget` (R161). -/
def execPget (g : BitVec 4) (d : BitVec 6) (s : State) : Outcome State Fault Refusal :=
  lanewise s g [.vw d.toNat] (fun c l => c.setV d.toNat l ((c.preds l).setWidth 32))

/-- `pset` (R161). -/
def execPset (g : BitVec 4) (a : BitVec 6) (s : State) : Outcome State Fault Refusal :=
  lanewise s g [.vr a.toNat] (fun c l => c.setPreds l ((c.v a.toNat l).setWidth 16))

/-- `pfirst` (R161): the lowest active lane that holds false, or 64. -/
def execPfirst (g : BitVec 4) (d a : BitVec 6) (s : State) : Outcome State Fault Refusal :=
  partywise s g [.vw d.toNat, depthArg a] (fun c =>
    let f := (c.act.find? (fun l => !(c.pred a.toNat l))).getD 64
    (c.each (fun x l => x.push l (decide (l < f)))).long (c.act.map (fun l => c.dest d.toNat 0 l)) (c.act.map (fun _ => f)))

/-- A predicate register with one bit replaced. -/
def putBit (x : BitVec 16) (i : Nat) (v : Bool) : BitVec 16 :=
  (x &&& ~~~((1 : BitVec 16) <<< i)) ||| ((BitVec.ofBool v).setWidth 16 <<< i)

/-- `pswap` (R161). -/
def execPswap (g : BitVec 4) (a b : BitVec 6) (s : State) : Outcome State Fault Refusal :=
  lanewise s g [depthArg a, depthArg b] (fun c l =>
    c.setPreds l (putBit (putBit (c.preds l) a.toNat (c.pred b.toNat l)) b.toNat (c.pred a.toNat l)))

end Sys2Proof.Machine
end

