-- ==== Sys2Proof/Machine/Rng.lean ====
section
/-!
DEFINITION. The RNG family (R270).
-/

namespace Sys2Proof.Machine

open Host

/-- A form that maps the word of a counter pair in each active lane (R270). -/
def rngOp (s : State) (g : BitVec 4) (d a : BitVec 6) (f : Word → Nat) : Outcome State Fault Refusal :=
  issue s g [.vw d.toNat, .pr a.toNat] noChecks
    (fun c => .done (c.long (c.act.map (fun l => c.dest d.toNat 0 l)) (c.act.map (fun l =>
      let x := c.v64 a.toNat l
      f (c.galWord l (field x 0 32) (field x 32 32))))))

/-- `rngu` (R270). -/
def execRngu (g : BitVec 4) (d a : BitVec 6) (s : State) : Outcome State Fault Refusal := rngOp s g d a BitVec.toNat

/-- `rngkey` (R270). -/
def execRngkey (g : BitVec 4) (a : BitVec 6) (s : State) : Outcome State Fault Refusal :=
  partywise s g [.sr a.toNat, .need (decide (a.toNat ≤ 30)), .sr (a.toNat + 1)]
    (fun c => c.pwrite (.rngKey (c.sc a.toNat) (c.sc (a.toNat + 1))))

/-- `rngstrm` (R270). -/
def execRngstrm (g : BitVec 4) (a : BitVec 6) (s : State) : Outcome State Fault Refusal :=
  partywise s g [.sr a.toNat] (fun c => c.pwrite (.rngStream ((c.sc a.toNat).setWidth 32)))

/-- FP32 of the top 24 bits of a word, times 2^-24 (R270). -/
def unifOf (w : Word) : Nat := (rne32 (Val.exact false (w.toNat / 2 ^ 8) (-24))).toNat

/-- `unif` (R270). -/
def execUnif (g : BitVec 4) (d a : BitVec 6) (s : State) : Outcome State Fault Refusal := rngOp s g d a unifOf

/-- `-LN2 × x` rounded to FP32 (R270). -/
def negLn2Times (x : Nat) : Nat := (fpMul 0 .rne false 0 (val32 0xBF317218) (decodeFp fmtFP32 x)).1

/-- `gumbel(w)` (R270). -/
def gumbelOf (w : Word) : Nat :=
  let t1 := (fpLog2 .rne false 0 (Val.exact false (w.toNat / 2 ^ 9 * 2 + 1) (-24))).1
  let t3 := (fpLog2 .rne false 0 (decodeFp fmtFP32 (negLn2Times t1))).1
  negLn2Times t3

/-- `gumb` (R270). -/
def execGumb (g : BitVec 4) (d a : BitVec 6) (s : State) : Outcome State Fault Refusal := rngOp s g d a gumbelOf

end Sys2Proof.Machine
end

