-- ==== Sys2Proof/Machine/Scalar.lean ====
section
/-!
DEFINITION. Scalar instructions (R190, R191).
-/

namespace Sys2Proof.Machine

open Host

/-- A SALU instruction: once for each execution, on 64 bits; formats INT64 (the default) and UINT64 (R190). -/
def saluOp (s : State) (g : BitVec 4) (d a b : BitVec 6) (f : Ctx → Bool → Nat → Nat → Ctx) :
    Outcome State Fault Refusal :=
  issue s g [.sw d.toNat, .sr a.toNat, .sr b.toNat]
    (fun c => c.needFmt (decide (c.fmtOr 22 = 22) || decide (c.fmtOr 22 = 23)))
    (fun c => .done (f c (decide (c.fmtOr 22 = 22)) (c.sc a.toNat).toNat (c.sc b.toNat).toNat))

/-- A SALU instruction that cannot saturate (R181, R190). -/
def saluBin (s : State) (g : BitVec 4) (d a b : BitVec 6) (f : Nat → Nat → Nat) : Outcome State Fault Refusal :=
  saluOp s g d a b (fun c _ x y => c.setS d.toNat (BitVec.ofNat 64 (f x y)))

/-- A SALU instruction that may saturate, with SATURATED in every active lane (R183, R190). -/
def saluSat (s : State) (g : BitVec 4) (d a b : BitVec 6) (f : Int → Int → Int) : Outcome State Fault Refusal :=
  saluOp s g d a b (fun c sg x y =>
    let r := clampInt 64 sg c.mods.sat (f (asInt 64 sg x) (asInt 64 sg y))
    (c.setS d.toNat (BitVec.ofNat 64 r.1)).each (fun c l => c.addFp l (if r.2 then fSaturated else 0)))

/-- `sadd` (R190). -/
def execSadd (g : BitVec 4) (d a b : BitVec 6) (s : State) : Outcome State Fault Refusal := saluSat s g d a b (fun x y => x + y)

/-- `ssub` (R190). -/
def execSsub (g : BitVec 4) (d a b : BitVec 6) (s : State) : Outcome State Fault Refusal := saluSat s g d a b (fun x y => x - y)

/-- `smul` (R190). -/
def execSmul (g : BitVec 4) (d a b : BitVec 6) (s : State) : Outcome State Fault Refusal := saluSat s g d a b (fun x y => x * y)

/-- `smulh` (R190). -/
def execSmulh (g : BitVec 4) (d a b : BitVec 6) (s : State) : Outcome State Fault Refusal := saluBin s g d a b (mulhNat 64)

/-- `smulhu` (R190). -/
def execSmulhu (g : BitVec 4) (d a b : BitVec 6) (s : State) : Outcome State Fault Refusal := saluBin s g d a b (mulhuNat 64)

/-- `sand` (R190). -/
def execSand (g : BitVec 4) (d a b : BitVec 6) (s : State) : Outcome State Fault Refusal := saluBin s g d a b (fun x y => x &&& y)

/-- `sor` (R190). -/
def execSor (g : BitVec 4) (d a b : BitVec 6) (s : State) : Outcome State Fault Refusal := saluBin s g d a b (fun x y => x ||| y)

/-- `sxor` (R190). -/
def execSxor (g : BitVec 4) (d a b : BitVec 6) (s : State) : Outcome State Fault Refusal := saluBin s g d a b (fun x y => x ^^^ y)

/-- `sshl` (R190). -/
def execSshl (g : BitVec 4) (d a b : BitVec 6) (s : State) : Outcome State Fault Refusal := saluBin s g d a b (fun x y => shlNat 64 x (y % 2 ^ 32))

/-- `sshr` (R190). -/
def execSshr (g : BitVec 4) (d a b : BitVec 6) (s : State) : Outcome State Fault Refusal := saluBin s g d a b (fun x y => shrNat 64 x (y % 2 ^ 32))

/-- `ssar` (R190). -/
def execSsar (g : BitVec 4) (d a b : BitVec 6) (s : State) : Outcome State Fault Refusal := saluBin s g d a b (fun x y => sarNat 64 x (y % 2 ^ 32))

/-- `srot` (R190). -/
def execSrot (g : BitVec 4) (d a b : BitVec 6) (s : State) : Outcome State Fault Refusal := saluBin s g d a b (fun x y => rotNat 64 x (y % 2 ^ 32))

/-- `smin` (R190). -/
def execSmin (g : BitVec 4) (d a b : BitVec 6) (s : State) : Outcome State Fault Refusal := saluBin s g d a b (minNat 64)

/-- `smax` (R190). -/
def execSmax (g : BitVec 4) (d a b : BitVec 6) (s : State) : Outcome State Fault Refusal := saluBin s g d a b (maxNat 64)

/-- `sminu` (R190). -/
def execSminu (g : BitVec 4) (d a b : BitVec 6) (s : State) : Outcome State Fault Refusal := saluBin s g d a b Nat.min

/-- `smaxu` (R190). -/
def execSmaxu (g : BitVec 4) (d a b : BitVec 6) (s : State) : Outcome State Fault Refusal := saluBin s g d a b Nat.max

/-- `saddi` (R190). -/
def execSaddi (g : BitVec 4) (d a : BitVec 6) (i : BitVec 10) (s : State) : Outcome State Fault Refusal :=
  partywise s g [.sw d.toNat, .sr a.toNat]
    (fun c => c.setS d.toNat (c.sc a.toNat + BitVec.ofInt 64 (c.immInt i false)))

/-- `smovi` (R190). -/
def execSmovi (g : BitVec 4) (d : BitVec 6) (i : BitVec 10) (s : State) : Outcome State Fault Refusal :=
  partywise s g [.sw d.toNat] (fun c => c.setS d.toNat (BitVec.ofInt 64 (c.immInt i false)))

/-- `smov` (R191). -/
def execSmov (g : BitVec 4) (d a : BitVec 6) (s : State) : Outcome State Fault Refusal :=
  partywise s g [.sw d.toNat, .sr a.toNat] (fun c => c.setS d.toNat (c.sc a.toNat))

/-- `hget` (R191). -/
def execHget (g : BitVec 4) (d a : BitVec 6) (s : State) : Outcome State Fault Refusal :=
  partywise s g [.sw d.toNat, .hr a.toNat] (fun c => c.setS d.toNat (c.hd a.toNat))

/-- `hput` (R191). -/
def execHput (g : BitVec 4) (d a : BitVec 6) (s : State) : Outcome State Fault Refusal :=
  partywise s g [.hw d.toNat, .sr a.toNat] (fun c => c.setH d.toNat (c.sc a.toNat))

/-- `hnull` (R191). -/
def execHnull (g : BitVec 4) (d : BitVec 6) (s : State) : Outcome State Fault Refusal :=
  partywise s g [.hw d.toNat] (fun c => c.setH d.toNat 0)

end Sys2Proof.Machine
end

