-- ==== Sys2Proof/Machine/Sys.lean ====
section
/-!
DEFINITION. System instructions: `nop`, `yield`, `halt` (R169), special registers (R170), `trap` (R171) and `tret`
(R174).
-/

namespace Sys2Proof.Machine

open Host

/-- `nop` (R169). -/
def execNop (g : BitVec 4) (s : State) : Outcome State Fault Refusal := partywise s g [] (fun c => c)

/-- `yield` (R169). -/
def execYield (g : BitVec 4) (s : State) : Outcome State Fault Refusal := partywise s g [] (fun c => c.effect .yield)

/-- `trap k` raises SOFTWARE on the active lanes (R171). -/
def execTrap (g : BitVec 4) (k : BitVec 6) (s : State) : Outcome State Fault Refusal :=
  issue s g [] (fun c => .traps (allTrap c.act cSoftware (k.setWidth 64))) .done

/-! ## `tret` (R174) -/

/-- The checks of `tret`, in order (R174). -/
def Ctx.checkTret (c : Ctx) : Pre :=
  match c.p.trap with
  | none => .traps (allTrap c.act cPriv 0)
  | some t =>
    if maskOf c.act ≠ c.p.mask then .traps (allTrap c.act cIllegal 0)
    else Pre.ofTraps (allTrap (c.act.filter (fun l => decide (c.wbOf l ≠ t.baseOf l))) cWindow 0)

/-- `tret.retry` (R174). -/
def execTretRetry (g : BitVec 4) (s : State) : Outcome State Fault Refusal :=
  issue s g [] Ctx.checkTret (fun c => .done (c.effect (.tret false)))

/-- `tret.skip` (R174). -/
def execTretSkip (g : BitVec 4) (s : State) : Outcome State Fault Refusal :=
  issue s g [] Ctx.checkTret (fun c => .done (c.effect (.tret true)))

/-! ## Special registers (R170) -/

/-- The numbers that name a special register. -/
def srAssigned (n : Nat) : Bool :=
  [0x000, 0x001, 0x002, 0x003, 0x004, 0x005, 0x006, 0x007, 0x010, 0x011, 0x020, 0x021, 0x022, 0x030, 0x040, 0x041, 0x050,
   0x051, 0x052, 0x053, 0x060].contains n

/-- The register number of the A and B fields. -/
def srNumber (a b : BitVec 6) : Nat := 64 * a.toNat + b.toNat

/-- A trap-record register. -/
def srTrap (n : Nat) : Bool := decide (0x050 ≤ n) && decide (n ≤ 0x053)

/-- What `mfs` reads: the value at the start of the run, or the one an earlier `mts` of the run wrote (R170). -/
def Ctx.readSr (c : Ctx) (n : Nat) : DWord :=
  let snap (k : Nat) : DWord := Map.getD c.r.snap k 0
  let t (f : TrapRec → DWord) : DWord := match c.p.trap with
    | some x => f x
    | none => 0
  match n with
  | 0x000 => 64
  | 0x002 => c.p.partyId.setWidth 64
  | 0x003 => c.p.teamId.setWidth 64
  | 0x004 => c.p.gridId.setWidth 64
  | 0x005 => BitVec.ofNat 64 c.core
  | 0x006 => c.s.devId.setWidth 64
  | 0x007 => c.p.depth.setWidth 64
  | 0x041 => BitVec.ofNat 64 ((if c.s.mode = 0 then 0 else 1) + 2 * c.s.mode.toNat)
  | 0x050 => t (fun x => x.cause)
  | 0x051 => t (fun x => x.lanes)
  | 0x052 => t (fun x => x.addr)
  | 0x053 => t (fun x => x.pc)
  | 0x060 => c.p.spillPos.setWidth 64
  | k => snap k

/-- `mfs` (R170). -/
def execMfs (g : BitVec 4) (d a b : BitVec 6) (s : State) : Outcome State Fault Refusal :=
  issue s g [.sw d.toNat, .need (srAssigned (srNumber a b))]
    (fun c => if d = 31 ∧ srTrap (srNumber a b) then .traps (allTrap c.act cPriv 0) else .go)
    (fun c => .done (c.setS d.toNat (c.readSr (srNumber a b))))

/-- The bits of LIMB_FLAGS that a binding defines (R194); none in an unbound party. -/
def limbMask (ctl : Word) : DWord :=
  let n := ctl.toNat % 8
  if n = 0 then 0 else if n = 1 then BitVec.allOnes 64 else BitVec.ofNat 64 (2 ^ (2 * (64 / 2 ^ n)) - 1)

/-- A special register write, which `mfs` reads for the rest of the run (R170). -/
def Ctx.noteSr (c : Ctx) (n : Nat) (x : DWord) : Ctx := { c with r := { c.r with snap := Map.insert c.r.snap n x } }

/-- The effect of `mts` on a writable register: FPFLAGS bits 5:0 (R127), or the defined bits of LIMB_FLAGS (R194).
Conditions of earlier instructions of the run are overwritten in FPFLAGS (log 33). -/
def Ctx.writeSr (c : Ctx) (n : Nat) (x : DWord) : Ctx :=
  if n = 0x040 then
    let v := x &&& 63
    (c.pwrite (.fpflags (v.setWidth 16))).noteSr n v
  else
    let m := limbMask c.limbCtl
    if m = 0 then c else (c.pwrite (.limbFlags (BitVec.allOnes 64) (x &&& m))).noteSr n (x &&& m)

/-- `mts` (R170). -/
def execMts (g : BitVec 4) (d a b : BitVec 6) (s : State) : Outcome State Fault Refusal :=
  issue s g [.sr d.toNat, .need (srAssigned (srNumber a b))]
    (fun c => if srNumber a b = 0x040 ∨ srNumber a b = 0x011 then .go else .traps (allTrap c.act cPriv 0))
    (fun c => .done (c.writeSr (srNumber a b) (c.sc d.toNat)))

/-! ## `halt` (R169) -/

/-- Whether the debug port holds a core halt-enabled (R331). -/
def State.haltEnabled (s : State) (core : Nat) : Bool := (Map.getD s.regs.haltEn (core / 64) 0).getLsbD (core % 64)

/-- `halt` (R169): in a halt-enabled core the party is BLOCKED before it and the port is notified. -/
def execHalt (g : BitVec 4) (s : State) : Outcome State Fault Refusal :=
  issue s g []
    (fun c =>
      if c.s.haltEnabled c.core then
        let p := { c.p.setBundle { c.b with phase := .held .halted } with haltBy := true }
        .hold ({ c.s with halts := c.s.halts ++ [(c.pid, c.b.id)] }.setParty c.pid (p.block c.clk))
      else .traps (allTrap c.act cDebug 0))
    .done

end Sys2Proof.Machine
end

