-- ==== Sys2Proof/Machine/XLane.lean ====
section
/-!
DEFINITION. The XLANE family (R152, R218 to R223).
-/

namespace Sys2Proof.Machine

open Host

/-! ## Shuffles (R219) -/

/-- A distance code of R152. -/
def distOk (b : Nat) : Bool := decide (b < 40)

/-- The distance that a code gives (R152). -/
def distOf (b : Nat) : Nat := if b < 32 then b else 64 / 2 ^ (b % 8 + 1)

/-- A shuffle: each active lane takes the value of its source lane (R218, R219). -/
def shuffle (s : State) (g : BitVec 4) (d a : BitVec 6) (more : List Arg) (src : Ctx → Nat → Nat) :
    Outcome State Fault Refusal :=
  issueBy s g (fun c => [.vw d.toNat, .xr a.toNat (c.pairs (fun l => [src c l]))] ++ more) noChecks
    (fun c => .done (c.long (c.act.map (fun l => c.dest d.toNat 0 l)) (c.act.map (fun l => (c.vFrom a.toNat (src c l)).toNat))))

/-- `shfl` (R219). -/
def execShfl (g : BitVec 4) (d a b : BitVec 6) (s : State) : Outcome State Fault Refusal :=
  shuffle s g d a [.vr b.toNat] (fun c l => (c.v b.toNat l).toNat % 64)

/-- `shfup` (R219). -/
def execShfup (g : BitVec 4) (d a b : BitVec 6) (s : State) : Outcome State Fault Refusal :=
  shuffle s g d a [.need (distOk b.toNat)] (fun _ l => if distOf b.toNat ≤ l then l - distOf b.toNat else l)

/-- `shfdn` (R219). -/
def execShfdn (g : BitVec 4) (d a b : BitVec 6) (s : State) : Outcome State Fault Refusal :=
  shuffle s g d a [.need (distOk b.toNat)] (fun _ l => if l + distOf b.toNat < 64 then l + distOf b.toNat else l)

/-- `shfxor` (R219). -/
def execShfxor (g : BitVec 4) (d a b : BitVec 6) (s : State) : Outcome State Fault Refusal :=
  shuffle s g d a [.need (distOk b.toNat)] (fun _ l => l ^^^ distOf b.toNat)

/-- `bcast` (R219). -/
def execBcast (g : BitVec 4) (d a b : BitVec 6) (s : State) : Outcome State Fault Refusal :=
  shuffle s g d a [.need (distOk b.toNat)] (fun _ _ => distOf b.toNat)

/-! ## Reductions and scans (R130, R131, R220) -/

/-- The identity of an operation code on `w` bits (R130). -/
def redIdentity (op w : Nat) : Nat :=
  match op with
  | 1 => 2 ^ w - 1
  | 4 => 2 ^ (w - 1) - 1
  | 5 => 2 ^ (w - 1)
  | 6 => 2 ^ w - 1
  | 8 => 0x80000000
  | 9 => 0x7F800000
  | 10 => 0xFF800000
  | _ => 0

/-- One step of an operation code on `w` bits, with its flags (R130, R207, R220). -/
def redStep (op w x y : Nat) : Nat × BitVec 16 :=
  match op with
  | 0 => ((x + y) % 2 ^ w, 0)
  | 1 => (x &&& y, 0)
  | 2 => (x ||| y, 0)
  | 3 => (x ^^^ y, 0)
  | 4 => (minNat w x y, 0)
  | 5 => (maxNat w x y, 0)
  | 6 => (min x y, 0)
  | 7 => (max x y, 0)
  | 8 => fpAdd 0 .rne false 0 (decodeFp fmtFP32 x) (decodeFp fmtFP32 y)
  | 9 => fpMinMax fmtFP32 false x y
  | _ => fpMinMax fmtFP32 true x y

/-- One combining step at every position: `f` names the two operands of a position, or none where it keeps its value. -/
def redRound (op w : Nat) (f : Nat → Option (Nat × Nat)) (y : List Nat) (fl : BitVec 16) : List Nat × BitVec 16 :=
  let r := (List.range 64).map (fun l => match f l with
    | some (i, j) => redStep op w (y.getD i 0) (y.getD j 0)
    | none => (y.getD l 0, 0))
  (r.map Prod.fst, r.foldl (fun a e => a ||| e.2) fl)

/-- Steps `k` on: butterflies of R130. -/
def redFrom (op w : Nat) : Nat → Nat → List Nat → BitVec 16 → List Nat × BitVec 16
  | 0, _, y, fl => (y, fl)
  | n + 1, k, y, fl =>
    let r := redRound op w (fun l => some (min l (l ^^^ 2 ^ k), max l (l ^^^ 2 ^ k))) y fl
    redFrom op w n (k + 1) r.1 r.2

/-- Steps `k` on: prefixes of R131. The element of lane 0 passes unchanged, also where it is a NaN that is not canonical (log
147). -/
def scanFrom (op w : Nat) : Nat → Nat → List Nat → BitVec 16 → List Nat × BitVec 16
  | 0, _, y, fl => (y, fl)
  | n + 1, k, y, fl =>
    let r := redRound op w (fun l => if 2 ^ k ≤ l then some (l - 2 ^ k, l) else none) y fl
    scanFrom op w n (k + 1) r.1 r.2

/-- Operation code in bits 3:0 of B. -/
def redOp (b : BitVec 6) : Nat := b.toNat % 16

/-- Width that bit 4 of B selects. -/
def redWidth (b : BitVec 6) : Nat := if b.getLsbD 4 then 64 else 32

/-- The accepted codes of R220; bit 5 is for `scan` only. -/
def redOk (b : BitVec 6) (scan : Bool) : Bool :=
  decide (redOp b ≤ 10) && !(b.getLsbD 4 && decide (8 ≤ redOp b)) && (scan || !b.getLsbD 5)

/-- `redlog` and `scan`: the result of every position from the values that enter. -/
def combine (s : State) (g : BitVec 4) (d a b : BitVec 6) (scan : Bool)
    (f : Nat → Nat → List Nat → List Nat × BitVec 16) : Outcome State Fault Refusal :=
  issue s g [.need (redOk b scan), .dst (redWidth b) d.toNat, .src (redWidth b) a.toNat] noChecks
    (fun c =>
      let w := redWidth b
      let y := (List.range 64).map (fun l => if c.act.contains l then c.op w a.toNat l else redIdentity (redOp b) w)
      let r := f (redOp b) w y
      .done ((c.long (c.act.flatMap (c.longDest w d.toNat)) (c.act.flatMap (fun l => valWords w (r.1.getD l 0)))).each
        (fun x l => x.addFp l r.2)))

/-- `redlog` (R220). -/
def execRedlog (g : BitVec 4) (d a b : BitVec 6) (s : State) : Outcome State Fault Refusal :=
  combine s g d a b false (fun op w y => redFrom op w 6 0 y 0)

/-- `scan` (R220); the exclusive form gives each position the result of the one below. -/
def execScan (g : BitVec 4) (d a b : BitVec 6) (s : State) : Outcome State Fault Refusal :=
  combine s g d a b true (fun op w y =>
    let r := scanFrom op w 6 0 y 0
    if b.getLsbD 5 then (redIdentity op w :: r.1.take 63, r.2) else r)

/-! ## Selections (R221, R222) -/

/-- Formats of `argmax` and `kth` (R221). -/
def Ctx.selFmt (c : Ctx) : Nat := c.fmtOr 0

/-- The accepted formats. -/
def Ctx.selOk (c : Ctx) : Bool := [0, 20, 21].contains c.selFmt

/-- Whether a pattern is a NaN under a format of R221. -/
def selNan (f : Nat) (x : Word) : Bool := decide (f = 0) && (val32 x).isNan

/-- The order of R222 as a number: +0 above -0. -/
def selKey (f : Nat) (x : Word) : Int :=
  if f = 20 then x.toInt
  else if f = 21 then (x.toNat : Int)
  else if x.getLsbD 31 then -((x.toNat % 2 ^ 31 : Nat) : Int) - 1 else (x.toNat : Int)

/-- The order of R221: +0 and -0 equal. -/
def argKey (f : Nat) (x : Word) : Int := if f = 0 ∧ x = 0x80000000 then 0 else selKey f x

/-- INVALID when an FP32 value is a signalling NaN. -/
def selFlags (f : Nat) (xs : List Word) : BitVec 16 :=
  if f = 0 && xs.any (fun x => (val32 x).isSig) then fInvalid else 0

/-- `argmax` over lanes and their values: the value and the lane. -/
def argmaxOf (f : Nat) (xs : List (Nat × Word)) : Nat × Nat :=
  match leastBy (fun e => (2 ^ 40 - argKey f e.2).toNat) (xs.filter (fun e => !selNan f e.2)) with
  | some e => (e.2.toNat, e.1)
  | none => (0x7FC00000, match xs with
    | e :: _ => e.1
    | [] => 0)

/-- `argmax` (R221). -/
def execArgmax (g : BitVec 4) (d a : BitVec 6) (s : State) : Outcome State Fault Refusal :=
  issue s g [.pw d.toNat, .vr a.toNat] (fun c => c.needFmt c.selOk)
    (fun c =>
      let xs := c.act.map (fun l => (l, c.v a.toNat l))
      let r := argmaxOf c.selFmt xs
      .done ((c.long (c.act.flatMap (c.longDest 64 d.toNat)) (c.act.flatMap (fun _ => [r.1, r.2]))).each
        (fun x l => x.addFp l (selFlags c.selFmt (xs.map Prod.snd)))))

/-- `kth` over values (R222). -/
def kthOf (f k : Nat) (xs : List Word) : Nat :=
  let l := sortBy (fun x y => decide (selKey f y ≤ selKey f x)) (xs.filter (fun x => !selNan f x))
  if k = 0 ∨ l.length < k then (if f = 0 then 0xFF800000 else if f = 20 then 0x80000000 else 0)
  else (l.getD (k - 1) 0).toNat

/-- `kth` (R222). -/
def execKth (g : BitVec 4) (d a b : BitVec 6) (s : State) : Outcome State Fault Refusal :=
  issue s g [.vw d.toNat, .vr a.toNat, .sr b.toNat] (fun c => c.needFmt c.selOk)
    (fun c =>
      let xs := c.act.map (fun l => c.v a.toNat l)
      let r := kthOf c.selFmt (c.sc b.toNat).toNat xs
      .done ((c.long (c.act.map (fun l => c.dest d.toNat 0 l)) (c.act.map (fun _ => r))).each
        (fun x l => x.addFp l (selFlags c.selFmt xs))))

/-! ## The remaining forms (R223) -/

/-- `ballot` (R223). -/
def execBallot (g : BitVec 4) (d a : BitVec 6) (s : State) : Outcome State Fault Refusal :=
  issue s g [.pw d.toNat, .need (decide (a.toNat ≤ 15))] noChecks
    (fun c =>
      let m := maskOf (c.act.filter (c.pred a.toNat))
      .done (c.long (c.act.flatMap (c.longDest 64 d.toNat)) (c.act.flatMap (fun _ => wordsOf 2 m.toNat))))

/-- `permb` on 16 table bytes, as a number, and a selector (R223). -/
def permbOf (table sel : Nat) : Nat :=
  (List.range 4).foldl (fun r i =>
    let x := sel / 2 ^ (8 * i) % 256
    r + (if 128 ≤ x then 0 else table / 2 ^ (8 * (x % 16)) % 256) * 2 ^ (8 * i)) 0

/-- `permb` (R223). -/
def execPermb (g : BitVec 4) (d a b : BitVec 6) (s : State) : Outcome State Fault Refusal :=
  issue s g [.vw d.toNat, .qr a.toNat, .vr b.toNat] noChecks
    (fun c =>
      let table (l : Nat) : Nat := (List.range 4).foldl (fun r i => r + (c.vAt a.toNat i l).toNat * 2 ^ (32 * i)) 0
      .done (c.long (c.act.map (fun l => c.dest d.toNat 0 l))
        (c.act.map (fun l => permbOf (table l) (c.v b.toNat l).toNat))))

/-- Width of `vtos` and `stov` by format (R223). -/
def Ctx.movWidth (c : Ctx) : Nat := fmtWidth (c.fmtOr 20)

/-- `vtos` (R223). -/
def execVtos (g : BitVec 4) (d a b : BitVec 6) (s : State) : Outcome State Fault Refusal :=
  issueBy s g
    (fun c =>
      let from_ := c.pairs (fun _ => [(c.sc b.toNat).toNat % 64])
      [.sw d.toNat, .sr b.toNat] ++
      (if c.movWidth = 64 then
        .need (pairCode a.toNat || decide (a = 61) || (decide (a = 62) && c.r.imm.isSome)) ::
          (if a.toNat < 60 then [.xr a.toNat from_, .xr (a.toNat + 1) from_] else [])
      else [.xr a.toNat from_]))
    (fun c => c.needFmt (isIntFmt (c.fmtOr 20)))
    (fun c =>
      let l := (c.sc b.toNat).toNat % 64
      let x := if c.b.mask.getLsbD l then c.op c.movWidth a.toNat l else 0
      .done (c.long [if d = 31 then .drop else .s d.toNat] [x]))

/-- `stov` (R223). -/
def execStov (g : BitVec 4) (d a : BitVec 6) (s : State) : Outcome State Fault Refusal :=
  issueBy s g (fun c => [.dst c.movWidth d.toNat, .sr a.toNat])
    (fun c => c.needFmt (isIntFmt (c.fmtOr 20)))
    (fun c =>
      let x := (c.sc a.toNat).toNat
      .done (c.long (c.act.flatMap (c.longDest c.movWidth d.toNat)) (c.act.flatMap (fun _ => valWords c.movWidth x))))

end Sys2Proof.Machine
end

