-- ==== Sys2Proof/Machine/Dispatch.lean ====
section
/-!
DEFINITION. The meaning of every instruction: one arm per constructor, each one call.
-/

namespace Sys2Proof.Machine

open Host

def exec (i : Instr) (s : State) : Host.Outcome State Fault Refusal :=
  match i with
  | .nop g => Sys2Proof.Machine.execNop g s
  | .yield g => Sys2Proof.Machine.execYield g s
  | .trap g k => Sys2Proof.Machine.execTrap g k s
  | .tretRetry g => Sys2Proof.Machine.execTretRetry g s
  | .tretSkip g => Sys2Proof.Machine.execTretSkip g s
  | .mfs g d a b => Sys2Proof.Machine.execMfs g d a b s
  | .mts g d a b => Sys2Proof.Machine.execMts g d a b s
  | .tbr g a b => Sys2Proof.Machine.execTbr g a b s
  | .halt g => Sys2Proof.Machine.execHalt g s
  | .br g o => Sys2Proof.Machine.execBr g o s
  | .call g o => Sys2Proof.Machine.execCall g o s
  | .ret g a => Sys2Proof.Machine.execRet g a s
  | .callr g a => Sys2Proof.Machine.execCallr g a s
  | .brr g a => Sys2Proof.Machine.execBrr g a s
  | .enter g n => Sys2Proof.Machine.execEnter g n s
  | .leave g n => Sys2Proof.Machine.execLeave g n s
  | .fork g d a => Sys2Proof.Machine.execFork g d a s
  | .fend g => Sys2Proof.Machine.execFend g s
  | .exit g => Sys2Proof.Machine.execExit g s
  | .bar g a b => Sys2Proof.Machine.execBar g a b s
  | .barw g d a b => Sys2Proof.Machine.execBarw g d a b s
  | .rejoin g a => Sys2Proof.Machine.execRejoin g a s
  | .rejoinw g a b => Sys2Proof.Machine.execRejoinw g a b s
  | .arrive g d a b => Sys2Proof.Machine.execArrive g d a b s
  | .barq g a b => Sys2Proof.Machine.execBarq g a b s
  | .launch g a => Sys2Proof.Machine.execLaunch g a s
  | .gridwait g d a => Sys2Proof.Machine.execGridwait g d a s
  | .gridq g d a => Sys2Proof.Machine.execGridq g d a s
  | .cmp g a b c => Sys2Proof.Machine.execCmp g a b c s
  | .cmpD g a b c => Sys2Proof.Machine.execCmpD g a b c s
  | .cmpi g c a im => Sys2Proof.Machine.execCmpi g c a im s
  | .fcmp g f a b c => Sys2Proof.Machine.execFcmp g f a b c s
  | .ppop g n => Sys2Proof.Machine.execPpop g n s
  | .pdup g a => Sys2Proof.Machine.execPdup g a s
  | .pand g a b => Sys2Proof.Machine.execPand g a b s
  | .por g a b => Sys2Proof.Machine.execPor g a b s
  | .pxor g a b => Sys2Proof.Machine.execPxor g a b s
  | .pnot g a => Sys2Proof.Machine.execPnot g a s
  | .pany g a => Sys2Proof.Machine.execPany g a s
  | .pall g a => Sys2Proof.Machine.execPall g a s
  | .pcnt g d a => Sys2Proof.Machine.execPcnt g d a s
  | .pget g d => Sys2Proof.Machine.execPget g d s
  | .pset g a => Sys2Proof.Machine.execPset g a s
  | .pfirst g d a => Sys2Proof.Machine.execPfirst g d a s
  | .pswap g a b => Sys2Proof.Machine.execPswap g a b s
  | .add g d a b => Sys2Proof.Machine.execAdd g d a b s
  | .sub g d a b => Sys2Proof.Machine.execSub g d a b s
  | .mul g d a b => Sys2Proof.Machine.execMul g d a b s
  | .mulh g d a b => Sys2Proof.Machine.execMulh g d a b s
  | .mulhu g d a b => Sys2Proof.Machine.execMulhu g d a b s
  | .and g d a b => Sys2Proof.Machine.execAnd g d a b s
  | .or g d a b => Sys2Proof.Machine.execOr g d a b s
  | .xor g d a b => Sys2Proof.Machine.execXor g d a b s
  | .shl g d a b => Sys2Proof.Machine.execShl g d a b s
  | .shr g d a b => Sys2Proof.Machine.execShr g d a b s
  | .sar g d a b => Sys2Proof.Machine.execSar g d a b s
  | .rot g d a b => Sys2Proof.Machine.execRot g d a b s
  | .min g d a b => Sys2Proof.Machine.execMin g d a b s
  | .max g d a b => Sys2Proof.Machine.execMax g d a b s
  | .minu g d a b => Sys2Proof.Machine.execMinu g d a b s
  | .maxu g d a b => Sys2Proof.Machine.execMaxu g d a b s
  | .addi g d a im => Sys2Proof.Machine.execAddi g d a im s
  | .andi g d a im => Sys2Proof.Machine.execAndi g d a im s
  | .ori g d a im => Sys2Proof.Machine.execOri g d a im s
  | .xori g d a im => Sys2Proof.Machine.execXori g d a im s
  | .shi g d a o c => Sys2Proof.Machine.execShi g d a o c s
  | .movi g d im => Sys2Proof.Machine.execMovi g d im s
  | .movhi g d im => Sys2Proof.Machine.execMovhi g d im s
  | .mad g d a b => Sys2Proof.Machine.execMad g d a b s
  | .madh g d a b => Sys2Proof.Machine.execMadh g d a b s
  | .abs g d a => Sys2Proof.Machine.execAbs g d a s
  | .neg g d a => Sys2Proof.Machine.execNeg g d a s
  | .clz g d a => Sys2Proof.Machine.execClz g d a s
  | .popc g d a => Sys2Proof.Machine.execPopc g d a s
  | .brev g d a => Sys2Proof.Machine.execBrev g d a s
  | .bfe g d a b => Sys2Proof.Machine.execBfe g d a b s
  | .bfi g d a b => Sys2Proof.Machine.execBfi g d a b s
  | .sel g d a b => Sys2Proof.Machine.execSel g d a b s
  | .mov g d a => Sys2Proof.Machine.execMov g d a s
  | .addc g d a b => Sys2Proof.Machine.execAddc g d a b s
  | .subb g d a b => Sys2Proof.Machine.execSubb g d a b s
  | .divu g d a b => Sys2Proof.Machine.execDivu g d a b s
  | .divs g d a b => Sys2Proof.Machine.execDivs g d a b s
  | .rem g d a b => Sys2Proof.Machine.execRem g d a b s
  | .fadd g d a b => Sys2Proof.Machine.execFadd g d a b s
  | .fsub g d a b => Sys2Proof.Machine.execFsub g d a b s
  | .fmul g d a b => Sys2Proof.Machine.execFmul g d a b s
  | .ffma g d a b => Sys2Proof.Machine.execFfma g d a b s
  | .fmin g d a b => Sys2Proof.Machine.execFmin g d a b s
  | .fmax g d a b => Sys2Proof.Machine.execFmax g d a b s
  | .fabs g d a => Sys2Proof.Machine.execFabs g d a s
  | .fneg g d a => Sys2Proof.Machine.execFneg g d a s
  | .frcp g d a => Sys2Proof.Machine.execFrcp g d a s
  | .fsqrt g d a => Sys2Proof.Machine.execFsqrt g d a s
  | .frsq g d a => Sys2Proof.Machine.execFrsq g d a s
  | .fexp2 g d a => Sys2Proof.Machine.execFexp2 g d a s
  | .flog2 g d a => Sys2Proof.Machine.execFlog2 g d a s
  | .ftanh g d a => Sys2Proof.Machine.execFtanh g d a s
  | .fdiv g d a b => Sys2Proof.Machine.execFdiv g d a b s
  | .fcls g d a => Sys2Proof.Machine.execFcls g d a s
  | .haddBf16 g d a b => Sys2Proof.Machine.execHaddBf16 g d a b s
  | .hsubBf16 g d a b => Sys2Proof.Machine.execHsubBf16 g d a b s
  | .hmulBf16 g d a b => Sys2Proof.Machine.execHmulBf16 g d a b s
  | .hfmaBf16 g d a b => Sys2Proof.Machine.execHfmaBf16 g d a b s
  | .hminBf16 g d a b => Sys2Proof.Machine.execHminBf16 g d a b s
  | .hmaxBf16 g d a b => Sys2Proof.Machine.execHmaxBf16 g d a b s
  | .hdot2Bf16 g d a b => Sys2Proof.Machine.execHdot2Bf16 g d a b s
  | .haddFp16 g d a b => Sys2Proof.Machine.execHaddFp16 g d a b s
  | .hsubFp16 g d a b => Sys2Proof.Machine.execHsubFp16 g d a b s
  | .hmulFp16 g d a b => Sys2Proof.Machine.execHmulFp16 g d a b s
  | .hfmaFp16 g d a b => Sys2Proof.Machine.execHfmaFp16 g d a b s
  | .hminFp16 g d a b => Sys2Proof.Machine.execHminFp16 g d a b s
  | .hmaxFp16 g d a b => Sys2Proof.Machine.execHmaxFp16 g d a b s
  | .hdot2Fp16 g d a b => Sys2Proof.Machine.execHdot2Fp16 g d a b s
  | .i2f g d a b => Sys2Proof.Machine.execI2f g d a b s
  | .u2f g d a b => Sys2Proof.Machine.execU2f g d a b s
  | .f2i g d a b => Sys2Proof.Machine.execF2i g d a b s
  | .f2iz g d a b => Sys2Proof.Machine.execF2iz g d a b s
  | .f2u g d a b => Sys2Proof.Machine.execF2u g d a b s
  | .f2bf g d a => Sys2Proof.Machine.execF2bf g d a s
  | .bf2f g d a => Sys2Proof.Machine.execBf2f g d a s
  | .f2h g d a => Sys2Proof.Machine.execF2h g d a s
  | .h2f g d a => Sys2Proof.Machine.execH2f g d a s
  | .f2n g d a b => Sys2Proof.Machine.execF2n g d a b s
  | .n2f g d a b => Sys2Proof.Machine.execN2f g d a b s
  | .mxscale g d a => Sys2Proof.Machine.execMxscale g d a s
  | .mxq g d a b => Sys2Proof.Machine.execMxq g d a b s
  | .mxdq g d a b => Sys2Proof.Machine.execMxdq g d a b s
  | .mxpack g d a b => Sys2Proof.Machine.execMxpack g d a b s
  | .mxunp g d a b => Sys2Proof.Machine.execMxunp g d a b s
  | .shfl g d a b => Sys2Proof.Machine.execShfl g d a b s
  | .shfup g d a b => Sys2Proof.Machine.execShfup g d a b s
  | .shfdn g d a b => Sys2Proof.Machine.execShfdn g d a b s
  | .shfxor g d a b => Sys2Proof.Machine.execShfxor g d a b s
  | .bcast g d a b => Sys2Proof.Machine.execBcast g d a b s
  | .redlog g d a b => Sys2Proof.Machine.execRedlog g d a b s
  | .scan g d a b => Sys2Proof.Machine.execScan g d a b s
  | .argmax g d a => Sys2Proof.Machine.execArgmax g d a s
  | .kth g d a b => Sys2Proof.Machine.execKth g d a b s
  | .ballot g d a => Sys2Proof.Machine.execBallot g d a s
  | .permb g d a b => Sys2Proof.Machine.execPermb g d a b s
  | .vtos g d a b => Sys2Proof.Machine.execVtos g d a b s
  | .stov g d a => Sys2Proof.Machine.execStov g d a s
  | .cbld g a => Sys2Proof.Machine.execCbld g a s
  | .cbdec g d a => Sys2Proof.Machine.execCbdec g d a s
  | .cbenc g d a => Sys2Proof.Machine.execCbenc g d a s
  | .cbrd g d a => Sys2Proof.Machine.execCbrd g d a s
  | .lbind g n => Sys2Proof.Machine.execLbind g n s
  | .lunbind g => Sys2Proof.Machine.execLunbind g s
  | .ladd g d a b => Sys2Proof.Machine.execLadd g d a b s
  | .lsub g d a b => Sys2Proof.Machine.execLsub g d a b s
  | .lshl g d a b => Sys2Proof.Machine.execLshl g d a b s
  | .lshr g d a b => Sys2Proof.Machine.execLshr g d a b s
  | .lsar g d a b => Sys2Proof.Machine.execLsar g d a b s
  | .lcmp g c a b => Sys2Proof.Machine.execLcmp g c a b s
  | .lmac g d a b => Sys2Proof.Machine.execLmac g d a b s
  | .lcarry g d => Sys2Proof.Machine.execLcarry g d s
  | .lneg g d a => Sys2Proof.Machine.execLneg g d a s
  | .sadd g d a b => Sys2Proof.Machine.execSadd g d a b s
  | .ssub g d a b => Sys2Proof.Machine.execSsub g d a b s
  | .smul g d a b => Sys2Proof.Machine.execSmul g d a b s
  | .smulh g d a b => Sys2Proof.Machine.execSmulh g d a b s
  | .smulhu g d a b => Sys2Proof.Machine.execSmulhu g d a b s
  | .sand g d a b => Sys2Proof.Machine.execSand g d a b s
  | .sor g d a b => Sys2Proof.Machine.execSor g d a b s
  | .sxor g d a b => Sys2Proof.Machine.execSxor g d a b s
  | .sshl g d a b => Sys2Proof.Machine.execSshl g d a b s
  | .sshr g d a b => Sys2Proof.Machine.execSshr g d a b s
  | .ssar g d a b => Sys2Proof.Machine.execSsar g d a b s
  | .srot g d a b => Sys2Proof.Machine.execSrot g d a b s
  | .smin g d a b => Sys2Proof.Machine.execSmin g d a b s
  | .smax g d a b => Sys2Proof.Machine.execSmax g d a b s
  | .sminu g d a b => Sys2Proof.Machine.execSminu g d a b s
  | .smaxu g d a b => Sys2Proof.Machine.execSmaxu g d a b s
  | .saddi g d a im => Sys2Proof.Machine.execSaddi g d a im s
  | .smovi g d im => Sys2Proof.Machine.execSmovi g d im s
  | .smov g d a => Sys2Proof.Machine.execSmov g d a s
  | .hget g d a => Sys2Proof.Machine.execHget g d a s
  | .hput g d a => Sys2Proof.Machine.execHput g d a s
  | .hnull g d => Sys2Proof.Machine.execHnull g d s
  | .scmp g a b c => Sys2Proof.Machine.execScmp g a b c s
  | .ld g d a sb w o => Sys2Proof.Machine.execLd g d a sb w o s
  | .st g d a sb w o => Sys2Proof.Machine.execSt g d a sb w o s
  | .atom g d a sb w => Sys2Proof.Machine.execAtom g d a sb w s
  | .ldt g d a sb w o => Sys2Proof.Machine.execLdt g d a sb w o s
  | .ldtb g d a sb o => Sys2Proof.Machine.execLdtb g d a sb o s
  | .att g d a sb w => Sys2Proof.Machine.execAtt g d a sb w s
  | .rdm g d a b => Sys2Proof.Machine.execRdm g d a b s
  | .rdmb g d a => Sys2Proof.Machine.execRdmb g d a s
  | .trel g a => Sys2Proof.Machine.execTrel g a s
  | .trelb g a => Sys2Proof.Machine.execTrelb g a s
  | .ttest g a => Sys2Proof.Machine.execTtest g a s
  | .ttestb g a => Sys2Proof.Machine.execTtestb g a s
  | .stp g d a sb w => Sys2Proof.Machine.execStp g d a sb w s
  | .atp g d a sb w => Sys2Proof.Machine.execAtp g d a sb w s
  | .msoCas2 g d a => Sys2Proof.Machine.execMsoCas2 g d a s
  | .msoCas4 g d a => Sys2Proof.Machine.execMsoCas4 g d a s
  | .msoEnq g d a => Sys2Proof.Machine.execMsoEnq g d a s
  | .msoChase g d a => Sys2Proof.Machine.execMsoChase g d a s
  | .msoRowput g a => Sys2Proof.Machine.execMsoRowput g a s
  | .egath g d a sb => Sys2Proof.Machine.execEgath g d a sb s
  | .fence g => Sys2Proof.Machine.execFence g s
  | .watch g d a o b => Sys2Proof.Machine.execWatch g d a o b s
  | .cpy g d a => Sys2Proof.Machine.execCpy g d a s
  | .cpys g d a => Sys2Proof.Machine.execCpys g d a s
  | .cpyg g d a => Sys2Proof.Machine.execCpyg g d a s
  | .cpyr g d a => Sys2Proof.Machine.execCpyr g d a s
  | .wait g d a => Sys2Proof.Machine.execWait g d a s
  | .test g a => Sys2Proof.Machine.execTest g a s
  | .cancel g a => Sys2Proof.Machine.execCancel g a s
  | .spopen g d a => Sys2Proof.Machine.execSpopen g d a s
  | .stx g d a b => Sys2Proof.Machine.execStx g d a b s
  | .spacc g d a b => Sys2Proof.Machine.execSpacc g d a b s
  | .spdrop g d a => Sys2Proof.Machine.execSpdrop g d a s
  | .spbind g a => Sys2Proof.Machine.execSpbind g a s
  | .rngu g d a => Sys2Proof.Machine.execRngu g d a s
  | .rngkey g a => Sys2Proof.Machine.execRngkey g a s
  | .rngstrm g a => Sys2Proof.Machine.execRngstrm g a s
  | .unif g d a => Sys2Proof.Machine.execUnif g d a s
  | .gumb g d a => Sys2Proof.Machine.execGumb g d a s
  | .sld g d a sb w o => Sys2Proof.Machine.execSld g d a sb w o s
  | .sst g d a sb w o => Sys2Proof.Machine.execSst g d a sb w o s
  | .mput g a => Sys2Proof.Machine.execMput g a s
  | .mget g d a => Sys2Proof.Machine.execMget g d a s
  | .imm p => Sys2Proof.Machine.execImm p s
  | .live b m => Sys2Proof.Machine.execLive b m s
  | .mod sb o r t f => Sys2Proof.Machine.execMod sb o r t f s
  | .last c b a => Sys2Proof.Machine.execLast c b a s
  | .runHeader l c w a b => Sys2Proof.Machine.execRunHeader l c w a b s
  | .mma c a b z k t u => Sys2Proof.Machine.execMma c a b z k t u s
  | .mzero c => Sys2Proof.Machine.execMzero c s
  | .mlda c p => Sys2Proof.Machine.execMlda c p s
  | .msta c p sb => Sys2Proof.Machine.execMsta c p sb s
  | .msig b n => Sys2Proof.Machine.execMsig b n s
  | .msync b n => Sys2Proof.Machine.execMsync b n s
  | .mset m v => Sys2Proof.Machine.execMset m v s
  | .msetAdd m v => Sys2Proof.Machine.execMsetAdd m v s
  | .msetSet m v => Sys2Proof.Machine.execMsetSet m v s
  | .msetCb v => Sys2Proof.Machine.execMsetCb v s
  | .mloop n => Sys2Proof.Machine.execMloop n s
  | .mnext => Sys2Proof.Machine.execMnext s
  | .mend => Sys2Proof.Machine.execMend s
  | .runBegin pid bid => Sys2Proof.Machine.execRunBegin pid bid s
  | .runCommit pid bid => Sys2Proof.Machine.execRunCommit pid bid s
  | .regroupingPass core => Sys2Proof.Machine.execRegroupingPass core s
  | .activeSetFill core => Sys2Proof.Machine.execActiveSetFill core s
  | .priorityAging pid => Sys2Proof.Machine.execPriorityAging pid s
  | .starvationMark pid => Sys2Proof.Machine.execStarvationMark pid s
  | .stallBlock pid => Sys2Proof.Machine.execStallBlock pid s
  | .yieldExpiry pid bid => Sys2Proof.Machine.execYieldExpiry pid bid s
  | .longOpComplete pid op => Sys2Proof.Machine.execLongOpComplete pid op s
  | .departRecord pid => Sys2Proof.Machine.execDepartRecord pid s
  | .outboxHeadSend msg => Sys2Proof.Machine.execOutboxHeadSend msg s
  | .arrivalAccept msg => Sys2Proof.Machine.execArrivalAccept msg s
  | .arrivalAdmit core => Sys2Proof.Machine.execArrivalAdmit core s
  | .stewardEvaluation stack => Sys2Proof.Machine.execStewardEvaluation stack s
  | .stewardResume stack => Sys2Proof.Machine.execStewardResume stack s
  | .lineageCountMsg msg => Sys2Proof.Machine.execLineageCountMsg msg s
  | .rejoinExpiry core bar => Sys2Proof.Machine.execRejoinExpiry core bar s
  | .parkWrite pid => Sys2Proof.Machine.execParkWrite pid s
  | .teamSave team => Sys2Proof.Machine.execTeamSave team s
  | .postedOpApply msg => Sys2Proof.Machine.execPostedOpApply msg s
  | .watchTimeout pid bid => Sys2Proof.Machine.execWatchTimeout pid bid s
  | .ackReceive msg => Sys2Proof.Machine.execAckReceive msg s
  | .ticketService msg => Sys2Proof.Machine.execTicketService msg s
  | .ticketFetchComplete slice entry data => Sys2Proof.Machine.execTicketFetchComplete slice entry data s
  | .ticketValueReturn msg => Sys2Proof.Machine.execTicketValueReturn msg s
  | .claimAtHome msg => Sys2Proof.Machine.execClaimAtHome msg s
  | .claimAnswer msg => Sys2Proof.Machine.execClaimAnswer msg s
  | .claimConfirm msg => Sys2Proof.Machine.execClaimConfirm msg s
  | .claimCancel msg => Sys2Proof.Machine.execClaimCancel msg s
  | .trelAtHome msg => Sys2Proof.Machine.execTrelAtHome msg s
  | .ticketDeadline slice entry => Sys2Proof.Machine.execTicketDeadline slice entry s
  | .msoApply msg => Sys2Proof.Machine.execMsoApply msg s
  | .pageIn asid va frame => Sys2Proof.Machine.execPageIn asid va frame s
  | .referenceSweep stack => Sys2Proof.Machine.execReferenceSweep stack s
  | .hostMemRead port tag hpa => Sys2Proof.Machine.execHostMemRead port tag hpa s
  | .hostMemWrite port tag hpa data => Sys2Proof.Machine.execHostMemWrite port tag hpa data s
  | .hostWindowResponse msg fresh => Sys2Proof.Machine.execHostWindowResponse msg fresh s
  | .engineStart eng => Sys2Proof.Machine.execEngineStart eng s
  | .engineComplete eng => Sys2Proof.Machine.execEngineComplete eng s
  | .cancelArrive msg written => Sys2Proof.Machine.execCancelArrive msg written s
  | .barrierArrival msg => Sys2Proof.Machine.execBarrierArrival msg s
  | .barwExpiry bar => Sys2Proof.Machine.execBarwExpiry bar s
  | .launchValidate msg => Sys2Proof.Machine.execLaunchValidate msg s
  | .teamPlace => Sys2Proof.Machine.execTeamPlace s
  | .teamRetire team => Sys2Proof.Machine.execTeamRetire team s
  | .gridRetire grid => Sys2Proof.Machine.execGridRetire grid s
  | .frameClaim msg => Sys2Proof.Machine.execFrameClaim msg s
  | .stxVersionApply msg => Sys2Proof.Machine.execStxVersionApply msg s
  | .framePrepare frame slice => Sys2Proof.Machine.execFramePrepare frame slice s
  | .framePrepareAnswer frame slice => Sys2Proof.Machine.execFramePrepareAnswer frame slice s
  | .frameStepApply frame slice => Sys2Proof.Machine.execFrameStepApply frame slice s
  | .uncorrectableDetect site => Sys2Proof.Machine.execUncorrectableDetect site s
  | .poisonConsume idx => Sys2Proof.Machine.execPoisonConsume idx s
  | .shadowLatchEvent unit => Sys2Proof.Machine.execShadowLatchEvent unit s
  | .derateWindowEnd unit => Sys2Proof.Machine.execDerateWindowEnd unit s
  | .powerLimitEnforce watts => Sys2Proof.Machine.execPowerLimitEnforce watts s
  | .thermalHot stack celsius team => Sys2Proof.Machine.execThermalHot stack celsius team s
  | .hdmWindowWrite port win dword val => Sys2Proof.Machine.execHdmWindowWrite port win dword val s
  | .seedSubmit slot val => Sys2Proof.Machine.execSeedSubmit slot val s
  | .seedAccept slot => Sys2Proof.Machine.execSeedAccept slot s
  | .invalPage val => Sys2Proof.Machine.execInvalPage val s
  | .invalAsid val => Sys2Proof.Machine.execInvalAsid val s
  | .invalAll val => Sys2Proof.Machine.execInvalAll val s
  | .invalComplete => Sys2Proof.Machine.execInvalComplete s
  | .funcApply val => Sys2Proof.Machine.execFuncApply val s
  | .evqHeadWrite val => Sys2Proof.Machine.execEvqHeadWrite val s
  | .evResume val => Sys2Proof.Machine.execEvResume val s
  | .evDeliver val => Sys2Proof.Machine.execEvDeliver val s
  | .evEnlarge val => Sys2Proof.Machine.execEvEnlarge val s
  | .evParkOldest val => Sys2Proof.Machine.execEvParkOldest val s
  | .evNone val => Sys2Proof.Machine.execEvNone val s
  | .evReclaim val => Sys2Proof.Machine.execEvReclaim val s
  | .evPlace val => Sys2Proof.Machine.execEvPlace val s
  | .evDefer val => Sys2Proof.Machine.execEvDefer val s
  | .evBadRespClear val => Sys2Proof.Machine.execEvBadRespClear val s
  | .preemptPark val => Sys2Proof.Machine.execPreemptPark val s
  | .preemptResume val => Sys2Proof.Machine.execPreemptResume val s
  | .preemptEnd val => Sys2Proof.Machine.execPreemptEnd val s
  | .dbgContinue => Sys2Proof.Machine.execDbgContinue s
  | .dbgDeliverDebug => Sys2Proof.Machine.execDbgDeliverDebug s
  | .dbgStop val => Sys2Proof.Machine.execDbgStop val s
  | .dbgStopDrained => Sys2Proof.Machine.execDbgStopDrained s
  | .dbgStart val => Sys2Proof.Machine.execDbgStart val s
  | .dbgMemRead val => Sys2Proof.Machine.execDbgMemRead val s
  | .dbgMemWrite val => Sys2Proof.Machine.execDbgMemWrite val s
  | .registerWrite off val => Sys2Proof.Machine.execRegisterWrite off val s
  | .powerOn inp => Sys2Proof.Machine.execPowerOn inp s
  | .bootRetry inp => Sys2Proof.Machine.execBootRetry inp s
  | .bootNextAlternate inp => Sys2Proof.Machine.execBootNextAlternate inp s
  | .bootSkip inp => Sys2Proof.Machine.execBootSkip inp s
  | .bootEnterRecovery => Sys2Proof.Machine.execBootEnterRecovery s
  | .getVersion => Sys2Proof.Machine.execGetVersion s
  | .getCapabilities => Sys2Proof.Machine.execGetCapabilities s
  | .negotiateAlgorithms => Sys2Proof.Machine.execNegotiateAlgorithms s
  | .getDigests => Sys2Proof.Machine.execGetDigests s
  | .getCertificate slot off len => Sys2Proof.Machine.execGetCertificate slot off len s
  | .challenge slot => Sys2Proof.Machine.execChallenge slot s
  | .getMeasurements idx => Sys2Proof.Machine.execGetMeasurements idx s
  | .spdmUnsupported code => Sys2Proof.Machine.execSpdmUnsupported code s
  | .getSnapshot => Sys2Proof.Machine.execGetSnapshot s
  | .readSnapshot id off len => Sys2Proof.Machine.execReadSnapshot id off len s
  | .clearBootRecord => Sys2Proof.Machine.execClearBootRecord s
  | .setPowerLimit watts => Sys2Proof.Machine.execSetPowerLimit watts s
  | .setSliceRetire stack mask => Sys2Proof.Machine.execSetSliceRetire stack mask s
  | .sensorRead id => Sys2Proof.Machine.execSensorRead id s
  | .telemetrySave => Sys2Proof.Machine.execTelemetrySave s
  | .orderlyPowerDown => Sys2Proof.Machine.execOrderlyPowerDown s
  | .linkFrameReceive port fr => Sys2Proof.Machine.execLinkFrameReceive port fr s
  | .linkFrameSend port => Sys2Proof.Machine.execLinkFrameSend port s
  | .packetForward port => Sys2Proof.Machine.execPacketForward port s
  | .laneLoss port lane => Sys2Proof.Machine.execLaneLoss port lane s
  | .trainingExchange port mine remote rspeed => Sys2Proof.Machine.execTrainingExchange port mine remote rspeed s
  | .linkReportReceive port fseq => Sys2Proof.Machine.execLinkReportReceive port fseq s
  | .routeReevaluate dst => Sys2Proof.Machine.execRouteReevaluate dst s
  | .frameClaimConfirm msg => Sys2Proof.Machine.execFrameClaimConfirm msg s
  | .frameClaimCancel msg => Sys2Proof.Machine.execFrameClaimCancel msg s
  | .matrixWordComplete team => Sys2Proof.Machine.execMatrixWordComplete team s
  | .powerLoss => Sys2Proof.Machine.execPowerLoss s
  | .cxlCacheRequest port => Sys2Proof.Machine.execCxlCacheRequest port s

end Sys2Proof.Machine
end

