-- ==== Sys2Proof/Machine/Sched.lean ====
section
/-!
DEFINITION. What a core or a sequencer does when the schedule names it: the bundle it picks (R36, R37), the reading of
its header or the next word of its run, and the events that come about by themselves when the schedule names nothing
(log 2).
-/

namespace Sys2Proof.Machine

open Host

/-! ## Walks that translation buffers hold (R315, R318) -/

/-- A core's translation buffer keeps the page of an address that has been translated (R315). -/
def State.noteWalk (t s : State) (core : Nat) (asid : BitVec 16) (va : Nat) : State :=
  match s.xlate (some core) asid va with
  | .ok l => t.noteLeaf core l
  | _ => t

/-- The addresses that a word translates on its core for its active lanes (R227; log 119). -/
def Ctx.walks (c : Ctx) (i : Instr) : List Nat :=
  match i with
  | .ld _ _ a b _ _ => (c.addrs b.toNat a.toNat).map (fun e => e.2)
  | .st _ _ a b _ _ => (c.addrs b.toNat a.toNat).map (fun e => e.2)
  | .atom _ _ a b _ => (c.addrs b.toNat a.toNat).map (fun e => e.2)
  | .ldt _ _ a b _ _ => (c.addrs b.toNat a.toNat).map (fun e => e.2)
  | .att _ _ a b _ => (c.addrs b.toNat a.toNat).map (fun e => e.2)
  | .ldtb _ _ _ b _ => [c.blockAddr b.toNat]
  | .egath _ _ _ b => [c.blockAddr b.toNat]
  | .sld _ _ a b _ _ => (c.scalarAddrs b.toNat a.toNat).map (fun e => e.2)
  | .sst _ _ a b _ _ => (c.scalarAddrs b.toNat a.toNat).map (fun e => e.2)
  | .watch _ _ a _ _ => (c.watchAddrs a.toNat).map (fun e => e.2)
  | .cbld _ a => [(c.sc a.toNat).toNat]
  | .stp _ _ a b _ => (c.addrs b.toNat a.toNat).map (fun e => e.2)
  | .atp _ _ a b _ => (c.addrs b.toNat a.toNat).map (fun e => e.2)
  | .stx _ _ a _ => (c.pairAddrs a.toNat).map (fun e => e.2)
  | .msoCas2 _ _ a => (c.msoAddrs a.toNat).map (fun e => e.2)
  | .msoCas4 _ _ a => (c.msoAddrs a.toNat).map (fun e => e.2)
  | .msoEnq _ _ a => (c.msoAddrs a.toNat).map (fun e => e.2)
  | .msoChase _ _ a => (c.links a.toNat).map (fun e => e.2)
  | .msoRowput _ a => (c.msoAddrs a.toNat).map (fun e => e.2)
  | .launch _ a => [(c.sc a.toNat).toNat]
  | .gridwait _ _ a => [(c.sc a.toNat).toNat]
  | .gridq _ _ a => [(c.sc a.toNat).toNat]
  | _ => []

/-- A bundle has executed a word: what it translated, for an engine too, stands in the core's translation buffer (R315). -/
def State.noteWalks (t s : State) (i : Instr) : State :=
  match s.ctx? with
  | none => t
  | some c =>
    let run := ((t.party? c.pid).bind (fun p => p.bundle? c.b.id)).bind (fun b => b.run)
    if run.map (fun r => r.idx) = some (c.r.idx + 1) then
      let c := { c with act := c.guarded (c.word.govr.getD (field c.word.w 22 4)) }
      let issued := t.engines.flatMap (fun e => e.2.ops.filter (fun o => decide (s.keys ≤ o.op)))
      let t := (issued.flatMap (fun o => o.leaves)).foldl (fun t l => t.noteLeaf c.core l) t
      ((c.walks i).map (fun va => va / 65536 * 65536)).eraseDups.foldl (fun t va => t.noteWalk s c.core c.p.asid va) t
    else t

/-! ## Bundles -/

/-- A matrix word, which a party stream does not hold (R134). -/
def matrixWord (i : Instr) : Bool :=
  match encode i with
  | none => false
  | some w => decide (0x38 ≤ majorOf w) && decide (majorOf w ≤ 0x3D)

/-- An event: an occurrence without an encoding. -/
def isEvent (i : Instr) : Bool := (encode i).isNone

/-- The instruction that a body word of the party stream holds, if it is one (R134, R135, R149). -/
def FWord.instr (f : FWord) : Option Instr :=
  if f.bad then none
  else
    match decodeWord f.w with
    | none => none
    | some i => if matrixWord i then none else some i

/-- `tret` with a D value above 1 in a party without a trap record traps PRIV before ILLEGAL (R174). -/
def Ctx.privTret (c : Ctx) : Bool :=
  let w := c.word.w
  decide (majorOf w = 0) && decide (field w 0 16 = 3) && decide (field w 16 6 ≥ 2) && c.p.trap.isNone && !c.word.bad &&
  decide (c.word.govr.getD (field w 22 4) ≠ 15) && decide (c.r.skip ≠ some c.here)

/-- Execute the word of its run at which a bundle stands. -/
def issueWord (s : State) : Outcome State Fault Refusal :=
  match s.ctx? with
  | none => .fault .noActor
  | some c =>
    if !c.canIssue then .next s
    else
      match c.word.instr with
      | some i =>
        (match exec i s with
          | .next t => .next (t.noteWalks s i)
          | r => r)
      | none =>
        let act := c.guarded (c.word.govr.getD (field c.word.w 22 4))
        if c.privTret && !act.isEmpty then .next (s.raise c.pid c.b.id (allTrap act cPriv 0) c.here false)
        else .next s.badWord

/-- Read the run at whose header a bundle waits (R144, R145). -/
def issueHeader (s : State) (pid bid : Nat) (p : Party) (b : Bundle) : Outcome State Fault Refusal :=
  if b.asked ≠ [] then .next s
  else
    match s.fetchFor b p.core p.asid b.pc.toNat with
    | .bad => .next (s.noHeader pid bid true)
    | .far => .next (s.askFetch pid p b b.pc.toNat)
    | .page => .next (s.setParty pid (p.setBundle { b with phase := .held (.pageIn p.asid (b.pc.toNat / 65536 * 65536)) }))
    | .word w =>
      match decodeWord w with
      | some (.runHeader l c wt a bb) =>
        (match exec (.runHeader l c wt a bb) s with
          | .next t => .next (t.noteWalk s p.core p.asid b.pc.toNat)
          | r => r)
      | _ => .next (s.noHeader pid bid false)

/-- What a bundle does next. -/
def issueBundle (s0 : State) (pid bid : Nat) : Outcome State Fault Refusal :=
  let s := { s0 with actor := .bundle pid bid }
  match s.party? pid with
  | none => .next s
  | some p =>
    match p.bundle? bid with
    | none => .next s
    | some b =>
      match b.phase with
      | .waiting => issueHeader s pid bid p b
      | .fetched => exec (.runBegin pid bid) s
      | .running =>
        -- an operation that has found no room in the outbox stalls its bundle (R56)
        if s.noRoom pid b.mask then
          (if b.stalled then .next s
           else .next (s.setParty pid (p.setBundle { b with stalled := true, stallAt := s.clk p.core })))
        else
          match s.raiseClaims pid bid with
          | some t => .next t
          | none => issueWord s
      | .executed => exec (.runCommit pid bid) s
      | .departing _ => .next s
      | .held _ => .next s

/-! ## The choice of R36 and R37 -/

/-- The bundles of a core that may go on, in the order of R36: starving parties first, then effective priority, then
the bundle whose run has been eligible longest. -/
def State.candidates (s : State) (core : Nat) : List (Nat × Nat) :=
  let ps := (s.residents core).filter (fun e => e.2.isActive)
  let bs := ps.flatMap (fun e => (e.2.bundles.filter (fun b => b.asked.isEmpty && !b.isHeld)).map (fun b =>
    (e.1, b.id, (e.2.aged (s.clk core)).rank, b.since)))
  let rec0 (n : Nat) : List (Nat × Nat) :=
    let l := bs.filter (fun x => decide (x.2.2.1 = n))
    (sortBy (fun x y => decide (x.2.2.2 ≤ y.2.2.2)) l).map (fun x => (x.1, x.2.1))
  rec0 4 ++ rec0 3 ++ rec0 2 ++ rec0 1 ++ rec0 0

/-- The first bundle of a list that can make progress goes on; the last one in any case. -/
def issueFirst (s : State) : List (Nat × Nat) → Outcome State Fault Refusal
  | [] => .next s
  | [c] => issueBundle s c.1 c.2
  | c :: l =>
    match issueBundle s c.1 c.2 with
    | .next t => if { t with actor := s.actor } = s then issueFirst s l else .next t
    | r => r

/-- A trap that a step of a core has delivered (R42): its lineage, the rank of its cause, and its party's lowest lane. -/
def State.delivered (s t : State) (core : Nat) : Option (Nat × Nat × Nat) :=
  t.lineages.findSome? (fun e =>
    match e.2.slot with
    | none => none
    | some r =>
      if (s.lineage e.1).slot.isSome then none
      else
        let ps := (s.residents core).filter (fun x => decide (x.2.lineageKey = e.1) && decide (x.2.mask &&& r.lanes ≠ 0))
        some (e.1, causeRank (r.cause.toNat % 256), lowLane ((ps.map (fun x => x.2.mask)).headD r.lanes)))

/-- One trap comes before another of its lineage raised in the same clk: the higher cause, then the lower lane (R42). -/
def trapBefore (a b : Nat × Nat × Nat) : Bool :=
  decide (a.1 = b.1) && (decide (a.2.1 < b.2.1) || (decide (a.2.1 = b.2.1) && decide (a.2.2 < b.2.2)))

/-- Cores, other than one, on which a party of a lineage is ACTIVE. -/
def State.rivalCores (s : State) (core key : Nat) : List Nat :=
  ((s.parties.filter (fun e => e.2.isActive && decide (e.2.lineageKey = key) && decide (e.2.core ≠ core))).map
    (fun e => e.2.core)).eraseDups

/-- The core whose next issue, in the same clk, raises a trap that comes before the one that `d` describes (R42; log 117). -/
def State.rival (s : State) (core : Nat) (d : Nat × Nat × Nat) : Option Nat :=
  (s.rivalCores core d.1).find? (fun c =>
    match issueFirst s (s.candidates c) with
    | .next u => (match s.delivered u c with
        | some e => trapBefore e d
        | none => false)
    | _ => false)

/-- One issue of a core (R36); a stopped core issues nothing that begins a run (R333). When it raises a trap, and the issue
of another core in the same clk raises one of the same lineage that comes before it, that one is delivered first (R42). -/
def issueCore (s : State) (core : Nat) : Outcome State Fault Refusal :=
  match issueFirst s (s.candidates core) with
  | .next t =>
    (match (s.delivered t core).bind (s.rival core) with
      | none => .next t
      | some c =>
        match issueFirst s (s.candidates c) with
        | .next u => issueFirst u (u.candidates core)
        | r => r)
  | r => r

/-! ## Traps that wait for their lineage's slot (R42, R324) -/

/-- A trap that waits for its lineage's slot: when it was raised, the rank of its cause and its lowest lane, and the bundle, or
the message by which another module asks. -/
structure SlotWait where
  since : Nat
  rank  : Nat
  low   : Nat
  key   : Nat
  pid   : Nat
  bid   : Nat
  msg   : Nat

/-- One waiting trap comes before another: the earlier, of those of one time the one of R42. -/
def SlotWait.before (x y : SlotWait) : Bool :=
  decide (x.since < y.since) || (decide (x.since = y.since) &&
    (decide (x.rank < y.rank) || (decide (x.rank = y.rank) && decide (x.low ≤ y.low))))

/-- A bundle's lineage has its slot free, or has granted it to the bundle (R42). -/
def State.slotOpen (s : State) (p : Party) (b : Bundle) : Bool :=
  if p.originDev = s.devId then (s.lineage p.lineageKey).slot.isNone else b.granted

/-- The waiting traps whose lineages have their slots free. -/
def State.slotWaits (s : State) : List SlotWait :=
  s.parties.flatMap (fun e => (e.2.bundles.filter (s.slotOpen e.2)).filterMap (fun b => match b.phase with
    | .held (.trapSlot t r) => some ⟨t, r, lowLane e.2.mask, e.2.lineageKey, e.1, b.id, 0⟩
    | .held (.owed t code _ _ _) => some ⟨t, causeRank code, lowLane e.2.mask, e.2.lineageKey, e.1, b.id, 0⟩
    | _ => none)) ++
  s.net.filterMap (fun m => match m.body with
    | .slotAsk key cause lanes _ _ _ =>
      if m.applied && decide (m.dst = .core s.devId m.dst.coreNo) && (s.lineage key).slot.isNone then
        some ⟨m.waited, causeRank (cause.toNat % 256), lowLane lanes, key, 0, 0, m.id⟩ else none
    | _ => none)

/-- A bundle that no longer waits for the slot is evaluated again when its party comes to issue; a slot that it has been granted
from another module is given back. -/
def State.reissue (s : State) (pid : Nat) (p : Party) (b : Bundle) : State :=
  let x : Bundle := { b with phase := if b.run.isSome then .running else .waiting, stalled := false, ans := Map.erase b.ans 74 }
  let s1 := s.setParty pid ((p.setBundle x).ready (s.clk p.core))
  if b.granted then s1.holdSlot p pid p.core (-1) else s1

/-- The slot goes to a waiting trap: a bundle's word is evaluated again at once, and traps (R42, R324); another module is told that
the slot is its own. -/
def State.takeSlot (s : State) (w : SlotWait) : State :=
  if w.msg ≠ 0 then
    match s.msg? w.msg with
    | none => s
    | some m =>
      match m.body with
      | .slotAsk key cause lanes addr pc who =>
        let r : TrapRec := { cause := cause, lanes := lanes, addr := addr, pc := pc, base := 0, resume := none, apart := [] }
        (s.setLineage key { s.lineage key with slot := some r, holders := 1 }).answerClaim m who 0 (some (leBytes 16 key)) 265 false
      | _ => s
  else
    match s.party? w.pid with
    | none => s
    | some p =>
      match p.bundle? w.bid with
      | none => s
      | some b =>
        match b.phase with
        | .held (.owed _ code addr pc lanes) =>
          if lanes &&& b.mask = 0 then s.reissue w.pid p b
          else s.raise w.pid b.id (allTrap (lanesOf (lanes &&& b.mask)) code addr) pc true
        | _ =>
          match p.place with
          | .slot c .blocked =>
            let x : Bundle := { b with phase := if b.run.isSome then .running else .waiting, stalled := false }
            (match issueBundle (s.setParty w.pid { p.setBundle x with place := .slot c .active }) w.pid w.bid with
              | .next t =>
                let left := (t.party? w.pid).bind (fun q => q.bundle? w.bid)
                if left.any (fun y => decide (y.mask = b.mask)) then s.reissue w.pid p b
                else
                  -- lanes that did not trap go on
                  (match t.party? w.pid with
                    | some q =>
                      if q.place = .slot c .active then
                        t.setParty w.pid (Party.ready { q with place := .slot c .blocked, blockedAt := p.blockedAt } (s.clk c))
                      else t
                    | none => t)
              | _ => s.reissue w.pid p b)
          | _ => s.reissue w.pid p b

/-- Free slots go to the traps that wait for them, one after another (R42, R324). -/
def giveSlots : Nat → State → State
  | 0, s => s
  | n + 1, s =>
    match (sortBy SlotWait.before s.slotWaits).head? with
    | none => s
    | some w => giveSlots n (s.takeSlot w)

/-- The traps that wait for slots which are free are delivered. -/
def State.giveSlots (s : State) : State := Machine.giveSlots s.slotWaits.length s

/-! ## The end of a stall (R23) -/

/-- A bundle that has stalled inside its run would go on now, were its BLOCKED party in the active set (R23, R25). -/
def State.wouldGo (s : State) (pid : Nat) (p : Party) (b : Bundle) : Bool :=
  b.stalled && (decide (b.phase = .running) || decide (b.phase = .executed)) &&
  match p.place with
  | .slot c .blocked =>
    let s1 := s.setParty pid { p with place := .slot c .active }
    (match issueBundle s1 pid b.id with
      | .next t => decide ({ t with actor := s1.actor } ≠ s1)
      | _ => false)
  | _ => false

/-- A BLOCKED party becomes READY when a condition on which a bundle of it has stalled is satisfied (R23). -/
def State.wake (s : State) : State :=
  { s with parties := s.parties.map (fun e =>
      if e.2.isBlocked && e.2.bundles.any (s.wouldGo e.1 e.2) then
        (e.1, Party.ready { e.2 with bundles := e.2.bundles.map (fun b =>
          if s.wouldGo e.1 e.2 b then { b with stalled := false } else b) } (s.clk e.2.core))
      else e) }

/-! ## The sequencer (R256) -/

/-- The last party of a team has ended: none stands here, and its lineages have no member elsewhere. -/
def State.teamOver (s : State) (key : Nat) : Bool :=
  (s.membersOf key).isEmpty && !s.lineages.any (fun e => decide (e.2.team = key + 1))

/-- What the fetch of a matrix word finds: a relaxed read under the launch's ASID (R256, R266). -/
def SeqCtx.fetch (c : SeqCtx) : FetchRes :=
  let va := c.q.pc.toNat
  if va % 4 ≠ 0 then .bad
  else
    match c.s.access (4 * c.t.cluster) c.g.asid va 4 true false with
    | .trap _ => .bad
    | .page => .page
    | .wait => .far
    | .none _ => .word 0
    | .ok _ x =>
      if x.isHost ∨ x.dev ≠ c.s.devId then
        match c.s.farBytes (.stream c.key) x 4 with
        | some b => .word (BitVec.ofNat 32 (leNat b.1))
        | none => .far
      else if c.s.locked x 4 false then .far
      else .word (BitVec.ofNat 32 (memNat c.s.mem x.pa 4))

/-- The sequencer waits for its word: one of another module, or of host memory, is asked for. -/
def SeqCtx.await (c : SeqCtx) : State :=
  match c.s.access (4 * c.t.cluster) c.g.asid c.q.pc.toNat 4 true false with
  | .ok _ x => if x.isHost ∨ x.dev ≠ c.s.devId then (c.s.farRead (.stream c.key) (4 * c.t.cluster) x 4).2 else c.s
  | _ => c.s

/-- The sequencer has its word: the walk is kept (R315), and a word that was asked for is no longer wanted once the sequencer has
gone on. -/
def SeqCtx.fetched (c : SeqCtx) (t : State) : State :=
  let t := t.noteWalk c.s (4 * c.t.cluster) c.g.asid c.q.pc.toNat
  match (Map.find t.teams c.key).bind (fun x => x.seqr) with
  | some q => if q.pc = c.q.pc then t else t.dropReads (.stream c.key)
  | none => t.dropReads (.stream c.key)

/-- The sequencer at its word: it goes on from a barrier, waits, ends with its team, or fetches and executes (R256,
R263, R266). -/
def sequenceAt (s : State) (c : SeqCtx) : Outcome State Fault Refusal :=
  if !c.runs then .next s
  else if s.teamOver c.key && (decide (c.q.step = 0) || decide (c.q.st = .waitQueue)) then .next c.endSeq
  else if c.q.st = .waitBar then .next c.afterSync
  else
    match c.fetch with
    | .bad => .next (s.matrixFault 3)
    | .far => .next c.await
    | .page => .next (c.put { c.q with page := some (c.q.pc.toNat / 65536 * 65536) })
    | .word w =>
      match decodeWord w with
      | none => .next (c.fetched (s.matrixFault 1))
      | some i =>
        if matrixWord i then
          match exec i s with
          | .next t => .next (c.fetched t)
          | r => r
        else .next (c.fetched (s.matrixFault 1))

/-- The next word of a team's sequencer. -/
def sequenceTeam (s0 : State) (team : Nat) : Outcome State Fault Refusal :=
  let s := { s0 with actor := .sequencer team }
  match s.seqCtx? with
  | none => .next s0
  | some c => sequenceAt s c

/-! ## Moves -/

/-- Parties that have become BLOCKED keep the time of it (R59). -/
def State.stampBlocked (s : State) : State :=
  { s with parties := s.parties.map (fun e => (e.1, { e.2 with
      blockedNs := if !e.2.isBlocked then (0, 0) else if e.2.blockedNs.1 = e.2.blockedAt then e.2.blockedNs
        else (e.2.blockedAt, s.ns) })) }

/-- Time passes, once the consumptions of the present clk have taken effect (R335). What the time base differs by from the one
it follows goes at no more than 1 ns per µs, and the time base never steps backward (R366). -/
def State.elapse (s : State) (n : Nat) : State :=
  let s := (s.drain s.consumes.length).stampBlocked
  let k := (s.fab.slewed + n) / 1000
  let d := max (-(k : Int)) (min k s.fab.slew)
  { s with ns := (s.ns + n + d).toNat, fab := { s.fab with slew := s.fab.slew - d, slewed := (s.fab.slewed + n) % 1000 } }

/-- Make a scheduled move. An instruction with an encoding is not an event: it runs where a bundle or a sequencer stands
at it. -/
def perform (s : State) : Move → Outcome State Fault Refusal
  | .event i => if isEvent i then exec i s else .next s
  | .issue c => issueCore s c
  | .sequence t => sequenceTeam s t
  | .pass n => .next (s.elapse n)
  | .peer r => .next { s with boot := { s.boot with peer := r } }
  | .foreign mctp code => .next (s.unnamed mctp code)
  | .update x => .next (s.update x)
  | .corrected pa => .next (s.corrected pa)

/-! ## What comes about when the schedule names nothing (log 2) -/

/-- The bytes that host memory holds where a message touches it: the host has changed nothing (log 18). -/
def State.hostBytes (s : State) (m : Msg) : List Byte :=
  match m.body.target with
  | some (l, n, _) => memBytes s.mem l.pa n
  | none => []

/-- A meaning with its operands. -/
abbrev Meaning := State → Outcome State Fault Refusal

/-- The event by which a message at its home goes on. -/
def State.msgMove (s : State) (m : Msg) : List Meaning :=
  if m.applied && !m.body.waits then [execAckReceive m.id]
  else
    match m.dst with
    | .port _ =>
      (match m.body with
        | .fetch f => if m.sent then [execTicketFetchComplete (f.op / 4096) (f.op % 4096) (s.hostBytes m)] else [execTicketService m.id]
        | .att f _ _ _ _ => if m.sent then [execTicketFetchComplete (f.op / 4096) (f.op % 4096) (s.hostBytes m)] else [execTicketService m.id]
        | _ => [execHostWindowResponse m.id (s.hostBytes m)])
    | .core dev _ =>
      if dev ≠ s.devId then [execOutboxHeadSend m.id]
      else
        match m.body with
        | .context _ => if m.sent then [execArrivalAccept m.id] else [execOutboxHeadSend m.id]
        | .slots _ => [execOutboxHeadSend m.id]
        | .fetch _ => [execTicketService m.id]
        | .att _ _ _ _ _ => [execTicketService m.id]
        | .mso _ _ _ _ => [execMsoApply m.id]
        | .claim _ _ _ _ _ => [execClaimAtHome m.id]
        | .test _ _ _ _ _ => [execClaimAtHome m.id]
        | .confirm _ _ => [execClaimConfirm m.id]
        | .cancel _ _ => [execClaimCancel m.id]
        | .trel _ _ => [execTrelAtHome m.id]
        | .arrival _ _ => [execBarrierArrival m.id]
        | .withdraw _ _ _ => [execBarrierArrival m.id]
        | .barq _ _ _ => [execBarrierArrival m.id]
        | .version _ _ _ _ _ => [execStxVersionApply m.id]
        | .lineage _ _ => [execLineageCountMsg m.id]
        | .lineageQ _ _ => [execLineageCountMsg m.id]
        | .launch _ _ _ _ _ _ _ _ => [execLaunchValidate m.id]
        | .engCancel _ => [execCancelArrive m.id 0]
        | .frameReq _ _ _ _ _ _ _ => [execFrameClaim m.id]
        | .frameConfirm _ _ _ _ => [execFrameClaimConfirm m.id]
        | .frameCancel _ _ => [execFrameClaimCancel m.id]
        | .ticketValue _ _ _ => [execTicketValueReturn m.id]
        | .claimAns _ _ _ _ _ => [execClaimAnswer m.id]
        | _ => [execPostedOpApply m.id]

/-- The events by which a party goes on. -/
def partyMoves (pid : Nat) (p : Party) : List Meaning :=
  p.pend.map (fun o => execLongOpComplete pid o.id) ++
  [execDepartRecord pid, execParkWrite pid, execStallBlock pid] ++
  p.bundles.flatMap (fun b => [execYieldExpiry pid b.id, execWatchTimeout pid b.id])

/-- Events of the part's own agents that may be due. -/
def State.agentMoves (s : State) : List Meaning :=
  s.seeds.map (fun e => execSeedAccept e.1) ++
  s.engines.flatMap (fun e => [execEngineStart e.1, execEngineComplete e.1]) ++
  s.frames.flatMap (fun e =>
    e.2.toAnswer.map (fun k => execFramePrepare e.1 k) ++ e.2.answered.map (fun k => execFramePrepareAnswer e.1 k) ++
    e.2.toStep.map (fun k => execFrameStepApply e.1 k)) ++
  s.teams.flatMap (fun e => [execMatrixWordComplete e.1, execTeamSave e.1, execTeamRetire e.1]) ++
  [execTeamPlace] ++ s.grids.map (fun e => execGridRetire e.2.id) ++
  (List.range s.consumes.length).map (fun i => execPoisonConsume i) ++
  s.tickets.map (fun e => execTicketDeadline (e.1 / 4096) (e.1 % 4096)) ++
  s.bars.flatMap (fun e => [execBarwExpiry (.named s.devId (e.1 / 512) (e.1 % 512)), execRejoinExpiry (e.1 / 512) (e.1 % 512)]) ++
  s.teams.flatMap (fun e => e.2.bars.map (fun b => execBarwExpiry (.team e.1 b.1))) ++
  (List.range 16).map (fun k => execStewardResume k) ++ [execDbgStopDrained, execInvalComplete]

/-- Cores on which some party stands or waits. -/
def State.busyCores (s : State) : List Nat := (s.parties.map (fun e => e.2.core)).foldl NatSet.add []

/-- What may be due, in the order in which it is tried: messages, parties, agents, the filling of slots and active sets,
then issue, from core `turn` on, and the sequencers. -/
def State.dueMoves (s : State) : List Meaning :=
  let cores := s.busyCores
  let turned := cores.filter (fun c => decide (s.turn ≤ c)) ++ cores.filter (fun c => decide (c < s.turn))
  s.net.flatMap s.msgMove ++ s.parties.flatMap (fun e => partyMoves e.1 e.2) ++ s.agentMoves ++
  cores.flatMap (fun c => [execRegroupingPass c, execArrivalAdmit c, execActiveSetFill c]) ++
  turned.map (fun c => fun s => issueCore { s with turn := c + 1 } c) ++ s.teams.map (fun e => fun s => sequenceTeam s e.1)

/-- Make the first move of a list that changes the state; none leaves it as it is. -/
def firstMove (s : State) : List Meaning → Outcome State Fault Refusal
  | [] => .next s
  | m :: l =>
    match m s with
    | .next t => if { t with actor := s.actor, turn := s.turn } = s then firstMove s l else .next t
    | r => r

/-- A step that the schedule does not name: 1 ns passes, and the first move that is due is made. -/
def freeStep (s : State) : Outcome State Fault Refusal :=
  let s1 := s.elapse 1
  firstMove s1 s1.dueMoves

end Sys2Proof.Machine
end

