-- ==== Sys2Proof/Machine/Step.lean ====
section
/-!
DEFINITION. One step of the machine, and the placing of one instruction where the next step takes it (log 3).
-/

namespace Sys2Proof.Machine

open Host

/-- An access waits at its word in the queue of a parked team (R39). -/
def State.stillQueued (s : State) (m : Nat × Nat × Nat) : Bool :=
  match (s.party? m.1).bind (fun p => p.bundle? m.2.1) with
  | some b => decide (b.phase = .running) && b.run.any (fun r => decide (r.start.toNat * 32 + r.idx = m.2.2))
  | none => false

/-- What no longer waits leaves the queues of parked teams (R39). -/
def State.trimQueues (s : State) : State :=
  { s with teams := s.teams.map (fun (e : Nat × Team) =>
      if e.2.queue.isEmpty then e else (e.1, { e.2 with queue := e.2.queue.filter s.stillQueued })) }

/-- What follows from a state at once: a waiting trap whose lineage's slot is free is delivered (R42, R324), the parties
that may go on again are READY (R23), blocks that a queue no longer needs return (R58), records that find no slots wait from now on (R279), a preemption that has come to its end is over (R328), and parties of
stopped cores stop at their run boundaries (R333). -/
def State.follow (s old : State) : State :=
  (s.giveSlots.stopIdle.recheck.wake.trimQueues.returnBlocks old).noteHeads.preDone

/-- A next state with nobody's instruction in execution, with what follows from it after the state `old`. -/
def settle (old : State) : Outcome State Fault Refusal → Outcome State Fault Refusal
  | .next t => .next { t.follow old with actor := .none }
  | r => r

/-- One step: the next move of the schedule, or what is due where the schedule is empty (log 2). -/
def step (s : State) : Outcome State Fault Refusal :=
  let s1 := { s with steps := s.steps + 1 }
  match s.schedule with
  | [] => settle s (freeStep s1)
  | m :: rest => settle s (perform { s1 with schedule := rest } m)

/-! ## One instruction, placed to be fetched (log 3) -/

/-- Virtual address of the placed instruction: a run header, with its body after it, or a matrix word. -/
def codeAt : Nat := 0x10000

/-- The launch record of the placed instruction's grid. -/
def placeRec : LaunchRec :=
  { image := 0, matrix := codeAt, param := 0x20000, compl := 0, handler := 0, scratchWin := 0, wstackWin := 2 ^ 40, teams := 1,
    parties := 1, win := 64, accum := 512, mask := 0, scratch := 0, prio := 0, power := 0, replay := false, ivOff := true,
    sfmt := 0, dlimit := 0, asid := 0, launch := 1, lease := 0, keyLo := 0, keyHi := 0, stream := 0, resv := false }

/-- The grid of the placed instruction. -/
def placeGrid (entry : DWord) : Grid :=
  { id := 1, launch := 1, asid := 0, rcd := placeRec, depth := 0, parent := none, byAsid := 0, byParty := 0, dict := [],
    entry := entry, order := 0, nextTeam := 1, lineages := 1, outcome := 0, replays := 0, ending := false, relaunch := false,
    prot := false, undo := [], foreign := false, discard := false, spent := [], failAt := 0, failCore := 0, byLin := 0, farOps := 0, farFrames := [],
    framesTold := false }

/-- The key of its team. -/
def placeTeam (s : State) : Nat := teamKey s.devId 1 0

/-- The bytes that a word is stored as. -/
def State.putWord (s : State) (pa : Nat) (w : Word) : State := { s with mem := memPuts s.mem pa (leBytes 4 w.toNat) }

/-- Translation tables of ASID 0: its context at DPA 0, a root and a second table, and one page of 1 GiB that maps virtual
address 0 on to DPA 0, readable, writable and executable (R314 to R316). -/
def State.withTables (s : State) : State :=
  let leaf := 0x73 + s.devId.toNat * 2 ^ 42
  { s with
    regs := { s.regs with asidTable := 0 },
    mem := memPuts (memPuts (memPuts (memPuts s.mem 0 (leBytes 8 0x1000)) 16 [1]) 0x1000 (leBytes 8 0x2001)) 0x2000
      (leBytes 8 leaf) }

/-- The run in whose body a placed word stands, in progress at that word. -/
def placeRun (w : Word) : Run :=
  { header := BitVec.ofNat 64 codeAt, start := BitVec.ofNat 64 codeAt, cont := false, coded := false, wait := 0,
    seta := none, setb := none, words := [⟨BitVec.ofNat 64 (codeAt + 4), w, none, false⟩],
    next := BitVec.ofNat 64 (codeAt + 8), idx := 0, imm := none, modh := none, imm0 := none, modh0 := none, live0 := none,
    last0 := [], live := none, last := [], ov := Overlay.empty, eff := [], taken := [], wb0 := [], skip := none, snap := [] }

/-- The bundle that is to execute a placed word: lane 0, at a header or within a run. -/
def placeBundle (id : Nat) (clk : Nat) (run : Option Run) : Bundle :=
  { Bundle.at id 1 (BitVec.ofNat 64 codeAt) 0 clk with phase := if run.isSome then .running else .waiting, run := run }

/-- The party of a placed instruction, in the active set of core 0. -/
def placeParty (s : State) (run : Option Run) : Party :=
  let g := placeGrid (BitVec.ofNat 64 codeAt)
  let p := g.newParty s.devId 0 0 0 1 (s.clk 0) s.keys
  { p with place := .slot 0 .active, bundles := [placeBundle s.keys (s.clk 0) run] }

/-- The team of a placed instruction, on cluster 0, with all its tiles. -/
def placedTeam (seqr : Option Seqr) : Team :=
  { grid := 1, id := 0, stack := 0, cluster := 0, blocks := [], tiles := List.range 512, frames := [], bars := [], seqr := seqr,
    interval := none, saved := none, movedAt := none, moving := none, wantSave := false, wantPlace := false, queue := [] }

/-- A grid with one party on core 0, its tables, and a next move. -/
def State.withPlace (s : State) (run : Option Run) (seqr : Option Seqr) (m : Move) : State :=
  let t := s.withTables
  { t with
    schedule := m :: s.schedule, keys := s.keys + 2,
    grids := Map.insert s.grids 1 (placeGrid (BitVec.ofNat 64 codeAt)),
    teams := Map.insert s.teams (placeTeam s) (placedTeam seqr),
    lineages := Map.insert s.lineages (teamKey s.devId 1 1) { Lineage.init with count := 1, team := placeTeam s + 1 },
    cores := Map.put s.cores 0 { s.core 0 with dead := false, stopped := false } Core.init,
    parties := Map.insert (s.parties.filter (fun e => decide (e.2.core ≠ 0))) (s.keys + 1) (placeParty s run) }

/-- `s` with an instruction stored where the next step takes it: a run header at which a bundle waits, the word at which a
bundle stands within its run, or the word at which a sequencer stands (R132, R134). -/
def State.withFetchWord (s : State) (nbits w : Nat) : State :=
  let x : Word := BitVec.ofNat 32 (w % 2 ^ nbits)
  let m := majorOf x
  if m = 0x3E then (s.withPlace none none (.issue 0)).putWord codeAt x
  else if 0x38 ≤ m ∧ m ≤ 0x3D then
    (s.withPlace none (some (Seqr.start codeAt)) (.sequence (placeTeam s))).putWord codeAt x
  else
    ((s.withPlace (some (placeRun x)) none (.issue 0)).putWord codeAt (BitVec.ofNat 32 (0xF80000FF + 2 ^ 21))).putWord
      (codeAt + 4) x

end Sys2Proof.Machine
end

