-- ==== Sys2Proof/Safety.lean ====
section
/-!
DEFINITION. What claims call a settled state and a safe step, and the terms in which claims say what a word of a run has
done: the context in which it issues, and what it leaves in the run.
-/

namespace Sys2Proof.Safety

open Sys2Proof.Machine

/-! ## States between steps -/

/-- Memory is in its canonical form: addresses strictly rising, no entry equal to what an unlisted address reads as. -/
def MemOk (s : State) : Prop := Memory.wf s.mem = true

/-- MODULE_STATE is one of SERVICE, BRING-UP, TEST and RECOVERY; the others are reserved (R116). -/
def ModeOk (s : State) : Prop := s.mode.toNat ≤ 3

/-- No party that waits for nothing but its own bundles is BLOCKED while one of them may go on (R23). -/
def NoneBlocked (s : State) : Prop :=
  ∀ e ∈ s.parties, e.2.isBlocked = true → e.2.stopBy = false → e.2.haltBy = false → e.2.bundles.any e.2.able = false

/-- A state between steps: nobody's instruction is in execution, and every BLOCKED party waits. -/
def Settled (s : State) : Prop := s.actor = .none ∧ NoneBlocked s

/-- A step does not stop: it answers a next state. -/
def StepGoes (s : State) : Prop := ∃ t, step s = .next t

/-! ## The context in which a word issues -/

/-- The context in which the bundle of the scheduled step issues the word at which it stands, with the lanes that the
guard makes active (R136, R149). None where the bundle may not issue now, where `tret.skip` skips the word, and for the
reserved guard 15. -/
def issueCtx (s : State) (g : BitVec 4) : Option Ctx :=
  match s.ctx? with
  | none => none
  | some c =>
    if c.canIssue = false ∨ c.r.skip = some c.here ∨ c.word.govr.getD g = 15 then none
    else some { c with act := c.guarded (c.word.govr.getD g) }

/-- A lane is active, every operand code belongs to its class (R139, R140), no reserved `mod` value is in force (R147), no
operand waits for a long-latency result (R25), and none is poisoned (R335). -/
def clear (c : Ctx) (args : List Arg) : Bool :=
  decide (c.act ≠ []) && args.all (Arg.ok c.r.imm.isSome) && !c.modBad && !c.stalls args && (c.poisonLanes args).isEmpty

/-- A word with these operands issues in context `c`. -/
def Issues (s : State) (g : BitVec 4) (args : List Arg) (c : Ctx) : Prop :=
  issueCtx s g = some c ∧ clear c args = true

/-! ## What a word leaves in its run -/

/-- Operations of a party as they are named after a word: those that stand in nobody's way may have lost a destination to
a later write of the run (R25, R229). -/
def opShape (c : Ctx) (l : List PendOp) : List PendOp := l.map (fun o => if c.opBlocks o then o else { o with dests := [] })

/-- A party's operations once `o` has joined them: a late result of the run for one of its destinations is discarded (R104,
R229). -/
def joined (c : Ctx) (l : List PendOp) (o : PendOp) : List PendOp :=
  l.map (fun x => if c.opBlocks x then x else
    { x with dests := x.dests.map (fun d => if o.dests.any (fun y => y.same d) then .drop else d) }) ++ [o]

/-- The value at a register key of lane `l` after writes of registers by code, in order. -/
def written (c : Ctx) (l : Nat) (ws : List (Nat × Word)) (k : Nat) (x : Word) : Word :=
  ws.foldl (fun y w => if w.1 < 60 ∧ regKey (c.regOf w.1 l) l = k then w.2 else y) x

/-- Registers of the run: active lane `l` has received the writes `ws l`, and no other register has changed. -/
def Regs (c c' : Ctx) (ws : Nat → List (Nat × Word)) : Prop :=
  ∀ k, c'.atKey k = if k % 64 ∈ c.act then written c (k % 64) (ws (k % 64)) k (c.atKey k) else c.atKey k

/-- Predicates of the run: active lane `l` holds `ps l`, the others what they held. -/
def Preds (c c' : Ctx) (ps : Nat → BitVec 16) : Prop := ∀ l, c'.preds l = if l ∈ c.act then ps l else c.preds l

/-- FPFLAGS conditions of the run: active lane `l` has added `fl l` to those raised since the last write of FPFLAGS, and no
others have changed (R127). -/
def Flags (c c' : Ctx) (fl : Nat → BitVec 16) : Prop :=
  ∀ k, Map.getD c'.r.ov.fp k 0 =
    if k / 64 = c.r.ov.fpEpoch ∧ k % 64 ∈ c.act then Map.getD c.r.ov.fp k 0 ||| fl (k % 64) else Map.getD c.r.ov.fp k 0

/-- A word that works in each lane by itself: what it has written, with everything else of the party, the bundle, the run
and the machine as it was. -/
structure LaneResult (c c' : Ctx) (ws : Nat → List (Nat × Word)) (ps fl : Nat → BitVec 16) : Prop where
  regs  : Regs c c' ws
  preds : Preds c c' ps
  flags : Flags c c' fl
  ops   : opShape c c'.p.pend = opShape c c.p.pend
  rest  : c' = { c with
            p := { c.p with pend := c'.p.pend },
            r := { c.r with ov := { c.r.ov with
              v := c'.r.ov.v, preds := c'.r.ov.preds, fp := c'.r.ov.fp, marks := c'.r.ov.marks } } }

/-- A word that issues one long-latency operation (R26): the operation, whose results are `vals` for `dests`, and
everything else as it was but for pushes and conditions. -/
structure LongResult (c c' : Ctx) (exec : Bool) (dests : List Dest) (vals : List Nat) (ps fl : Nat → BitVec 16) : Prop where
  op    : c'.p.pend = joined c c.p.pend (PendOp.mk' c exec dests vals)
  preds : Preds c c' ps
  flags : Flags c c' fl
  rest  : c' = { c with
            s := c.s.bump, p := { c.p with pend := c'.p.pend },
            r := { c.r with ov := { c.r.ov with preds := c'.r.ov.preds, fp := c'.r.ov.fp, marks := c'.r.ov.marks } } }

/-- A party-wide write, made by the active lanes (R157), and nothing else. -/
structure WideResult (c c' : Ctx) (i : PItem) (fl : Nat → BitVec 16) : Prop where
  flags : Flags c c' fl
  ops   : opShape c c'.p.pend = opShape c c.p.pend
  rest  : c' = { c with
            s := c.s.bump, p := { c.p with pend := c'.p.pend },
            r := { c.r with ov := { c.r.ov with
              pw := c.r.ov.pw ++ [(maskOf c.act, c.s.keys, i)], fp := c'.r.ov.fp, marks := c'.r.ov.marks } } }

/-- Effects that the run is to send when it commits (R28), added in order, and nothing else. -/
structure EffResult (c c' : Ctx) (es : List Eff) : Prop where
  rest : c' = { c with r := { c.r with
    eff := c.r.eff ++ es, live := c'.r.live, ov := { c.r.ov with marks := c'.r.ov.marks } } }

/-- The word has executed: the next state is that of the run at its next word, and nothing outside the party has changed
but the numbers given out. -/
structure Executed (s t : State) (c c' : Ctx) : Prop where
  next   : t = c'.advance
  outside : { t with parties := s.parties, keys := s.keys } = s
  others : ∀ q, q ≠ c.pid → t.party? q = s.party? q

/-- The words of a result of width `w` for a destination code (R140, R180). -/
def outWords (w d x : Nat) : List (Nat × Word) :=
  if w = 64 then [(d, BitVec.ofNat 32 x), (d + 1, BitVec.ofNat 32 (x / 2 ^ 32))] else [(d, BitVec.ofNat 32 x)]

/-- No condition. -/
def noFlags (_ : Nat) : BitVec 16 := 0

/-- No register. -/
def noWrites (_ : Nat) : List (Nat × Word) := []

/-- The predicates of a lane after a push (R158): every bit one depth deeper, the new value at depth 0. -/
def pushed (c : Ctx) (v : Nat → Bool) (l : Nat) : BitVec 16 := (c.preds l <<< 1) ||| (if v l then 1 else 0)

/-! ## Outcomes: the instruction answers a next state, and that state is its own effect -/

/-- A word that works in each active lane by itself. -/
def LaneOutcome (i : Instr) (s : State) (c : Ctx) (ws : Nat → List (Nat × Word)) (ps fl : Nat → BitVec 16) : Prop :=
  ∃ c', exec i s = .next c'.advance ∧ Executed s c'.advance c c' ∧ LaneResult c c' ws ps fl

/-- A word that issues one long-latency operation: of the execution class (`execClass`), or of the memory class. -/
def LongOutcome (i : Instr) (s : State) (c : Ctx) (execClass : Bool) (dests : List Dest) (vals : List Nat)
    (ps fl : Nat → BitVec 16) : Prop :=
  ∃ c', exec i s = .next c'.advance ∧ Executed s c'.advance c c' ∧ LongResult c c' execClass dests vals ps fl

/-- What a word that draws words of the generator and then issues one long-latency operation of the execution class leaves
(R26, R269). -/
structure DrawResult (c c' : Ctx) (ws : Nat → List (Nat × Word)) (dests : List Dest) (vals : List Nat)
    (fl : Nat → BitVec 16) : Prop where
  regs  : Regs c c' ws
  flags : Flags c c' fl
  ops   : ∃ o, c'.p.pend = joined c o (PendOp.mk' c true dests vals) ∧ opShape c o = opShape c c.p.pend
  rest  : c' = { c with
            s := c.s.bump, p := { c.p with pend := c'.p.pend },
            r := { c.r with ov := { c.r.ov with v := c'.r.ov.v, fp := c'.r.ov.fp, marks := c'.r.ov.marks } } }

/-- A word that draws and issues one long-latency operation. -/
def DrawOutcome (i : Instr) (s : State) (c : Ctx) (ws : Nat → List (Nat × Word)) (dests : List Dest) (vals : List Nat)
    (fl : Nat → BitVec 16) : Prop :=
  ∃ c', exec i s = .next c'.advance ∧ Executed s c'.advance c c' ∧ DrawResult c c' ws dests vals fl

/-- What a limb form leaves: one long-latency operation of the execution class, and for each integer of `fs` its flags C
and V (R194, R202). -/
structure LimbResult (c c' : Ctx) (dests : List Dest) (vals : List Nat) (fs : List (Nat × Bool × Bool)) : Prop where
  rest : c' = { c with
            s := { c.s with keys := c.s.keys + 1 + fs.length },
            p := { c.p with pend := joined c c.p.pend (PendOp.mk' c true dests vals) },
            r := { c.r with ov := { c.r.ov with
              marks := c'.r.ov.marks,
              pw := c.r.ov.pw ++ fs.zipIdx.map (fun e => (maskOf (c.limbsOf e.1.1), c.s.keys + 1 + e.2,
                PItem.limbFlags (BitVec.ofNat 64 (3 * 2 ^ (2 * e.1.1)))
                  (BitVec.ofNat 64 ((e.1.2.1.toNat + 2 * e.1.2.2.toNat) * 2 ^ (2 * e.1.1))))) } } }

/-- A limb form. -/
def LimbOutcome (i : Instr) (s : State) (c : Ctx) (dests : List Dest) (vals : List Nat) (fs : List (Nat × Bool × Bool)) : Prop :=
  ∃ c', exec i s = .next c'.advance ∧ Executed s c'.advance c c' ∧ LimbResult c c' dests vals fs

/-- What binding and releasing leave: LIMB_CTL is `x`, and every limb flag is clear (R194, R195). -/
structure BindResult (c c' : Ctx) (x : Word) : Prop where
  rest : c' = { c with
            s := { c.s with keys := c.s.keys + 2 },
            r := { c.r with ov := { c.r.ov with
              marks := c'.r.ov.marks,
              pw := c.r.ov.pw ++ [(maskOf c.act, c.s.keys, .limbCtl x),
                (maskOf c.act, c.s.keys + 1, .limbFlags (BitVec.allOnes 64) 0)] } } }

/-- A binding, or its release. -/
def BindOutcome (i : Instr) (s : State) (c : Ctx) (x : Word) : Prop :=
  ∃ c', exec i s = .next c'.advance ∧ Executed s c'.advance c c' ∧ BindResult c c' x

/-- What a control transfer leaves: active lane `l` goes to `tgt l` when its run commits, has received the writes `ws l`,
and stands at window base `wb l`. -/
structure JumpResult (c c' : Ctx) (ws : Nat → List (Nat × Word)) (tgt : Nat → Option Nat) (wb : Nat → Nat) : Prop where
  regs  : ∀ k, c'.atKey k = if k % 64 ∈ c.act then written c (k % 64) (ws (k % 64)) k (c.atKey k) else c.atKey k
  taken : ∀ l, Map.find c'.r.taken l = if l ∈ c.act ∧ (tgt l).isSome then tgt l else Map.find c.r.taken l
  bases : ∀ l, c'.wbOf l = if l ∈ c.act then wb l else c.wbOf l
  ops   : opShape c c'.p.pend = opShape c c.p.pend
  rest  : c' = { c with
            p := { c.p with pend := c'.p.pend },
            r := { c.r with taken := c'.r.taken, ov := { c.r.ov with
              v := c'.r.ov.v, wb := c'.r.ov.wb, marks := c'.r.ov.marks } } }

/-- A control transfer. -/
def JumpOutcome (i : Instr) (s : State) (c : Ctx) (ws : Nat → List (Nat × Word)) (tgt : Nat → Option Nat) (wb : Nat → Nat) : Prop :=
  ∃ c', exec i s = .next c'.advance ∧ Executed s c'.advance c c' ∧ JumpResult c c' ws tgt wb

/-- A word that makes one party-wide write. -/
def WideOutcome (i : Instr) (s : State) (c : Ctx) (x : PItem) (fl : Nat → BitVec 16) : Prop :=
  ∃ c', exec i s = .next c'.advance ∧ Executed s c'.advance c c' ∧ WideResult c c' x fl

/-- A word that leaves effects to be sent at the commit of its run. -/
def EffOutcome (i : Instr) (s : State) (c : Ctx) (es : List Eff) : Prop :=
  ∃ c', exec i s = .next c'.advance ∧ Executed s c'.advance c c' ∧ EffResult c c' es

/-- Effects to be sent when the run commits, and operations of the memory class whose results are awaited (R26, R28). -/
structure SendResult (c c' : Ctx) (es : List Eff) (ops : List PendOp) : Prop where
  rest : c' = { c with
            s := { c.s with keys := c.s.keys + ops.length },
            p := { c.p with pend := ops.foldl (joined c) c.p.pend },
            r := { c.r with
              eff := c.r.eff ++ es, live := c'.r.live, ov := { c.r.ov with marks := c'.r.ov.marks } } }

/-- A word that leaves effects and awaits results. -/
def SendOutcome (i : Instr) (s : State) (c : Ctx) (es : List Eff) (ops : List PendOp) : Prop :=
  ∃ c', exec i s = .next c'.advance ∧ Executed s c'.advance c c' ∧ SendResult c c' es ops

/-- A word that changes nothing but the place of its run. -/
def PlainOutcome (i : Instr) (s : State) (c : Ctx) : Prop := EffOutcome i s c []

/-! ## What the commit of a run leaves -/

/-- The run `r` of bundle `b` of party `p` commits as it stands: it has executed its last word, waits for no acknowledgement,
and no operation of it is outstanding without a flag (R26). -/
structure Commits (s : State) (pid bid : Nat) (p : Party) (b : Bundle) (r : Run) : Prop where
  party  : s.party? pid = some p
  bundle : p.bundle? bid = some b
  run    : b.run = some r
  active : p.isActive = true
  phase  : b.phase = .executed
  asked  : b.asked = []
  clean  : s.consumes.any (fun k => decide (k.party = pid)) = false
  ready  : p.commitReady bid = true
  lanes  : b.mask ≠ 0
  ids    : (p.bundles.map (fun x => x.id)).Nodup ∧ ∀ x ∈ p.bundles, x.id < s.keys
  maps   : Map.sorted s.parties = true ∧ Map.sorted p.vregs = true ∧ Map.sorted p.lanes = true ∧ Map.sorted r.ov.v = true ∧
    Map.sorted r.ov.preds = true ∧ Map.sorted r.ov.fills = true

/-- Lanes `m` of `q` hold what the run wrote last: a register marked by `last` holds 0 (R294), another what was written, or
what it held; so do the predicates and the place of the outer window (R27, R290). -/
def Wrote (p : Party) (r : Run) (q : Party) (m : DWord) : Prop :=
  (∀ reg l, reg < tempBase → l < 64 → m.getLsbD l = true →
    Map.getD q.vregs (regKey reg l) 0 = if regKey reg l ∈ r.ov.marks then 0
      else (Map.find r.ov.v (regKey reg l)).getD (Map.getD p.vregs (regKey reg l) 0)) ∧
  (∀ l, l < 64 → m.getLsbD l = true → (q.lane l).preds = Map.getD r.ov.preds l (p.lane l).preds ∧
    (q.lane l).lo = Map.getD r.ov.fills l (p.lane l).lo)

/-- The registers of the party as a whole hold what the run's party-wide writes, in order, leave (R157, R170); the conditions
raised since the last write of FPFLAGS are added (R127); the run's operations count towards their flags (R26). -/
def WroteWide (p : Party) (r : Run) (bid : Nat) (q : Party) : Prop :=
  let w := r.ov.pw.foldl (fun x e => x.putWide e.2) p
  q.scal = w.scal ∧ q.hand = w.hand ∧ q.cb = w.cb ∧ q.frame = w.frame ∧ q.limbCtl = w.limbCtl ∧ q.limbFlags = w.limbFlags ∧
  q.rngLo = w.rngLo ∧ q.rngHi = w.rngHi ∧ q.rngStream = w.rngStream ∧
  q.fpflags = r.ov.fp.foldl (fun f e => if r.ov.fpEpoch ≤ e.1 / 64 then f ||| e.2 else f) w.fpflags ∧
  q.trap = p.trap ∧ ∀ o ∈ q.pend, o.bundle = bid → o.committed = true

/-- Where a lane goes on: its target, or the word after the run (R162), with the window base it has now (R165). -/
def StandsAt (b : Bundle) (r : Run) (l : Nat) (x : Bundle) : Prop :=
  x.mask.getLsbD l = true ∧ x.pc = BitVec.ofNat 64 (Map.getD r.taken l r.next.toNat) ∧ x.wb = Map.getD r.ov.wb l b.wb

/-- Lanes `m` of the bundle stand at the headers of their next runs. -/
def GoesOn (b : Bundle) (r : Run) (q : Party) (m : DWord) : Prop :=
  ∀ l ∈ lanesOf m, ∃ x ∈ q.bundles, StandsAt b r l x ∧ x.atHeader = true

/-- The commit has left `q` of party `p`, with all its lanes and with what the run wrote, and its lanes go on. -/
def Committed (t : State) (pid bid : Nat) (p : Party) (b : Bundle) (r : Run) (q : Party) : Prop :=
  t.party? pid = some q ∧ Wrote p r q p.mask ∧ WroteWide p r bid q ∧ q.mask = p.mask ∧ GoesOn b r q b.mask

/-- A message that the party sends at commit goes out by its core's outbox: it is posted, or its home is elsewhere (R45,
R75). -/
def sentOut (s : State) (p : Party) (d : Draft) : Bool :=
  (d.posted || !(d.body.atOnce.any (s.isLocal p.core))) &&
  (match d.body with
    | .launch _ _ _ _ _ _ _ _ => decide (p.originDev = s.devId)
    | .frameConfirm _ _ _ _ => decide (p.originDev = s.devId)
    | _ => true)

/-- What it carries: the rows of `mso.rowput` are read as it is sent (R239). -/
def sentBody (s : State) (d : Draft) : MsgBody :=
  match d.body with
  | .mso l (.rowputFrom src) f g =>
    .mso l (.rowput (src.flatMap (fun e => memBytes s.mem e.1.pa e.2)) (src.any (fun e => s.poisoned e.1.pa e.2))) f g
  | b => b

/-- No replay unit stands between memory and its readers (R339). -/
def Unshadowed (s : State) : Prop := ∀ e ∈ s.grids, e.2.undo = [] ∧ e.2.prot = false

/-- `t` holds the bytes of `data` at `pa`, and at every other address what `s` holds. -/
def Stored (s t : State) (pa : Nat) (data : List Byte) : Prop :=
  ∀ a, (pa ≤ a ∧ a < pa + data.length → memByte t.mem a = data.getD (a - pa) 0) ∧
    (¬(pa ≤ a ∧ a < pa + data.length) → memByte t.mem a = memByte s.mem a)

/-! ## Values -/

/-- Instructions with a destination and two operands. -/
abbrev Bin := BitVec 4 → BitVec 6 → BitVec 6 → BitVec 6 → Instr

/-- Instructions with a destination and one operand. -/
abbrev Un := BitVec 4 → BitVec 6 → BitVec 6 → Instr

/-- An operand of width `w` of a lane. -/
def val (c : Ctx) (w n l : Nat) : BitVec w := BitVec.ofNat w (c.op w n l)

/-- An integer format of R180. -/
abbrev intFmt (f : Nat) : Prop := 20 ≤ f ∧ f ≤ 23

/-- Its width (R180). -/
def intWidth (f : Nat) : Nat := if f < 22 then 32 else 64

/-- Its signedness (R180). -/
def intSigned (f : Nat) : Bool := decide (f = 20 ∨ f = 22)

/-- A pattern as an integer, by signedness. -/
def exact {w : Nat} (sg : Bool) (x : BitVec w) : Int := if sg then x.toInt else (x.toNat : Int)

/-- An exact result clamped to the range of its type, when saturating (R183). -/
def clamped (w : Nat) (sg sat : Bool) (z : Int) : Int :=
  if sat = false then z
  else if sg then max (-(2 ^ (w - 1))) (min (2 ^ (w - 1) - 1) z)
  else max 0 (min (2 ^ w - 1) z)

/-- Reads by the active lanes of the bundle of a pair or word of lane `k` (R218). -/
def laneReads (c : Ctx) (w a k : Nat) : List Arg :=
  let at_ := c.pairs (fun _ => [k])
  if w = 64 then
    .need (pairCode a || decide (a = 61) || (decide (a = 62) && c.r.imm.isSome)) ::
      (if a < 60 then [.xr a at_, .xr (a + 1) at_] else [])
  else [.xr a at_]

/-- The active lanes are whole integers of the binding in force (R193, R203). -/
abbrev WholeIntegers (c : Ctx) : Prop :=
  c.limbCtl ≠ 0 ∧ ∀ l ∈ c.act, ∀ k ∈ List.range 64, k / c.limbLanes = l / c.limbLanes → k ∈ c.act

/-- An address holds a run header that the part can read (R143, R164). -/
def headerThere (c : Ctx) (va : Nat) : Bool :=
  match c.headerAt va with
  | .word _ => true
  | _ => false

/-- The word that the `i`-th rounding call of an instruction takes in a lane (R269). -/
def drawWord (c : Ctx) (l i : Nat) : Word :=
  if c.rmode = .sr then c.galWord l (c.v 52 l + BitVec.ofNat 32 i) (c.v 53 l) else 0

/-- The advance of `v52` past `n` draws (R269). -/
def drawWrites (c : Ctx) (l n : Nat) : List (Nat × Word) :=
  if c.rmode = .sr then [(52, c.v 52 l + BitVec.ofNat 32 n)] else []

/-! ## Words that access memory -/

/-- Where an access of `n` bytes at an address lies, when it passes translation, permission and alignment (R227), its walk
waits for no store of the party (R104, R110), and no earlier access is still held for its team's scratchpad (R39). -/
def placeOf (c : Ctx) (n : Nat) (rd wr : Bool) (va : Nat) : Option Loc :=
  match c.s.access c.core c.p.asid va n rd wr with
  | .ok _ x => if c.walkDue va = false ∧ c.queuedTeam x = none then some x else none
  | _ => none

/-- Nothing holds up a read of `n` bytes that lane `l` makes: no lock (R83), no message of its own to that home, no event
of its run before it (R104), no poison (R335); the bytes are of this module and of no host. -/
def atHand (c : Ctx) (n l : Nat) (x : Loc) : Bool :=
  decide (x.dev = c.s.devId) && !x.isHost && !c.s.locked x n false && !c.unsent l (c.s.homeOf x) &&
    !c.isHeld l (c.s.homeOf x) && !c.s.poisoned x.pa n

/-- The same, at the core's own memory (R45). -/
def nearBy (c : Ctx) (n l : Nat) (x : Loc) : Bool := c.s.isLocal c.core x && atHand c n l x

/-- A write of `n` bytes goes ahead from the core: a host window (R15), or bytes of the core without a lock (R45, R83). -/
def writable (c : Ctx) (n : Nat) (x : Loc) : Bool := x.isHost || (c.s.isLocal c.core x && !c.s.locked x n true)

/-- Bytes of an access by WIDTH code (R228). -/
def accessBytes (w : Nat) : Nat := if w < 2 then 1 else if w < 4 then 2 else if w = 4 then 4 else if w = 5 then 8 else 16

/-- Register words that a loaded number gives (R228). -/
def loadWords (w x : Nat) : List Nat :=
  if w = 1 then [((BitVec.ofNat 8 x).signExtend 32).toNat]
  else if w = 3 then [((BitVec.ofNat 16 x).signExtend 32).toNat]
  else if w = 5 then [x % 2 ^ 32, x / 2 ^ 32 % 2 ^ 32]
  else if w = 6 then [x % 2 ^ 32, x / 2 ^ 32 % 2 ^ 32, x / 2 ^ 64 % 2 ^ 32, x / 2 ^ 96 % 2 ^ 32]
  else [x % 2 ^ 32]

/-- The scalar that a loaded number gives (R231). -/
def loadScalar (w x : Nat) : Nat :=
  if w = 1 then ((BitVec.ofNat 8 x).signExtend 64).toNat
  else if w = 3 then ((BitVec.ofNat 16 x).signExtend 64).toNat
  else x % 2 ^ 64

/-- Registers of a value of WIDTH code `w` from code `d` on, in lane `l` (R228). -/
def groupDests (c : Ctx) (w d l : Nat) : List Dest :=
  (List.range (if w = 5 then 2 else if w = 6 then 4 else 1)).map (fun i => c.dest d i l)

/-- The number that a source of WIDTH code `w` holds in lane `l` (R228). -/
def sourceNum (c : Ctx) (w d l : Nat) : Nat :=
  if w = 5 then (c.v64 d l).toNat
  else if w = 6 then
    (if d < 60 then (c.v d l).toNat + (c.v (d + 1) l).toNat * 2 ^ 32 + (c.v (d + 2) l).toNat * 2 ^ 64 +
      (c.v (d + 3) l).toNat * 2 ^ 96 else 0)
  else (c.v d l).toNat

/-- The `n` low bytes of a number, lowest first (R118). -/
def lowBytes (n x : Nat) : List Byte := (List.range n).map (fun i => BitVec.ofNat 8 (x / 2 ^ (8 * i)))

/-- The number that `n` bytes read through the FRAME binding hold (R118, R276). -/
def readNum (c : Ctx) (x : Loc) (n : Nat) : Nat := leNat (c.s.bound c.frame x.pa (memBytes c.s.mem x.pa n))

/-- The state after reads of the party: the marks they leave on pages, intervals and shadows (R69, R337, R339). -/
def afterReads (c : Ctx) (xs : List (Loc × Nat)) : State := xs.foldl (fun s x => (s.load (c.p.who c.s.devId) x.1.pa x.2).2) c.s

/-- The operation just issued, with the address it reads (R344). -/
def noted (c : Ctx) (va : Nat) (x : Loc) (l : List PendOp) : List PendOp :=
  l.map (fun o => if o.id = c.s.keys then { o with va := va, pa := x.pa } else o)

/-- What reads leave: the state `tr` around the party, its operations `pend`, pushes, and the words it goes on to watch. -/
structure ReadResult (c c' : Ctx) (tr : State) (pend : List PendOp) (ps : Nat → BitVec 16) (w : List Watch) : Prop where
  preds : Preds c c' ps
  rest : c' = { c with
    s := tr, p := { c.p with pend := pend }, b := { c.b with watched := w },
    r := { c.r with live := c'.r.live, ov := { c.r.ov with preds := c'.r.ov.preds, marks := c'.r.ov.marks } } }

/-- A word that reads memory. -/
def ReadOutcome (i : Instr) (s : State) (c : Ctx) (tr : State) (pend : List PendOp) (ps : Nat → BitVec 16)
    (w : List Watch) : Prop :=
  ∃ c', exec i s = .next c'.advance ∧ ReadResult c c' tr pend ps w

/-- A message that the party of `c` puts into its core's outbox (R56). -/
def msgOf (c : Ctx) (id : Nat) (lanes : DWord) (dst : Home) (body : MsgBody) : Msg :=
  { id := id, srcDev := c.s.devId, src := c.core, dst := dst, party := c.pid,
    lin := c.p.lineageKey + 1, lanes := lanes, grid := c.p.gridAt (c.s.devOf dst),
    team := if c.p.seed.isSome then 0 else c.p.teamKey + 1, asid := c.p.asid, after := [], applied := false,
    sent := false, waited := c.s.clk c.core, orig := 0, asked := false, old := false, qAt := 0, body := body }

/-- A word that sends messages before its run commits and awaits their results (R28, R88). -/
def PostOutcome (i : Instr) (s : State) (c : Ctx) (tr : State) (ops : List PendOp) (ms : List Msg) : Prop :=
  ∃ c' : Ctx, exec i s = .next c'.advance ∧
    c' = { c with
      s := { tr with keys := c.s.keys + ops.length + ms.length, net := c.s.net ++ ms },
      p := { c.p with pend := ops.foldl (joined c) c.p.pend },
      r := { c.r with ov := { c.r.ov with marks := c'.r.ov.marks } } }

/-- The request of a ticket, whose value operation `op` awaits (R87, R97). -/
def fetchOf (c : Ctx) (x : Loc) (len w : Nat) (block : Bool) (frame : DWord) (op : Nat) : Fetch :=
  { loc := x, len := len, wcode := w, block := block, launch := c.p.launchId, asid := c.p.asid, frame := frame,
    lease := c.s.leaseOf c.p, op := op }

/-- A late operation of the memory class for one lane: its result comes after the run has committed (R104, R229). -/
def lateFor (c : Ctx) (l id : Nat) (dests : List Dest) (acq : Bool) : PendOp :=
  { PendOp.mk' c false dests [] with id := id, lanes := maskOf [l], late := true, ready := false, acquire := acq }

/-- Every ticket of the active lanes passes the checks of its redeemer (R86, R91). -/
def ownTickets (c : Ctx) (a : Nat) : Prop := ∀ l ∈ c.act, c.foreign (c.v64 a l) false = false

/-- The bytes that a lane's claim of ticket `t` has brought, without poison; the null ticket brings none (R92). -/
def claimData (c : Ctx) (l : Nat) (t : DWord) : Option (List Byte) :=
  if t = 0 then (if (Map.find c.b.ans l).isNone then some [] else none)
  else match Map.find c.b.ans l with
    | some (.data b false) => some b
    | _ => none

/-- The answer that a test of ticket `t` has brought; true for the null ticket (R86, R94). -/
def testAnswer (c : Ctx) (l : Nat) (t : DWord) : Option Bool :=
  if t = 0 then (if (Map.find c.b.ans l).isNone then some true else none)
  else match Map.find c.b.ans l with
    | some (.flag b) => some b
    | _ => none

/-- A message to be sent when the run commits (R28): its release scope (R106), whether its lanes wait for its
acknowledgement (R15), whether it is posted (R75), and whether it is an acquire (R107). -/
def sending (h : Home) (b : MsgBody) (rel : Option Nat) (sync posted acq : Bool) : EffItem :=
  .send { home := h, body := b, release := rel, sync := sync, posted := posted, acq := acq, old := false }

/-- A sequencer that has executed the word at `last` and stands at `pc` (R256). -/
def seqAt (q : Seqr) (last pc : DWord) : Seqr :=
  { q with st := .running, last := last, pc := pc, step := 0, freed := false, owners := [] }

/-- The state with the sequencer having gone on to the next word. -/
def seqNext (c : SeqCtx) : State := c.put (seqAt c.q c.q.pc (c.q.pc + 4))

/-- A state with the sequencer of `c` as given. -/
def seqIn (t : State) (c : SeqCtx) (q : Seqr) : State :=
  let team := (Map.find t.teams c.key).getD c.t
  { t with teams := Map.insert t.teams c.key { team with seqr := some q } }

/-- The arrival of a team's sequencer at a barrier of the team (R263). -/
def seqArrival (c : SeqCtx) (kind : ArrKind) (n : BitVec 16) : HeldArr :=
  .arr { kind := kind, who := ⟨c.s.devId, 4 * c.t.cluster, 0, 0, 64, 0⟩,
         count := if n = 0 then c.g.rcd.parties + 1 else n.toNat, timeout := 0, op := 0, team := c.key }

/-- A word, or a step of one, put to work, with its locks, which clear when the word completes: with its last step, `fin`
(R267); one that writes a tile publishes what its team's interval holds (R337). -/
def putToWork (c : SeqCtx) (fin : Bool) (acc : Nat) (ls : List Lock) (tile : List Word) (mem : List (Nat × List Byte)) : SeqCtx :=
  let owners := c.q.owners ++ [c.s.keys]
  let s := { c.s with keys := c.s.keys + 1, locks := c.s.locks ++ ls }
  let s := if tile = [] then s else s.publish (c.key + 1)
  { c with
    s := s, t := (Map.find s.teams c.key).getD c.t,
    q := { c.q with
      work := c.q.work ++ [{ op := c.s.keys, ends := if fin then owners else [], acc := acc, tile := tile, mem := mem }],
      owners := if fin then [] else owners } }

/-- The rows of elements that an operand of a step takes from the scratchpad (R258). -/
def stepRows (c : SeqCtx) (o : Opnd) (flip : Bool) (k : Nat) : List (List MElem) :=
  match o with
  | .pair p => c.pairRows p (if flip then k else 32) (if flip then 32 else k)
  | .slot _ => []

/-- The checks of a word let it go ahead. -/
def goesAhead (p : Pre) : Prop :=
  match p with
  | .go => True
  | _ => False

end Sys2Proof.Safety
end

