-- ==== Sys2Proof/Certificates/Slice0/Obligations.lean ====
section
/-!
DEFINITION. The statements for the provers.
-/

open Sys2Proof Sys2Proof.Machine Sys2Proof.Safety

/-! ## Integers -/

/-- Two-operand integer instructions of R181 and R182 that cannot saturate: in every format of R180, each active lane
receives the pattern below, of 32 or 64 bits; nothing else changes. -/
def Obligations.IntPatterns : Prop :=
  ∀ e ∈ ([(Instr.mulh, fun w x y => BitVec.ofInt w (x.toInt * y.toInt / 2 ^ w)),
      (Instr.mulhu, fun w x y => BitVec.ofNat w (x.toNat * y.toNat / 2 ^ w)),
      (Instr.and, fun _ x y => x &&& y), (Instr.or, fun _ x y => x ||| y), (Instr.xor, fun _ x y => x ^^^ y),
      (Instr.shl, fun w x y => if w ≤ y.toNat % 2 ^ 32 then 0 else x <<< (y.toNat % 2 ^ 32)), (Instr.shr, fun _ x y => x >>> (y.toNat % 2 ^ 32)),
      (Instr.sar, fun _ x y => x.sshiftRight (y.toNat % 2 ^ 32)),
      (Instr.rot, fun w x y => x.rotateLeft (y.toNat % 2 ^ 32 % w)),
      (Instr.min, fun _ x y => if x.toInt ≤ y.toInt then x else y),
      (Instr.max, fun _ x y => if x.toInt ≤ y.toInt then y else x),
      (Instr.minu, fun _ x y => if x.toNat ≤ y.toNat then x else y),
      (Instr.maxu, fun _ x y => if x.toNat ≤ y.toNat then y else x)] : List (Bin × ((w : Nat) → BitVec w → BitVec w → BitVec w))),
  ∀ (s : State) (g : BitVec 4) (d a b : BitVec 6) (c : Ctx), intFmt (c.fmtOr 20) →
    let w := intWidth (c.fmtOr 20)
    Issues s g [.dst w d.toNat, .src w a.toNat, .src w b.toNat] c →
    LaneOutcome (e.1 g d a b) s c
      (fun l => outWords w d.toNat (e.2 w (val c w a.toNat l) (val c w b.toNat l)).toNat) c.preds noFlags

/-- Saturating integer instructions (R181, R183, R184, R186): the exact result `z` is clamped to the range of the
format when saturate is 1 and wrapped otherwise; SATURATED is added where clamping changed it. `abs` reads its operand
as signed in every format, which is the model's reading (log 32). -/
def Obligations.IntSaturating : Prop :=
  ∀ (s : State) (g : BitVec 4) (d a b : BitVec 6) (k : BitVec 10) (c : Ctx), intFmt (c.fmtOr 20) →
    let w := intWidth (c.fmtOr 20)
    let sg := intSigned (c.fmtOr 20)
    (∀ e ∈ ([(Instr.add g d a b, [.src w b.toNat], fun x y _ => x + y), (Instr.sub g d a b, [.src w b.toNat], fun x y _ => x - y),
        (Instr.mul g d a b, [.src w b.toNat], fun x y _ => x * y),
        (Instr.mad g d a b, [.src w b.toNat, .src w d.toNat], fun x y z => x * y + z),
        (Instr.neg g d a, [], fun x _ _ => -x)] : List (Instr × List Arg × (Int → Int → Int → Int))),
      Issues s g ([.dst w d.toNat, .src w a.toNat] ++ e.2.1) c →
      LaneOutcome e.1 s c
        (fun l => outWords w d.toNat (BitVec.ofInt w (clamped w sg c.mods.sat
          (e.2.2 (exact sg (val c w a.toNat l)) (exact sg (val c w b.toNat l)) (exact sg (val c w d.toNat l))))).toNat) c.preds
        (fun l =>
          let z := e.2.2 (exact sg (val c w a.toNat l)) (exact sg (val c w b.toNat l)) (exact sg (val c w d.toNat l))
          if clamped w sg c.mods.sat z = z then 0 else fSaturated)) ∧
    (Issues s g [.dst w d.toNat, .src w a.toNat] c →
      LaneOutcome (.abs g d a) s c
        (fun l => outWords w d.toNat (BitVec.ofInt w (clamped w sg c.mods.sat ((val c w a.toNat l).toInt.natAbs : Int))).toNat) c.preds
        (fun l => if clamped w sg c.mods.sat ((val c w a.toNat l).toInt.natAbs : Int) = ((val c w a.toNat l).toInt.natAbs : Int) then 0 else fSaturated)) ∧
    (Issues s g [.dst w d.toNat, .src w a.toNat] c →
      LaneOutcome (.addi g d a k) s c
        (fun l => outWords w d.toNat (BitVec.ofInt w (clamped w sg c.mods.sat
          (exact sg (BitVec.ofNat w (c.opImm w a.toNat l k)) + c.immInt k false))).toNat) c.preds
        (fun l =>
          let z := exact sg (BitVec.ofNat w (c.opImm w a.toNat l k)) + c.immInt k false
          if clamped w sg c.mods.sat z = z then 0 else fSaturated))

/-- The other immediate forms (R184, R185): `andi`, `ori`, `xori` and `movi` in every format of R180, `movhi` and
`shi` on 32 bits. -/
def Obligations.IntImmediate : Prop :=
  ∀ (s : State) (g : BitVec 4) (d a : BitVec 6) (k : BitVec 10) (c : Ctx), intFmt (c.fmtOr 20) →
    let w := intWidth (c.fmtOr 20)
    (∀ e ∈ ([(Instr.andi, fun _ x y => x &&& y), (Instr.ori, fun _ x y => x ||| y), (Instr.xori, fun _ x y => x ^^^ y)] :
        List ((BitVec 4 → BitVec 6 → BitVec 6 → BitVec 10 → Instr) × ((w : Nat) → BitVec w → BitVec w → BitVec w))),
      Issues s g [.dst w d.toNat, .src w a.toNat] c →
      LaneOutcome (e.1 g d a k) s c
        (fun l => outWords w d.toNat (e.2 w (BitVec.ofNat w (c.opImm w a.toNat l k)) (BitVec.ofInt w (c.immInt k true))).toNat)
        c.preds noFlags) ∧
    (Issues s g [.dst w d.toNat] c →
      LaneOutcome (.movi g d k) s c (fun _ => outWords w d.toNat (BitVec.ofInt w (c.immInt k false)).toNat) c.preds noFlags) ∧
    (w = 32 → Issues s g [.vw d.toNat, .vr d.toNat] c →
      LaneOutcome (.movhi g d k) s c
        (fun l => [(d.toNat, BitVec.ofInt 16 (c.immInt k false) ++ (c.v d.toNat l).setWidth 16)]) c.preds noFlags) ∧
    (∀ n : BitVec 5, Issues s g [.need c.r.imm.isNone, .vw d.toNat, .vr a.toNat] c →
      ∀ e ∈ ([((0 : BitVec 2), fun x => x <<< n.toNat), (1, fun x => x >>> n.toNat), (2, fun x => x.sshiftRight n.toNat),
          (3, fun x => x.rotateLeft n.toNat)] : List (BitVec 2 × (Word → Word))),
        LaneOutcome (.shi g d a e.1 n) s c (fun l => [(d.toNat, e.2 (c.v a.toNat l))]) c.preds noFlags)

/-- The INTX instructions that write one result (R186, R188, R189), with `addc` and `subb`, which also push the carry.
-/
def Obligations.IntExtended : Prop :=
  ∀ (s : State) (g : BitVec 4) (d a b : BitVec 6) (c : Ctx),
    (intFmt (c.fmtOr 20) →
      let w := intWidth (c.fmtOr 20)
      (∀ e ∈ ([(Instr.clz, fun _ x => x.clz), (Instr.popc, fun w x => BitVec.ofNat w ((List.range w).countP (fun i => x.getLsbD i))),
          (Instr.brev, fun _ x => x.reverse), (Instr.mov, fun _ x => x)] : List (Un × ((w : Nat) → BitVec w → BitVec w))),
        Issues s g [.dst w d.toNat, .src w a.toNat] c →
        LaneOutcome (e.1 g d a) s c (fun l => outWords w d.toNat (e.2 w (val c w a.toNat l)).toNat) c.preds noFlags) ∧
      (Issues s g [.dst w d.toNat, .src w a.toNat, .src w b.toNat] c →
        LaneOutcome (.sel g d a b) s c
          (fun l => outWords w d.toNat (if (c.preds l).getLsbD 0 then val c w a.toNat l else val c w b.toNat l).toNat)
          c.preds noFlags ∧
        LaneOutcome (.addc g d a b) s c
          (fun l => outWords w d.toNat
            (val c w a.toNat l + val c w b.toNat l + (if (c.preds l).getLsbD 0 then 1 else 0)).toNat)
          (pushed c (fun l => decide (2 ^ w ≤ (val c w a.toNat l).toNat + (val c w b.toNat l).toNat +
            (if (c.preds l).getLsbD 0 then 1 else 0)))) noFlags ∧
        LaneOutcome (.subb g d a b) s c
          (fun l => outWords w d.toNat
            (val c w a.toNat l - val c w b.toNat l - (if (c.preds l).getLsbD 0 then 1 else 0)).toNat)
          (pushed c (fun l => decide ((val c w a.toNat l).toNat < (val c w b.toNat l).toNat +
            (if (c.preds l).getLsbD 0 then 1 else 0)))) noFlags) ∧
      (Issues s g [.dst w d.toNat, .src w a.toNat, .src w b.toNat, .old w d.toNat] c →
        LaneOutcome (.bfi g d a b) s c
          (fun l =>
            let n := (val c w b.toNat l).toNat
            let mask := BitVec.ofNat w (2 ^ (n / 256 % 256) - 1) <<< (n % 256)
            outWords w d.toNat ((val c w d.toNat l &&& ~~~mask) ||| ((val c w a.toNat l <<< (n % 256)) &&& mask)).toNat)
          c.preds noFlags)) ∧
    (intFmt (c.fmtOr 21) →
      let w := intWidth (c.fmtOr 21)
      let sg := intSigned (c.fmtOr 21)
      (Issues s g [.dst w d.toNat, .src w a.toNat, .src w b.toNat, .old w d.toNat] c →
        LaneOutcome (.madh g d a b) s c
          (fun l => outWords w d.toNat (BitVec.ofInt w
            ((exact sg (val c w a.toNat l) * exact sg (val c w b.toNat l) + exact sg (val c w d.toNat l)) / 2 ^ w)).toNat)
          c.preds noFlags) ∧
      (Issues s g [.dst w d.toNat, .src w a.toNat, .src w b.toNat] c →
        LaneOutcome (.bfe g d a b) s c
          (fun l =>
            let n := (val c w b.toNat l).toNat
            let len := n / 256 % 256
            let f := (val c w a.toNat l).toNat / 2 ^ min (n % 256) (2 * w) % 2 ^ len
            outWords w d.toNat (BitVec.ofInt w
              (if sg = true ∧ 0 < len ∧ len ≤ w ∧ f.testBit (len - 1) = true then (f : Int) - 2 ^ len else f)).toNat)
          c.preds noFlags))

/-- Division (R187): one long-latency operation of the execution class whose results are the quotients or remainders
of the active lanes; a zero divisor gives all ones, or the dividend. -/
def Obligations.Division : Prop :=
  ∀ (s : State) (g : BitVec 4) (d a b : BitVec 6) (c : Ctx),
    ∀ e ∈ ([(Instr.divu, 21, fun w _ x y => if y = 0 then BitVec.allOnes w else BitVec.ofNat w (x.toNat / y.toNat)),
        (Instr.divs, 20, fun w _ x y => if y = 0 then BitVec.allOnes w else BitVec.ofInt w (x.toInt.tdiv y.toInt)),
        (Instr.rem, 21, fun w sg x y => if y = 0 then x else if sg then BitVec.ofInt w (x.toInt.tmod y.toInt)
          else BitVec.ofNat w (x.toNat % y.toNat))] :
        List (Bin × Nat × ((w : Nat) → Bool → BitVec w → BitVec w → BitVec w))),
      intFmt (c.fmtOr e.2.1) →
      let w := intWidth (c.fmtOr e.2.1)
      let sg := intSigned (c.fmtOr e.2.1)
      Issues s g [.dst w d.toNat, .src w a.toNat, .src w b.toNat] c →
      LongOutcome (e.1 g d a b) s c true
        (c.act.flatMap (fun l => (List.range (w / 32)).map (fun i => c.dest d.toNat i l)))
        (c.act.flatMap (fun l => wordsOf (w / 32) (e.2.2 w sg (val c w a.toNat l) (val c w b.toNat l)).toNat)) c.preds noFlags

/-! ## Comparisons and predicates -/

/-- Comparisons push one value in each active lane (R159), `fcmp` with INVALID for a signalling operand (R160). -/
def Obligations.Comparisons : Prop :=
  ∀ (s : State) (g : BitVec 4) (a b : BitVec 6) (c : Ctx),
    (∀ e ∈ ([((0 : BitVec 4), fun _ x y => decide (x = y)), (1, fun _ x y => decide (x ≠ y)),
        (2, fun _ x y => decide (x.toInt < y.toInt)), (3, fun _ x y => decide (x.toInt ≤ y.toInt)),
        (4, fun _ x y => decide (x.toInt > y.toInt)), (5, fun _ x y => decide (x.toInt ≥ y.toInt)),
        (6, fun _ x y => decide (x.toNat < y.toNat)), (7, fun _ x y => decide (x.toNat ≤ y.toNat)),
        (8, fun _ x y => decide (x.toNat > y.toNat)), (9, fun _ x y => decide (x.toNat ≥ y.toNat)),
        (10, fun _ x y => decide (x &&& y ≠ 0)), (11, fun _ x y => decide (x &&& y = 0))] :
        List (BitVec 4 × ((w : Nat) → BitVec w → BitVec w → Bool))),
      (Issues s g [.vr a.toNat, .vr b.toNat] c →
        LaneOutcome (.cmp g a b e.1) s c noWrites (pushed c (fun l => e.2 32 (c.v a.toNat l) (c.v b.toNat l))) noFlags) ∧
      (Issues s g [.pr a.toNat, .pr b.toNat] c →
        LaneOutcome (.cmpD g a b e.1) s c noWrites (pushed c (fun l => e.2 64 (c.v64 a.toNat l) (c.v64 b.toNat l))) noFlags) ∧
      (Issues s g [.sr a.toNat, .sr b.toNat] c →
        LaneOutcome (.scmp g a b e.1) s c noWrites (pushed c (fun _ => e.2 64 (c.sc a.toNat) (c.sc b.toNat))) noFlags) ∧
      (∀ k : BitVec 10, Issues s g [.vr a.toNat] c →
        LaneOutcome (.cmpi g (e.1.setWidth 6) a k) s c noWrites
          (pushed c (fun l => e.2 32 (BitVec.ofNat 32 (c.opImm 32 a.toNat l k)) (BitVec.ofInt 32 (c.immInt k false)))) noFlags)) ∧
    (∀ k : BitVec 4, k.toNat ≤ 13 → Issues s g [.vr a.toNat, .vr b.toNat] c →
      ∀ e ∈ ([((0 : BitVec 6), fun x => val32 x), (1, fun x => decodeFp fmtBF16 (x.toNat % 2 ^ 16)),
          (2, fun x => decodeFp fmtFP16 (x.toNat % 2 ^ 16))] : List (BitVec 6 × (Word → Val))),
        LaneOutcome (.fcmp g e.1 a b k) s c noWrites
          (pushed c (fun l => fpCond k.toNat (e.2 (c.v a.toNat l)) (e.2 (c.v b.toNat l))))
          (fun l => if (e.2 (c.v a.toNat l)).isSig || (e.2 (c.v b.toNat l)).isSig then fInvalid else 0))

/-- The PRED forms that work in each lane by itself (R158, R161). The PRED forms over the active lanes (R157, R161):
long-latency operations of the execution class whose pushes take their place in program order. -/
def Obligations.PredicateWords : Prop :=
  (∀ (s : State) (g : BitVec 4) (a b : BitVec 6) (c : Ctx), a.toNat ≤ 15 → b.toNat ≤ 15 →
      (Issues s g [] c →
        (∀ e ∈ ([(Instr.pdup g a, fun x _ => x), (Instr.pnot g a, fun x _ => !x), (Instr.pand g a b, fun x y => x && y),
            (Instr.por g a b, fun x y => x || y), (Instr.pxor g a b, fun x y => x ^^ y)] : List (Instr × (Bool → Bool → Bool))),
          LaneOutcome e.1 s c noWrites
            (pushed c (fun l => e.2 ((c.preds l).getLsbD a.toNat) ((c.preds l).getLsbD b.toNat))) noFlags) ∧
        (∀ n : BitVec 6, 1 ≤ n.toNat → n.toNat ≤ 16 →
          LaneOutcome (.ppop g n) s c noWrites (fun l => c.preds l >>> n.toNat) noFlags) ∧
        LaneOutcome (.pswap g a b) s c noWrites
          (fun l =>
            let x := c.preds l
            if x.getLsbD a.toNat = x.getLsbD b.toNat then x else x ^^^ (1 <<< a.toNat) ^^^ (1 <<< b.toNat)) noFlags) ∧
      (∀ d : BitVec 6, Issues s g [.vw d.toNat] c →
        LaneOutcome (.pget g d) s c (fun l => [(d.toNat, (c.preds l).setWidth 32)]) c.preds noFlags) ∧
      (∀ d : BitVec 6, Issues s g [.vr d.toNat] c →
        LaneOutcome (.pset g d) s c noWrites (fun l => (c.v d.toNat l).setWidth 16) noFlags)) ∧
  (∀ (s : State) (g : BitVec 4) (d a : BitVec 6) (c : Ctx), a.toNat ≤ 15 →
      (Issues s g [] c →
        LongOutcome (.pany g a) s c true [] [] (pushed c (fun _ => c.act.any (fun l => (c.preds l).getLsbD a.toNat))) noFlags ∧
        LongOutcome (.pall g a) s c true [] [] (pushed c (fun _ => c.act.all (fun l => (c.preds l).getLsbD a.toNat))) noFlags) ∧
      (Issues s g [.vw d.toNat] c →
        LongOutcome (.pcnt g d a) s c true (c.act.map (c.dest d.toNat 0))
          (c.act.map (fun _ => c.act.countP (fun l => (c.preds l).getLsbD a.toNat))) c.preds noFlags ∧
        ∀ f : Nat, (f = 64 ∧ (∀ l ∈ c.act, (c.preds l).getLsbD a.toNat = true)) ∨
            (f ∈ c.act ∧ (c.preds f).getLsbD a.toNat = false ∧ ∀ l ∈ c.act, (c.preds l).getLsbD a.toNat = false → f ≤ l) →
          LongOutcome (.pfirst g d a) s c true (c.act.map (c.dest d.toNat 0)) (c.act.map (fun _ => f))
            (pushed c (fun l => decide (l < f))) noFlags))

/-! ## Scalars -/

/-- Scalar arithmetic (R190): once for each execution, on 64 bits; `s31` discards. -/
def Obligations.ScalarArithmetic : Prop :=
  ∀ (s : State) (g : BitVec 4) (d a b : BitVec 6) (c : Ctx), c.fmtOr 22 = 22 ∨ c.fmtOr 22 = 23 → d.toNat < 31 →
    Issues s g [.sw d.toNat, .sr a.toNat, .sr b.toNat] c →
    (∀ e ∈ ([(Instr.sand, fun x y => x &&& y), (Instr.sor, fun x y => x ||| y), (Instr.sxor, fun x y => x ^^^ y),
        (Instr.smulh, fun x y => BitVec.ofInt 64 (x.toInt * y.toInt / 2 ^ 64)),
        (Instr.smulhu, fun x y => BitVec.ofNat 64 (x.toNat * y.toNat / 2 ^ 64)),
        (Instr.sshl, fun x y => if 64 ≤ y.toNat % 2 ^ 32 then 0 else x <<< (y.toNat % 2 ^ 32)), (Instr.sshr, fun x y => x >>> (y.toNat % 2 ^ 32)),
        (Instr.ssar, fun x y => x.sshiftRight (y.toNat % 2 ^ 32)), (Instr.srot, fun x y => x.rotateLeft (y.toNat % 2 ^ 32 % 64)),
        (Instr.smin, fun x y => if x.toInt ≤ y.toInt then x else y), (Instr.smax, fun x y => if x.toInt ≤ y.toInt then y else x),
        (Instr.sminu, fun x y => if x.toNat ≤ y.toNat then x else y), (Instr.smaxu, fun x y => if x.toNat ≤ y.toNat then y else x)] :
        List (Bin × (DWord → DWord → DWord))),
      WideOutcome (e.1 g d a b) s c (.s d.toNat (e.2 (c.sc a.toNat) (c.sc b.toNat))) noFlags) ∧
    (∀ e ∈ ([(Instr.sadd, fun x y => x + y), (Instr.ssub, fun x y => x - y), (Instr.smul, fun x y => x * y)] :
        List (Bin × (Int → Int → Int))),
      let sg := decide (c.fmtOr 22 = 22)
      let z := e.2 (exact sg (c.sc a.toNat)) (exact sg (c.sc b.toNat))
      WideOutcome (e.1 g d a b) s c (.s d.toNat (BitVec.ofInt 64 (clamped 64 sg c.mods.sat z)))
        (fun _ => if clamped 64 sg c.mods.sat z = z then 0 else fSaturated))

/-- Scalar moves and immediates (R190, R191). `s31` reads zero and discards writes (R139): a scalar instruction that
names it as its destination leaves every register as it was, and the run goes on. -/
def Obligations.ScalarMoves : Prop :=
  (∀ (s : State) (g : BitVec 4) (d a : BitVec 6) (k : BitVec 10) (c : Ctx),
      (d.toNat < 31 →
        (Issues s g [.sw d.toNat] c → WideOutcome (.smovi g d k) s c (.s d.toNat (BitVec.ofInt 64 (c.immInt k false))) noFlags) ∧
        (Issues s g [.sw d.toNat, .sr a.toNat] c →
          WideOutcome (.saddi g d a k) s c (.s d.toNat (c.sc a.toNat + BitVec.ofInt 64 (c.immInt k false))) noFlags ∧
          WideOutcome (.smov g d a) s c (.s d.toNat (c.sc a.toNat)) noFlags) ∧
        (Issues s g [.sw d.toNat, .hr a.toNat] c → WideOutcome (.hget g d a) s c (.s d.toNat (c.hd a.toNat)) noFlags)) ∧
      (Issues s g [.hw d.toNat, .sr a.toNat] c → WideOutcome (.hput g d a) s c (.h d.toNat (c.sc a.toNat)) noFlags) ∧
      (Issues s g [.hw d.toNat] c → WideOutcome (.hnull g d) s c (.h d.toNat 0) noFlags)) ∧
  ((∀ c : Ctx, c.sc 31 = 0) ∧
    ∀ (s : State) (g : BitVec 4) (a b : BitVec 6) (k : BitVec 10) (c : Ctx),
      (Issues s g [.sw 31] c → PlainOutcome (.smovi g 31 k) s c) ∧
      (Issues s g [.sw 31, .sr a.toNat] c → PlainOutcome (.saddi g 31 a k) s c ∧ PlainOutcome (.smov g 31 a) s c) ∧
      (Issues s g [.sw 31, .hr a.toNat] c → PlainOutcome (.hget g 31 a) s c) ∧
      (c.fmtOr 22 = 22 ∨ c.fmtOr 22 = 23 → Issues s g [.sw 31, .sr a.toNat, .sr b.toNat] c →
        ∀ e ∈ ([Instr.sand, Instr.sor, Instr.sxor, Instr.smulh, Instr.smulhu, Instr.sshl, Instr.sshr, Instr.ssar, Instr.srot,
            Instr.smin, Instr.smax, Instr.sminu, Instr.smaxu] : List Bin),
          PlainOutcome (e g 31 a b) s c) ∧
      (c.fmtOr 22 = 22 ∨ c.fmtOr 22 = 23 → Issues s g [.sw 31, .sr a.toNat, .sr b.toNat] c →
        ∀ e ∈ ([(Instr.sadd, fun x y => x + y), (Instr.ssub, fun x y => x - y), (Instr.smul, fun x y => x * y)] :
            List (Bin × (Int → Int → Int))),
          let sg := decide (c.fmtOr 22 = 22)
          let z := e.2 (exact sg (c.sc a.toNat)) (exact sg (c.sc b.toNat))
          LaneOutcome (e.1 g 31 a b) s c noWrites c.preds
            (fun _ => if clamped 64 sg c.mods.sat z = z then 0 else fSaturated)))

/-! ## Floating point -/

/-- FP instructions that round once (R205, R206): each active lane's result is the rounding of the exact one under the
mode, the saturate bit and, for SR, one word of the generator, after which `v52` has advanced by 1 (R269). The values
are those of `fpAdd`, `fpMul` and `fpFma` of the model. -/
def Obligations.FloatShort : Prop :=
  ∀ (s : State) (g : BitVec 4) (d a b : BitVec 6) (c : Ctx), c.fmtOr 0 = 0 →
    ∀ e ∈ ([(Instr.fadd, false, fun m t w x y _ => fpAdd 0 m t w x y), (Instr.fsub, false, fun m t w x y _ => fpAdd 0 m t w x y.negate),
        (Instr.fmul, false, fun m t w x y _ => fpMul 0 m t w x y), (Instr.ffma, true, fun m t w x y z => fpFma 0 m t w x y z)] :
        List (Bin × Bool × (RMode → Bool → Word → Val → Val → Val → Nat × BitVec 16))),
      Issues s g ([.vw d.toNat, .vr a.toNat, .vr b.toNat] ++ (if e.2.1 then [.vr d.toNat] else []) ++ c.drawArgs) c →
      LaneOutcome (e.1 g d a b) s c
        (fun l => drawWrites c l 1 ++ [(d.toNat, BitVec.ofNat 32 (e.2.2 c.rmode c.mods.sat (drawWord c l 0)
          (val32 (c.v a.toNat l)) (val32 (c.v b.toNat l)) (val32 (c.v d.toNat l))).1)]) c.preds
        (fun l => (e.2.2 c.rmode c.mods.sat (drawWord c l 0) (val32 (c.v a.toNat l)) (val32 (c.v b.toNat l))
          (val32 (c.v d.toNat l))).2)

/-- FP instructions that round nothing (R206, R207, R209): a NaN becomes the canonical NaN in `fabs` and `fneg`, with
INVALID for a signalling one; other values have only bit 31 changed. -/
def Obligations.FloatPlain : Prop :=
  ∀ (s : State) (g : BitVec 4) (d a b : BitVec 6) (c : Ctx), c.fmtOr 0 = 0 →
    (Issues s g [.vw d.toNat, .vr a.toNat] c →
      (∀ e ∈ ([(Instr.fabs, fun x => x &&& 0x7FFFFFFF), (Instr.fneg, fun x => x ^^^ 0x80000000)] : List (Un × (Word → Word))),
        LaneOutcome (e.1 g d a) s c
          (fun l => [(d.toNat, if (val32 (c.v a.toNat l)).isNan then 0x7FC00000 else e.2 (c.v a.toNat l))]) c.preds
          (fun l => if (val32 (c.v a.toNat l)).isSig then fInvalid else 0)) ∧
      LaneOutcome (.fcls g d a) s c (fun l => [(d.toNat, BitVec.ofNat 32 (fpClass (c.v a.toNat l)))]) c.preds noFlags) ∧
    (Issues s g [.vw d.toNat, .vr a.toNat, .vr b.toNat] c →
      ∀ e ∈ ([(Instr.fmin, false), (Instr.fmax, true)] : List (Bin × Bool)),
        LaneOutcome (e.1 g d a b) s c
          (fun l => [(d.toNat, BitVec.ofNat 32 (fpMinMax fmtFP32 e.2 (c.v a.toNat l).toNat (c.v b.toNat l).toNat).1)]) c.preds
          (fun l => (fpMinMax fmtFP32 e.2 (c.v a.toNat l).toNat (c.v b.toNat l).toNat).2))

/-- The long FP instructions (R208): one operation of the execution class; under SR each active lane draws one word.
The long FP instructions under SR (R208, R269): as without it, with the word that each lane has drawn, and `v52` of
each active lane advanced by 1 at once. -/
def Obligations.FloatLong : Prop :=
  (∀ (s : State) (g : BitVec 4) (d a b : BitVec 6) (c : Ctx), c.fmtOr 0 = 0 → c.rmode ≠ .sr →
      (Issues s g [.vw d.toNat, .vr a.toNat] c →
        ∀ e ∈ ([(Instr.frcp, fpRcp), (Instr.fsqrt, fpSqrt), (Instr.frsq, fpRsq), (Instr.fexp2, fpExp2), (Instr.flog2, fpLog2),
            (Instr.ftanh, fpTanh)] : List (Un × (RMode → Bool → Word → Val → Nat × BitVec 16))),
          LongOutcome (e.1 g d a) s c true (c.act.map (c.dest d.toNat 0))
            (c.act.map (fun l => (e.2 c.rmode c.mods.sat 0 (val32 (c.v a.toNat l))).1)) c.preds
            (fun l => (e.2 c.rmode c.mods.sat 0 (val32 (c.v a.toNat l))).2)) ∧
      (Issues s g [.vw d.toNat, .vr a.toNat, .vr b.toNat] c →
        LongOutcome (.fdiv g d a b) s c true (c.act.map (c.dest d.toNat 0))
          (c.act.map (fun l => (fpDiv c.rmode c.mods.sat 0 (val32 (c.v a.toNat l)) (val32 (c.v b.toNat l))).1)) c.preds
          (fun l => (fpDiv c.rmode c.mods.sat 0 (val32 (c.v a.toNat l)) (val32 (c.v b.toNat l))).2))) ∧
  (∀ (s : State) (g : BitVec 4) (d a b : BitVec 6) (c : Ctx), c.fmtOr 0 = 0 → c.rmode = .sr →
      ∀ e ∈ ([(Instr.frcp g d a, [], fun t w x _ => fpRcp .sr t w x), (Instr.fsqrt g d a, [], fun t w x _ => fpSqrt .sr t w x),
          (Instr.frsq g d a, [], fun t w x _ => fpRsq .sr t w x), (Instr.fexp2 g d a, [], fun t w x _ => fpExp2 .sr t w x),
          (Instr.flog2 g d a, [], fun t w x _ => fpLog2 .sr t w x), (Instr.ftanh g d a, [], fun t w x _ => fpTanh .sr t w x),
          (Instr.fdiv g d a b, [.vr b.toNat], fun t w x y => fpDiv .sr t w x y)] :
          List (Instr × List Arg × (Bool → Word → Val → Val → Nat × BitVec 16))),
        Issues s g ([.vw d.toNat, .vr a.toNat] ++ e.2.1 ++ [.vr 52, .vr 53]) c →
        let res := fun l => e.2.2 c.mods.sat (drawWord c l 0) (val32 (c.v a.toNat l)) (val32 (c.v b.toNat l))
        DrawOutcome e.1 s c (fun l => drawWrites c l 1) (c.act.map (c.dest d.toNat 0)) (c.act.map (fun l => (res l).1))
          (fun l => (res l).2))

/-- The packed families (R210, R211): elements 0 and 1 of each active lane, element 0 rounding first; `hdot2` adds its
two products to an FP32 value. -/
def Obligations.HalfPairs : Prop :=
  ∀ (s : State) (g : BitVec 4) (d a b : BitVec 6) (c : Ctx),
    (∀ e ∈ ([(Instr.haddBf16, 2, false, fun m t w x y _ => fpAdd 2 m t w x y),
        (Instr.hsubBf16, 2, false, fun m t w x y _ => fpAdd 2 m t w x y.negate),
        (Instr.hmulBf16, 2, false, fun m t w x y _ => fpMul 2 m t w x y),
        (Instr.hfmaBf16, 2, true, fun m t w x y z => fpFma 2 m t w x y z),
        (Instr.haddFp16, 1, false, fun m t w x y _ => fpAdd 1 m t w x y),
        (Instr.hsubFp16, 1, false, fun m t w x y _ => fpAdd 1 m t w x y.negate),
        (Instr.hmulFp16, 1, false, fun m t w x y _ => fpMul 1 m t w x y),
        (Instr.hfmaFp16, 1, true, fun m t w x y z => fpFma 1 m t w x y z)] :
        List (Bin × Nat × Bool × (RMode → Bool → Word → Val → Val → Val → Nat × BitVec 16))),
      Issues s g ([.vw d.toNat, .vr a.toNat, .vr b.toNat] ++ (if e.2.2.1 then [.vr d.toNat] else []) ++ c.drawArgs) c →
      let el := fun l i => e.2.2.2 c.rmode c.mods.sat (drawWord c l i) (halfVal e.2.1 (c.v a.toNat l) i)
        (halfVal e.2.1 (c.v b.toNat l) i) (halfVal e.2.1 (c.v d.toNat l) i)
      LaneOutcome (e.1 g d a b) s c
        (fun l => drawWrites c l 2 ++ [(d.toNat, BitVec.ofNat 32 ((el l 0).1 + (el l 1).1 * 2 ^ 16))]) c.preds
        (fun l => (el l 0).2 ||| (el l 1).2)) ∧
    (∀ e ∈ ([(Instr.hminBf16, 2, false), (Instr.hmaxBf16, 2, true), (Instr.hminFp16, 1, false), (Instr.hmaxFp16, 1, true)] :
        List (Bin × Nat × Bool)),
      Issues s g [.vw d.toNat, .vr a.toNat, .vr b.toNat] c →
      let el := fun l i => fpMinMax (halfFmt e.2.1) e.2.2 (halfOf (c.v a.toNat l) i) (halfOf (c.v b.toNat l) i)
      LaneOutcome (e.1 g d a b) s c (fun l => [(d.toNat, BitVec.ofNat 32 ((el l 0).1 + (el l 1).1 * 2 ^ 16))]) c.preds
        (fun l => (el l 0).2 ||| (el l 1).2)) ∧
    (∀ e ∈ ([(Instr.hdot2Bf16, 2), (Instr.hdot2Fp16, 1)] : List (Bin × Nat)),
      Issues s g ([.vw d.toNat, .vr a.toNat, .vr b.toNat, .vr d.toNat] ++ c.drawArgs) c →
      let r := fun l => fpDot2 c.rmode c.mods.sat (drawWord c l 0) (halfVal e.2 (c.v a.toNat l) 0) (halfVal e.2 (c.v a.toNat l) 1)
        (halfVal e.2 (c.v b.toNat l) 0) (halfVal e.2 (c.v b.toNat l) 1) (val32 (c.v d.toNat l))
      LaneOutcome (e.1 g d a b) s c (fun l => drawWrites c l 1 ++ [(d.toNat, BitVec.ofNat 32 (r l).1)]) c.preds (fun l => (r l).2))

/-- Conversions between integers and floating point (R125, R212): B names the integer format, `mod` the float format.
Conversions between floating-point formats (R125, R212, R213). -/
def Obligations.Conversions : Prop :=
  (∀ (s : State) (g : BitVec 4) (d a : BitVec 6) (c : Ctx), c.fmtOr 0 ≤ 2 →
      ∀ k ∈ ([(16, 8, 32, true), (17, 8, 32, false), (18, 16, 32, true), (19, 16, 32, false), (20, 32, 32, true), (21, 32, 32, false),
          (22, 64, 64, true), (23, 64, 64, false)] : List (BitVec 6 × Nat × Nat × Bool)),
        let n := k.2.1
        let w := k.2.2.1
        let lo : Int := if k.2.2.2 then -(2 ^ (n - 1)) else 0
        let hi : Int := if k.2.2.2 then 2 ^ (n - 1) - 1 else 2 ^ n - 1
        (Issues s g ([.vw d.toNat, .src w a.toNat] ++ c.drawArgs) c →
          let r := fun l => roundTo (c.fmtOr 0) c.rmode c.mods.sat (drawWord c l 0)
            (ofInt (exact k.2.2.2 (BitVec.ofNat n (c.op w a.toNat l))))
          LaneOutcome ((if k.2.2.2 then Instr.i2f else Instr.u2f) g d a k.1) s c
            (fun l => drawWrites c l 1 ++ [(d.toNat, BitVec.ofNat 32 (r l).1)]) c.preds (fun l => (r l).2)) ∧
        (Issues s g ([.dst w d.toNat, .vr a.toNat] ++ c.drawArgs) c →
          let r := fun l => toIntClamp c.rmode (drawWord c l 0) lo hi (floatVal (c.fmtOr 0) (c.v a.toNat l))
          LaneOutcome ((if k.2.2.2 then Instr.f2i else Instr.f2u) g d a k.1) s c
            (fun l => drawWrites c l 1 ++ outWords w d.toNat (BitVec.ofInt w (r l).1).toNat) c.preds (fun l => (r l).2)) ∧
        (k.2.2.2 = true → Issues s g [.dst w d.toNat, .vr a.toNat] c →
          let r := fun l => toIntClamp .rz 0 lo hi (floatVal (c.fmtOr 0) (c.v a.toNat l))
          LaneOutcome (.f2iz g d a k.1) s c
            (fun l => outWords w d.toNat (BitVec.ofInt w (r l).1).toNat) c.preds (fun l => (r l).2))) ∧
  (∀ (s : State) (g : BitVec 4) (d a b : BitVec 6) (c : Ctx),
      let x := fun l => c.v a.toNat l
      let sig := fun (v : Val) => if v.isSig then fInvalid else 0
      (∀ e ∈ ([(Instr.f2bf, 2), (Instr.f2h, 1)] : List (Un × Nat)),
        Issues s g ([.vw d.toNat, .vr a.toNat] ++ c.drawArgs) c →
        let r := fun l => roundTo e.2 c.rmode c.mods.sat (drawWord c l 0) (val32 (x l))
        LaneOutcome (e.1 g d a) s c (fun l => drawWrites c l 1 ++ [(d.toNat, BitVec.ofNat 32 (r l).1)]) c.preds
          (fun l => (r l).2 ||| sig (val32 (x l)))) ∧
      (∀ e ∈ ([(Instr.bf2f, fmtBF16), (Instr.h2f, fmtFP16)] : List (Un × FpFmt)),
        Issues s g [.vw d.toNat, .vr a.toNat] c →
        let v := fun l => decodeFp e.2 ((x l).toNat % 2 ^ 16)
        LaneOutcome (e.1 g d a) s c (fun l => [(d.toNat, rne32 (v l))]) c.preds (fun l => sig (v l))) ∧
      (3 ≤ b.toNat → b.toNat ≤ 9 → (b.toNat = 9 → c.book.isSome ∧ c.widePending .cb = false) →
        (Issues s g ([.vw d.toNat, .vr a.toNat] ++ (if b = 9 then [] else c.drawArgs)) c →
          let r := fun l => encodeElem b.toNat (x l) (c.book.getD 0) none c.rmode c.mods.sat (if b = 9 then 0 else drawWord c l 0)
          LaneOutcome (.f2n g d a b) s c
            (fun l => (if b = 9 then [] else drawWrites c l 1) ++ [(d.toNat, BitVec.ofNat 32 (r l).1)]) c.preds
            (fun l => (r l).2 ||| sig (val32 (x l)))) ∧
        (Issues s g [.vw d.toNat, .vr a.toNat] c →
          let r := fun l => decodeElem b.toNat (x l).toNat (c.book.getD 0) none
          LaneOutcome (.n2f g d a b) s c (fun l => [(d.toNat, (r l).1)]) c.preds (fun l => (r l).2))))

/-- MX scaling and coding (R214 to R217): `mxscale` over the active lanes of each half, `mxq` and `mxdq` in each lane,
`mxpack` and `mxunp` between codes and packed planes. -/
def Obligations.MxBlocks : Prop :=
  ∀ (s : State) (g : BitVec 4) (d a b : BitVec 6) (c : Ctx), 3 ≤ c.fmtOr 3 → c.fmtOr 3 ≤ 8 →
    let f := c.fmtOr 3
    let x := fun l => c.v a.toNat l
    (Issues s g [.vw d.toNat, .vr a.toNat] c →
      LongOutcome (.mxscale g d a) s c true (c.act.map (c.dest d.toNat 0))
        (c.act.map (fun l => blockScale f ((c.act.filter (fun k => decide (k / 32 = l / 32))).map (fun k => val32 (x k)))))
        c.preds noFlags) ∧
    (Issues s g ([.vw d.toNat, .vr a.toNat, .vr b.toNat] ++ c.drawArgs) c →
      let k := fun l => (c.v b.toNat l).toNat % 256
      let r := fun l => encodeElem f (x l) 0 (some (k l)) c.rmode c.mods.sat (drawWord c l 0)
      LaneOutcome (.mxq g d a b) s c (fun l => drawWrites c l 1 ++ [(d.toNat, BitVec.ofNat 32 (r l).1)]) c.preds
        (fun l => (r l).2 ||| (if k l ≠ 255 ∧ (val32 (x l)).isSig then fInvalid else 0))) ∧
    (Issues s g [.vw d.toNat, .vr a.toNat, .vr b.toNat] c →
      let r := fun l => decodeElem f (x l).toNat 0 (some ((c.v b.toNat l).toNat % 256))
      LaneOutcome (.mxdq g d a b) s c (fun l => [(d.toNat, (r l).1)]) c.preds (fun l => (r l).2)) ∧
    (∀ p : BitVec 6, p = 0 ∨ (p = 1 ∧ hasComp f = true) →
      let n := if p = 1 then 2 else planeBits f
      let k := 32 / n
      (Issues s g [.vw d.toNat, .xr a.toNat (c.pairs (fun l => ((List.range k).map (fun j => k * l + j)).filter c.act.contains))] c →
        LongOutcome (.mxpack g d a p) s c true (c.act.map (c.dest d.toNat 0))
          (c.act.map (fun l => ((List.range k).map (fun j =>
            if k * l + j ∈ c.act then mxPlaneOf f p.toNat (x (k * l + j)).toNat * 2 ^ (n * j) else 0)).sum)) c.preds noFlags) ∧
      (Issues s g ([.vw d.toNat, .xr a.toNat (c.pairs (fun l => [l / k]))] ++ (if p = 1 then [.vr d.toNat] else [])) c →
        LongOutcome (.mxunp g d a p) s c true (c.act.map (c.dest d.toNat 0))
          (c.act.map (fun l =>
            let w := if c.b.mask.getLsbD (l / k) then (x (l / k)).toNat else 0
            let e := w / 2 ^ (n * (l % k)) % 2 ^ n
            if p = 0 then e else (c.v d.toNat l).toNat % 16 + e * 16)) c.preds noFlags))

/-! ## Across lanes -/

/-- Shuffles (R152, R218, R219): each active lane takes the value of its source lane, 0 from a lane outside the
bundle. -/
def Obligations.Shuffles : Prop :=
  ∀ (s : State) (g : BitVec 4) (d a b : BitVec 6) (c : Ctx),
    let dist := if b.toNat < 32 then b.toNat else 64 / 2 ^ (b.toNat % 8 + 1)
    ∀ e ∈ ([(Instr.shfl g d a b, [.vr b.toNat], fun l => (c.v b.toNat l).toNat % 64),
        (Instr.shfup g d a b, [.need (decide (b.toNat < 40))], fun l => if dist ≤ l then l - dist else l),
        (Instr.shfdn g d a b, [.need (decide (b.toNat < 40))], fun l => if l + dist < 64 then l + dist else l),
        (Instr.shfxor g d a b, [.need (decide (b.toNat < 40))], fun l => l ^^^ dist),
        (Instr.bcast g d a b, [.need (decide (b.toNat < 40))], fun _ => dist)] : List (Instr × List Arg × (Nat → Nat))),
      Issues s g ([.vw d.toNat, .xr a.toNat (c.pairs (fun l => [e.2.2 l]))] ++ e.2.1) c →
      LongOutcome e.1 s c true (c.act.map (c.dest d.toNat 0))
        (c.act.map (fun l => if c.b.mask.getLsbD (e.2.2 l) then (c.v a.toNat (e.2.2 l)).toNat else 0)) c.preds noFlags

/-- `redlog` and `scan` (R130, R131, R220): lanes that are not active enter with the identity; every active lane
receives its result, and under codes 8 to 10 the conditions of all the steps. -/
def Obligations.Reductions : Prop :=
  ∀ (s : State) (g : BitVec 4) (d a b : BitVec 6) (c : Ctx),
    let op := b.toNat % 16
    let w := if b.getLsbD 4 then 64 else 32
    let y := (List.range 64).map (fun l => if l ∈ c.act then c.op w a.toNat l else redIdentity op w)
    let dests := c.act.flatMap (fun l => (List.range (w / 32)).map (fun i => c.dest d.toNat i l))
    op ≤ 10 → (w = 64 → op < 8) → Issues s g [.dst w d.toNat, .src w a.toNat] c →
    (b.getLsbD 5 = false →
      LongOutcome (.redlog g d a b) s c true dests
        (c.act.flatMap (fun l => wordsOf (w / 32) ((redFrom op w 6 0 y 0).1.getD l 0))) c.preds (fun _ => (redFrom op w 6 0 y 0).2)) ∧
    (b.getLsbD 5 = false →
      LongOutcome (.scan g d a b) s c true dests
        (c.act.flatMap (fun l => wordsOf (w / 32) ((scanFrom op w 6 0 y 0).1.getD l 0))) c.preds
        (fun _ => (scanFrom op w 6 0 y 0).2)) ∧
    (b.getLsbD 5 = true →
      LongOutcome (.scan g d a b) s c true dests
        (c.act.flatMap (fun l => wordsOf (w / 32)
          (if l = 0 then redIdentity op w else (scanFrom op w 6 0 y 0).1.getD (l - 1) 0))) c.preds
        (fun _ => (scanFrom op w 6 0 y 0).2))

/-- The steps of R130 combine every lane and those of R131 every lane up to the lane's own: under the integer
operation codes 0 to 7 of R220, after the six steps each position holds the operation over all 64 values, or over
those at and below it. -/
def Obligations.ReductionTotals : Prop :=
  ∀ e ∈ ([(0, fun w x y => (x + y) % 2 ^ w), (1, fun _ x y => x &&& y), (2, fun _ x y => x ||| y), (3, fun _ x y => x ^^^ y),
      (4, fun w x y => if (BitVec.ofNat w x).toInt ≤ (BitVec.ofNat w y).toInt then x else y),
      (5, fun w x y => if (BitVec.ofNat w x).toInt ≤ (BitVec.ofNat w y).toInt then y else x),
      (6, fun _ x y => min x y), (7, fun _ x y => max x y)] : List (Nat × (Nat → Nat → Nat → Nat))),
  ∀ (w : Nat) (y : List Nat), w = 32 ∨ w = 64 → y.length = 64 → (∀ x ∈ y, x < 2 ^ w) →
    ∀ l, l < 64 →
      (redFrom e.1 w 6 0 y 0).1.getD l 0 = y.foldl (e.2 w) (redIdentity e.1 w) ∧
      (scanFrom e.1 w 6 0 y 0).1.getD l 0 = (y.take (l + 1)).foldl (e.2 w) (redIdentity e.1 w)

/-- The remaining cross-lane forms (R221 to R223): `argmax`, `kth`, `ballot`, `permb`, `vtos` and `stov`. -/
def Obligations.CrossLaneRest : Prop :=
  ∀ (s : State) (g : BitVec 4) (d a b : BitVec 6) (c : Ctx),
    let x := fun l => c.v a.toNat l
    (c.fmtOr 0 = 0 ∨ c.fmtOr 0 = 20 ∨ c.fmtOr 0 = 21 →
      (Issues s g [.pw d.toNat, .vr a.toNat] c →
        let r := argmaxOf (c.fmtOr 0) (c.act.map (fun l => (l, x l)))
        LongOutcome (.argmax g d a) s c true (c.act.flatMap (fun l => [c.dest d.toNat 0 l, c.dest d.toNat 1 l]))
          (c.act.flatMap (fun _ => [r.1, r.2])) c.preds
          (fun _ => if c.fmtOr 0 = 0 ∧ c.act.any (fun l => (val32 (x l)).isSig) = true then fInvalid else 0)) ∧
      (Issues s g [.vw d.toNat, .vr a.toNat, .sr b.toNat] c →
        LongOutcome (.kth g d a b) s c true (c.act.map (c.dest d.toNat 0))
          (c.act.map (fun _ => kthOf (c.fmtOr 0) (c.sc b.toNat).toNat (c.act.map x))) c.preds
          (fun _ => if c.fmtOr 0 = 0 ∧ c.act.any (fun l => (val32 (x l)).isSig) = true then fInvalid else 0))) ∧
    (a.toNat ≤ 15 → Issues s g [.pw d.toNat] c →
      LongOutcome (.ballot g d a) s c true (c.act.flatMap (fun l => [c.dest d.toNat 0 l, c.dest d.toNat 1 l]))
        (c.act.flatMap (fun _ => wordsOf 2 (maskOf (c.act.filter (fun l => (c.preds l).getLsbD a.toNat))).toNat)) c.preds noFlags) ∧
    (Issues s g [.vw d.toNat, .qr a.toNat, .vr b.toNat] c →
      let byte := fun l i =>
        let q := (c.v b.toNat l).toNat / 2 ^ (8 * i) % 256
        if 128 ≤ q then 0 else (if a.toNat < 60 then (c.v (a.toNat + q % 16 / 4) l).toNat else 0) / 2 ^ (8 * (q % 4)) % 256
      LongOutcome (.permb g d a b) s c true (c.act.map (c.dest d.toNat 0))
        (c.act.map (fun l => byte l 0 + byte l 1 * 2 ^ 8 + byte l 2 * 2 ^ 16 + byte l 3 * 2 ^ 24)) c.preds noFlags) ∧
    (intFmt (c.fmtOr 20) →
      let w := intWidth (c.fmtOr 20)
      let k := (c.sc b.toNat).toNat % 64
      (Issues s g ([.sw d.toNat, .sr b.toNat] ++ laneReads c w a.toNat k) c →
        LongOutcome (.vtos g d a b) s c true [if d = 31 then .drop else .s d.toNat]
          [if c.b.mask.getLsbD k then c.op w a.toNat k else 0] c.preds noFlags) ∧
      (Issues s g [.dst w d.toNat, .sr a.toNat] c →
        LongOutcome (.stov g d a) s c true (c.act.flatMap (fun l => (List.range (w / 32)).map (fun i => c.dest d.toNat i l)))
          (c.act.flatMap (fun _ => wordsOf (w / 32) (c.sc a.toNat).toNat)) c.preds noFlags))

/-- The generator (R268 to R270): the words of a counter pair, and the party's key and stream. -/
def Obligations.Generator : Prop :=
  ∀ (s : State) (g : BitVec 4) (d a : BitVec 6) (c : Ctx),
    (Issues s g [.vw d.toNat, .pr a.toNat] c →
      let word := fun l => c.galWord l ((c.v64 a.toNat l).setWidth 32) ((c.v64 a.toNat l >>> 32).setWidth 32)
      (∀ e ∈ ([(Instr.rngu, fun w => w.toNat),
          (Instr.unif, fun w => (rne32 (Val.exact false (w >>> 8).toNat (-24))).toNat), (Instr.gumb, gumbelOf)] :
          List (Un × (Word → Nat))),
        LongOutcome (e.1 g d a) s c true (c.act.map (c.dest d.toNat 0)) (c.act.map (fun l => e.2 (word l))) c.preds noFlags)) ∧
    (a.toNat ≤ 30 → Issues s g [.sr a.toNat, .sr (a.toNat + 1)] c →
      WideOutcome (.rngkey g a) s c (.rngKey (c.sc a.toNat) (c.sc (a.toNat + 1))) noFlags) ∧
    (Issues s g [.sr a.toNat] c → WideOutcome (.rngstrm g a) s c (.rngStream ((c.sc a.toNat).setWidth 32)) noFlags)

/-- The codebook forms that compute (R224 to R226), in a party that holds a codebook; the clearing of it by `cbld`
with address 0, and the loading of 32 bytes of this module, read under the FRAME binding, as one operation of the
memory class. -/
def Obligations.Codebooks : Prop :=
  ∀ (s : State) (g : BitVec 4) (d a : BitVec 6) (c : Ctx), c.widePending .cb = false →
    (Issues s g [.vw d.toNat, .vr a.toNat] c →
      ∀ k ∈ c.book.toList,
        LaneOutcome (.cbdec g d a) s c
          (fun l => [(d.toNat, rne32 (decodeFp fmtBF16 (k.toNat / 2 ^ (16 * ((c.v a.toNat l).toNat % 16)) % 2 ^ 16)))]) c.preds
          (fun l => if (decodeFp fmtBF16 (k.toNat / 2 ^ (16 * ((c.v a.toNat l).toNat % 16)) % 2 ^ 16)).isSig then fInvalid else 0) ∧
        LaneOutcome (.cbenc g d a) s c
          (fun l => [(d.toNat, BitVec.ofNat 32 (cb4Encode k (val32 (c.v a.toNat l))).1)]) c.preds
          (fun l => (cb4Encode k (val32 (c.v a.toNat l))).2) ∧
        LaneOutcome (.cbrd g d a) s c
          (fun l => [(d.toNat, BitVec.ofNat 32 (k.toNat / 2 ^ (16 * ((c.v a.toNat l).toNat % 16)) % 2 ^ 16))]) c.preds noFlags) ∧
    (Issues s g [.sr a.toNat] c → c.sc a.toNat = 0 → WideOutcome (.cbld g a) s c (.cb none) noFlags) ∧
    (Issues s g [.sr a.toNat] c → c.sc a.toNat ≠ 0 → c.acqPending = false → c.p.fenceR = [] →
      let va := (c.sc a.toNat).toNat
      ∀ x ∈ (placeOf c 32 true false va).toList, (∀ l ∈ c.act, atHand c 32 l x = true) →
        ReadOutcome (.cbld g a) s c { afterReads c [(x, 32)] with keys := c.s.keys + 1 }
          (noted c va x (joined c c.p.pend (PendOp.mk' c false [.cb] [readNum c x 32]))) c.preds c.b.watched)

/-- Limb arithmetic on whole integers of a binding (R196 to R201): each integer with an active lane gives one result
over its limbs, and its flags C and V. Flags of other integers stand. The other limb forms (R195, R199 to R201):
binding and releasing, comparison, multiply-accumulate with its high limb in the multiplier's place, and `lcarry`.
Where limb forms trap (R195, R196, R198, R203): LIMB_WIDTH on every active lane in an unbound party, BOUND_SPLIT on
the active lanes of integers that the guard divides, LIMB_WIDTH on the lanes of integers whose shift count is their
width or more; `lbind` and `lunbind` in the order of R195. -/
def Obligations.LimbWords : Prop :=
  (∀ (s : State) (g : BitVec 4) (d a b : BitVec 6) (c : Ctx), WholeIntegers c →
      let n := 64 * c.limbLanes
      let limbs := fun i => (List.range c.limbLanes).map (fun j => i * c.limbLanes + j)
      let big := fun code i => ((limbs i).zipIdx.map (fun e => (c.v64 code e.1).toNat * 2 ^ (64 * e.2))).sum
      let is := (List.range (64 / c.limbLanes)).filter (fun i => c.act.contains (i * c.limbLanes))
      let count := fun i => (c.v b.toNat (i * c.limbLanes)).toNat
      let out := fun (i : Instr) (f : Nat → Nat × Bool × Bool) =>
        LimbOutcome i s c (is.flatMap (fun i => (limbs i).flatMap (fun l => [c.dest d.toNat 0 l, c.dest d.toNat 1 l])))
          (is.flatMap (fun i => wordsOf (2 * c.limbLanes) (f i).1)) (is.map (fun i => (i, (f i).2)))
      (Issues s g [.pw d.toNat, .pr a.toNat, .pr b.toNat] c →
        out (.ladd g d a b) (fun i =>
          let x := BitVec.ofNat n (big a.toNat i)
          let y := BitVec.ofNat n (big b.toNat i)
          ((x + y).toNat, decide (2 ^ n ≤ x.toNat + y.toNat), decide ((x + y).toInt ≠ x.toInt + y.toInt))) ∧
        out (.lsub g d a b) (fun i =>
          let x := BitVec.ofNat n (big a.toNat i)
          let y := BitVec.ofNat n (big b.toNat i)
          ((x - y).toNat, decide (x.toNat < y.toNat), decide ((x - y).toInt ≠ x.toInt - y.toInt)))) ∧
      (Issues s g [.pw d.toNat, .pr a.toNat] c →
        out (.lneg g d a) (fun i =>
          let x := BitVec.ofNat n (big a.toNat i)
          ((-x).toNat, decide (x ≠ 0), decide ((-x).toInt ≠ -x.toInt)))) ∧
      (Issues s g [.pw d.toNat, .pr a.toNat, .vr b.toNat] c → (∀ i ∈ is, count i < n) →
        out (.lshl g d a b) (fun i =>
          let x := BitVec.ofNat n (big a.toNat i)
          ((x <<< count i).toNat, decide (0 < count i) && x.getLsbD (n - count i),
            decide ((x <<< count i).toInt ≠ x.toInt * 2 ^ count i))) ∧
        out (.lshr g d a b) (fun i =>
          let x := BitVec.ofNat n (big a.toNat i)
          ((x >>> count i).toNat, decide (0 < count i) && x.getLsbD (count i - 1), false)) ∧
        out (.lsar g d a b) (fun i =>
          let x := BitVec.ofNat n (big a.toNat i)
          ((x.sshiftRight (count i)).toNat, decide (0 < count i) && x.getLsbD (count i - 1), false)))) ∧
  (∀ (s : State) (g : BitVec 4) (d a b : BitVec 6) (c : Ctx),
      (∀ n : BitVec 6, 1 ≤ n.toNat → n.toNat ≤ 6 → c.limbCtl = 0 → maskOf c.act = c.p.mask →
        (∀ l ∈ c.act, ∀ k ∈ List.range 64, k / 2 ^ n.toNat = l / 2 ^ n.toNat → k ∈ c.act) → Issues s g [] c →
        BindOutcome (.lbind g n) s c (n.setWidth 32)) ∧
      (Issues s g [] c →
        (c.limbCtl = 0 → PlainOutcome (.lunbind g) s c) ∧
        (c.limbCtl ≠ 0 → maskOf c.act = c.p.mask → BindOutcome (.lunbind g) s c 0)) ∧
      (WholeIntegers c →
        let m := c.limbLanes
        let n := 64 * m
        let limbs := fun i => (List.range m).map (fun j => i * m + j)
        let big := fun code i => ((limbs i).zipIdx.map (fun e => (c.v64 code e.1).toNat * 2 ^ (64 * e.2))).sum
        let is := (List.range (64 / m)).filter (fun i => c.act.contains (i * m))
        (Issues s g [.pr a.toNat, .pr b.toNat] c →
          ∀ e ∈ ([((0 : BitVec 6), fun _ x y => decide (x = y)), (1, fun _ x y => decide (x ≠ y)),
              (2, fun _ x y => decide (x.toInt < y.toInt)), (3, fun _ x y => decide (x.toInt ≤ y.toInt)),
              (4, fun _ x y => decide (x.toInt > y.toInt)), (5, fun _ x y => decide (x.toInt ≥ y.toInt)),
              (6, fun _ x y => decide (x.toNat < y.toNat)), (7, fun _ x y => decide (x.toNat ≤ y.toNat)),
              (8, fun _ x y => decide (x.toNat > y.toNat)), (9, fun _ x y => decide (x.toNat ≥ y.toNat)),
              (10, fun _ x y => decide (x &&& y ≠ 0)), (11, fun _ x y => decide (x &&& y = 0))] :
              List (BitVec 6 × ((w : Nat) → BitVec w → BitVec w → Bool))),
            LongOutcome (.lcmp g e.1 a b) s c true [] []
              (pushed c (fun l => e.2 n (BitVec.ofNat n (big a.toNat (l / m))) (BitVec.ofNat n (big b.toNat (l / m))))) noFlags) ∧
        (Issues s g [.pw d.toNat, .pr d.toNat, .pr a.toNat, .pr b.toNat] c →
          let t := fun i => big d.toNat i + big a.toNat i * (c.v64 b.toNat (i * m)).toNat
          LimbOutcome (.lmac g d a b) s c
            (is.flatMap (fun i => (limbs i).flatMap (fun l => [c.dest d.toNat 0 l, c.dest d.toNat 1 l]) ++
              [c.dest b.toNat 0 (i * m), c.dest b.toNat 1 (i * m)]))
            (is.flatMap (fun i => wordsOf (2 * m) (t i % 2 ^ n) ++ wordsOf 2 (t i / 2 ^ n)))
            (is.map (fun i => (i, decide (t i / 2 ^ n ≠ 0), false)))) ∧
        (Issues s g [.vw d.toNat] c →
          LaneOutcome (.lcarry g d) s c
            (fun l => [(d.toNat, (if c.limbFlags.getLsbD (2 * (l / m)) then 1 else 0) +
              (if c.limbFlags.getLsbD (2 * (l / m) + 1) then 2 else 0))]) c.preds noFlags))) ∧
  (∀ (s : State) (g : BitVec 4) (d a b n : BitVec 6) (c : Ctx),
      let traps := fun (i : Instr) (ts : List Trap) => exec i s = .next (s.raise c.pid c.b.id ts c.here false)
      let cut := c.act.filter (fun l => (integerOf c.limbCtl l).any (fun k => !c.act.contains k))
      let m := c.limbLanes
      let wide := ((List.range (64 / m)).filter (fun i =>
        c.act.any (fun l => decide (l / m = i)) && decide (64 * m ≤ (c.v b.toNat (i * m)).toNat))).flatMap (fun i =>
          (List.range m).map (fun j => i * m + j))
      let shifts := [Instr.lshl g d a b, Instr.lshr g d a b, Instr.lsar g d a b]
      let all := maskOf c.act = c.p.mask
      (∀ e ∈ ([(Instr.ladd g d a b, [.pw d.toNat, .pr a.toNat, .pr b.toNat]),
          (Instr.lsub g d a b, [.pw d.toNat, .pr a.toNat, .pr b.toNat]), (Instr.lneg g d a, [.pw d.toNat, .pr a.toNat]),
          (Instr.lcmp g d a b, [.pr a.toNat, .pr b.toNat, .need (decide (d.toNat ≤ 11))]),
          (Instr.lmac g d a b, [.pw d.toNat, .pr d.toNat, .pr a.toNat, .pr b.toNat]), (Instr.lcarry g d, [.vw d.toNat])] :
          List (Instr × List Arg)), Issues s g e.2 c →
        (c.limbCtl = 0 → traps e.1 (allTrap c.act cLimbWidth 0)) ∧
        (c.limbCtl ≠ 0 → cut ≠ [] → traps e.1 (allTrap cut cBoundSplit 0))) ∧
      (∀ i ∈ shifts, Issues s g [.pw d.toNat, .pr a.toNat, .vr b.toNat] c →
        (c.limbCtl = 0 → traps i (allTrap c.act cLimbWidth 0)) ∧
        (c.limbCtl ≠ 0 → cut ≠ [] → traps i (allTrap cut cBoundSplit 0 ++ allTrap wide cLimbWidth 0)) ∧
        (c.limbCtl ≠ 0 → cut = [] → wide ≠ [] → traps i (allTrap wide cLimbWidth 0))) ∧
      (Issues s g [.need (decide (1 ≤ n.toNat ∧ n.toNat ≤ 6))] c →
        (¬all → traps (.lbind g n) (allTrap c.act cBoundSplit 0)) ∧
        (all → c.limbCtl ≠ 0 → traps (.lbind g n) (allTrap c.act cLimbWidth 0)) ∧
        (all → c.limbCtl = 0 →
          (∃ l ∈ c.act, ∃ k ∈ List.range 64, k / 2 ^ n.toNat = l / 2 ^ n.toNat ∧ k ∉ c.act) →
          traps (.lbind g n) (allTrap c.act cLimbWidth 0))) ∧
      (Issues s g [] c → c.limbCtl ≠ 0 → ¬all → traps (.lunbind g) (allTrap c.act cBoundSplit 0)))

/-! ## Encoding, steps, reset -/

/-- Decoding the encoded word of a well-formed instruction gives the instruction back, for every instruction that has
a word (R134 to R151). -/
def Obligations.DecodeEncode : Prop :=
  ∀ (i : Instr) (w : Word), i.wf = true → encode i = some w → decodeWord w = some i

/-- Words that the spec writes out decode to the instructions they stand for (R169, R170, R174, R182, R190, R195,
R206, R210). -/
def Obligations.DecodeWords : Prop :=
  decodeWord 0x01C00000 = some (.nop 7) ∧ decodeWord 0x01C00003 = some (.tretRetry 7) ∧
  decodeWord 0x01C10003 = some (.tretSkip 7) ∧ decodeWord 0x01C30504 = some (.mfs 7 3 1 16) ∧
  decodeWord 0x29C31050 = some (.add 7 3 4 5) ∧ decodeWord 0x69C41090 = some (.sadd 7 4 4 9) ∧
  decodeWord 0x65C00030 = some (.lbind 7 3) ∧ decodeWord 0x4DC10830 = some (.fadd 7 1 2 3)

/-- A step runs the decoded instruction. Where the schedule names a core, the bundle that is first in the order of R36
executes the word at which it stands in its run, if it is the only one or the word changes something, unless an
operation of it finds no room in the outbox (R56), claims of it have been answered with traps (R91), or the word
raises a trap and a trap of another core in the same clk comes before it (R42); a bundle at a header reads the run.
Pages that the word has translated enter the core's translation buffer (R315). Where it names a sequencer, the word at
its pc is executed; where it names an event, the event. `settle` then makes parties READY that may go on (R23) and
ends the execution. -/
def Obligations.StepRunsDecoded : Prop :=
  ∀ (s : State) (rest : List Move),
    (∀ (k pid bid : Nat) (l : List (Nat × Nat)), s.schedule = .issue k :: rest →
      State.candidates { s with steps := s.steps + 1, schedule := rest } k = (pid, bid) :: l →
      let s1 := { s with steps := s.steps + 1, schedule := rest, actor := .bundle pid bid }
      (∀ (c : Ctx) (i : Instr), s1.ctx? = some c → c.canIssue = true → c.word.bad = false →
        decodeWord c.word.w = some i → matrixWord i = false →
        s1.noRoom pid c.b.mask = false → s1.raiseClaims pid bid = none →
        ∀ t, exec i s1 = .next t →
          (l = [] ∨ { t.noteWalks s1 i with actor := s.actor } ≠ { s1 with actor := s.actor }) →
          (State.delivered { s1 with actor := s.actor } (t.noteWalks s1 i) k).bind
            (State.rival { s1 with actor := s.actor } k) = none →
          step s = settle s (.next (t.noteWalks s1 i))) ∧
      (∀ (p : Party) (b : Bundle) (w : Word) (n : BitVec 5) (cd : BitVec 1) (wt : BitVec 12) (fa fb : BitVec 4),
        s1.party? pid = some p → p.bundle? bid = some b → b.phase = .waiting → b.asked = [] →
        s1.fetchFor b p.core p.asid b.pc.toNat = .word w → decodeWord w = some (.runHeader n cd wt fa fb) → l = [] →
        ∀ t, exec (.runHeader n cd wt fa fb) s1 = .next t →
          (State.delivered { s1 with actor := s.actor } (t.noteWalk s1 p.core p.asid b.pc.toNat) k).bind
            (State.rival { s1 with actor := s.actor } k) = none →
          step s = settle s (.next (t.noteWalk s1 p.core p.asid b.pc.toNat)))) ∧
    (∀ (key : Nat) (c : SeqCtx) (w : Word) (i : Instr), s.schedule = .sequence key :: rest →
      let s1 := { s with steps := s.steps + 1, schedule := rest, actor := .sequencer key }
      s1.seqCtx? = some c → c.runs = true → c.q.st ≠ .waitBar → s1.teamOver c.key = false → c.fetch = .word w →
      decodeWord w = some i → matrixWord i = true → ∀ t, exec i s1 = .next t → step s = settle s (.next (c.fetched t))) ∧
    (∀ i : Instr, s.schedule = .event i :: rest → isEvent i = true →
      step s = settle s (exec i { s with steps := s.steps + 1, schedule := rest }))

/-- Every step leaves a settled state: no instruction is in execution, and no party that waits for nothing but its own
bundles is BLOCKED while one of them may go on (R23). -/
def Obligations.StepSettled : Prop := ∀ s t : State, step s = .next t → Settled t

/-- The state right after reset is settled, its memory is in canonical form, and its mode is one of R116's. What reset
leaves that the spec states: every ticket entry FREE with GEN 1 (R90), every frame entry FREE with GEN 1 (R273),
launch and grid counters 1 (R309), the registers of R312 and R328 at 0, the power limit 3,200 W (R357), and no party,
team, grid or message. -/
def Obligations.ResetState : Prop :=
  (Settled State.reset ∧ MemOk State.reset ∧ ModeOk State.reset) ∧
  ((∀ k, State.reset.ticket k = Ticket.init) ∧ Ticket.init.st = TState.free ∧ Ticket.init.gen = 1 ∧
    (∀ k, State.reset.frameEnt k = FrameEnt.init) ∧ FrameEnt.init.st = FState.free ∧ FrameEnt.init.gen = 1 ∧
    State.reset.regs = Regs.init ∧ Regs.init.asidTable = 0 ∧ Regs.init.funcMode = 0 ∧ Regs.init.evqBase = 0 ∧
    Regs.init.evqLog2 = 0 ∧ Regs.init.evqTail = 0 ∧ Regs.init.evqHead = 0 ∧ Regs.init.preempt = 0 ∧ Regs.init.launchNext = 1 ∧
    Regs.init.gridNext = 1 ∧ Regs.init.powerLimit = 3200 ∧
    State.reset.parties = [] ∧ State.reset.teams = [] ∧ State.reset.grids = [] ∧ State.reset.net = [])

/-- No step stops the machine: from every state the step answers a next state, never a fault and never a refusal. -/
def Obligations.StepGoesOn : Prop := ∀ s : State, StepGoes s

/-- Every step keeps memory in its canonical form. -/
def Obligations.StepKeepsMemoryForm : Prop := ∀ s t : State, MemOk s → step s = .next t → MemOk t

/-! ## Runs -/

/-- The four hint words (R49, R146 to R148): each puts its hint in force for the next instruction and goes on to the
next word, or ends the run's execution where none follows; nothing else changes. A run header whose body reads well
(R143 to R145, R149): the bundle holds the run, at its first word, with the flags and the WAIT mask of the header, and
waits to begin, eligible from the clk at which the flags of its mask were clear (R36). Words of an uncoded body are
those at the addresses after the header, in order. -/
def Obligations.RunWords : Prop :=
  (∀ (s : State) (c : Ctx), s.ctx? = some c → c.canIssue = true → c.r.skip ≠ some c.here →
      let next := fun (r : Run) => { c with
        r := { r with idx := c.r.idx + 1 },
        b := { c.b with
          stalled := false, phase := if c.r.words.length ≤ c.r.idx + 1 then .executed else c.b.phase } }.save
      (∀ p : BitVec 22, exec (.imm p) s = .next (next { c.r with imm := some p })) ∧
      (∀ (b : BitVec 2) (m : BitVec 16), (b = 3 → m >>> 8 = 0) →
        exec (.live b m) s = .next (next { c.r with live := some (c.r.live.getD 0 ||| ((m.setWidth 56) <<< (16 * b.toNat))) })) ∧
      (∀ (sc : BitVec 3) (o r : BitVec 2) (t : BitVec 1) (f : BitVec 6),
        exec (.mod sc o r t f) s = .next (next { c.r with modh := some (sc ++ o ++ r ++ t ++ f ++ (0 : BitVec 8)) })) ∧
      (∀ x y z : BitVec 6, (∀ n ∈ [x, y, z], n.toNat < 56 ∨ n.toNat = 60) →
        exec (.last z y x) s =
          .next (next { c.r with last := c.r.last ++ ([x, y, z].filter (fun n => decide (n.toNat < 56))).map (fun n => n.toNat) }))) ∧
  (∀ (s : State) (pid bid : Nat) (p : Party) (b : Bundle) (n : BitVec 5) (cd : BitVec 1) (wt : BitVec 12) (fa fb : BitVec 4)
      (ws : List FWord),
      s.actor = .bundle pid bid → s.party? pid = some p → p.bundle? bid = some b → p.isActive = true → b.phase = .waiting →
      b.asked = [] → 1 ≤ n.toNat → n.toNat ≤ 24 →
      let read := s.fetchFor b p.core p.asid
      (∀ i, i < (if cd = 1 then (n.toNat + 1) / 2 else n.toNat) → s.fetchWord p.core p.asid (b.pc.toNat + 4 + 4 * i) ≠ .page ∧
        read (b.pc.toNat + 4 + 4 * i) ≠ .far) →
      let dict := match s.launchOf p with
        | some v => v.dict
        | none => []
      readRun read dict b.pc.toNat n.toNat (decide (cd = 1)) = (ws, none) →
      (cd = 0 → ws = (List.range n.toNat).map (fun i => FWord.mk (BitVec.ofNat 64 (b.pc.toNat + 4 + 4 * i))
        ((read (b.pc.toNat + 4 + 4 * i)).body) none false)) ∧
      ∃ t q r, exec (.runHeader n cd wt fa fb) s = .next t ∧ t.party? pid = some q ∧
        q = p.setBundle { b with
          run := some r, phase := .fetched, ans := [],
          since := (List.range 12).foldl (fun t f => if wt.getLsbD f then max t (Map.getD p.flagAt f 0) else t) b.since } ∧
        { t with parties := s.parties, cores := s.cores } = s ∧ (∀ k, k ≠ pid → t.party? k = s.party? k) ∧
        r.words = ws ∧ r.header = b.pc ∧ r.start = b.pc ∧ r.idx = 0 ∧ r.wait = wt ∧
        r.seta = (if fa.toNat < 12 then some fa.toNat else none) ∧ r.setb = (if fb.toNat < 12 then some fb.toNat else none) ∧
        r.next = BitVec.ofNat 64 (b.pc.toNat + 4 + 4 * (if cd = 1 then (n.toNat + 1) / 2 else n.toNat)) ∧
        r.ov = Overlay.empty ∧ r.eff = [] ∧ r.taken = [])

/-- RUN_BEGIN (R24, R35, R36, R170): a run that has been read begins once the flags of its WAIT mask are clear; a
bundle that has yielded to this party alone is eligible from now on. RUN_COMMIT (R26 to R28, R108, R157, R162, R166 to
R169, R294): the registers, predicates and party-wide registers that the run has written become those of the party,
its operations count towards their flags, and each lane continues at its target or at the word after the run, with its
own window base. After `yield` the lanes wait, for at most 256 clk, while another READY party of the core has at least
the party's priority; `fence` holds up what follows; `exit` ends the party, `fend` the lanes that executed it, and the
party with the last of them, and the origin core is told; a child of `fork` joins the party with its registers; the
operation of an engine is started. What a run sends goes out when it commits (R28, R45, R56, R75, R106, R107): the
messages of its words, in order, each after what it waits for: what its release covers, and what a fence or an acquire
holds up. A lane whose write awaits its acknowledgement begins no run before it (R15). A run whose effects are plain
local writes without locks writes their bytes in order, and no others, in the step of its commit (R103; log 70, the
model's reading). A tile reaches the queue of the team's sequencer (R260). The commit of `tret` (R174, R44): the trap
record is cleared, or after a nested DEBUG trap the outer one is the party's again; otherwise the slot of the lineage
is released when nobody else holds a record of it. The party continues at TRAP_PC − RESTART_BACK, where `tret.skip`
names the instruction to be skipped, or, when it was the continuation of a watch that trapped, at the word it was to
continue from. -/
def Obligations.RunsAndReturns : Prop :=
  (∀ (s : State) (pid bid : Nat) (p : Party) (b : Bundle) (r : Run),
      s.party? pid = some p → p.bundle? bid = some b → b.run = some r → p.isActive = true → b.phase = .fetched → b.asked = [] →
      (∀ n, n < 12 → r.wait.getLsbD n = true → p.flagSet n = false) → p.gatesClear b = true → b.yieldTo = none →
      (s.core p.core).stopped = false → s.unitHeld p = false → s.noRoom pid b.mask = false → p.counted = false →
      ∃ t q, exec (.runBegin pid bid) s = .next t ∧ t.party? pid = some q ∧
        { t with parties := s.parties } = s ∧
        q = { p with
          beganAt := s.clk p.core, level := 0, starving := false,
          bundles := p.bundles.map (fun x =>
            let y := if x.id = bid then
                { b with phase := .running, skip := none, gates := [], yieldTo := none, yieldOn := [], stalled := false,
                         run := some { r with snap := p.snapRegs, skip := if b.skip.isSome then b.skip else r.skip } }
              else x
            { y with
              yieldOn := y.yieldOn.filter (· ≠ pid),
              since := if (y.yieldOn.filter (· ≠ pid)).isEmpty && !y.yieldOn.isEmpty then s.clk p.core else y.since }) }) ∧
  (∀ (s : State) (pid bid : Nat) (p : Party) (b : Bundle) (r : Run), Commits s pid bid p b r →
      let told := fun (t : State) => t.party? pid = none ∧ ∃ m ∈ t.net,
        m.dst = .core p.originDev p.originCore.toNat ∧ m.body = .lineage p.lineageKey (-1)
      let alone := fun (t : State) =>
        { t with parties := s.parties, keys := s.keys } = s ∧ ∀ j, j ≠ pid → t.party? j = s.party? j
      let rival := fun (e : Nat × Party) => e.1 ≠ pid ∧ (∃ c, e.2.place = .slot c .ready) ∧
        (p.aged (s.clk p.core)).effPrio ≤ (e.2.aged (s.clk p.core)).effPrio
      (r.eff = [] → ∃ t q, exec (.runCommit pid bid) s = .next t ∧ Committed t pid bid p b r q ∧ alone t) ∧
      (∀ m : DWord, r.eff = [⟨m, .yield⟩] →
        ((∀ e ∈ s.residents p.core, ¬rival e) →
          ∃ t q, exec (.runCommit pid bid) s = .next t ∧ Committed t pid bid p b r q ∧ alone t) ∧
        ((∃ e ∈ s.residents p.core, rival e) →
          ∃ t q, exec (.runCommit pid bid) s = .next t ∧ t.party? pid = some q ∧ alone t ∧
            Wrote p r q p.mask ∧ WroteWide p r bid q ∧ q.mask = p.mask ∧
            ∀ l ∈ lanesOf b.mask, ∃ x ∈ q.bundles, StandsAt b r l x ∧ x.phase = .waiting ∧ x.run = none ∧
              x.yieldTo = some (s.clk p.core + 256) ∧ ∀ j, j ∈ x.yieldOn ↔ ∃ e ∈ s.residents p.core, e.1 = j ∧ rival e)) ∧
      (∀ (m : DWord) (o sc : Nat), r.eff = [⟨m, .fence o sc⟩] → sc ≠ 0 →
        let rel := if o = 1 then [] else s.releaseWaits p pid sc
        let acq := if o = 2 then [] else s.heldReads p pid
        ∃ t q, exec (.runCommit pid bid) s = .next t ∧ Committed t pid bid p b r q ∧ t.net = s.net ∧ t.mem = s.mem ∧
          q.fenceW = p.fenceW ++ rel ++ acq ∧ q.fenceR = p.fenceR ++ acq ++ (if o = 2 then [] else rel)) ∧
      (∀ m : DWord, r.eff = [⟨m, .exit⟩] → p.trap = none → ∃ t, exec (.runCommit pid bid) s = .next t ∧ told t) ∧
      (∀ m : DWord, r.eff = [⟨m, .fend⟩] →
        let rest := b.mask &&& ~~~m
        (rest ≠ 0 ∨ (∃ x ∈ p.bundles, x.id ≠ bid) →
          ∃ t q, exec (.runCommit pid bid) s = .next t ∧ t.party? pid = some q ∧ alone t ∧
            Wrote p r q q.mask ∧ WroteWide p r bid q ∧ GoesOn b r q rest ∧
            ∀ l, l < 64 → q.mask.getLsbD l = (rest.getLsbD l || p.bundles.any (fun x => decide (x.id ≠ bid) && x.mask.getLsbD l))) ∧
        (rest = 0 → (∀ x ∈ p.bundles, x.id = bid) → p.trap = none →
          ∃ t, exec (.runCommit pid bid) s = .next t ∧ told t)) ∧
      (∀ (m pc : DWord) (k wb : Nat) (preds : BitVec 16) (regs : List (Nat × Word)),
        r.eff = [⟨m, .child k pc wb preds regs⟩] → k < 64 → p.mask.getLsbD k = false → (regs.map (fun x => x.1)).Nodup →
        ∃ t q, exec (.runCommit pid bid) s = .next t ∧ t.party? pid = some q ∧ alone t ∧
          Wrote p r q p.mask ∧ WroteWide p r bid q ∧ GoesOn b r q b.mask ∧
          (∃ x ∈ q.bundles, x.mask.getLsbD k = true ∧ x.pc = pc ∧ x.wb = wb ∧ x.atHeader = true) ∧
          (∀ x ∈ regs, Map.getD q.vregs (regKey x.1 k) 0 = x.2) ∧ (q.lane k).preds = preds ∧ (q.lane k).lo = 0) ∧
      (∀ (m : DWord) (eng seq : Nat), r.eff = [⟨m, .engine eng seq⟩] →
        ∃ t q, exec (.runCommit pid bid) s = .next t ∧ Committed t pid bid p b r q ∧ t.mem = s.mem ∧
          let ops := (Map.getD t.engines eng Engine.init).ops
          ops.map (fun o => (o.op, o.committed)) =
            (Map.getD s.engines eng Engine.init).ops.map (fun o => (o.op, o.committed || decide (o.seq = seq))) ∧
          ∀ o ∈ ops, o.seq = seq → ∀ i ∈ s.releaseWaits p pid 4 ++ p.fenceW, i ∈ o.after)) ∧
  (∀ (s : State) (pid bid : Nat) (p : Party) (b : Bundle) (r : Run), Commits s pid bid p b r → (∀ e ∈ s.net, e.id < s.keys) →
      (∀ es : List (DWord × Draft), r.eff = es.map (fun e => ⟨e.1, .send e.2⟩) →
        (∀ e ∈ es, e.2.release = none ∧ e.2.acq = false ∧ sentOut s p e.2 = true) →
        ∃ t q ms, exec (.runCommit pid bid) s = .next t ∧ Committed t pid bid p b r q ∧ t.mem = s.mem ∧ t.net = s.net ++ ms ∧
          ms.map (fun m => (m.id, m.lanes, m.dst, m.body, m.after)) = es.zipIdx.map (fun e =>
            (s.keys + e.2, e.1.1, e.1.2.home, sentBody s e.1.2, if e.1.2.body.isRead then p.fenceR else p.fenceW)) ∧
          ∀ e ∈ es.zipIdx, e.1.2.sync = true → ∀ l ∈ lanesOf b.mask, ∃ x ∈ q.bundles, StandsAt b r l x ∧ s.keys + e.2 ∈ x.asked) ∧
      (∀ (m : DWord) (d : Draft), r.eff = [⟨m, .send d⟩] → sentOut s p d = true →
        ∃ t q w, exec (.runCommit pid bid) s = .next t ∧ Committed t pid bid p b r q ∧ t.mem = s.mem ∧ t.net = s.net ++ [w] ∧
          w.id = s.keys ∧ w.lanes = m ∧ w.dst = d.home ∧ w.body = sentBody s d ∧
          w.after = (match d.release with
            | some sc => s.releaseWaits p pid sc
            | none => []) ++ (if d.body.isRead then p.fenceR else p.fenceW) ∧
          q.fenceW = p.fenceW ++ (if d.acq then [s.keys] else []) ∧ q.fenceR = p.fenceR ++ (if d.acq then [s.keys] else [])) ∧
      (∀ es : List (DWord × Loc × List Byte), Unshadowed s → p.fenceW = [] →
        r.eff = es.map (fun e => ⟨e.1, sending (s.homeOf e.2.1) (.write e.2.1 e.2.2 []) none false false false⟩) →
        (∀ e ∈ es, s.isLocal p.core e.2.1 = true ∧ s.locked e.2.1 e.2.2.length true = false ∧
          s.unsentTo pid e.1 (s.homeOf e.2.1) = false ∧ s.queuedTo pid (s.homeOf e.2.1) = false) →
        ∃ t, exec (.runCommit pid bid) s = .next t ∧ t.net = s.net ∧
          t.mem = es.foldl (fun m e => memPuts m e.2.1.pa e.2.2) s.mem) ∧
      (∀ (m : DWord) (slot : Nat) (x : Tile) (tm : Team) (sq : Seqr), r.eff = [⟨m, .tile slot x⟩] → p.originDev = s.devId →
        Map.find s.teams p.teamKey = some tm → tm.seqr = some sq →
        ∃ t q, exec (.runCommit pid bid) s = .next t ∧ Committed t pid bid p b r q ∧
          (Map.find t.teams p.teamKey).bind (fun u => u.seqr) =
            some { sq with queues := Map.insert sq.queues slot (Map.getD sq.queues slot [] ++ [x]) })) ∧
  (∀ (s : State) (pid bid : Nat) (p : Party) (b : Bundle) (r : Run) (tr : TrapRec) (sk : Bool) (m : DWord),
      s.party? pid = some p → p.bundles = [b] → b.id = bid → b.run = some r → p.isActive = true → b.phase = .executed →
      b.asked = [] → s.consumes.any (fun k => decide (k.party = pid)) = false → p.commitReady bid = true → b.mask ≠ 0 →
      r.ov = Overlay.empty → r.eff = [⟨m, .tret sk⟩] → p.trap = some tr → tr.apart = [] → Map.sorted s.lineages = true →
      let sl := s.lineage p.lineageKey
      ∃ t q, exec (.runCommit pid bid) s = .next t ∧ t.party? pid = some q ∧ q.trap = p.outer ∧ q.nested = false ∧
        q.vregs = p.vregs ∧ q.scal = p.scal ∧ q.hand = p.hand ∧ q.lanes = p.lanes ∧
        (∃ x, q.bundles = [x] ∧ x.pc = tr.pc - BitVec.ofNat 64 (tr.cause.toNat / 256 % 256) ∧ x.mask = b.mask ∧ x.wb = tr.base ∧
          x.skip = (if sk then some tr.pc else none) ∧
          (tr.resume = none → x.phase = .waiting ∧ x.run = none) ∧
          (∀ y, tr.resume = some y → x.phase = .fetched ∧ x.run = some { y.rewind with skip := x.skip })) ∧
        (p.nested = true → t.lineages = s.lineages) ∧
        (p.nested = false → p.originDev = s.devId → sl.slot.isSome = true →
          (t.lineage p.lineageKey).slot = (if sl.holders ≤ 1 then none else sl.slot) ∧
          (t.lineage p.lineageKey).holders = sl.holders - 1) ∧
        t.mem = s.mem)

/-! ## Control -/

/-- Branches, calls and returns (R142, R162 to R164) whose targets are run headers and divide no bound integer: every
active lane's target is recorded in the run, for the commit that sends the lane there, and `call` and `callr` write
the address after the run to `v54:v55`. -/
def Obligations.Jumps : Prop :=
  ∀ (s : State) (g : BitVec 4) (a b : BitVec 6) (o : BitVec 22) (c : Ctx),
    let fine := fun (f : Nat → Nat) => (∀ l ∈ c.act, headerThere c (f l) = true) ∧ c.divided f = []
    let link := outWords 64 54 c.r.next.toNat
    let rel := fun (_ : Nat) => (c.r.header + (o.signExtend 64 <<< 2)).toNat
    let ind := fun l => (c.v64 a.toNat l).toNat
    let tab := fun l => (c.sc b.toNat + ((c.v a.toNat l).setWidth 64 <<< 2)).toNat
    (Issues s g [] c → fine rel → JumpOutcome (.br g o) s c noWrites (fun l => some (rel l)) c.wbOf) ∧
    (Issues s g [.pw 54] c → fine rel → JumpOutcome (.call g o) s c (fun _ => link) (fun l => some (rel l)) c.wbOf) ∧
    (Issues s g [.pr a.toNat] c → fine ind →
      JumpOutcome (.ret g a) s c noWrites (fun l => some (ind l)) c.wbOf ∧
      JumpOutcome (.brr g a) s c noWrites (fun l => some (ind l)) c.wbOf) ∧
    (Issues s g [.pw 54, .pr a.toNat] c → fine ind →
      JumpOutcome (.callr g a) s c (fun _ => link) (fun l => some (ind l)) c.wbOf) ∧
    (Issues s g [.vr a.toNat, .sr b.toNat] c → fine tab →
      JumpOutcome (.tbr g a b) s c noWrites (fun l => some (tab l)) c.wbOf)

/-- `enter`, and `leave` when no register of the outer window stands on the window stack (R165, R290). -/
def Obligations.Windows : Prop :=
  ∀ (s : State) (g : BitVec 4) (n : BitVec 6) (c : Ctx), 1 ≤ n.toNat → n.toNat ≤ 56 → Issues s g [.need true] c →
    ((∀ l ∈ c.act, c.wbOf l + n.toNat + 56 ≤ c.p.winSize) →
      JumpOutcome (.enter g n) s c noWrites (fun _ => none) (fun l => c.wbOf l + n.toNat)) ∧
    ((∀ l ∈ c.act, n.toNat ≤ c.wbOf l) → (∀ l ∈ c.act, c.lowReg l ≤ c.wbOf l - n.toNat) → c.p.fenceR = [] →
      JumpOutcome (.leave g n) s c noWrites (fun _ => none) (fun l => c.wbOf l - n.toNat)) ∧
    ((∃ l ∈ c.act, c.p.winSize < c.wbOf l + n.toNat + 56) →
      exec (.enter g n) s = .next (s.raise c.pid c.b.id
        (allTrap (c.act.filter (fun l => decide (c.p.winSize < c.wbOf l + n.toNat + 56))) cWindow 0) c.here false)) ∧
    ((∃ l ∈ c.act, c.wbOf l < n.toNat) →
      exec (.leave g n) s = .next (s.raise c.pid c.b.id
        (allTrap (c.act.filter (fun l => decide (c.wbOf l < n.toNat))) cWindow 0) c.here false))

/-- Words whose effect comes with the commit of their run, or that have none (R108, R167 to R169, R174). -/
def Obligations.CommitWords : Prop :=
  ∀ (s : State) (g : BitVec 4) (c : Ctx), Issues s g [] c →
    let all := maskOf c.act
    PlainOutcome (.nop g) s c ∧
    EffOutcome (.yield g) s c [⟨all, .yield⟩] ∧
    EffOutcome (.exit g) s c [⟨all, .exit⟩] ∧
    EffOutcome (.fence g) s c [⟨all, .fence (if c.mods.order = 0 then 3 else c.mods.order) c.mods.scope⟩] ∧
    (c.divided (fun _ => 0) = [] → EffOutcome (.fend g) s c [⟨all, .fend⟩]) ∧
    (∀ r, c.p.trap = some r → all = c.p.mask → (∀ l ∈ c.act, c.wbOf l = r.baseOf l) →
      EffOutcome (.tretRetry g) s c [⟨all, .tret false⟩] ∧ EffOutcome (.tretSkip g) s c [⟨all, .tret true⟩])

/-- `fork` in an unbound party of a local lineage with one member (R166): each active lane, in ascending order, makes
a child in the next free slot, and receives its number, or all ones when no slot is left. It rests on the model's
choice (log 86). -/
def Obligations.Forks : Prop :=
  ∀ (s : State) (g : BitVec 4) (d a : BitVec 6) (c : Ctx), Issues s g [.vw d.toNat, .pr a.toNat, .gr 0 56] c →
    c.limbCtl = 0 → c.p.originDev = s.devId → Map.find c.b.ans 64 = none → (s.lineage c.p.lineageKey).count = 1 →
    let free := lanesOf (~~~(c.p.mask ||| c.promised))
    let child := fun l k => Eff.mk (maskOf [l]) (.child k (c.v64 a.toNat l) (c.wbOf l) (c.preds l)
      ((List.range 56).map (fun i => (c.wbOf l + i, if i = d.toNat then BitVec.ofNat 32 (0x80000000 + l) else c.v i l))))
    SendOutcome (.fork g d a) s c ((c.act.zip free).map (fun e => child e.1 e.2))
      [PendOp.mk' c false (c.act.map (c.dest d.toNat 0)) (c.act.zipIdx.map (fun e => (free[e.2]?).getD 0xFFFFFFFF))]

/-! ## Special registers, traps -/

/-- `mfs` (R170): the scalar receives the register: LANES, the identity registers, the trap record and the values at
the start of the run; `s31` discards it, and traps PRIV for the trap record. `mts` (R127, R170, R194): FPFLAGS bits
5:0 and the defined bits of LIMB_FLAGS are written, in an unbound party none; every other register traps PRIV. The
order among the conditions of the run is the model's reading (log 33). -/
def Obligations.SpecialRegisters : Prop :=
  (∀ (s : State) (g : BitVec 4) (d a b : BitVec 6) (c : Ctx), Issues s g [.sw d.toNat, .need true] c →
      ∀ e ∈ ([(0x000, 64), (0x001, Map.getD c.r.snap 0x001 0), (0x002, c.p.partyId.setWidth 64), (0x003, c.p.teamId.setWidth 64),
          (0x004, c.p.gridId.setWidth 64), (0x005, BitVec.ofNat 64 c.core), (0x006, s.devId.setWidth 64),
          (0x007, c.p.depth.setWidth 64), (0x010, Map.getD c.r.snap 0x010 0), (0x011, Map.getD c.r.snap 0x011 0),
          (0x020, Map.getD c.r.snap 0x020 0), (0x021, Map.getD c.r.snap 0x021 0), (0x022, Map.getD c.r.snap 0x022 0),
          (0x030, Map.getD c.r.snap 0x030 0), (0x040, Map.getD c.r.snap 0x040 0),
          (0x050, (c.p.trap.map (fun t => t.cause)).getD 0), (0x051, (c.p.trap.map (fun t => t.lanes)).getD 0),
          (0x052, (c.p.trap.map (fun t => t.addr)).getD 0), (0x053, (c.p.trap.map (fun t => t.pc)).getD 0),
          (0x041, BitVec.ofNat 64 ((if s.mode = 0 then 0 else 1) + 2 * s.mode.toNat)), (0x060, c.p.spillPos.setWidth 64)] : List (Nat × DWord)),
        64 * a.toNat + b.toNat = e.1 →
          (d.toNat < 31 → WideOutcome (.mfs g d a b) s c (.s d.toNat e.2) noFlags) ∧
          (d = 31 → e.1 < 0x050 ∨ 0x053 < e.1 → PlainOutcome (.mfs g d a b) s c) ∧
          (d = 31 → 0x050 ≤ e.1 → e.1 ≤ 0x053 →
            exec (.mfs g d a b) s = .next (s.raise c.pid c.b.id (allTrap c.act cPriv 0) c.here false))) ∧
  (∀ (s : State) (g : BitVec 4) (d a b : BitVec 6) (c : Ctx), Issues s g [.sr d.toNat, .need true] c →
      let n := 64 * a.toNat + b.toNat
      let x := c.sc d.toNat
      let lane := if c.limbCtl.toNat % 8 = 0 then (0 : DWord)
        else if c.limbCtl.toNat % 8 = 1 then BitVec.allOnes 64 else BitVec.ofNat 64 (2 ^ (2 * (64 / 2 ^ (c.limbCtl.toNat % 8))) - 1)
      (n = 0x040 → ∃ c', exec (.mts g d a b) s = .next c'.advance ∧ Executed s c'.advance c c' ∧
        c' = { c with s := c.s.bump, r := { c.r with
          ov := { c.r.ov with marks := c'.r.ov.marks,
                              pw := c.r.ov.pw ++ [(maskOf c.act, c.s.keys, .fpflags ((x &&& 63).setWidth 16))] },
          snap := Map.insert c.r.snap 0x040 (x &&& 63) } }) ∧
      (n = 0x011 → lane ≠ 0 → ∃ c', exec (.mts g d a b) s = .next c'.advance ∧ Executed s c'.advance c c' ∧
        c' = { c with s := c.s.bump, r := { c.r with
          ov := { c.r.ov with marks := c'.r.ov.marks,
                              pw := c.r.ov.pw ++ [(maskOf c.act, c.s.keys, .limbFlags (BitVec.allOnes 64) (x &&& lane))] },
          snap := Map.insert c.r.snap 0x011 (x &&& lane) } }) ∧
      (n = 0x011 → lane = 0 → PlainOutcome (.mts g d a b) s c) ∧
      (srAssigned n = true → n ≠ 0x040 → n ≠ 0x011 →
        exec (.mts g d a b) s = .next (s.raise c.pid c.b.id (allTrap c.act cPriv 0) c.here false)))

/-- `trap k` (R171) raises SOFTWARE on the active lanes with TRAP_ADDR = k, by the one operation that takes a trap. In
an unbound party of a launch with a handler, they become a party at the handler that holds the trap record, its slot
is taken (R41 to R43, R172, R173), and the lanes that do not trap go on with their registers; while the slot of the
lineage is taken the party waits, BLOCKED (R42); in a trap party it is a double trap (R44). `halt` (R169, R331): where
the debug port holds the core halt-enabled the party becomes BLOCKED before the word and the port is notified;
elsewhere DEBUG on the active lanes. -/
def Obligations.TrapWords : Prop :=
  (∀ (s : State) (g : BitVec 4) (k : BitVec 6) (c : Ctx), Issues s g [] c →
      exec (.trap g k) s =
        .next (s.raise c.pid c.b.id (c.act.map (fun l => Trap.mk l cSoftware (k.setWidth 64))) c.here false) ∧
      (c.p.seed = none → c.p.originDev = s.devId → c.p.trap = none → (s.lineage c.p.lineageKey).slot = none → c.p.handler ≠ 0 →
        c.p.limbCtlFor c.b = 0 → c.r.wb0 = [] → c.pid < s.keys →
        ∃ t q tid, exec (.trap g k) s = .next t ∧ t.party? tid = some q ∧
          let back := (c.here.toNat + 2 ^ 64 - c.r.start.toNat) % 2 ^ 64
          (∃ r, q.trap = some r ∧ r.cause = trapCause cSoftware back c.p.spillPos.toNat ∧ r.lanes = maskOf c.act ∧
            r.addr = k.setWidth 64 ∧ r.pc = c.here ∧ r.base = c.b.wb ∧ (t.lineage c.p.lineageKey).slot = some r) ∧
          (∃ b, q.bundles = [b] ∧ b.pc = c.p.handler ∧ b.mask = maskOf c.act ∧ b.wb = c.b.wb ∧ b.phase = .waiting ∧ b.run = none) ∧
          q.nested = false ∧ q.scal = c.p.scal ∧ q.hand = c.p.hand ∧ q.handler = c.p.handler ∧ q.lineage = c.p.lineage ∧
          q.vregs = keepLanes (maskOf c.act) c.p.vregs ∧ q.lanes = keepLanes (maskOf c.act) c.p.lanes ∧
          (c.p.mask &&& ~~~(maskOf c.act) ≠ 0 → ∃ p1, t.party? c.pid = some p1 ∧ p1.trap = none ∧
            p1.vregs = keepLanes (c.p.mask &&& ~~~(maskOf c.act)) c.p.vregs ∧ p1.scal = c.p.scal) ∧
          t.mem = s.mem) ∧
      (c.p.seed = none → c.p.originDev = s.devId → c.p.trap = none → (s.lineage c.p.lineageKey).slot.isSome = true →
        exec (.trap g k) s = .next (s.setParty c.pid ((c.p.setBundle
          { c.b with phase := .held (.trapSlot s.ns (causeRank cSoftware)), stalled := true, stallAt := s.clk c.core }).block (s.clk c.core)))) ∧
      (c.p.seed = none → c.p.trap.isSome = true →
        exec (.trap g k) s = .next ((s.failOf c.p c.pid c.core 1).endParty c.pid) ∧
        (c.p.originDev = s.devId → s.failOf c.p c.pid c.core 1 = s.recordOutcome c.p.gridId c.core 1))) ∧
  (∀ (s : State) (g : BitVec 4) (c : Ctx), Issues s g [] c →
      (s.haltEnabled c.core = true →
        ∃ t q, exec (.halt g) s = .next t ∧ t.party? c.pid = some q ∧ q.place = .slot c.core .blocked ∧ q.haltBy = true ∧
          q.bundle? c.b.id = some { c.b with phase := .held .halted } ∧ q.vregs = c.p.vregs ∧ q.scal = c.p.scal ∧
          t.halts = s.halts ++ [(c.pid, c.b.id)] ∧ { t with halts := s.halts, parties := s.parties } = s ∧
          (∀ j, j ≠ c.pid → t.party? j = s.party? j)) ∧
      (s.haltEnabled c.core = false →
        exec (.halt g) s = .next (s.raise c.pid c.b.id (c.act.map (fun l => Trap.mk l cDebug 0)) c.here false)))

/-! ## Barriers and grids -/

/-- Barrier words (R175 to R177). `bar` and `barw` commit what the run has done, send one arrival with its releases
and wait; released, they complete, `barw` with a push that says whether the round was full. `arrive` and `barq` (R104,
R176): the arrival, with the release of `mod` scope, goes out when the run commits, and the phase comes later; of a
team at another module it is asked first whether the team's sequencer has stopped (R266). The query goes out at once,
and the answer comes before the commit, as a push that says whether the phase has changed; behind an event of the run
at the barrier's home it goes out when the run commits. -/
def Obligations.BarrierWords : Prop :=
  (∀ (s : State) (g : BitVec 4) (d a b : BitVec 6) (c : Ctx) (x : BarRef),
      let count := c.sc b.toNat
      let stands := c.barRef (c.sc a.toNat) = some x ∧ count.toNat ≤ 65535 ∧
        (match x with
          | .named _ _ _ => count ≠ 0
          | .team _ _ => c.stoppedAt = none)
      let past := fun (t : State) => if c.r.idx + 1 < c.r.words.length then t.continueAt c.pid c.b.id else t
      let waits := fun (i : Instr) (kind : ArrKind) (timeout : DWord) =>
        (Map.find c.b.ans 64 = none → c.p.commitReady c.b.id = true → c.fresh = false →
          exec i s = .next (s.continueAt c.pid c.b.id)) ∧
        (Map.find c.b.ans 64 = none → c.p.commitReady c.b.id = true → c.fresh = true →
          ∃ t m, exec i s = .next t ∧ t.net = s.net ++ [m] ∧ m.dst = s.barHome c.p x ∧
            m.after = s.releaseWaits c.p c.pid c.mods.scope ∧
            m.body = .arrival x { kind := kind, who := ⟨s.devId, c.core, c.pid, c.b.id, 64, s.keys⟩,
                                  count := if count = 0 then s.partiesPerTeam c.p else count.toNat, timeout := timeout, op := 0,
                                  team := c.p.teamKey } ∧
            t.party? c.pid = some (c.p.setBundle { c.b with phase := .held (.barrier x s.keys) }) ∧ t.mem = s.mem)
      stands →
      (Issues s g [.sr a.toNat, .sr b.toNat] c →
        waits (.bar g a b) .bar 0 ∧
        (Map.find c.b.ans 64 = some .go →
          ∃ c', exec (.bar g a b) s = .next (past c'.advance) ∧ Executed s c'.advance c c' ∧ EffResult c c' [])) ∧
      (Issues s g [.sr d.toNat, .sr a.toNat, .sr b.toNat] c →
        waits (.barw g d a b) .barw (c.sc d.toNat) ∧
        (∀ v : Bool, Map.find c.b.ans 64 = some (if v then .go else .expired) →
          ∃ c', exec (.barw g d a b) s = .next (past c'.advance) ∧ Executed s c'.advance c c' ∧
            LaneResult c c' noWrites (pushed c (fun _ => v)) noFlags))) ∧
  (∀ (s : State) (g : BitVec 4) (d a b : BitVec 6) (c : Ctx) (x : BarRef), c.barRef (c.sc a.toNat) = some x →
      ((match x with
        | .named _ _ _ => True
        | .team _ _ => c.stoppedAt = none)) →
      let count := c.sc b.toNat
      let late := fun (dests : List Dest) => { PendOp.mk' c false dests [] with late := true, ready := false }
      ((Issues s g [.sw d.toNat, .sr a.toNat, .sr b.toNat] c → count.toNat ≤ 65535 →
        (c.farTeam x = true → ∃ v, Map.find c.b.ans 64 = some (.val v)) →
        (match x with
          | .named _ _ _ => count ≠ 0
          | .team _ _ => True) →
        SendOutcome (.arrive g d a b) s c
          [⟨maskOf c.act, sending (s.barHome c.p x)
            (.arrival x { kind := .arrive, who := ⟨s.devId, c.core, c.pid, c.b.id, 64, 0⟩,
                          count := if count = 0 then s.partiesPerTeam c.p else count.toNat, timeout := 0, op := s.keys,
                          team := c.p.teamKey }) (some c.mods.scope) false false false⟩]
          [late [if d = 31 then .drop else .s d.toNat]]) ∧
      (Issues s g [.sr a.toNat, .sr b.toNat] c →
        (c.phaseHeld x = false → c.acqPending = false → c.p.fenceR = [] →
          (Map.find c.b.ans 64 = none →
            ∃ t m, exec (.barq g a b) s = .next t ∧ t.net = s.net ++ [m] ∧ m.dst = s.barHome c.p x ∧ m.after = [] ∧
              m.body = .phaseQ x count ⟨s.devId, c.core, c.pid, c.b.id, 64, s.keys⟩ ∧ t.mem = s.mem ∧
              t.party? c.pid = some (c.p.setBundle { c.b with asked := c.b.asked ++ [s.keys] })) ∧
          (∀ v, Map.find c.b.ans 64 = some (.val v) →
            LaneOutcome (.barq g a b) s c noWrites (pushed c (fun _ => decide (v ≠ 0))) noFlags)) ∧
        (c.phaseHeld x = true → c.farTeam x = false → Map.find c.b.ans 64 = none →
          SendOutcome (.barq g a b) s c
            [⟨maskOf c.act, sending (s.barHome c.p x) (.barq x count s.keys) none false false false⟩]
            [late (c.act.map (fun l => .push l))]))))

/-- `rejoin` and `rejoinw` (R60, R61) at the barrier's own core: the run commits up to the word, the party arrives
with its one bundle once everything it has sent has been applied (R111), and when the round is over the word
completes, `rejoinw` with a push of false. -/
def Obligations.RejoinWords : Prop :=
  ∀ (s : State) (g : BitVec 4) (a b : BitVec 6) (c : Ctx) (n : Nat), (c.sc a.toNat).getLsbD 63 = false →
    s.namedBar (c.sc a.toNat) = some (.named s.devId c.core n) →
    let arrives := fun (i : Instr) (timed : Bool) (timeout : DWord) =>
      Map.find c.b.ans 64 = none → c.p.bundles.length = 1 → c.p.commitReady c.b.id = true →
      (c.fresh = false → exec i s = .next (s.continueAt c.pid c.b.id)) ∧
      (c.fresh = true → s.releaseWaits c.p c.pid 4 = [] → exec i s = .next (s.arriveRejoin c.pid c.core n timed timeout))
    (Issues s g [.sr a.toNat] c →
      arrives (.rejoin g a) false 0 ∧
      ((Map.find c.b.ans 64).isSome = true → PlainOutcome (.rejoin g a) s c)) ∧
    (Issues s g [.sr a.toNat, .sr b.toNat] c →
      arrives (.rejoinw g a b) true (c.sc b.toNat) ∧
      ((Map.find c.b.ans 64).isSome = true →
        ∃ c', exec (.rejoinw g a b) s = .next c'.advance ∧ Executed s c'.advance c c' ∧
          Preds c c' (pushed c (fun _ => false)) ∧
          c' = { c with r := { c.r with
            live := none, ov := { c.r.ov with preds := c'.r.ov.preds, marks := c'.r.ov.marks } } }))

/-- `launch`, `gridwait` and `gridq` (R178, R179) with a record, or a completion word, that the part can read. `watch`
(R81, R245) at the core's own memory: it completes when some active lane's word differs from its value or the timeout
is 0, and pushes the difference in each lane; otherwise the bundle waits for a write, or for the timeout. A comparison
is a read of each word (R101). -/
def Obligations.GridWords : Prop :=
  (∀ (s : State) (g : BitVec 4) (d a : BitVec 6) (c : Ctx),
      let va := (c.sc a.toNat).toNat
      let dest := if d = 31 then Dest.drop else .s d.toNat
      (Issues s g [.sr a.toNat] c → c.p.partyId = 0 → c.acqPending = false → (placeOf c 256 true false va).isSome = true →
        EffOutcome (.launch g a) s c
          [⟨maskOf c.act, sending (.core s.devId (32 * (c.core / 32)))
            (.launch (c.sc a.toNat) c.pid c.p.teamId.toNat c.p.gridId c.p.seed.isSome c.p.asid c.p.depth.toNat
              c.p.priority.toNat) (some 3) false false false⟩]) ∧
      (Issues s g [.sr a.toNat] c → c.p.partyId ≠ 0 →
        exec (.launch g a) s = .next (s.raise c.pid c.b.id (allTrap c.act cPriv 0) c.here false)) ∧
      (∀ x ∈ (placeOf c 8 true false va).toList,
        Issues s g [.sw d.toNat, .sr a.toNat] c → c.acqPending = false → c.p.fenceR = [] → (∀ l ∈ c.act, atHand c 8 l x = true) →
        Map.find c.b.ans 64 = none → Map.find c.b.ans 70 = none →
        let w := memNat s.mem x.pa 8
        let tr := { afterReads c [(x, 8)] with keys := c.s.keys + 1 }
        (w ≠ 0 →
          ReadOutcome (.gridwait g d a) s c tr
            (noted c va x (joined c c.p.pend { PendOp.mk' c false [dest] [w] with acquire := true })) c.preds []) ∧
        (w = 0 →
          exec (.gridwait g d a) s = .next ((afterReads c (c.act.map (fun _ => (x, 8)))).setParty c.pid (c.p.setBundle
            { c.b with phase := .held .grid, run := some c.r, stalled := false,
                       watched := c.act.map (fun l => ⟨x, 8, l, 0, c.frame⟩) }))) ∧
        ReadOutcome (.gridq g d a) s c tr (noted c va x (joined c c.p.pend (PendOp.mk' c false [dest] [w])))
          (pushed c (fun _ => decide (w ≠ 0))) c.b.watched)) ∧
  (∀ (s : State) (g : BitVec 4) (d a : BitVec 6) (o : BitVec 1) (b : BitVec 5) (c : Ctx), intFmt (c.fmtOr 20) →
      let w := intWidth (c.fmtOr 20)
      let n := w / 8
      let place := fun l => placeOf c n true false (c.v64 a.toNat l).toNat
      Issues s g [.src w d.toNat, .pr a.toNat, .sr b.toNat] c → c.acqPending = false → c.p.fenceR = [] →
      (∀ l ∈ c.act, (place l).any (nearBy c n l) = true) → Map.find c.b.ans 71 = none →
      let differs := fun l => (place l).any (fun x => decide (readNum c x n ≠ c.op w d.toNat l))
      let at_ := c.act.filterMap (fun l => (place l).map (fun x => (x, n)))
      (c.sc b.toNat = 0 ∨ c.act.any differs = true →
        ReadOutcome (.watch g d a o b) s c (afterReads c at_) c.p.pend (pushed c differs) []) ∧
      (c.sc b.toNat ≠ 0 → c.act.any differs = false → Map.find c.b.ans 64 = none →
        ∃ t q x, exec (.watch g d a o b) s = .next t ∧ t.party? c.pid = some q ∧ q.bundle? c.b.id = some x ∧
          x.watched = c.act.filterMap (fun l => (place l).map (fun y => ⟨y, n, l, c.op w d.toNat l, c.frame⟩)) ∧
          { t with parties := s.parties } = afterReads c at_ ∧
          x.phase = .held (.watch (if c.sc b.toNat = BitVec.allOnes 64 then none else some (s.ns + (c.sc b.toNat).toNat)))))

/-! ## Memory -/

/-- Loads at the core's own memory (R45, R65, R227, R228, R230, R231): `ld` gives each active lane the number at its
address, extended by WIDTH; `sld` gives the scalar. One operation of the memory class brings the results, with acquire
order when O is 1; memory is as it was. -/
def Obligations.Loads : Prop :=
  ∀ (s : State) (g : BitVec 4) (d a : BitVec 6) (sb : BitVec 5) (w : BitVec 3) (o : BitVec 2) (c : Ctx), w ≠ 7 →
    c.acqPending = false → c.p.fenceR = [] →
    let n := accessBytes w.toNat
    (Issues s g (addrArgs sb.toNat a.toNat ++ [widthDst w.toNat d.toNat, .need (decide (o ≠ 3)), .need (decide (w = 7 → o = 0))]) c →
      let place := fun l => placeOf c n true false (c.addr sb.toNat a.toNat l)
      (∀ l ∈ c.act, (place l).any (nearBy c n l) = true) →
      ReadOutcome (.ld g d a sb w o) s c
        { afterReads c (c.act.filterMap (fun l => (place l).map (fun x => (x, n)))) with keys := c.s.keys + 1 }
        (joined c c.p.pend { PendOp.mk' c false (c.act.flatMap (groupDests c w.toNat d.toNat))
          (c.act.flatMap (fun l => (place l).elim [] (fun x => loadWords w.toNat (readNum c x n)))) with acquire := decide (o = 1) })
        c.preds c.b.watched) ∧
    (Issues s g (scalarAddrArgs sb.toNat a.toNat ++ [.sw d.toNat, .need (decide (o ≠ 3)), .need (decide (w.toNat ≤ 5))]) c →
      let va := (c.sc sb.toNat + c.sc a.toNat + c.disp).toNat
      ∀ x ∈ (placeOf c n true false va).toList, (∀ l ∈ c.act, nearBy c n l x = true) →
        ReadOutcome (.sld g d a sb w o) s c { afterReads c [(x, n)] with keys := c.s.keys + 1 }
          (noted c va x (joined c c.p.pend { PendOp.mk' c false [if d = 31 then .drop else .s d.toNat]
            [loadScalar w.toNat (readNum c x n)] with acquire := decide (o = 1) }))
          c.preds c.b.watched)

/-- Stores (R45, R75, R227, R228, R230, R231, R241): for each active lane a write of the low bytes of its source, at
its address, to be sent when the run commits, as a release when O is 1; `sst` makes one write; `stp` posts its writes
wherever they are homed. Nothing is written before the commit. Atomic words (R45, R102, R106, R107, R228, R232, R233,
R241) under a format that names an operation: one operation for each active lane, to be applied at its home, with the
order of the `mod` hint; `atom` awaits the old value in D, `atp` posts. -/
def Obligations.Stores : Prop :=
  (∀ (s : State) (g : BitVec 4) (d a : BitVec 6) (sb : BitVec 5) (w : BitVec 3) (o : BitVec 2) (c : Ctx), w ≠ 7 →
      c.acqPending = false →
      let n := accessBytes w.toNat
      let rel := if o = 1 then some c.mods.scope else none
      let place := fun l => placeOf c n false true (c.addr sb.toNat a.toNat l)
      (Issues s g (addrArgs sb.toNat a.toNat ++ widthSrc w.toNat d.toNat ++
          [.need (decide (o ≠ 3)), .need (decide (w = 7 → o = 0)), .need (decide (w ≠ 1 ∧ w ≠ 3))]) c →
        (∀ l ∈ c.act, (place l).any (writable c n) = true) →
        EffOutcome (.st g d a sb w o) s c (c.act.filterMap (fun l => (place l).map (fun x =>
          ⟨maskOf [l], sending (s.homeOf x) (.write x (lowBytes n (sourceNum c w.toNat d.toNat l)) []) rel x.isHost false false⟩)))) ∧
      (Issues s g (scalarAddrArgs sb.toNat a.toNat ++ [.sr d.toNat, .need (decide (o ≠ 3)),
          .need (decide (w = 0 ∨ w = 2 ∨ w = 4 ∨ w = 5))]) c →
        ∀ x ∈ (placeOf c n false true (c.sc sb.toNat + c.sc a.toNat + c.disp).toNat).toList, writable c n x = true →
          EffOutcome (.sst g d a sb w o) s c
            [⟨maskOf c.act, sending (s.homeOf x) (.write x (lowBytes n (c.sc d.toNat).toNat) []) rel x.isHost false false⟩]) ∧
      (Issues s g (addrArgs sb.toNat a.toNat ++ widthSrc w.toNat d.toNat ++
          [.need (decide (w = 0 ∨ w = 2 ∨ w = 4 ∨ w = 5 ∨ w = 6))]) c →
        (∀ l ∈ c.act, (place l).isSome = true) →
        EffOutcome (.stp g d a sb w) s c (c.act.filterMap (fun l => (place l).map (fun x =>
          ⟨maskOf [l], sending (s.homeOf x) (.write x (lowBytes n (sourceNum c w.toNat d.toNat l)) []) none false true false⟩))))) ∧
  (∀ (s : State) (g : BitVec 4) (d a : BitVec 6) (sb : BitVec 5) (w : BitVec 3) (c : Ctx), c.acqPending = false →
      ∀ sel ∈ (atomSel w.toNat (c.fmtOr 20)).toList,
        let n := if sel.2 then 8 else 4
        let place := fun l => placeOf c n true true (c.addr sb.toNat a.toNat l)
        let rel := if c.mods.order = 2 ∨ c.mods.order = 3 then some c.mods.scope else none
        let acq := decide (c.mods.order = 1 ∨ c.mods.order = 3)
        let two := fun (i l : Nat) =>
          if d.toNat < 60 then ((c.v (d.toNat + i + 1) l ++ c.v (d.toNat + i) l : BitVec 64)) else 0
        let x := fun (l : Nat) => if sel = (.cas, true) then two 0 l else if sel.2 then c.v64 d.toNat l else (c.v d.toNat l).setWidth 64
        let y := fun (l : Nat) => if sel.1 ≠ .cas then 0 else if sel.2 then two 2 l
          else if d.toNat < 60 then (c.v (d.toNat + 1) l).setWidth 64 else 0
        (Issues s g (addrArgs sb.toNat a.toNat ++ [atomOperand (some sel) d.toNat, .need (decide (d.toNat ≤ 60)), .vw d.toNat] ++
            (if sel.2 then [.pw d.toNat] else [])) c →
          (∀ l ∈ c.act, (place l).any (writable c n) = true) →
          SendOutcome (.atom g d a sb w) s c
            (c.act.zipIdx.filterMap (fun e => (place e.1).map (fun p => ⟨maskOf [e.1],
              sending (s.homeOf p) (.atomic p sel.1 sel.2 (x e.1) (y e.1) (some (s.keys + e.2))) rel p.isHost false acq⟩)))
            (c.act.zipIdx.map (fun e =>
              lateFor c e.1 (s.keys + e.2) ((List.range (n / 4)).map (fun i => c.dest d.toNat i e.1)) acq))) ∧
        (Issues s g (addrArgs sb.toNat a.toNat ++ [atomOperand (some sel) d.toNat, .need (decide (d ≠ 62))]) c →
          (∀ l ∈ c.act, (place l).isSome = true) →
          EffOutcome (.atp g d a sb w) s c
            (c.act.filterMap (fun l => (place l).map (fun p => ⟨maskOf [l],
              sending (s.homeOf p) (.atomic p sel.1 sel.2 (x l) (y l) none) rel false true false⟩)))))

/-- Element words (R70 to R74, R83, R122, R127, R227, R269) on elements whose data bytes are the core's own and whose
planes are the module's: `ld.e` gives each active lane the value of its element, decoded through the FRAME binding,
and the conditions of the decode; `st.e` sends each active lane's value, with its draw under stochastic rounding, to
be encoded at the element's home. -/
def Obligations.ElementWords : Prop :=
  ∀ (s : State) (g : BitVec 4) (d a : BitVec 6) (sb : BitVec 5) (c : Ctx),
    c.acqPending = false → c.widePending .cb = false →
    let elem := fun (rd wr : Bool) (l : Nat) =>
      match c.elemAcc l (c.elemBase sb.toNat a.toNat l).1 (c.elemBase sb.toNat a.toNat l).2 rd wr with
      | .ok t => some t
      | _ => none
    let planes := fun (l : Nat) (t : ETgt) => t.ref.planes.all (fun y => !s.elsewhere y && (decide (s.homeOf y = s.homeOf t.ref.data) ||
      (!c.isHeld l (s.homeOf y) && !c.unsent l (s.homeOf y)))) && (c.queuedTeam t.ref.data).isNone
    (c.p.fenceR = [] → (∀ o ∈ c.p.pend, o.id < s.keys) →
      Issues s g (addrArgs sb.toNat a.toNat ++ [.vw d.toNat, .need true, .need true]) c →
      (∀ l ∈ c.act, (elem true false l).any (fun t => nearBy c t.ref.bytes l t.ref.data && planes l t &&
        t.ref.planes.all (fun y => !s.poisoned y.pa 1) && !s.elemLocked t.ref false) = true ∧
        Map.find c.b.ans (256 + l) = none) →
      let got := fun (t : ETgt) => t.ref.decode (s.bound c.frame t.ref.data.pa (memBytes s.mem t.ref.data.pa t.ref.bytes))
        (fun y => (s.bound c.frame y.pa [memByte s.mem y.pa]).headD 0)
      ∃ c', exec (.ld g d a sb 7 0) s = .next c'.advance ∧
        Flags c c' (fun l => (elem true false l).elim 0 (fun t => (got t).2)) ∧
        c' = { c with
          s := { afterReads c (c.act.flatMap (fun l => (elem true false l).elim [] (fun t =>
              (t.ref.data, t.ref.bytes) :: t.ref.planes.map (fun y => (y, 1))))) with
            keys := c.s.keys + c.act.length },
          p := { c.p with pend := (c.act.zipIdx.filterMap (fun e => (elem true false e.1).map (fun t =>
            { PendOp.mk' c false [c.dest d.toNat 0 e.1] [(got t).1.toNat] with
              id := s.keys + e.2, lanes := maskOf [e.1], va := t.tgt.va, pa := t.ref.data.pa }))).foldl (joined c) c.p.pend },
          r := { c.r with live := c'.r.live, ov := { c.r.ov with fp := c'.r.ov.fp, marks := c'.r.ov.marks } } }) ∧
    (Issues s g (addrArgs sb.toNat a.toNat ++ [.vr d.toNat, .need (decide (d ≠ 62)), .need true, .need true, .need true] ++
        c.drawArgs) c →
      (∀ l ∈ c.act, (elem false true l).any (fun t => writable c t.ref.bytes t.ref.data && planes l t &&
        !t.ref.comp.any (fun y => s.locked y.1 1 true)) = true) →
      let draws := fun l => (elem false true l).elim [] (fun t => if t.ref.fmt = 9 then [] else drawWrites c l 1)
      ∃ c', exec (.st g d a sb 7 0) s = .next c'.advance ∧ Executed s c'.advance c c' ∧ Regs c c' draws ∧
        opShape c c'.p.pend = opShape c c.p.pend ∧
        c' = { c with
          p := { c.p with pend := c'.p.pend },
          r := { c.r with
            eff := c.r.eff ++ c.act.filterMap (fun l => (elem false true l).map (fun t => ⟨maskOf [l],
              sending (s.homeOf t.ref.data) (.elem t.ref (c.v d.toNat l) c.mods.rnd c.mods.sat
                (if t.ref.fmt = 9 then 0 else drawWord c l 0)) none t.ref.data.isHost false false⟩)),
            live := c'.r.live, ov := { c.r.ov with v := c'.r.ov.v, marks := c'.r.ov.marks } } })

/-! ## Tickets -/

/-- Ticket requests (R87, R88, R235 to R237): `ldt` asks for each active lane, `ldtb` once for a block; the requests
go out at once and their tickets come with the answers. `att` asks by an atomic operation at the commit of the run.
`egath` (R80, R238) with a descriptor that the part can read and that keeps the limits of R80: each active lane whose
index names a row receives a ticket of that row; with no such lane and no drop counter every lane receives the null
ticket. -/
def Obligations.TicketRequests : Prop :=
  (∀ (s : State) (g : BitVec 4) (d a : BitVec 6) (sb : BitVec 5) (w : BitVec 3) (o : BitVec 2) (c : Ctx), c.acqPending = false →
      (c.p.fenceR = [] → Issues s g (addrArgs sb.toNat a.toNat ++ [.pw d.toNat, .need (decide (o ≠ 3)), .need (decide (w ≠ 7))]) c →
        let n := accessBytes w.toNat
        let place := fun l => placeOf c n true false (c.addr sb.toNat a.toNat l)
        (∀ l ∈ c.act, (place l).any (fun x => !c.isHeld l (c.s.homeOf x)) = true) →
        PostOutcome (.ldt g d a sb w o) s c s
          (c.act.zipIdx.map (fun e => { PendOp.mk' c false [c.dest d.toNat 0 e.1, c.dest d.toNat 1 e.1] [] with
            id := s.keys + 2 * e.2, lanes := maskOf [e.1], ready := false, role := .fetch }))
          (c.act.zipIdx.filterMap (fun e => (place e.1).map (fun x => msgOf c (s.keys + 2 * e.2 + 1) (maskOf [e.1]) (s.homeOf x)
            (.fetch (fetchOf c x n w.toNat false c.frame (s.keys + 2 * e.2))))))) ∧
      (c.p.fenceR = [] → Issues s g [.hw d.toNat, .sr a.toNat, .sr sb.toNat, .need (decide (sb.toNat ≤ 30)), .need (decide (o ≠ 3))] c →
        let va := (c.sc sb.toNat + c.disp).toNat
        let n := (c.sc a.toNat).toNat
        n % 16 = 0 → 16 ≤ n → n ≤ 4096 → va / 4096 = (va + n - 1) / 4096 →
        ∀ x ∈ (placeOf c 16 true false va).toList, (∀ l ∈ c.act, c.isHeld l (c.s.homeOf x) = false) →
          PostOutcome (.ldtb g d a sb o) s c s [{ PendOp.mk' c false [.h d.toNat] [] with ready := false, role := .fetch }]
            [msgOf c (s.keys + 1) (maskOf c.act) (s.homeOf x) (.fetch (fetchOf c x n 7 true c.frame s.keys))]) ∧
      (∀ sel ∈ (atomSel w.toNat (c.fmtOr 20)).toList,
        Issues s g (addrArgs sb.toNat a.toNat ++ [.pw d.toNat, atomOperand (some sel) d.toNat]) c →
        let n := if sel.2 then 8 else 4
        let place := fun l => placeOf c n true true (c.addr sb.toNat a.toNat l)
        (∀ l ∈ c.act, (place l).isSome = true) →
        SendOutcome (.att g d a sb w) s c
          (c.act.zipIdx.filterMap (fun e => (place e.1).map (fun x => ⟨maskOf [e.1], sending (s.homeOf x)
            (.att (fetchOf c x n (if sel.2 then 5 else 4) false c.frame (s.keys + e.2)) sel.1 sel.2
              (c.atomVals sel d.toNat e.1).1 (c.atomVals sel d.toNat e.1).2)
            (if c.mods.order = 2 ∨ c.mods.order = 3 then some c.mods.scope else none) false false false⟩)))
          (c.act.zipIdx.map (fun e => lateFor c e.1 (s.keys + e.2) [c.dest d.toNat 0 e.1, c.dest d.toNat 1 e.1] false)))) ∧
  (∀ (s : State) (g : BitVec 4) (d a : BitVec 6) (sb : BitVec 5) (c : Ctx), c.acqPending = false → c.p.fenceR = [] →
      Issues s g [.pw d.toNat, .vr a.toNat, .need (decide (a ≠ 62)), .sr sb.toNat, .need (decide (sb.toNat ≤ 30))] c →
      Map.find c.b.ans 64 = none →
      ∀ x ∈ (placeOf c 64 true false (c.sc sb.toNat + c.disp).toNat).toList,
        (∀ l ∈ c.act, atHand c 64 l x = true) →
        let desc : Nat := readNum c x 64
        let base : Nat := desc % 2 ^ 64
        let bytes : Nat := desc / 2 ^ 64 % 2 ^ 32
        let rows : Nat := desc / 2 ^ 96 % 2 ^ 32
        desc / 2 ^ 192 = 0 → (∃ k ∈ List.range 11, bytes = 4 * 2 ^ k) → base % bytes = 0 → 1 ≤ rows → rows ≤ 2 ^ 31 →
        desc / 2 ^ 128 % 2 ^ 64 = 0 →
        let valid := fun l => decide (0 ≤ (c.v a.toNat l).toInt) && decide ((c.v a.toNat l).toInt < (rows : Int))
        let row := fun l => placeOf c bytes true false ((base + (c.v a.toNat l).toNat * bytes) % 2 ^ 64)
        let code := if bytes = 4 then 4 else if bytes = 8 then 5 else if bytes = 16 then 6 else 7
        ((∀ l ∈ c.act, valid l = true ∧ (row l).any (fun y => !c.isHeld l (c.s.homeOf y)) = true) →
          PostOutcome (.egath g d a sb) s c (afterReads c [(x, 64)])
            (c.act.zipIdx.map (fun e => { PendOp.mk' c false [c.dest d.toNat 0 e.1, c.dest d.toNat 1 e.1] [] with
              id := s.keys + 2 * e.2, lanes := maskOf [e.1], ready := false, role := .fetch }))
            (c.act.zipIdx.filterMap (fun e => (row e.1).map (fun y => msgOf c (s.keys + 2 * e.2 + 1) (maskOf [e.1]) (s.homeOf y)
              (.fetch (fetchOf c y bytes code (decide (16 < bytes)) c.frame (s.keys + 2 * e.2))))))) ∧
        ((∀ l ∈ c.act, valid l = false) →
          PostOutcome (.egath g d a sb) s c (afterReads c [(x, 64)])
            [PendOp.mk' c false (c.act.flatMap (fun l => [c.dest d.toNat 0 l, c.dest d.toNat 1 l]))
              (List.replicate (2 * c.act.length) 0)] []))

/-- Redemption (R86, R91 to R95, R240) of tickets that the redeemer's core accepts: `rdm` claims the ticket of each
active lane, and its data comes with the answer; the null ticket gives zeros. With its answer there, `rdmb` sends the
block to its destination, and `ttest` and `ttestb` push whether the data is there; `rdmb` of the null ticket never
traps; releases are posted. It rests on the model's choice (log 35). -/
def Obligations.TicketUses : Prop :=
  ∀ (s : State) (g : BitVec 4) (d a b : BitVec 6) (c : Ctx),
    let n := if b = 6 then 4 else if b = 5 then 2 else 1
    let posted := fun (t : DWord) => sending (ticketHome t) (.trel t c.p.launchId) none false true false
    (Issues s g [.pr a.toNat, if b = 6 then .qw d.toNat else if b = 5 then .pw d.toNat else .vw d.toNat,
        .need (decide (b = 4 ∨ b = 5 ∨ b = 6))] c → ownTickets c a.toNat →
      let dests := fun l => (List.range n).map (fun i => c.dest d.toNat i l)
      let null := c.act.filter (fun l => decide (c.v64 a.toNat l = 0))
      let zeros := if null = [] then [] else
        [{ PendOp.mk' c false (null.flatMap dests) (List.replicate (n * null.length) 0) with lanes := maskOf null }]
      let first := s.keys + zeros.length
      let claims := (c.act.filter (fun l => decide (c.v64 a.toNat l ≠ 0))).zipIdx
      let who := fun (e : Nat × Nat) => (⟨s.devId, c.core, c.pid, c.b.id, e.1, first + 2 * e.2⟩ : Asker)
      PostOutcome (.rdm g d a b) s c s
        (zeros ++ claims.map (fun e => { PendOp.mk' c false (dests e.1) [] with
          id := first + 2 * e.2, lanes := maskOf [e.1], flag := none, ready := false, acquire := true,
          role := .claim (c.v64 a.toNat e.1) (who e) }))
        (claims.map (fun e => msgOf c (first + 2 * e.2 + 1) (maskOf [e.1]) (ticketHome (c.v64 a.toNat e.1))
          (.claim (c.v64 a.toNat e.1) (who e) c.p.launchId c.p.asid c.frame)))) ∧
    (Issues s g [.sr d.toNat, .hr a.toNat] c → c.acqPending = false → c.hd a.toNat ≠ 0 → c.foreign (c.hd a.toNat) true = false →
      let va := (c.sc d.toNat).toNat
      ∀ x ∈ (placeOf c 1 false true va).toList, x.isScratch = true → c.s.isLocal c.core x = true → va % 16 = 0 →
      ∀ data ∈ (claimData c 64 (c.hd a.toNat)).toList, oneGranule va (c.lenOf (c.hd a.toNat)) = true →
        SendOutcome (.rdmb g d a) s c
          [⟨maskOf c.act, sending (s.homeOf x) (.block x data s.keys false) none false false false⟩]
          [{ PendOp.mk' c false [] [] with late := true, ready := false }]) ∧
    (Issues s g [.sr d.toNat, .hr a.toNat] c → c.acqPending = false → c.hd a.toNat = 0 → Map.find c.b.ans 64 = none →
      s.access c.core c.p.asid (c.sc d.toNat).toNat 1 false true ≠ .page →
      s.access c.core c.p.asid (c.sc d.toNat).toNat 1 false true ≠ .wait →
      c.walkDue (c.sc d.toNat).toNat = false →
      (∀ f x, s.access c.core c.p.asid (c.sc d.toNat).toNat 1 false true = .ok f x → c.queuedTeam x = none) →
      ∃ (c' : Ctx) (es : List Eff) (ops : List PendOp), exec (.rdmb g d a) s = .next c'.advance ∧
        ((es = [] ∧ ops = []) ∨ ∃ x zs, placeOf c 1 false true (c.sc d.toNat).toNat = some x ∧ x.isScratch = true ∧
          es = [⟨maskOf c.act, sending (s.homeOf x) (.block x (List.replicate zs 0) s.keys false) none false false false⟩] ∧
          ops = [{ PendOp.mk' c false [] [] with late := true, ready := false }]) ∧
        c' = { c with
          s := { c.s with keys := c.s.keys + ops.length, free := c.s.free + 1 },
          p := { c.p with pend := ops.foldl (joined c) c.p.pend },
          r := { c.r with eff := c.r.eff ++ es, ov := { c.r.ov with marks := c'.r.ov.marks } } }) ∧
    (Issues s g [.pr a.toNat] c → ownTickets c a.toNat →
      (c.acqPending = false →
        EffOutcome (.trel g a) s c ((c.act.filter (fun l => decide (c.v64 a.toNat l ≠ 0))).map (fun l =>
          ⟨maskOf [l], posted (c.v64 a.toNat l)⟩))) ∧
      ((∀ l ∈ c.act, (testAnswer c l (c.v64 a.toNat l)).isSome = true) →
        LaneOutcome (.ttest g a) s c noWrites (pushed c (fun l => (testAnswer c l (c.v64 a.toNat l)).getD false)) noFlags)) ∧
    (Issues s g [.hr a.toNat] c → c.foreign (c.hd a.toNat) true = false →
      (c.acqPending = false →
        EffOutcome (.trelb g a) s c (if c.hd a.toNat = 0 then [] else [⟨maskOf c.act, posted (c.hd a.toNat)⟩])) ∧
      ((testAnswer c 64 (c.hd a.toNat)).isSome = true →
        LaneOutcome (.ttestb g a) s c noWrites (pushed c (fun _ => (testAnswer c 64 (c.hd a.toNat)).getD false)) noFlags))

/-- Memory-side words (R76 to R79, R102, R242, R243) whose addresses pass their checks and lie in no host window: one
operation for each active lane with the operands of its group, sent when the run commits; posted when D is 60, and
with tickets for its results otherwise. -/
def Obligations.MemorySide : Prop :=
  ∀ (s : State) (g : BitVec 4) (d a : BitVec 6) (c : Ctx), c.acqPending = false →
    let rel := if c.mods.order = 2 ∨ c.mods.order = 3 then some c.mods.scope else none
    let q := fun (l i : Nat) => (c.v (a.toNat + i + 1) l ++ c.v (a.toNat + i) l : BitVec 64)
    let at_ := fun l => (q l 0 + c.disp).toNat
    let place := fun (n : Nat) (rd wr : Bool) (l : Nat) => placeOf c n rd wr (at_ l)
    let free := fun (n : Nat) (rd wr : Bool) => ∀ l ∈ c.act, (place n rd wr l).any (fun x => !x.isHost) = true
    let ticket := fun (x : Loc) (len op : Nat) => fetchOf c x len (if len = 8 then 5 else 6) false 0 op
    let one := fun (i : Instr) (pl : Nat → Option Loc) (len : Nat) (kind : Nat → MsoKind) =>
      (d = 60 → EffOutcome i s c (c.act.filterMap (fun l => (pl l).map (fun x =>
        ⟨maskOf [l], sending (s.homeOf x) (.mso x (kind l) none none) rel false true false⟩)))) ∧
      (d ≠ 60 → SendOutcome i s c
        (c.act.zipIdx.filterMap (fun e => (pl e.1).map (fun x => ⟨maskOf [e.1],
          sending (s.homeOf x) (.mso x (kind e.1) (some (ticket x len (s.keys + e.2))) none) rel false false false⟩)))
        (c.act.zipIdx.map (fun e => lateFor c e.1 (s.keys + e.2) [c.dest d.toNat 0 e.1, c.dest d.toNat 1 e.1] false)))
    let group := fun (k : Nat) => [Arg.gr a.toNat k, .need (decide (a.toNat + k ≤ 56))]
    (Issues s g ([.pw d.toNat, .need (decide (a.toNat % 4 = 0))] ++ group 12) c → free 16 true true →
      one (.msoCas2 g d a) (place 16 true true) 16 (fun l => .cas2 (q l 4) (q l 6) (q l 8) (q l 10))) ∧
    (Issues s g ([.pw d.toNat, .need (decide (a.toNat % 2 = 0))] ++ group 4) c → free 32 true true →
      one (.msoEnq g d a) (place 32 true true) 8 (fun l => .enq (q l 2))) ∧
    (Issues s g ([.qw d.toNat, .need (decide (a.toNat % 4 = 0))] ++ group 20) c → free 32 true true →
      let kind := fun l => MsoKind.cas4 (q l 4) (q l 6) (q l 8) (q l 10) (q l 12) (q l 14) (q l 16) (q l 18)
      (d = 60 → EffOutcome (.msoCas4 g d a) s c (c.act.filterMap (fun l => (place 32 true true l).map (fun x =>
        ⟨maskOf [l], sending (s.homeOf x) (.mso x (kind l) none none) rel false true false⟩)))) ∧
      (d ≠ 60 → SendOutcome (.msoCas4 g d a) s c
        (c.act.zipIdx.filterMap (fun e => (place 32 true true e.1).map (fun x => ⟨maskOf [e.1], sending (s.homeOf x)
          (.mso x (kind e.1) (some (ticket x 16 (s.keys + 2 * e.2))) (some (ticket x 16 (s.keys + 2 * e.2 + 1)))) rel
            false false false⟩)))
        (c.act.zipIdx.flatMap (fun e => [lateFor c e.1 (s.keys + 2 * e.2) [c.dest d.toNat 0 e.1, c.dest d.toNat 1 e.1] false,
          lateFor c e.1 (s.keys + 2 * e.2 + 1) [c.dest d.toNat 2 e.1, c.dest d.toNat 3 e.1] false])))) ∧
    (Issues s g [.pw d.toNat, .gr a.toNat 3, .need (decide (a.toNat % 2 = 0)), .need (decide (a.toNat ≤ 52))] c →
      let off := fun l => (c.v (a.toNat + 2) l).toNat
      let link := fun l => placeOf c 8 true false ((at_ l + off l) % 2 ^ 64)
      (∀ l ∈ c.act, off l ≤ 4088 ∧ off l % 8 = 0) →
      ((∀ l ∈ c.act, at_ l ≠ 0 ∧ (link l).any (fun x => !x.isHost) = true) →
        one (.msoChase g d a) link 16 (fun l => .chase (at_ l) (off l))) ∧
      ((∀ l ∈ c.act, at_ l = 0) →
        (d = 60 → PlainOutcome (.msoChase g d a) s c) ∧
        (d ≠ 60 → SendOutcome (.msoChase g d a) s c [] (c.act.zipIdx.map (fun e =>
          { PendOp.mk' c false [c.dest d.toNat 0 e.1, c.dest d.toNat 1 e.1] [0, 0] with
            id := s.keys + e.2, lanes := maskOf [e.1], late := true }))))) ∧
    (Issues s g [.gr a.toNat 5, .need (decide (a.toNat % 2 = 0)), .need (decide (a.toNat ≤ 50))] c → free 16 false true →
      let len := fun l => (c.v (a.toNat + 4) l).toNat
      (∀ l ∈ c.act, len l % 16 = 0 ∧ 16 ≤ len l ∧ len l ≤ 4096 ∧ at_ l / 4096 = (at_ l + len l - 1) / 4096 ∧
        (q l 2).toNat % 16 = 0 ∧ (c.rowSource (q l 2).toNat (len l)).isSome = true) →
      EffOutcome (.msoRowput g a) s c (c.act.filterMap (fun l => (place 16 false true l).map (fun x => ⟨maskOf [l],
        sending (s.homeOf x) (.mso x (.rowputFrom ((c.rowSource (q l 2).toNat (len l)).getD [])) none none) rel false true false⟩))))

/-! ## Copy engines, frames, the matrix stream -/

/-- Copy words (R82, R246 to R249) whose limits and checks hold: the engine of R248 takes the operation under its next
SEQ, its two locks are registered, D receives the handle, and the operation is to start after the commit. Nothing is
copied before; the parameter block or list of `cpys` and `cpyg` has been read. Handle words (R251 to R253): `wait`
completes with the value of a complete operation, and leaves the bundle waiting for an incomplete one; `test` pushes
whether it is complete; `cancel` posts its request. The null handle is complete with value 0. -/
def Obligations.CopyAndHandles : Prop :=
  (∀ (s : State) (g : BitVec 4) (d a : BitVec 6) (c : Ctx),
      let issued := fun (i : Instr) (q : CopyReq) (u : Ctx) => ∀ eng ∈ (u.s.pickEngine (u.engineStack q)).toList,
        let e := Map.getD s.engines eng Engine.init
        let sb := boundsOf q.srcs
        let db := boundsOf q.dsts
        ∃ (c' : Ctx) (x : EngOp), exec i s = .next c'.advance ∧
          Map.find c'.s.engines eng = some { e with next := (e.next + 1) % 2 ^ 24, ops := e.ops ++ [x] } ∧
          (∀ k, k ≠ eng → Map.find c'.s.engines k = Map.find s.engines k) ∧
          x.op = s.keys ∧ x.seq = e.next ∧ x.req = q ∧ x.party = c.pid ∧ x.committed = false ∧ x.started = false ∧
          c'.s = { u.s with keys := s.keys + 2, engines := c'.s.engines,
                            locks := s.locks ++ u.s.rangeLocks c.core c.p.asid s.keys false sb.1 sb.2 ++
                              u.s.rangeLocks c.core c.p.asid s.keys true db.1 db.2 } ∧
          c'.r.eff = c.r.eff ++ [⟨maskOf c.act, .engine eng e.next⟩] ∧
          c'.r.ov.pw = c.r.ov.pw ++ [(maskOf c.act, s.keys + 1, .h d.toNat (BitVec.ofNat 64
            (eng % 16 + eng / 16 * 16 + s.devId.toNat * 2 ^ 8 + e.next * 2 ^ 32 + c.p.launchId.toNat % 128 * 2 ^ 56 + 2 ^ 63)))] ∧
          c'.r.ov.v = c.r.ov.v ∧ c'.r.ov.preds = c.r.ov.preds
      let three := [Arg.hw d.toNat, .sr a.toNat, .need (decide (a.toNat ≤ 28)), .sr (a.toNat + 1), .sr (a.toNat + 2)]
      let line := fun (kind : EngKind) (bf : Bool) => CopyReq.mk kind bf (c.sc a.toNat).toNat (c.sc (a.toNat + 1)).toNat
        (c.sc (a.toNat + 2)).toNat 1 0 0 []
      let lineOk := fun (q : CopyReq) => q.len % 16 = 0 ∧ 16 ≤ q.len ∧ q.len ≤ 2 ^ 40 ∧ q.dst % 16 = 0 ∧ q.src % 16 = 0
      (Issues s g three c → lineOk (line .cpy false) → goesAhead (c.engineChecks (line .cpy false)) → issued (.cpy g d a) (line .cpy false) c) ∧
      (Issues s g three c → c.fmtOr 0 = 0 ∨ c.fmtOr 0 = 2 →
        let q := line .cpyr (decide (c.fmtOr 0 = 2))
        lineOk q → goesAhead (c.engineChecks q) → issued (.cpyr g d a) q c) ∧
      (Issues s g [.hw d.toNat, .sr a.toNat] c → c.acqPending = false → c.p.fenceR = [] →
        let va := (c.sc a.toNat).toNat
        let x := leNat (c.rangeBytes va 32)
        let q : CopyReq := CopyReq.mk .cpys false (x % 2 ^ 64) (x / 2 ^ 64 % 2 ^ 64) (x / 2 ^ 192 % 2 ^ 16) (x / 2 ^ 208 % 2 ^ 24)
          (BitVec.ofNat 32 (x / 2 ^ 160)).toInt (BitVec.ofNat 32 (x / 2 ^ 128)).toInt []
        va % 32 = 0 → goesAhead (c.readRange va 32 (fun _ => .go)) → x / 2 ^ 232 = 0 →
        q.len % 16 = 0 ∧ 16 ≤ q.len ∧ q.len ≤ 4096 → q.rows ≠ 0 → q.dst % 16 = 0 → q.src % 16 = 0 → q.dstStep % 16 = 0 →
        q.srcStep % 16 = 0 → goesAhead (c.engineChecks q) → issued (.cpys g d a) q (c.seenRange va 32)) ∧
      (Issues s g three c → c.acqPending = false → c.p.fenceR = [] →
        let x := (c.sc (a.toNat + 2)).toNat
        let va := (c.sc (a.toNat + 1)).toNat
        let n := x % 2 ^ 32
        let bytes := c.rangeBytes va (8 * n)
        let q : CopyReq := CopyReq.mk .cpyg false (c.sc a.toNat).toNat 0 (x / 2 ^ 32 % 2 ^ 16) n 0 0
          ((List.range n).map (fun i => leNat ((bytes.drop (8 * i)).take 8)))
        q.dst % 16 = 0 → va % 8 = 0 → 1 ≤ n → n ≤ 65536 → q.len % 16 = 0 ∧ 16 ≤ q.len ∧ q.len ≤ 4096 → x / 2 ^ 48 = 0 →
        (∀ y ∈ q.list, y % 16 = 0) → goesAhead (c.readRange va (8 * n) (fun _ => .go)) → goesAhead (c.engineChecks q) → issued (.cpyg g d a) q (c.seenRange va (8 * n)))) ∧
  (∀ (s : State) (g : BitVec 4) (d a : BitVec 6) (c : Ctx),
      let h := c.hd a.toNat
      let mine := handleBits h c.p.launchId = true ∧ field h 8 20 = s.devId
      let result := if h = 0 then .done 0 else s.readHandle h
      h = 0 ∨ mine → result ≠ .bad →
      (Issues s g [.sw d.toNat, .hr a.toNat] c →
        (∀ x, result = .done x → d.toNat < 31 → WideOutcome (.wait g d a) s c (.s d.toNat x) noFlags) ∧
        (∀ x, result = .done x → d = 31 → PlainOutcome (.wait g d a) s c) ∧
        (result = .pending → exec (.wait g d a) s = .next (s.setParty c.pid (c.p.setBundle
          { c.b with phase := .held (.handle h), stalled := false }))) ∧
        (∀ f, result = .refused f → exec (.wait g d a) s =
          .next (s.raise c.pid c.b.id (allTrap c.act cFrame f) c.here false))) ∧
      (Issues s g [.hr a.toNat] c →
        LaneOutcome (.test g a) s c noWrites (pushed c (fun _ => decide (result ≠ .pending))) noFlags ∧
        (c.acqPending = false → field h 28 2 ≠ 1 →
          EffOutcome (.cancel g a) s c (if h = 0 then [] else
            [⟨maskOf c.act, sending (.core (field h 8 20) (32 * (field h 4 4).toNat)) (.engCancel h) none false true false⟩]))))

/-- Frame words (R25, R272, R274 to R276, R278): `spopen`, `spacc` and `spdrop` send a claim to the frame table at
once, as an operation that holds up the commit but no later word; the frame that `spopen` opens is its result, and
`spacc` and `spdrop` give the completion handle; `spbind` binds; `stx` posts a version for each active lane. It rests
on the model's choice (log 9). -/
def Obligations.FrameWords : Prop :=
  ∀ (s : State) (g : BitVec 4) (d a b : BitVec 6) (c : Ctx),
    let f := c.hd a.toNat
    let fits := f.getLsbD 63 = false ∧ field f 40 16 = 0 ∧ field f 56 7 = c.p.launchId.setWidth 7
    let who : Asker := ⟨s.devId, c.core, c.pid, c.b.id, 64, s.keys⟩
    let claim := fun (dests : List Dest) =>
      { PendOp.mk' c false dests [] with flag := none, ready := false, role := .frame who }
    let ask := fun (h : Home) (kind : Nat) (id arg : DWord) =>
      msgOf c (s.keys + 1) (maskOf c.act) h (.frameReq kind id arg who c.p.launchId c.p.asid c.p.gridId)
    let closes := fun (i : Instr) (kind : Nat) (arg x : DWord) =>
      ∃ c' : Ctx, exec i s = .next c'.advance ∧ opShape c c'.p.pend = opShape c (c.p.pend ++ [claim []]) ∧
        c' = { c with
          s := { s with keys := s.keys + 3, net := s.net ++ [ask (.core (field f 12 20) 0) kind f arg] },
          p := { c.p with pend := c'.p.pend },
          r := { c.r with ov := { c.r.ov with
            marks := c'.r.ov.marks, pw := c.r.ov.pw ++ [(maskOf c.act, s.keys + 2, .h d.toNat x)] } } }
    let handle := fun (bit : Nat) => BitVec.ofNat 64 ((field f 12 20).toNat * 2 ^ 8 + 2 ^ 28 + (field f 0 12).toNat * 2 ^ 32 +
      (field f 32 8).toNat * 2 ^ 44 + bit * 2 ^ 55 + (field f 56 7).toNat * 2 ^ 56 + 2 ^ 63)
    (Issues s g [.hw d.toNat, .sr a.toNat] c → c.acqPending = false →
      PostOutcome (.spopen g d a) s c s [claim [.h d.toNat]] [ask (.core s.devId 0) 0 0 (c.sc a.toNat)]) ∧
    (Issues s g [.hw d.toNat, .hr a.toNat, .sr b.toNat] c → c.acqPending = false → fits →
      closes (.spacc g d a b) 1 (c.sc b.toNat) (handle 0)) ∧
    (Issues s g [.hw d.toNat, .hr a.toNat] c → c.acqPending = false → fits →
      closes (.spdrop g d a) 2 0 (handle 1)) ∧
    (Issues s g [.hr a.toNat] c → f = 0 ∨ fits → WideOutcome (.spbind g a) s c (.frame f) noFlags) ∧
    (intFmt (c.fmtOr 20) →
      let w := intWidth (c.fmtOr 20)
      let place := fun l => placeOf c (w / 8) false true (c.v64 a.toNat l).toNat
      Issues s g [.src w d.toNat, .pr a.toNat, .vr b.toNat] c → c.acqPending = false → c.frame ≠ 0 →
      field c.frame 12 20 = s.devId →
      (∀ l ∈ c.act, (place l).any (fun x => !x.isHost && !x.isScratch && decide (x.dev = s.devId)) = true) →
      EffOutcome (.stx g d a b) s c (c.act.filterMap (fun l => (place l).map (fun x => ⟨maskOf [l], sending (s.homeOf x)
        (.version x (c.v64 a.toNat l).toNat c.frame (c.v b.toNat l).toNat (lowBytes (w / 8) (c.op w d.toNat l)))
        none false true false⟩))))

/-- `mput` and `mget` (R17, R258 to R260): a tile image of the registers of every lane of the bundle, zeros for the
others, to be pushed when the run commits; and the elements of an accumulator. A party that visits from another module
has asked its team's module for a place in its queue, and whether the sequencer has stopped; it reads the accumulator
there. Words of the sequencer on its own registers and loops (R264, R265): each goes on to the next word, or to the
loop's first; `mend` ends it; an empty or too deep loop stack stops it. `mset` and `mset.cb` take bytes of the
parameter block that translate, a misplaced codebook stops it with code 1, and a page that does not translate with
code 3. Matrix words that work on tiles and barriers (R257, R258, R261 to R263, R267): with operands in order, without
poison, and with locks to be had, `mma` puts one step to work and takes the tiles it has used; `mzero`, `mlda` and
`msta` put their tile or their bytes to work; `msig` and `msync` arrive at a barrier of the team, and `msync` goes on
when its round is over. It rests on the model's choice (log 102). -/
def Obligations.MatrixWords : Prop :=
  (∀ (s : State) (g : BitVec 4) (d a : BitVec 6) (c : Ctx), c.p.seed = none →
      let home := fun (t : Team) => c.p.originDev = s.devId ∧ Map.find s.teams c.p.teamKey = some t ∧ c.stoppedAt = none
      let visits := c.p.originDev ≠ s.devId ∧ ∃ x, Map.find c.b.ans 73 = some (.val x)
      (let f := c.fmtOr 2
       let n := 8 + (if f = 5 ∨ f = 6 then 4 else 0) + (if 3 ≤ f ∧ f ≤ 8 then 1 else 0)
       1 ≤ f → f ≤ 9 → (f = 9 → c.book.isSome = true ∧ c.widePending .cb = false) → c.p.partyId.toNat < 8 →
       (visits ∨ ∃ t, home t ∧ t.seqr.isSome = true ∧ s.queueLen c.p.teamKey c.p.partyId.toNat < 8) →
       Issues s g (.need (decide (a.toNat + n ≤ 56)) :: (List.range n).map (fun i =>
         .xr (a.toNat + i) ((lanesOf c.b.mask).map (fun l => (c.act.headD 64, l))))) c →
       EffOutcome (.mput g a) s c [⟨maskOf c.act, .tile c.p.partyId.toNat (Tile.mk f
         ((List.range n).flatMap (fun i => (List.range 64).map (fun l =>
           if c.b.mask.getLsbD l then c.v (a.toNat + i) l else 0)))
         (if f = 9 then c.book else none))⟩]) ∧
      (Issues s g (.need (decide (d.toNat ≤ 40)) :: .sr a.toNat :: (List.range 16).map (fun i => .vw (d.toNat + i))) c →
       let acc := (c.sc a.toNat).toNat
       let dests := c.act.flatMap (fun l => (List.range 16).map (fun r => c.dest d.toNat r l))
       (∀ v ∈ (s.launchOf c.p).toList, visits → acc < v.rcd.accum →
         PostOutcome (.mget g d a) s c s [{ PendOp.mk' c true dests [] with ready := false }]
           [msgOf c (s.keys + 1) (maskOf c.act) (.core c.p.originDev c.p.originCore.toNat) (.tileRead c.p.teamKey acc s.keys)]) ∧
       (∀ t, home t → acc < t.tiles.length → LongOutcome (.mget g d a) s c true dests
         (c.act.flatMap (fun l => (List.range 16).map (fun r =>
           (Map.getD s.tiles ((t.cluster * 512 + t.tiles.getD acc 0) * 1024 + ((2 * r + l / 32) * 32 + l % 32)) 0).toNat)))
         c.preds noFlags))) ∧
  (∀ (s : State) (c : SeqCtx), s.seqCtx? = some c → c.runs = true →
      let step := fun (q : Seqr) => c.put (seqAt q c.q.pc (c.q.pc + 4))
      let m := fun (k : BitVec 4) (x : DWord) => { c.q with m := Map.put c.q.m k.toNat x 0 }
      (∀ (k : BitVec 4) (v : BitVec 20),
        exec (.msetSet k v) s = .next (step (m k (v.setWidth 64))) ∧
        exec (.msetAdd k v) s = .next (step (m k (Map.getD c.q.m k.toNat 0 + v.signExtend 64)))) ∧
      (∀ n : BitVec 20, n ≠ 0 → c.q.loops.length < 4 →
        exec (.mloop n) s = .next (step { c.q with loops := (c.q.pc + 4, n.toNat) :: c.q.loops })) ∧
      (∀ n : BitVec 20, n = 0 ∨ 4 ≤ c.q.loops.length → exec (.mloop n) s = .next (c.stop 6)) ∧
      (∀ pc n rest, c.q.loops = (pc, n) :: rest →
        exec .mnext s = .next (if 1 < n then c.put (seqAt { c.q with loops := (pc, n - 1) :: rest } c.q.pc pc)
          else step { c.q with loops := rest })) ∧
      (c.q.loops = [] → exec .mnext s = .next (c.stop 6)) ∧
      exec .mend s = .next (c.put { c.q with st := .ended, last := c.q.pc }) ∧
      (∀ (k : BitVec 4) (v : BitVec 20),
        let core := 4 * c.t.cluster
        let va := (c.g.rcd.param.toNat + 8 * v.toNat) % 2 ^ 64
        let got := s.readVa (.stream c.key) core c.g.asid va
        let done := fun (n : Nat) (q : Seqr) =>
          seqIn (s.seeVa ⟨c.t.grid, c.key + 1, false⟩ core c.g.asid va n) c (seqAt q c.q.pc (c.q.pc + 4))
        (∀ y, got 8 = .ok y → exec (.mset k v) s = .next (done 8 (m k (BitVec.ofNat 64 (leNat y))))) ∧
        (got 8 = .bad → exec (.mset k v) s = .next (c.stop 3)) ∧
        (v.toNat % 4 = 0 → ∀ y, got 32 = .ok y →
          exec (.msetCb v) s = .next (done 32 { c.q with book := some (BitVec.ofNat 256 (leNat y)) })) ∧
        (v.toNat % 4 = 0 → got 32 = .bad → exec (.msetCb v) s = .next (c.stop 3)) ∧
        (v.toNat % 4 ≠ 0 → exec (.msetCb v) s = .next (c.stop 1)) ∧
        (∀ (n : Nat) (lf : Leaf) (x : Loc), 1 ≤ n → n ≤ 32 → va % 4096 + n ≤ 4096 →
          s.access core c.g.asid va 1 true false = .ok lf x → x.isHost = false → x.dev = s.devId → s.locked x n false = false →
          got n = .ok (memBytes s.mem x.pa n)))) ∧
  (∀ (s : State) (c : SeqCtx) (acc : BitVec 10), s.seqCtx? = some c → c.runs = true →
      let f := (field c.entry 0 6).toNat
      (acc.toNat < c.t.tiles.length → s.poison = [] →
        exec (.mzero acc) s = .next (seqNext (putToWork c true acc.toNat [] (List.replicate 1024 0) [])) ∧
        (∀ p : BitVec 3, c.srcFault p.toNat true false 32 32 = none →
          let rows := c.pairRows p.toNat 32 32
          (∀ ls, ls = c.locksFor false (planesOf f rows) → c.lockable ls = true →
            exec (.mlda acc p) s = .next (seqNext ((putToWork c true acc.toNat ls (rows.flatten.map (fun m =>
              if f = 0 then (let x := BitVec.ofNat 32 (c.readCode f m).1
                if field x 23 8 = 0xFF ∧ field x 0 23 ≠ 0 then 0x7FC00000 else x)
              else (decodeElem f (c.readCode f m).1 (c.q.book.getD 0) (c.readCode f m).2.1).1)) []).post p.toNat 1))) ∧
          (∀ (ls : List Lock) (sat : BitVec 1), ls = c.locksFor true (planesOf f rows) → c.lockable ls = true →
            let cells := rows.zipIdx.flatMap (fun r => c.rowBytes f (decide (sat = 1)) r.1 (((c.tile acc.toNat).drop (32 * r.2)).take 32))
            exec (.msta acc p sat) s = .next (seqNext ((putToWork c true acc.toNat ls []
              (joinBytes (cells.filterMap (fun e => (c.byteAt e.1).map (fun pa => (pa, e.2)))))).post p.toNat 1)))) ∧
        (∀ (a b : BitVec 4) (z : BitVec 1) (k : BitVec 3) (ta tb : BitVec 1) (ls : List Lock) (d e : SeqCtx) (x y : Opnd) (n : Nat),
          x = opndOf a → y = opndOf b → d = (pairsOf x y).foldl (fun e p => e.atStep p c.q.step) c →
          n = min (stepK (d.opndFmt x)) (stepK (d.opndFmt y)) →
          let fa := decide (ta = 1)
          let fb := decide (tb = 1)
          let ra := stepRows d x fa n
          let rb := stepRows d y fb n
          ls = d.locksFor false ((if ra.isEmpty then [] else planesOf (d.opndFmt x) ra) ++
            (if rb.isEmpty then [] else planesOf (d.opndFmt y) rb)) →
          c.noParty x = false → c.noParty y = false → c.lacks x = false → c.lacks y = false →
          d.opndFault x fa n = none → d.opndFault y fb n = none → c.lockable ls = true →
          let w := putToWork c (decide (k.toNat ≤ c.q.step)) acc.toNat ls (stepTile (if c.q.step = 0 ∧ z = 1 then List.replicate 1024 0 else c.tile acc.toNat)
            (d.lines x fa n) (d.lines y fb n)) []
          e = (if x = y then w.take x else (w.take x).take y) →
          exec (.mma acc a b z k ta tb) s = .next (if c.q.step < k.toNat then
              e.put { e.q with st := .running, step := c.q.step + 1, last := e.q.pc }
            else seqNext ((pairsOf x y).foldl (fun u p => u.post p ((k.toNat : Int) + 1)) e)))) ∧
      (c.t.tiles.length ≤ acc.toNat → exec (.mzero acc) s = .next (c.stop 2)) ∧
      (∀ (b : BitVec 4) (n : BitVec 16),
        (c.q.work = [] → exec (.msig b n) s = .next ((seqNext c).arriveAt (.team c.key b.toNat) (seqArrival c .msig n))) ∧
        (c.q.st ≠ .waitBar → exec (.msync b n) s =
          .next ((c.put { c.q with st := .waitBar, last := c.q.pc }).arriveAt (.team c.key b.toNat) (seqArrival c .msync n))) ∧
        (c.q.st = .waitBar → c.q.freed = true → exec (.msync b n) s = .next (seqNext c))))

/-! ## Events of the part -/

/-- Events of a core's parties (R20, R22, R23, R25, R35, R37, R169): regrouping, the active set, ageing, starvation,
blocking, the end of a yield, and the writing of a long-latency result of a committed run. It rests on the model's
choices (logs 78, 114 and 128). -/
def Obligations.Scheduling : Prop :=
  ∀ (s : State) (pid : Nat) (p : Party), s.party? pid = some p →
    let clk := s.clk p.core
    let becomes := fun (i : Instr) (q : Party) => exec i s = .next (s.setParty pid q)
    (p.resident = true → p.counted = false →
      ∃ t q, exec (.regroupingPass p.core) s = .next t ∧ t.party? pid = some q ∧ { t with parties := s.parties } = s ∧
        q = { p with bundles := q.bundles } ∧ q.mask = p.mask ∧
        (∀ b ∈ p.bundles, ∃ x ∈ q.bundles, x.pc = b.pc ∧ x.wb = b.wb ∧ b.mask &&& ~~~x.mask = 0) ∧
        q.bundles.Pairwise (fun x y =>
          ¬(x.mergeable = true ∧ y.mergeable = true ∧ x.pc = y.pc ∧ x.wb = y.wb))) ∧
    (∀ core a, s.nextReady core = some (pid, a) →
      let act := ((s.residents core).filter (fun e => e.2.isActive)).map (fun e => (e.1, e.2.aged (s.clk core)))
      (act.length < 8 → becomes (.activeSetFill core) { a with place := .slot core .active }) ∧
      (∀ x q, 8 ≤ act.length →
        leastBy (fun e => e.2.rank) (act.filter (fun e => decide (e.2.rank < a.rank) && !e.2.midRun)) = some (q, x) → q ≠ pid →
        ∃ t, exec (.activeSetFill core) s = .next t ∧ t.party? pid = some { a with place := .slot core .active } ∧
          t.party? q = some { x with place := .slot core .ready, readyAt := s.clk core } ∧ { t with parties := s.parties } = s)) ∧
    (p.resident = true → p.isBlocked = false →
      becomes (.priorityAging pid) { p with level := min 3 ((clk - p.beganAt) / 4096) } ∧
      (61440 ≤ clk - p.beganAt → becomes (.starvationMark pid) { p with starving := true })) ∧
    (∀ core, p.place = .slot core .active → (∀ b ∈ p.bundles, b.departs = false ∧
        let waits := b.stalled = true ∨ b.asked ≠ []
        let runs := b.phase = .running ∨ b.phase = .executed
        (¬(waits ∧ runs) ∧ p.able b = false ∨ waits ∧ runs ∧ 256 < clk - b.stallAt)) →
      becomes (.stallBlock pid) { p with place := .slot core .blocked, blockedAt := clk }) ∧
    (∀ b n, p.bundle? b.id = some b → b.yieldTo = some n → n ≤ clk →
      becomes (.yieldExpiry pid b.id) (p.setBundle { b with yieldTo := none, yieldOn := [], since := clk })) ∧
    (∀ o, p.pend.find? (fun x => decide (x.id = o.id)) = some o → o.ready = true → o.poison = false → o.committed = true →
      Map.sorted p.vregs = true → Map.sorted p.lanes = true →
      ∃ t q, exec (.longOpComplete pid o.id) s = .next t ∧ t.party? pid = some q ∧ { t with parties := s.parties } = s ∧
        q.pend = p.pend.filter (fun x => decide (x ≠ o)) ∧
        (∀ reg l x, reg < tempBase → (Dest.v reg l, x) ∈ o.dests.zip o.vals →
          (∀ e ∈ o.dests.zip o.vals, e = (Dest.v reg l, x) ∨ (∀ r k, e.1 = .v r k ∨ e.1 = .fill r k → regKey r k ≠ regKey reg l)) →
          Map.getD q.vregs (regKey reg l) 0 = BitVec.ofNat 32 x) ∧
        (∀ key, (∀ e ∈ o.dests.zip o.vals, ∀ r k, e.1 = .v r k ∨ e.1 = .fill r k → regKey r k ≠ key) →
          Map.getD q.vregs key 0 = Map.getD p.vregs key 0) ∧
        (∀ l, (∀ e ∈ o.dests.zip o.vals, e.1 ≠ .push l) → (q.lane l).preds = (p.lane l).preds))

/-- Departure and arrival of records (R46, R50, R56, R57, R361): a record keeps the live registers of its window and
goes into the outbox once nothing to another home is outstanding; the head of an outbox goes out when its destination
has the slots, or as a packet; an accepted record takes its place in the queue; the queue's next record enters a free
slot, and blocks that the queue no longer needs return. It rests on the model's choices (logs 75, 81 and 115). The
steward and parking (R38, R39, R58, R59, R327): a jammed stack has its smallest full queue enlarged; a party that is
to be parked has its record written into a free slot of the pool; a parked party comes back with the PRIORITY byte of
its slot; a wholly parked team gives up its cluster. -/
def Obligations.RecordsAndQueues : Prop :=
  (∀ (s : State) (pid : Nat) (p : Party), s.party? pid = some p →
      (∀ (b : Bundle) (h : Home), p.bundles = [b] → b.phase = .departing h → b.asked = [] → p.pend = [] →
        s.recordOut pid = false → p.firstDirty p.mask b.wb = none → s.mustWait pid p h = false → p.behind.any s.yetToForm = false →
        (p.resident = true → p.isActive = true) → (p.resident = false → p.leaving = true) → Map.sorted p.vregs = true →
        ∃ t q m, exec (.departRecord pid) s = .next t ∧ t.party? pid = some q ∧ t.net = s.net ++ [m] ∧
          m.body = .context pid ∧ m.dst = h ∧ m.src = p.core ∧ m.after = [] ∧ m.sent = false ∧
          q.place = .flight p.core ∧ q.mask = p.mask ∧ q.scal = p.scal ∧ q.hand = p.hand ∧ q.trap = p.trap ∧ q.bundles = [b] ∧
          (∀ reg l, l < 64 → b.wb ≤ reg → reg < b.wb + 56 → p.live.getLsbD (reg - b.wb) = true →
            Map.find q.vregs (regKey reg l) = Map.find p.vregs (regKey reg l)) ∧
          { t with parties := s.parties, net := s.net, keys := s.keys, halts := s.halts } = s ∧
          (∀ j, j ≠ pid → t.party? j = s.party? j)) ∧
      (∀ (msg core : Nat) (m : Msg), s.msg? msg = some m → m.body = .context pid → m.dst = .core s.devId core → m.sent = false →
        s.deliverable m = true →
        (∀ i, s.mayReserve m core p.queueSlots = some i → exec (.outboxHeadSend msg) s = .next (s.reserveAt msg i)) ∧
        (s.mayReserve m core p.queueSlots = none → exec (.outboxHeadSend msg) s = .next (s.beginWait m))) ∧
      (∀ (msg core : Nat) (dev : BitVec 20) (m : Msg), s.msg? msg = some m → (∀ q, m.body ≠ .context q) → m.body.isReply = false →
        dev ≠ s.devId → m.dst = .core dev core → m.sent = false → s.deliverable m = true →
        ∃ t k, exec (.outboxHeadSend msg) s = .next t ∧ t.fab.egress = s.fab.egress ++ [k] ∧ t.net = (s.markSent msg).net ∧
          k.srcDev = s.devId ∧ k.srcCore = m.src ∧ k.dstDev = dev ∧ k.dstCore = core ∧ k.cls = m.body.cls ∧ k.stage = 0 ∧
          k.body = .request { m with orig := msg } ∧ { t with net := s.net, fab := s.fab } = s) ∧
      (∀ (msg core : Nat) (m : Msg), s.msg? msg = some m → m.body = .context pid → m.dst = .core s.devId core → m.sent = true →
        s.deliverable m = true → m.srcDev = s.devId → p.rejoin = none →
        ∃ t, exec (.arrivalAccept msg) s = .next t ∧ (∀ e ∈ t.net, e.id ≠ msg) ∧ t.mem = s.mem ∧
          t.party? pid = some { p with place := .queued core, recQ := s.keys, qAt := m.qAt, homeCore := core,
                                       bundles := p.bundles.map (fun b => b.arrive (s.clk core)) }) ∧
      (∀ core, s.nextQueued core = some (pid, p) → s.freeSlots core ≠ 0 → (s.core core).stopped = false →
        let t := s.setParty pid { p with place := .slot core .ready, readyAt := s.clk core, beganAt := s.clk core, level := 0,
                                         starving := false, homeCore := core, live := BitVec.allOnes 56 }
        exec (.arrivalAdmit core) s = .next (t.shrinkQueue core) ∧
        ((s.core core).blocks = 0 ∨ 16 < t.queueUsed core → t.shrinkQueue core = t) ∧
        ((s.core core).blocks ≠ 0 → t.queueUsed core ≤ 16 → Map.sorted s.cores = true →
          ((t.shrinkQueue core).core core).blocks = 0 ∧ (t.shrinkQueue core).mem = s.mem))) ∧
  (∀ (s : State), Map.sorted s.cores = true → Map.sorted s.stks = true →
      (∀ stack, stack < 16 → (s.stk stack).evalAt + 1000 ≤ s.ns →
        let s1 := s.setStk stack { s.stk stack with evalAt := s.ns }
        (s1.jammed stack = false → exec (.stewardEvaluation stack) s = .next s1) ∧
        (∀ c, s1.jammed stack = true → s.regs.funcMode.getLsbD 2 = false → (s.stk stack).poolUsed < 1024 →
          leastBy s1.queueSize ((s1.stackCores stack).filter s1.queueFull) = some c →
          ∃ t, exec (.stewardEvaluation stack) s = .next t ∧ (t.core c).blocks = (s.core c).blocks + 1 ∧
            t.queueSize c = s.queueSize c + 2 ∧ (t.stk stack).poolUsed = (s.stk stack).poolUsed + 1 ∧
            { t with cores := s.cores, stks := s.stks, tel := s.tel, net := s.net, fab := s.fab } = s)) ∧
      (∀ (pid : Nat) (p : Party) (b : Bundle) (i : Nat), s.party? pid = some p → p.bundles = [b] → b.phase = .waiting →
        b.asked = [] → p.wantPark = true → p.parkable = true → p.pend.any (fun o => o.committed) = false → MemOk s → Unshadowed s →
        s.recordOut pid = false → p.firstDirty b.mask b.wb = none → s.spillsOut pid = false → s.freePark (p.core / 32) = some i →
        let base := s.slotBase (p.core / 32) i
        let rcd := Party.record { p.part b.mask [b] with live := BitVec.allOnes 56, trap := p.trap, spillPos := 0 } b 1
        ∃ t q, exec (.parkWrite pid) s = .next t ∧ t.party? pid = some q ∧ q.place = .parked (p.core / 32) i ∧
          q.wantPark = false ∧ q.mask = p.mask ∧ q.scal = p.scal ∧ q.bundles = [b] ∧
          (∀ a, (base ≤ a ∧ a < base + rcd.length → memByte t.mem a = rcd.getD (a - base) 0) ∧
            (¬(base ≤ a ∧ a < base + rcd.length) → memByte t.mem a = memByte s.mem a)) ∧
          NatSet.mem (t.stk (p.core / 32)).slots i = true) ∧
      (∀ (stack pid core k i : Nat) (p : Party) (rest : List (Nat × Nat)), (s.stk stack).parked = (pid, core) :: rest →
        s.party? pid = some p → p.place = .parked k i → s.freeSlots core ≠ 0 → s.queueUsed core = 0 →
        ∃ t q, exec (.stewardResume stack) s = .next t ∧ t.party? pid = some q ∧
          q.priority = BitVec.ofNat 2 (memByte s.mem (s.slotBase k i + 5)).toNat ∧
          (q.place = .queued core ∨ q.place = .flight core) ∧ q.vregs = p.vregs ∧ q.scal = p.scal) ∧
      (∀ (team : Nat) (x : Team) (j : Nat), Map.find s.teams team = some x → x.wantSave = true → x.saved = none →
        (∀ e ∈ s.membersOf team, ∃ k i, e.2.place = .parked k i) → s.enginesOff x = true → x.seqIdle = true →
        s.freeRun x.stack x.saveBlocks = some j →
        ∃ t, exec (.teamSave team) s = .next t ∧ t.tiles = s.tiles ∧
          (∀ pid p, s.party? pid = some p → ∃ q, t.party? pid = some q ∧ q = { p with bundles := q.bundles } ∧
            q.bundles.map (fun b => (b.id, b.mask, b.pc)) = p.bundles.map (fun b => (b.id, b.mask, b.pc))) ∧
          Map.find t.teams team = some { x with saved := some j, wantSave := false,
                                                wantPlace := x.wantPlace || x.moving.isSome } ∧
          (∀ i, i < x.saveBlocks → NatSet.mem (t.stk x.stack).blocks (j + i) = true)))

/-- Messages applied at their homes (R56, R75, R81, R103, R233, R243): a posted write stores its bytes and no other;
an atomic operation replaces the word by the operation's result and returns the old one; an acknowledged message is
gone and nothing waits for it; a watch ends in the clk of its deadline, behind the writes of that clk. Memory-side
operations at their homes (R76, R77, R79, R84): a compare and swap of two or four doublewords, an enqueueing, and the
writing of a row; nothing else of memory changes. -/
def Obligations.PostedMessages : Prop :=
  (∀ (s : State) (msg : Nat) (m : Msg),
      (s.arriving msg = some m → ∀ (dev : BitVec 20) (core : Nat), m.dst = .core dev core →
        (∀ (x : Loc) (data : List Byte), m.body = .write x data [] → s.locked x data.length true = false → MemOk s → Unshadowed s →
          ∃ t, exec (.postedOpApply msg) s = .next t ∧ t.net = (s.markApplied msg).net ∧ Stored s t x.pa data) ∧
        (∀ (x : Loc) (op : AtomOp) (dbl : Bool) (y z : DWord) (ret : Option Nat), m.body = .atomic x op dbl y z ret →
          let n := if dbl then 8 else 4
          let old := memNat s.mem x.pa n
          s.locked x n true = false → MemOk s → Unshadowed s →
          ∃ t, exec (.postedOpApply msg) s = .next t ∧ t.net = (s.markApplied msg).net ∧
            (match atomStep op (8 * n) old (y.toNat % 2 ^ (8 * n)) (z.toNat % 2 ^ (8 * n)) with
              | some v => Stored s t x.pa (leBytes n v)
              | none => t.mem = s.mem) ∧
            (∀ o, ret = some o → m.srcDev = s.devId → ∀ pid p, s.party? pid = some p → ∃ q, t.party? pid = some q ∧
              q.pend = p.pend.map (fun u => if u.id = o then
                { u with ready := true, vals := wordsOf (if dbl then 2 else 1) old, poison := u.poison || s.poisoned x.pa n } else u)))) ∧
      (s.msg? msg = some m → m.applied = true → m.body.waits = false →
        exec (.ackReceive msg) s = .next (s.dropMsg msg).recheck ∧
        (∀ e ∈ (s.dropMsg msg).recheck.net, e.id ≠ msg ∧ msg ∉ e.after)) ∧
      (∀ (pid : Nat) (p : Party) (b : Bundle) (d : Nat), s.party? pid = some p → p.bundle? b.id = some b →
        b.phase = .held (.watch (some d)) → s.clkPast p.core d = true ∨ (s.clkCome p.core d = true ∧ s.writeDue b = false) →
        exec (.watchTimeout pid b.id) s =
          .next (s.setParty pid (p.setBundle { b with phase := .running, ans := Map.insert b.ans 64 .expired })).recheck)) ∧
  (∀ (s : State) (msg : Nat) (m : Msg) (x : Loc) (k : MsoKind), s.arriving msg = some m → m.body = .mso x k none none →
      s.msoLocked m x k = false → s.msoPage m x k = none → MemOk s →
      Unshadowed s →
      let leaves := fun (mem : List Host.Cell) =>
        ∃ t, exec (.msoApply msg) s = .next t ∧ t.net = (s.markApplied msg).net ∧ ∀ a, memByte t.mem a = memByte mem a
      (∀ a b c d, k = .cas2 a b c d →
        leaves (if memBytes s.mem x.pa 16 = dwords [a, b] then memPuts s.mem x.pa (dwords [c, d]) else s.mem)) ∧
      (∀ a b c d e f g h, k = .cas4 a b c d e f g h →
        leaves (if memBytes s.mem x.pa 32 = dwords [a, b, c, d] then memPuts s.mem x.pa (dwords [e, f, g, h]) else s.mem)) ∧
      (∀ v, k = .enq v →
        (∀ r y, s.enqSlot m.asid x = some (r, some y) →
          leaves (memPuts (memPuts s.mem y.pa (leBytes 8 v.toNat)) (x.pa + 8) (leBytes 4 ((r.tail + 1) % 2 ^ 32)))) ∧
        ((∀ r y, s.enqSlot m.asid x ≠ some (r, some y)) → leaves s.mem)) ∧
      (∀ p n, k = .chase p n → leaves s.mem) ∧
      (∀ data bad, k = .rowput data bad → leaves (memPuts s.mem x.pa data)))

/-- Barriers and lineage counts at their homes (R42, R54, R60, R61, R176, R177): an arrival is counted, and the last
one of a round advances the phase and opens a new round; a withdrawal leaves the round open; the expiry of a round
withdraws its `barw` arrivals; that of a rejoin round lets its one waiting party go on unmerged; a change of a count
is applied at the entry, which is gone with its last member, where a seed's slot then reads DONE (R307). -/
def Obligations.BarrierRounds : Prop :=
  ∀ (s : State), Map.sorted s.bars = true →
    (∀ (msg : Nat) (m : Msg) (b : BarRef), s.arriving msg = some m →
      let x := s.bar b
      (∀ (a : Arrival), m.body = .arrival b a → s.barStopped b = none →
        exec (.barrierArrival msg) s = .next ((s.dropMsg msg).arriveAt b (.arr a)) ∧
        (∀ (dev : BitVec 20) (core n : Nat), b = .named dev core n → x.held = [] → x.rejoin = none →
          (∀ t ∈ x.expiry.toList, s.clkPast core t = false) → a.kind = .bar ∨ a.kind = .barw →
          let count := if x.count = 0 then a.count else x.count
          (x.arrived.length + 1 < count →
            ∃ t, exec (.barrierArrival msg) s = .next t ∧ t.bar b = { x with
              count := count, arrived := x.arrived ++ [a], held := [],
              expiry := if a.kind = .barw ∧ x.expiry.isNone then some (s.ns + a.timeout.toNat) else x.expiry }) ∧
          (count ≤ x.arrived.length + 1 →
            ∃ t, exec (.barrierArrival msg) s = .next t ∧
              t.bar b = { x with phase := x.phase + 1, count := 0, arrived := [], expiry := none, held := [] }))) ∧
      (∀ who req, m.body = .withdraw b who req → exec (.barrierArrival msg) s =
        .next (((s.dropMsg msg).withdrawFrom b who).tellWithdrawn (s.barCore b) who req)) ∧
      (∀ phase op, m.body = .barq b phase op → m.srcDev = s.devId →
        exec (.barrierArrival msg) s = .next ((s.dropMsg msg).opValue op
          (List.replicate 64 (if (s.bar b).phase.setWidth 64 = phase then 0 else 1)) false))) ∧
    (∀ (dev : BitVec 20) (core n d : Nat),
      let b := BarRef.named dev core n
      (s.bar b).expiry = some d → s.clkPast core d = true ∨ (s.clkCome core d = true ∧ s.arrivalsDue b = false) →
      ∃ t, exec (.barwExpiry b) s = .next t ∧
        t.bar b = { s.bar b with arrived := (s.bar b).arrived.filter (fun a => decide (a.kind ≠ .barw)), expiry := none } ∧
        t.mem = s.mem) ∧
    (∀ (core n pid d : Nat) (r : RejoinRound) (p : Party),
      let b := BarRef.named s.devId core n
      (s.bar b).rejoin = some r → r.expiry = some d → s.clkPast core d = true ∨ (s.clkCome core d = true ∧ s.arrivalsDue b = false) → r.parties = [(pid, true)] → (s.bar b).held = [] →
      s.party? pid = some p →
      ∃ t q, exec (.rejoinExpiry core n) s = .next t ∧ t.party? pid = some q ∧ q.rejoin = none ∧ q.vregs = p.vregs ∧
        q.bundles = p.bundles.map (fun x => match x.phase with
          | .held (.rejoin _ _) => { x with phase := .running, stalled := false, ans := Map.insert x.ans 64 .expired }
          | _ => x) ∧
        (t.bar b).rejoin = none ∧ (∀ j, j ≠ pid → t.party? j = s.party? j)) ∧
    (∀ (msg key : Nat) (m : Msg) (d : Int), s.arriving msg = some m → m.body = .lineage key d →
      let x := s.lineage key
      (((x.count : Int) + d).toNat = 0 →
        exec (.lineageCountMsg msg) s = .next
          (State.recheck { s.dropMsg msg with
            lineages := Map.erase s.lineages key,
            seeds := s.seeds.map (fun e => if e.2.party = some key then (e.1, { e.2 with state := 5, party := none }) else e) })) ∧
      (((x.count : Int) + d).toNat ≠ 0 → x.far = [] → x.rounds = [] →
        exec (.lineageCountMsg msg) s = .next
          ((s.dropMsg msg).setLineage key { x with count := ((x.count : Int) + d).toNat }).recheck))

/-- The second tier and the host (R5, R15, R68, R69, R302, R304): a page that is waited for is brought into a free
frame, or, where there is none, into that of the victim; the sweep clears every reference bit; host reads and writes
of a line in an enabled window; an access to a host window made at its port with the bytes that the host holds there;
a request of an absent protocol. It rests on the model's choices (logs 17, 18 and 99). -/
def Obligations.PagesAndHost : Prop :=
  ∀ (s : State),
    (∀ (asid : BitVec 16) (va frame k entry home : Nat) (l : Leaf),
      let page := va / 65536 * 65536
      s.pageWanted asid page = true → s.xlate none asid page = .tier k l entry → l.target = .tier k home →
      let into := fun (out : Option Resident) =>
        exec (.pageIn asid va frame) s = .next (s.bringIn asid page k home frame out) ∧
        (asid, page) ∉ (s.bringIn asid page k home frame out).wanted ∧
        (∀ e ∈ (s.bringIn asid page k home frame out).parties, ∀ b ∈ e.2.bundles, b.phase ≠ .held (.pageIn asid page))
      (s.frameFreeFor k frame = true → into none) ∧
      (∀ v, s.frameFreeFor k frame = false → s.noFrame k = true → s.victim k = some v → v.frame = frame →
        s.frameBusy frame = false → into (some v))) ∧
    (∀ stack, stack < 16 → (s.stk stack).sweepAt + 1000000 ≤ s.ns →
      exec (.referenceSweep stack) s = .next (s.setStk stack { s.stk stack with sweepAt := s.ns, refd := [] })) ∧
    (∀ (port tag hpa va : Nat) (asid : BitVec 16) (l : Leaf) (x : Loc), port < 2 → s.mode ≠ 3 → (s.port port).pending = [] →
      (s.port port).window (hpa % 2 ^ 64 / 64 * 64) = some (va, asid) → s.xlate none asid va = .ok l → s.locOn l va = some x →
      x.dev = s.devId → x.isHost = false →
      (l.r = true → s.locked x 64 false = false → s.poisoned x.pa 64 = false →
        ∃ t, exec (.hostMemRead port tag hpa) s = .next t ∧ t.mem = s.mem ∧
          t.out = s.out ++ [.readData port tag (memBytes s.mem x.pa 64) false]) ∧
      (∀ data : List Byte, l.w = true → s.locked x 64 true = false → data.length = 64 → MemOk s → Unshadowed s →
        ∃ t, exec (.hostMemWrite port tag hpa data) s = .next t ∧ Stored s t x.pa data ∧
          t.out = s.out ++ [.writeDone port tag])) ∧
    (∀ (msg p : Nat) (m : Msg) (fresh : List Byte) (x : Loc), s.arriving msg = some m → m.dst = .port p → m.srcDev = s.devId →
      MemOk s →
      (∀ n who, m.body = .hostRead x n who → n ≤ fresh.length →
        exec (.hostWindowResponse msg fresh) s = .next
          (((({ s with mem := memPuts s.mem x.pa (fresh.take n) } : State).load m.who x.pa n).2.dropMsg msg).answerRead who
            (fresh.take n) false)) ∧
      (∀ data, m.body = .write x data [] → s.locked x data.length true = false → Unshadowed s →
        ∃ t, exec (.hostWindowResponse msg fresh) s = .next t ∧ t.net = (s.markApplied msg).net ∧ Stored s t x.pa data)) ∧
    (∀ port, port < 2 → exec (.cxlCacheRequest port) s = .next { s with out := s.out ++ [.cxlAbsent port] })

/-- Tickets at their homes (R85 to R91, R94 to R97, R239): a served request makes its entry READY with the data, and
its ticket goes back; a ticket value reaches its operation, or, where the run was abandoned, is released; a claim that
passes its checks takes the entry and is answered; a confirmed claim and a release end the generation; a cancelled one
leaves the entry unclaimed with the time that remained; an unclaimed entry whose deadline has come, and for which no
claim waits, is reclaimed. Answers at the core that asked (R54, R91, R92, R94, R274): the data of a claim goes to the
registers of its operation, and the confirmation is sent when the run commits; so too for the claim of a frame, and
for a bundle that waits for data; where nobody waits any more the claim is cancelled; a test's flag, a trap and a
value reach the bundle or the operation. -/
def Obligations.TicketHomes : Prop :=
  (∀ (s : State), Map.sorted s.tickets = true →
      (∀ (msg i c : Nat) (m : Msg) (dev : BitVec 20), s.arriving msg = some m → m.sent = false → s.msgLocked m = false →
        m.dst = .core dev c → msg < s.keys →
        let given := fun (f : Fetch) (frame : DWord) (data : List Byte) (ok : List Host.Cell → Prop) =>
          let slice := s.tableSlice f.loc
          let key := slice * 4096 + i
          s.unitsUsed slice + ticketUnits f.block f.held ≤ 16384 →
          s.freeEntry slice 4096 (Map.getD s.ticketPtr slice 0) = some i →
          ∃ t r, exec (.ticketService msg) s = .next t ∧ ok t.mem ∧ (∀ e ∈ t.net, e.id ≠ msg) ∧
            t.ticket key = { s.ticket key with
              st := .ready, launch := f.launch, asid := f.asid, frame := frame, deadline := s.ns + f.lease, remain := 0,
              len := f.held, block := f.block, data := data, claim := none, poison := s.poisoned f.loc.pa f.len, src := none,
              team := m.team, grid := m.grid, since := s.steps } ∧
            r ∈ t.net ∧ r.dst = .core m.srcDev m.src ∧
            r.body = .ticketValue f.op m.party (mkTicket s.devId slice i (s.ticket key).gen f.block f.launch f.asid)
        (∀ f, m.body = .fetch f →
          given f f.frame (entryData f (s.bound f.frame f.loc.pa (memBytes s.mem f.loc.pa f.len))) (fun mem => mem = s.mem)) ∧
        (∀ f op dbl x y, m.body = .att f op dbl x y → MemOk s → Unshadowed s →
          let n := if dbl then 8 else 4
          let old := memNat s.mem f.loc.pa n
          given f 0 (leBytes f.len old)
            (fun mem => match atomStep op (8 * n) old (x.toNat % 2 ^ (8 * n)) (y.toNat % 2 ^ (8 * n)) with
              | some v => ∀ a, (f.loc.pa ≤ a ∧ a < f.loc.pa + n → memByte mem a = (leBytes n v).getD (a - f.loc.pa) 0) ∧
                  (¬(f.loc.pa ≤ a ∧ a < f.loc.pa + n) → memByte mem a = memByte s.mem a)
              | none => mem = s.mem))) ∧
      (∀ (slice entry : Nat) (m : Msg) (f : Fetch) (data : List Byte), MemOk s →
        let key := slice * 4096 + entry
        let e := s.ticket key
        s.net.find? (fun m => m.sent && (match m.body with
          | .fetch f => decide (f.op = key)
          | .att f _ _ _ _ => decide (f.op = key)
          | _ => false)) = some m →
        m.body = .fetch f → s.deliverable m = true → f.len ≤ data.length → e.claim = none →
        ∃ t, exec (.ticketFetchComplete slice entry data) s = .next t ∧
          (e.st = .pending → t.ticket key = { e with st := .ready, src := none, data := entryData f (data.take f.len) }) ∧
          (e.st = .orphaned → t.ticket key = { e with st := .free, src := none, len := 0, block := false, data := [] })) ∧
      (∀ (msg op party : Nat) (m : Msg) (v : DWord), s.arriving msg = some m → m.body = .ticketValue op party v →
        (∀ pid o, s.parties.findSome? (fun e => (e.2.pend.find? (fun o => decide (o.id = op))).map (fun o => (e.1, o))) = some (pid, o) →
          o.late = true ∨ o.committed = true →
          exec (.ticketValueReturn msg) s = .next (((s.dropMsg msg).noteGiven m.team v).opValue op (o.valsOf v) false)) ∧
        ((∀ e ∈ s.parties, ∀ o ∈ e.2.pend, o.id ≠ op) →
          (∀ x, s.dropped.find? (fun y => decide (y.1 = op)) = some x → ticketGen v ≠ 0 →
            exec (.ticketValueReturn msg) s = .next (State.postPart
              { s.dropMsg msg with dropped := s.dropped.filter (fun y => decide (y ≠ x)) } m.core (ticketHome v) (.trel v x.2))) ∧
          (s.dropped.find? (fun y => decide (y.1 = op)) = none →
            exec (.ticketValueReturn msg) s = .next (s.dropMsg msg)))) ∧
      (∀ (msg : Nat) (m : Msg) (v : DWord), s.atHome msg = some m →
        let key := ticketKey v
        let e := s.ticket key
        (e.leased && s.clkPast (key / 4096) e.deadline) = false →
        (∀ who launch asid frame, m.body = .claim v who launch asid frame → e.claim = none → s.nextFor m key = true →
          (∀ k, e.claimTrap v launch asid frame = some k →
            exec (.claimAtHome msg) s = .next (s.answerClaim m who v none k false)) ∧
          (e.claimTrap v launch asid frame = none → e.st = .ready →
            exec (.claimAtHome msg) s = .next ((s.setTicket key { e with
              claim := some who, remain := e.deadline - s.ns }).answerClaim m who v (some e.data) 0 e.poison)) ∧
          (e.claimTrap v launch asid frame = none → e.st = .pending →
            exec (.claimAtHome msg) s = .next ((s.setTicket key { e with
              claim := some who, remain := e.deadline - s.ns }).waitAtHome m.id))) ∧
        (∀ who launch asid frame, m.body = .test v who launch asid frame → e.claimTrap v launch asid frame = none →
          exec (.claimAtHome msg) s = .next (s.answerClaim m who v
            (some [if e.st = .ready ∧ e.claim = none then 1 else 0]) 258 false)) ∧
        (∀ launch, m.body = .trel v launch → e.gen = ticketGen v → e.launch = launch → e.st = .pending ∨ e.st = .ready →
          e.claim = none → s.nextFor m key = true →
          exec (.trelAtHome msg) s = .next ((s.dropMsg msg).setTicket key (e.finish .released)))) ∧
      (∀ (msg : Nat) (m : Msg) (v : DWord) (who : Asker), s.arriving msg = some m →
        let key := ticketKey v
        let e := s.ticket key
        e.claim = some who → e.gen = ticketGen v →
        (m.body = .confirm v who →
          exec (.claimConfirm msg) s = .next (((s.dropMsg msg).handOut e m).setTicket key (e.finish .redeemed))) ∧
        (m.body = .cancel v who →
          ∃ t, exec (.claimCancel msg) s = .next t ∧
            t.ticket key = { e with claim := none, deadline := s.ns + e.remain, remain := 0 } ∧
            (∀ j, j ≠ key → t.ticket j = s.ticket j))) ∧
      (∀ (slice entry : Nat),
        let key := slice * 4096 + entry
        let e := s.ticket key
        e.st = .pending ∨ e.st = .ready → e.claim = none → s.waitingFor key = [] → s.regs.funcMode.getLsbD 3 = false →
        s.clkPast slice e.deadline = true ∨ (s.clkCome slice e.deadline = true ∧ s.claimsDue key = false) →
        ∃ t, exec (.ticketDeadline slice entry) s = .next t ∧ t.ticket key = e.finish .reclaimed ∧
          (e.finish .reclaimed).gen = nextGen e.gen ∧ (e.finish .reclaimed).st = (if e.src.isSome then .orphaned else .free) ∧
          (∀ j, j ≠ key → t.ticket j = s.ticket j))) ∧
  (∀ (s : State) (msg : Nat) (m : Msg) (who : Asker) (v : DWord), s.arriving msg = some m →
      let s1 := s.dropMsg msg
      (∀ pid o, s1.claimOp? who = some (pid, o) →
        (∀ data bad, m.body = .claimAns who v (some data) 0 bad →
          exec (.claimAnswer msg) s = .next ((s1.opValue o.id
            (wordsOf o.dests.length (leNat (data.take (4 * o.dests.length)))) bad).addEff pid o.bundle o.lanes
            (sending (ticketHome v) (.confirm v who) none false false false)).recheck) ∧
        (∀ b bad, m.body = .claimAns who v (some b) 261 bad →
          let kind := (b.headD 0).toNat
          exec (.claimAnswer msg) s = .next ((s1.opValue o.id (if kind = 0 then [v.toNat] else []) false).addEff pid o.bundle o.lanes
            (sending (frameHome v) (.frameConfirm kind v (BitVec.ofNat 64 (leNat (b.drop 1))) who)
              (if kind = 1 then some 3 else none) false false false)).recheck) ∧
        (∀ k bad, m.body = .claimAns who v none k bad → 1 ≤ k → exec (.claimAnswer msg) s = .next (s1.opTrap o.id k).recheck)) ∧
      (s1.claimOp? who = none →
      (∀ data bad, m.body = .claimAns who v (some data) 0 bad →
        (s1.awaits who = true →
          exec (.claimAnswer msg) s = .next (((s1.answer who (.data data bad)).addEff who.party who.bundle m.lanes
            (sending (ticketHome v) (.confirm v who) none false false false)).recheck)) ∧
        (s1.awaits who = false →
          exec (.claimAnswer msg) s = .next (s1.postPart who.core (ticketHome v) (.cancel v who)).recheck)) ∧
      (∀ b bad, m.body = .claimAns who v (some [b]) 258 bad →
        exec (.claimAnswer msg) s = .next (s1.answer who (.flag (decide (b ≠ 0)))).recheck) ∧
      (∀ b bad, m.body = .claimAns who v b 260 bad → who.lane ≠ 65 →
        exec (.claimAnswer msg) s = .next (s1.answer who (.val v)).recheck) ∧
      (∀ bad, m.body = .claimAns who v none 256 bad → exec (.claimAnswer msg) s = .next (s1.releaseBundle m.core who .go)) ∧
      (∀ k bad, m.body = .claimAns who v none k bad → 1 ≤ k → k ≤ 255 →
        exec (.claimAnswer msg) s = .next ((s1.answer who (.trap k 0)).releaseBundle m.core who (.trap k 0)).recheck)))

/-- The frame table and the homes of versions (R273 to R278, R316): a request claims the lowest free entry or an open
frame and is answered; its confirmation opens or closes the frame, its cancellation gives the claim back; a version of
an open frame is recorded at its home, or refused there for want of room, and one that comes before the confirmation
waits; the prepare, its answer, and the step of each home follow, and the last step makes the frame FREE under its
next generation. Copy engines at work (R82, R248 to R252), and the completion of matrix words (R267): the operation at
the front starts when it is committed, waits for nothing and no earlier lock stands in its way; its completion, which
waits for what it has written at other modules, leaves its count under its SEQ and its locks clear; a cancel of an
operation that has not started withdraws it, and bounds one that has, unless all its writes are made; the oldest word
of a sequencer writes its tile and its locks clear. It rests on the model's choices (logs 23 and 68). -/
def Obligations.FramesAndEngines : Prop :=
  (∀ (s : State), Map.sorted s.frames = true →
      (∀ (msg : Nat) (m : Msg) (id arg : DWord) (who : Asker) (launch : BitVec 32) (asid : BitVec 16) (grid : BitVec 32),
        s.arriving msg = some m →
        (m.body = .frameReq 0 id arg who launch asid grid →
          (∀ no, arg.toNat < 2 ^ 32 → s.freeFrame 4096 0 = some no →
            exec (.frameClaim msg) s = .next ((s.setFrame no { s.frameEnt no with
              claim := some who, launch := launch, asid := asid, grid := grid, dev := m.originDev }).frameAccept m who 0
                (mkFrame s.devId no (s.frameEnt no).gen launch) arg)) ∧
          (2 ^ 32 ≤ arg.toNat ∨ s.freeFrame 4096 0 = none →
            exec (.frameClaim msg) s = .next (s.answerClaim m who 0 none cFrame false))) ∧
        (∀ kind : Nat, kind ≠ 0 → m.body = .frameReq kind id arg who launch asid grid →
          let no := (field id 0 12).toNat
          let e := s.frameEnt no
          (e.st = .opened → e.gen = field id 32 8 → e.launch = launch → e.asid = asid → e.claim = none →
            (kind = 1 → e.base + arg.toNat ≤ 2 ^ 32) →
            exec (.frameClaim msg) s = .next ((s.setFrame no { e with claim := some who }).frameAccept m who kind id arg)) ∧
          (e.st ≠ .opened ∨ e.gen ≠ field id 32 8 ∨ e.launch ≠ launch ∨ e.asid ≠ asid ∨ e.claim ≠ none →
            exec (.frameClaim msg) s = .next (s.answerClaim m who 0 none cFrame false)))) ∧
      (∀ (msg : Nat) (m : Msg) (id arg : DWord) (who : Asker), s.arriving msg = some m →
        let no := (field id 0 12).toNat
        let e := s.frameEnt no
        let s1 := s.dropMsg msg
        e.claim = some who →
        (m.body = .frameConfirm 0 id arg who → s.unitOf (e.gridAt s.devId) = none →
          exec (.frameClaimConfirm msg) s = .next (s1.setFrame no { e with
            st := .opened, base := arg.toNat, claim := none, unit := 0 })) ∧
        (m.body = .frameConfirm 1 id arg who → s.frameSlices no ≠ [] →
          exec (.frameClaimConfirm msg) s = .next (s1.setFrame no { e with
            st := .closing, isDrop := false, n := arg.toNat, claim := none, toAnswer := s.frameSlices no })) ∧
        (m.body = .frameConfirm 1 id arg who → s.frameSlices no = [] → e.toStep = [] →
          ∃ t, exec (.frameClaimConfirm msg) s = .next t ∧ (t.frameEnt no).st = .free ∧ (t.frameEnt no).gen = nextGen e.gen ∧
            (t.frameEnt no).lastGen = e.gen ∧ (t.frameEnt no).lastVal = BitVec.ofNat 64 arg.toNat) ∧
        (m.body = .frameCancel id who → e.st = .opened →
          exec (.frameClaimCancel msg) s = .next (s1.setFrame no { e with claim := none })) ∧
        (m.body = .frameCancel id who → e.st = .free →
          exec (.frameClaimCancel msg) s = .next (s1.setFrame no { e with
            claim := none, launch := 0, asid := 0, grid := 0, dev := 0 }))) ∧
      (∀ (msg va pos : Nat) (m : Msg) (x : Loc) (f : DWord) (data : List Byte), s.arriving msg = some m →
        m.body = .version x va f pos data → s.msgLocked m = false →
        let no := (field f 0 12).toNat
        let e := s.frameEnt no
        (e.gen ≠ field f 32 8 ∨ field f 12 20 ≠ s.devId ∨ (e.st = .free ∧ e.claim = none) →
          exec (.stxVersionApply msg) s = .next (s.markApplied msg)) ∧
        (e.gen = field f 32 8 → field f 12 20 = s.devId → e.st = .free → e.claim.isSome = true →
          exec (.stxVersionApply msg) s = .next s) ∧
        (e.gen = field f 32 8 → field f 12 20 = s.devId → e.st = .opened → data ≠ [] →
          (s.storeUsed (s.tableSlice x) + 32 ≤ storeBytes →
            ∃ t v, exec (.stxVersionApply msg) s = .next t ∧ t.versions.getLast? = some v ∧ v.frame = no ∧ v.gen = e.gen ∧
              v.pos = pos ∧ v.pa = x.pa ∧ v.bytes = data.map some ∧ v.slice = s.tableSlice x ∧ t.net = (s.markApplied msg).net) ∧
          (storeBytes < s.storeUsed (s.tableSlice x) + 32 →
            exec (.stxVersionApply msg) s = .next ((s.setFrame no { e with
              refused := NatSet.add e.refused (s.tableSlice x) }).markApplied msg)))) ∧
      (∀ (no slice : Nat),
        let e := s.frameEnt no
        e.st = .closing →
        (slice ∈ e.toAnswer → slice ∉ e.answered →
          exec (.framePrepare no slice) s = .next (s.setFrame no { e with answered := e.answered ++ [slice] })) ∧
        (slice ∈ e.toAnswer → slice ∈ e.answered →
          exec (.framePrepareAnswer no slice) s = .next (s.setFrame no { e with
            toAnswer := e.toAnswer.filter (· ≠ slice), refusal := e.refusal || NatSet.mem e.refused slice,
            toStep := if e.toAnswer.filter (· ≠ slice) = [] then e.answered else [] })) ∧
        (slice ∈ e.toStep →
          ∃ t, exec (.frameStepApply no slice) s = .next t ∧
            (∀ v ∈ t.versions, v.frame = no → v.slice ≠ slice) ∧
            (e.toAnswer = [] → e.toStep = [slice] →
              (t.frameEnt no).st = .free ∧ (t.frameEnt no).gen = nextGen e.gen ∧ (t.frameEnt no).lastGen = e.gen ∧
              (t.frameEnt no).lastVal = (if e.isDrop then 0 else BitVec.ofNat 64 e.n)) ∧
            ((e.isDrop = true ∨ e.refusal = true) → s.versions = [] → t.mem = s.mem)))) ∧
  (∀ (s : State),
      (∀ (eng : Nat) (e : Engine) (o : EngOp) (rest : List EngOp), Map.find s.engines eng = some e → e.ops = o :: rest →
        (o.started = false → o.committed = true → o.after = [] →
          (∀ k ∈ s.locks.takeWhile (fun k => !(decide (k.dev = s.devId) && decide (k.owner = o.op))),
            ∀ j ∈ s.locks, j.dev = s.devId → j.owner = o.op → s.clash k j = false) →
          exec (.engineStart eng) s = .next { s with
            engines := Map.insert s.engines eng { e with ops := { o with started := true } :: rest } }) ∧
        (o.started = true → s.engNear o = true →
          let n := match o.limit with
            | some k => min k o.total
            | none => o.total
          let rows := s.engRows o (32 * (eng / 16)) (o.req.srcs.zip o.req.dsts) n
          let ends := fun (mem : List Host.Cell) =>
            ∃ t f, exec (.engineComplete eng) s = .next t ∧ Map.find t.engines eng = some f ∧
              Map.find f.done o.seq = some n ∧ (∀ x ∈ f.ops, x.seq ≠ o.seq) ∧ f.next = e.next ∧ (∀ k ∈ t.locks, k.dev = s.devId → k.owner ≠ o.op) ∧
              t.mem = mem
          (o.sent = false → rows.keys = s.keys → ends rows.mem) ∧
          (o.sent = false → rows.keys ≠ s.keys →
            ∃ t f x, exec (.engineComplete eng) s = .next t ∧ Map.find t.engines eng = some f ∧ x ∈ f.ops ∧ x.op = o.op ∧
              x.sent = true ∧ t.mem = rows.mem) ∧
          (o.sent = true → o.after = [] → ends s.mem))) ∧
      (∀ (msg written : Nat) (m : Msg) (h : DWord), s.arriving msg = some m → m.body = .engCancel h →
        let eng := (field h 4 4).toNat * 16 + (field h 0 4).toNat
        let seq := (field h 32 24).toNat
        let e := Map.getD s.engines eng Engine.init
        (e.ops.find? (fun o => decide (o.seq = seq)) = none → exec (.cancelArrive msg written) s = .next (s.dropMsg msg)) ∧
        (∀ o, e.ops.find? (fun o => decide (o.seq = seq)) = some o → o.started = false →
          ∃ t f, exec (.cancelArrive msg written) s = .next t ∧ Map.find t.engines eng = some f ∧
            Map.find f.done seq = some 0 ∧ (∀ x ∈ f.ops, x.seq ≠ seq) ∧ t.mem = s.mem) ∧
        (∀ o, e.ops.find? (fun o => decide (o.seq = seq)) = some o → o.started = true → o.sent = true →
          exec (.cancelArrive msg written) s = .next (s.dropMsg msg)) ∧
        (∀ o, e.ops.find? (fun o => decide (o.seq = seq)) = some o → o.started = true → o.sent = false →
          let k := ceilDiv (min written o.total) 4096 * 4096
          ∃ t f, exec (.cancelArrive msg written) s = .next t ∧ Map.find t.engines eng = some f ∧
            (∀ x ∈ f.ops, x.seq = seq → x.limit = some (o.limit.getD k)) ∧ t.mem = s.mem)) ∧
      (∀ (team : Nat) (x : Team) (q : Seqr) (w : MWord) (rest : List MWord), Map.find s.teams team = some x → x.seqr = some q →
        q.work = w :: rest → Map.sorted s.tiles = true →
        ∃ t y r, exec (.matrixWordComplete team) s = .next t ∧ Map.find t.teams team = some y ∧ y.seqr = some r ∧
          r = { q with work := rest } ∧ t.locks = s.locks.filter (fun k => !s.ownLock w.ends k) ∧
          (w.mem = [] → t.mem = s.mem) ∧
          (w.tile.length ≤ 1024 → ∀ i, i < w.tile.length →
            Map.getD t.tiles (x.tileKey w.acc i) 0 = w.tile.getD i 0)))

/-- Launches and placement (R29, R32, R33, R256, R309, R310): a record that can be read is rejected with the status of
the first check it fails, or becomes a grid; the team at the head of the queue takes the lowest free blocks and tiles
of its cluster; a team without parties, words and engine work retires; a grid whose work is done retires and its
completion word is written, or it is launched again as a replay unit. It rests on the model's choices (logs 94, 103
and 148). -/
def Obligations.LaunchesAndTeams : Prop :=
  ∀ (s : State),
    (∀ (msg party h depth prio : Nat) (m : Msg) (va : DWord) (grid : BitVec 32) (seed : Bool) (asid : BitVec 16)
        (b : List Byte) (l : Leaf) (x : Loc),
      s.arriving msg = some m → m.body = .launch va party h grid seed asid depth prio →
      s.recordOf msg m.src asid va.toNat = .ok b →
      let r := parseRecord b
      let lin := if seed then 0 else m.lin
      let status := s.limitStatus r (s.launchCap lin (gridFor lin s.devId)) seed asid depth prio
      s.complAt m.src asid r.compl = .ok l x → s.grids.length + 2 < 2 ^ 32 →
      (status ≠ 0 → exec (.launchValidate msg) s =
        .next (((s.endLaunch msg).writeCompl m.src asid r.compl (2 ^ 63 + status)).launchOver lin)) ∧
      (∀ dict entry, status = 0 → s.imageOf (.launch msg) m.src r = .ok dict entry →
        ∃ t g, exec (.launchValidate msg) s = .next t ∧ t.grid? g.id = some g ∧ s.grid? g.id = none ∧ g.rcd = r ∧ g.asid = r.asid ∧
          g.dict = dict ∧ g.entry = entry ∧ g.depth = (if seed then 0 else depth + 1) ∧
          g.parent = (if seed = true ∨ (launchedFrom s.devId lin).isSome = true then none else some (gridFor lin s.devId)) ∧ g.byLin = lin ∧ g.nextTeam = 0 ∧ g.outcome = 0 ∧ g.replays = 0 ∧ g.prot = r.replay ∧
          g.byAsid = asid ∧ (r.launch ≠ 0 → g.launch = r.launch) ∧ t.mem = s.mem ∧
          (∀ k, k ≠ g.id → t.grid? k = s.grid? k))) ∧
    (∀ (w : Waiting) (cl : Nat), s.placeHead = some w → s.namedCluster w = none → s.regs.funcMode.getLsbD 4 = false →
      w.old = none → s.chooseCluster w.g.rcd w.g.rcd.parties (s.mayGo w) = some cl →
      ∃ t x, exec .teamPlace s = .next t ∧ Map.find t.teams (teamKey s.devId w.g.id w.g.nextTeam) = some x ∧
        x.grid = w.g.id ∧ x.id = BitVec.ofNat 32 w.g.nextTeam ∧ x.cluster = cl ∧ x.stack = cl / 8 ∧ x.saved = none ∧
        x.blocks = (s.freeBlocks cl).take (ceilDiv w.g.rcd.scratch 65536) ∧
        x.tiles = (s.freeTiles cl).take w.g.rcd.accum ∧
        x.seqr = (if w.g.rcd.matrix = 0 then none else some (Seqr.start w.g.rcd.matrix)) ∧
        (∃ g, t.grid? w.g.id = some g ∧ g = { w.g with
          nextTeam := w.g.nextTeam + 1, lineages := w.g.lineages + w.g.rcd.parties })) ∧
    (∀ (team : Nat) (x : Team), Map.find s.teams team = some x → Map.sorted s.teams = true → s.membersOf team = [] →
      (∀ e ∈ s.lineages, e.2.team ≠ team + 1) → x.seqIdle = true → s.enginesOff x = true →
      ∃ t, exec (.teamRetire team) s = .next t ∧ Map.find t.teams team = none ∧ t.regs.placeHold = false ∧
        (x.saved = none →
          (∀ k, k ≠ team → Map.find t.teams k = Map.find s.teams k) ∧
          (∀ g, s.grid? x.grid = some g → ∃ h, t.grid? x.grid = some h ∧
            h.spent = x.frames.foldl (fun m e => Map.insert m e.1 e.2) g.spent ∧
            h.nextTeam = g.nextTeam ∧ h.outcome = g.outcome ∧ h.replays = g.replays) ∧
          t.mem = s.mem ∧ t.tickets = s.tickets ∧ t.lineages = s.lineages)) ∧
    (∀ (grid : BitVec 32) (g : Grid), s.grid? grid = some g →
      let s1 := if g.discard then s.restoreGranules g else s.settleShadows g
      (s.gridDone g = true → g.relaunch = false →
        s.access 0 g.byAsid g.rcd.compl 8 false true ≠ .wait → s.access 0 g.byAsid g.rcd.compl 8 false true ≠ .page →
        exec (.gridRetire grid) s = .next (((s1.afterUnit g (fun x => x.removeGrid g)).writeCompl 0 g.byAsid g.rcd.compl
          (2 ^ 63 + g.replays * 2 ^ 16 + g.outcome * 2 ^ 8)).launchOver g.byLin)) ∧
      (s.gridDone g = true → g.relaunch = false → s.access 0 g.byAsid g.rcd.compl 8 false true = .page →
        exec (.gridRetire grid) s = .next (s.askPage g.byAsid g.rcd.compl 0)) ∧
      (s.gridDone g = true → g.relaunch = true →
        ∃ t, exec (.gridRetire grid) s = .next t ∧ t.grid? grid = some { g with
          nextTeam := 0, ending := false, relaunch := false, discard := false, undo := [], foreign := false, prot := true,
          replays := g.replays + 1, spent := [], framesTold := false }) ∧
      (s.gridDone g = false → s.gridIdle g = true → exec (.gridRetire grid) s = .next (s.closeFrames g)) ∧
      (s.gridDone g = false → s.gridIdle g = false → exec (.gridRetire grid) s = .next s))

/-- Containment (R335, R338, R341, R344, R346, R347): an uncorrectable error poisons the granule, the entry's data or
the register where it is found; a consumption rolls its team back within an unpublished interval; one of no team ends
its unit, to be replayed or with an outcome, or traps where the unit has lost its protection, and where there is
neither interval nor unit it is logged and traps. It rests on the model's choice (log 108). Shadow latches, power and
heat (R12, R348, R357, R358, R375): a late transition is counted, in the window that has begun by then; a window with
more than 64 of them derates its core by 50 MHz, down to 1,200 MHz; the power limit lowers or raises every stack's cap
within its range; a stack that has cooled is not hot, and throttled only while the driver owes an answer, and one
without a team to move is throttled. -/
def Obligations.ContainmentAndClocks : Prop :=
  (∀ (s : State),
      (∀ pa, pa < hostBase → exec (.uncorrectableDetect (.mem pa)) s = .next { s with poison := NatSet.add s.poison (pa / 64) }) ∧
      (∀ slice entry, (s.ticket (slice * 4096 + entry)).st ≠ .free →
        exec (.uncorrectableDetect (.ticket slice entry)) s =
          .next (s.setTicket (slice * 4096 + entry) { s.ticket (slice * 4096 + entry) with poison := true })) ∧
      (∀ pid key p, s.party? pid = some p →
        exec (.uncorrectableDetect (.reg pid key)) s = .next (s.setParty pid { p with poison := NatSet.add p.poison key })) ∧
      (∀ (idx : Nat) (k : Consume), s.consumes[idx]? = some k → k.asked = false →
        (∀ (x : Team) (iv : Interval), 0 < k.team → Map.find s.teams (k.team - 1) = some x → x.interval = some iv →
          iv.published = false → iv.rollbacks < 2 →
          ∃ t y v, exec (.poisonConsume idx) s = .next t ∧ Map.find t.teams (k.team - 1) = some y ∧ y.interval = some v ∧
            v.log = [] ∧ v.rollbacks = iv.rollbacks + 1 ∧ t.clogCount = s.clogCount + 1 ∧
            (∀ c ∈ t.consumes, c.team ≠ k.team)) ∧
        (k.team = 0 → s.unitOf k.grid = none →
          exec (.poisonConsume idx) s = .next (((s.doneConsume k).logK k 6 0).trapConsumer k)) ∧
        (∀ (u : BitVec 32) (g : Grid), k.team = 0 → s.unitOf k.grid = some u → s.grid? u = some g → s.regs.funcMode.getLsbD 6 = false →
          let s1 := s.doneConsume k
          (g.prot = false → exec (.poisonConsume idx) s =
            .next (((s1.recordOutcome g.id k.core 0x12).logK k 7 g.replays).trapConsumer k)) ∧
          (g.prot = true → g.foreign = true → g.parent.bind s.unitOf = none → exec (.poisonConsume idx) s =
            .next (((s1.recordOutcome g.id k.core 0x10).logK k 4 g.replays).endUnit g.id false)) ∧
          (g.prot = true → g.foreign = false → 3 ≤ g.replays → exec (.poisonConsume idx) s =
            .next (((s1.recordOutcome g.id k.core 0x11).logK k 5 g.replays).endUnit g.id false)) ∧
          (g.prot = true → g.foreign = false → g.replays < 3 → exec (.poisonConsume idx) s =
            .next ((s1.logK k 3 (g.replays + 1)).endUnit g.id true))))) ∧
  (∀ (s : State),
      (∀ unit, unit < 1168 → s.ns < (s.shadowUnit unit).since + 1000000 →
        ∃ t, exec (.shadowLatchEvent unit) s = .next t ∧
          t.tel.units = Map.put s.tel.units unit { s.shadowUnit unit with window := (s.shadowUnit unit).window + 1 } ShadowUnit.init ∧
          { t with tel := s.tel } = s) ∧
      (∀ unit, unit < 1168 → Map.sorted s.tel.units = true →
        ∃ t, exec (.derateWindowEnd unit) s = .next t ∧ exec (.shadowLatchEvent unit) s = exec (.shadowLatchEvent unit) t) ∧
      (∀ unit, unit < 512 → Map.sorted s.tel.units = true → Map.sorted s.cores = true →
        let x := s.shadowUnit unit
        let start := x.since + (s.ns - x.since) / 1000000 * 1000000
        x.since + 1000000 ≤ s.ns →
        (64 < x.window → 1200 < x.mhz →
          ∃ t, exec (.derateWindowEnd unit) s = .next t ∧
            t.shadowUnit unit = { x with window := 0, since := start, quiet := s.ns, mhz := max 1200 (x.mhz - 50) } ∧
            (t.core unit).mhz = min (max 1200 (x.mhz - 50)) (s.stk (unit / 32)).cap ∧ t.clk unit = s.clk unit ∧
            t.clogCount = s.clogCount + 1) ∧
        (x.window ≤ 64 → s.ns < x.quiet + 1000000000 →
          ∃ t, exec (.derateWindowEnd unit) s = .next t ∧ t.shadowUnit unit = { x with window := 0, since := start } ∧
            t.cores = s.cores)) ∧
      (∀ watts, s.regs.powerAt + 100000 ≤ s.ns → Map.sorted s.stks = true →
        ∃ t, exec (.powerLimitEnforce watts) s = .next t ∧ t.regs.powerAt = s.ns ∧ t.mem = s.mem ∧ t.parties = s.parties ∧
          ∀ k, k < 16 → (t.stk k).cap =
            if s.regs.powerLimit < watts ∨ (s.stk k).throttle = true then max 1000 ((s.stk k).cap - 50)
            else min 1700 ((s.stk k).cap + 50)) ∧
      (∀ stack celsius team, stack < 16 →
        (celsius ≤ 95 → exec (.thermalHot stack celsius team) s =
          .next (s.setStk stack { s.stk stack with
            hot := false, throttle := s.teams.any (fun e => decide (e.2.stack = stack) && s.eventOpen (.thermal e.1)) })) ∧
        (95 < celsius → s.teams = [] → exec (.thermalHot stack celsius team) s =
          .next (s.setStk stack { s.stk stack with hot := true, throttle := true }))))

/-- Invalidation and function modes (R318, R319): a write of INVAL_CTL with bit 63 drops the translations of the page,
of the ASID or of every ASID from each core's buffer and reads BUSY until what was translated before has been applied;
function modes come into force while no launch is resident, and wait for the last one otherwise. Event responses and
registers (R3, R97, R303, R306, R307, R312, R320 to R322, R346, R358, R372): a response names an open event by its
sequence number and an ACTION of its type, ends it, and has its step (ENLARGE gives the smallest full queue two slots,
which the records that wait there then reserve, R58; RECLAIM ends the ticket that the event tells of, and no later one
of its entry); one that names no open event, or an ACTION that does not belong to the event, is counted and does
nothing more; registers keep what is written to their writable bits. It rests on the model's choice (log 105).
Preemption and the debug port (R325, R328, R331 to R334): an action of PREEMPT_CTL on a launch that is not resident
reports NO_LAUNCH; PARK marks every party of the launch that is not parked; END ends its grids with OUTCOME 0x03; a
halted party continues past its `halt`, or traps DEBUG; a core stops, its parties BLOCKED each at its own run boundary
(log 120), BUSY until every run has ended, and starts again; one 4 B read or write at a physical address, which tells
whether a layer had to be woken or is fused off. -/
def Obligations.DriverRegisters : Prop :=
  (∀ (s : State) (val : DWord),
      (s.invalBusy = false → val.getLsbD 63 = true →
        let drops := fun (i : Instr) (f : Leaf → Bool) =>
          ∃ t, exec i s = .next t ∧ t.invalBusy = true ∧ t.regs.invalCtl = val &&& 0x80000000000FFFFF ∧ t.regs.invalMark = s.keys ∧
            t.cores = s.cores.map (fun e => (e.1, { e.2 with tlb := e.2.tlb.filter (fun l => !f l) })) ∧ t.mem = s.mem ∧
            (∀ m ∈ t.net, m.applied = false → m.body.target.isSome = true → m.old = true)
        ((field val 16 2).toNat = 0 → field val 18 2 ≠ 3 →
          let n := 2 ^ invalBits val
          let base := s.regs.invalVa.toNat / n * n
          drops (.invalPage val) (fun l => decide (l.asid = field val 0 16) && decide (l.base < base + n) &&
            decide (base < l.base + 2 ^ l.bits))) ∧
        ((field val 16 2).toNat = 1 → drops (.invalAsid val) (fun l => decide (l.asid = field val 0 16))) ∧
        ((field val 16 2).toNat = 2 → drops (.invalAll val) (fun _ => true))) ∧
      (s.invalBusy = true →
        (s.oldWork = false → ∃ t, exec .invalComplete s = .next t ∧ t.invalBusy = false ∧ { t with regs := s.regs } = s ∧
          t.regs = { s.regs with invalCtl := t.regs.invalCtl }) ∧
        (s.oldWork = true → exec .invalComplete s = .next s)) ∧
      (val.getLsbD 63 = true →
        (s.grids ≠ [] → exec (.funcApply val) s =
          .next { s with regs := { s.regs with funcReq := field val 0 9, funcWait := true } }) ∧
        (s.grids = [] → field val 0 9 = 0 ∨ s.regs.evqLog2 ≠ 0 → exec (.funcApply val) s = .next { s with
          regs := { s.regs with funcReq := field val 0 9, funcMode := field val 0 9, funcWait := false },
          boot := { s.boot with host := (field val 0 9).getLsbD 8 } }) ∧
        (s.grids = [] → field val 0 9 ≠ 0 → s.regs.evqLog2 = 0 → exec (.funcApply val) s =
          .next { s with regs := { s.regs with funcReq := field val 0 9, funcWait := false } }))) ∧
  (∀ (s : State) (val : DWord),
      let a := (field val 32 8).toNat
      let named := fun (e : Nat × Event) => s.evOpen.find? (fun e => decide (e.1 = (field val 0 32).toNat)) = some e
      let ended := fun (e : Nat × Event) => { s with evOpen := s.evOpen.erase e }
      (s.evOpen.find? (fun e => decide (e.1 = (field val 0 32).toNat)) = none →
        ∀ e ∈ ([(Instr.evResume val, 1), (.evDeliver val, 2), (.evEnlarge val, 3), (.evParkOldest val, 4), (.evNone val, 5),
            (.evReclaim val, 6), (.evPlace val, 7), (.evDefer val, 8)] : List (Instr × Nat)), a = e.2 →
          exec e.1 s = .next { s with regs := { s.regs with evBad := s.regs.evBad + 1 } }) ∧
      (∀ e, named e →
        let t := ended e
        (∀ pid bid p b, e.2.subj = .page pid bid → s.party? pid = some p → p.bundle? bid = some b →
          ∀ cause addr pc, b.phase = .held (.event cause addr pc) →
          (a = 1 → exec (.evResume val) s = .next (t.setParty pid ((p.setBundle { b with
            phase := if b.run.isSome then .fetched else .waiting, stalled := false }).ready (s.clk p.core)))) ∧
          (a = 2 → exec (.evDeliver val) s = .next (t.raise pid bid (allTrap (lanesOf b.mask) cause addr) pc true)) ∧
          (a = 3 → exec (.evEnlarge val) s = .next { s with regs := { s.regs with evBad := s.regs.evBad + 1 } })) ∧
        (∀ k, e.2.subj = .queue k →
          (a = 5 → exec (.evNone val) s = .next (t.setStk k { s.stk k with qfull := false, evalAt := s.ns })) ∧
          (a = 4 → exec (.evParkOldest val) s = .next ((t.setStk k { s.stk k with qfull := false, evalAt := s.ns }).parkOldest k)) ∧
          (∀ c, a = 3 → (s.stk k).poolUsed < 1024 → Map.sorted s.stks = true → Map.sorted s.cores = true →
            leastBy s.queueSize ((s.stackCores k).filter s.queueFull) = some c →
            ∃ u : State, exec (.evEnlarge val) s = .next (u.reserveHeads c u.net.length) ∧ (u.core c).blocks = (s.core c).blocks + 1 ∧
              u.queueSize c = s.queueSize c + 2 ∧ (∀ j, j ≠ c → u.core j = s.core j) ∧
              u.stk k = { s.stk k with qfull := false, evalAt := s.ns, poolUsed := (s.stk k).poolUsed + 1 } ∧
              { u with cores := s.cores, stks := s.stks, tel := s.tel } = t) ∧
          (a = 3 → (s.stackCores k).filter s.queueFull = [] →
            exec (.evEnlarge val) s = .next (t.setStk k { s.stk k with qfull := false, evalAt := s.ns })) ∧
          (a = 3 → 1024 ≤ (s.stk k).poolUsed → Map.sorted s.stks = true →
            exec (.evEnlarge val) s = .next (t.setStk k { s.stk k with qfull := false, evalAt := s.ns }))) ∧
        (∀ slice entry gen, e.2.subj = .ticket slice entry gen → a = 6 →
          let x := s.ticket (slice * 4096 + entry)
          (x.st = .expired → x.gen = gen → exec (.evReclaim val) s = .next (t.reclaim (slice * 4096 + entry))) ∧
          (x.st ≠ .expired ∨ x.gen ≠ gen → exec (.evReclaim val) s = .next t)) ∧
        (∀ grid team, e.2.subj = .place grid team →
          (a = 7 → exec (.evPlace val) s = .next (t.placeAt grid team ((field val 40 24).toNat % 128))) ∧
          (a = 8 → exec (.evDefer val) s = .next { t with regs := { s.regs with placeHold := true } })) ∧
        (∀ grid idx, e.2.subj = .contain grid idx →
          (a = 1 → exec (.evResume val) s = .next (t.containResume grid idx)) ∧
          (a = 2 → exec (.evDeliver val) s = .next (t.containDeliver grid idx))) ∧
        (∀ port mask speed, e.2.subj = .link port mask speed → (s.link port).st = .down →
          (a = 1 → exec (.evResume val) s = .next (t.stepDown port mask speed)) ∧
          (a = 8 → exec (.evDefer val) s = .next (t.disableLink port)))) ∧
      exec (.evBadRespClear val) s = .next { s with regs := { s.regs with evBad := s.regs.evBad &&& ~~~val } } ∧
      (s.evWait = [] → exec (.evqHeadWrite val) s = .next { s with regs := { s.regs with evqHead := field val 0 32 } }) ∧
      (∀ e ∈ ([(0x2000, { s.regs with asidTable := val }), (0x2010, { s.regs with invalVa := val }),
          (0x2040, { s.regs with evqBase := val }),
          (0x2048, { s.regs with evqLog2 := if 6 ≤ val.toNat ∧ val.toNat ≤ 16 then val else 0 }),
          (0x3010, { s.regs with seqQuery := val }), (0x4060, { s.regs with dbgAddr := val }),
          (0x4068, { s.regs with dbgData := field val 0 32 })] : List (Nat × Regs)),
        exec (.registerWrite e.1 val) s = .next { s with regs := e.2 }) ∧
      (∀ k, k < 8 → exec (.registerWrite (0x4000 + 8 * k) val) s =
        .next { s with regs := { s.regs with haltEn := Map.put s.regs.haltEn k val 0 } }) ∧
      (∀ port win dword, port < 2 → win < 8 → dword < 4 → Map.sorted s.ports = true →
        let x := s.port port
        let d := Map.getD x.hdm win 0
        exec (.hdmWindowWrite port win dword val) s =
          .next (s.setPort port { x with hdm := Map.put x.hdm win (hdmWrite d dword val) 0 }) ∧
        (hdmEn d = true → (dword ≠ 3 ∨ val.getLsbD 63 = true) → hdmWrite d dword val = d)) ∧
      (∀ slot, slot < 128 →
        let x := s.seedAt slot
        (val.getLsbD 0 = false → exec (.seedSubmit slot val) s = .next (s.setSeed slot { x with core := (field val 8 5).toNat })) ∧
        (val.getLsbD 0 = true → x.state ≠ 1 → x.state ≠ 2 → exec (.seedSubmit slot val) s = .next (s.setSeed slot { x with
          state := 1, core := (field val 8 5).toNat, cause := 0, party := none,
          copy := (List.range 320).map (fun i => Map.getD x.bytes i 0) ++ [BitVec.ofNat 8 (field val 8 5).toNat] }))) ∧
      (∀ slot,
        let x := s.seedAt slot
        let asid := BitVec.ofNat 16 (leNat (x.copy.take 128) / 2 ^ 48 % 2 ^ 16)
        let core := 32 * (slot / 8) + (x.copy.getD 320 0).toNat
        x.state = 1 →
        (seedOk x.copy = false → exec (.seedAccept slot) s = .next (s.setSeed slot { x with state := 3, cause := 1 })) ∧
        (seedOk x.copy = true → s.asidValid asid = false →
          exec (.seedAccept slot) s = .next (s.setSeed slot { x with state := 3, cause := 2 })) ∧
        (seedOk x.copy = true → s.asidValid asid = true → leNat (x.copy.take 128) / 2 ^ 320 % 4 = 0 →
          (s.core core).dead = false → (s.slotsFor core
            (seedParty s.devId core slot (s.clk core) (s.keys + 1) (BitVec.ofNat 32 s.keys) x.copy).queueSlots).isSome = true →
          Map.sorted s.seeds = true →
          ∃ t p, exec (.seedAccept slot) s = .next t ∧ t.party? s.keys = some p ∧ p.seed = some slot ∧ p.asid = asid ∧
            p.mask = 1 ∧ (t.seedAt slot).state = 2 ∧ (t.seedAt slot).party = some p.lineageKey ∧
            (t.lineage p.lineageKey).count = 1 ∧ (p.place = .queued core ∨ p.place = .flight core) ∧
            (∃ b, p.bundles = [b] ∧ b.phase = .waiting ∧ b.pc = BitVec.ofNat 64 (leNat (x.copy.take 128) / 2 ^ 320)) ∧
            Map.getD p.scal 0 0 = BitVec.ofNat 64 (leNat ((x.copy.drop 128).take 8))))) ∧
  (∀ (s : State) (val : DWord),
      (s.preBusy = false → val.getLsbD 63 = true →
        let r := { s.regs with preempt := val &&& 0x8007FFFFFFFFFFFF }
        let launch : BitVec 32 := field val 0 32
        let asid : BitVec 16 := field val 32 16
        (s.launchHeld launch asid = false →
          ∀ e ∈ ([(Instr.preemptPark val, 0), (.preemptResume val, 1), (.preemptEnd val, 2)] : List (Instr × Nat)),
            (field val 48 2).toNat = e.2 →
            ∃ t, exec e.1 s = .next t ∧ { t with regs := s.regs } = s ∧ field t.regs.preempt 56 3 = (1 : BitVec 3) ∧
              t.preBusy = false) ∧
        (s.launchHeld launch asid = true →
          let kept := fun (g : BitVec 32) => State.preempted { s with regs := r } g
          ((field val 48 2).toNat = 0 →
            ∃ t, exec (.preemptPark val) s = .next t ∧ t.regs = r ∧
              (∀ pid p, s.party? pid = some p → p.seed = none → kept (p.gridAt s.devId) = true → (∀ k i, p.place ≠ .parked k i) →
                ∃ q, t.party? pid = some q ∧ q.wantPark = true ∧ q.vregs = p.vregs ∧ q.bundles = p.bundles) ∧
              (∀ pid p, s.party? pid = some p → kept (p.gridAt s.devId) = false → val.getLsbD 50 = false →
                Map.sorted s.parties = true → t.party? pid = some p)) ∧
          ((field val 48 2).toNat = 1 → (∀ e ∈ s.parties, ∀ k i, e.2.place ≠ .parked k i) → (∀ e ∈ s.teams, kept e.2.grid = false) →
            ∃ t, exec (.preemptResume val) s = .next t ∧ t.regs = r ∧
              (∀ pid p, s.party? pid = some p → kept (p.gridAt s.devId) = true → t.party? pid = some { p with wantPark := false })) ∧
          ((field val 48 2).toNat = 2 →
            ∃ t, exec (.preemptEnd val) s = .next t ∧
              (∀ k g, s.grid? k = some g → g.id = k → kept k = true → ∀ h, t.grid? k = some h →
                h.outcome = 3 ∧ h.relaunch = false)))) ∧
      (∀ pid bid rest p b (c : Ctx), s.halts = (pid, bid) :: rest → s.party? pid = some p → p.bundle? bid = some b →
        let p1 := Party.ready { (p.setBundle { b with phase := .running }) with haltBy := rest.any (fun h => decide (h.1 = pid)) }
          (s.clk p.core)
        ({ s with halts := rest, parties := Map.insert s.parties pid p1, actor := .bundle pid bid } : State).ctx? = some c →
        exec .dbgContinue s = .next { c.advance with actor := s.actor } ∧
        exec .dbgDeliverDebug s = .next { (c.s.raise pid bid (allTrap (c.guarded c.word.guard) cDebug 0) c.here false) with
          actor := s.actor }) ∧
      (s.halts = [] → exec .dbgContinue s = .next s ∧ exec .dbgDeliverDebug s = .next s) ∧
      (∀ core, core = (field val 0 9).toNat → Map.sorted s.cores = true →
        (val.getLsbD 9 = true →
          ∃ t, exec (.dbgStop val) s = .next t ∧ t.core core = { s.core core with stopped := true } ∧
            t.regs.dbgStop = (val &&& 0x3FF) ||| 0x8000000000000000 ∧ t.mem = s.mem ∧
            (∀ pid p, s.party? pid = some p → ∃ q, t.party? pid = some q ∧
              (∀ st, p.place = .slot core st → p.midRun = false → p.stopBy = false → q = p.stopAt (s.clk core)) ∧
              (p.midRun = true → q = p) ∧
              (p.core ≠ core → (s.core p.core).stopped = false → q = p))) ∧
        (val.getLsbD 9 = false →
          ∃ t, exec (.dbgStart val) s = .next t ∧ t.core core = { s.core core with stopped := false } ∧
            t.regs.dbgStop = val &&& 0x3FF ∧ t.mem = s.mem ∧
            (Map.sorted s.parties = true → ∀ e ∈ s.residents core, ∃ q, t.party? e.1 = some q ∧ q.stopBy = false ∧
              q.bundles = e.2.bundles))) ∧
      (s.regs.dbgStop.getLsbD 63 = true →
        ((∀ e ∈ s.parties, e.2.resident = true → (s.core e.2.core).stopped = true → e.2.midRun = false) →
          Map.sorted s.parties = true →
          ∃ t, exec .dbgStopDrained s = .next t ∧ t.regs.dbgStop.getLsbD 63 = false ∧ t.cores = s.cores ∧ t.mem = s.mem ∧
            (∀ e ∈ s.parties, e.2.resident = true → (s.core e.2.core).stopped = true →
              ∃ q, t.party? e.1 = some q ∧ q.stopBy = true ∧ q.bundles = e.2.bundles ∧
                (e.2.stopBy = false → q.isBlocked = true))) ∧
        (∀ e ∈ s.parties, e.2.resident = true → (s.core e.2.core).stopped = true → e.2.midRun = true →
          exec .dbgStopDrained s = .next s)) ∧
      (val.getLsbD 0 = true →
        let at_ := s.regs.dbgAddr
        (val.getLsbD 1 = false → s.dbgOk at_ = true → s.layerAt at_ ≠ .fused →
          ∃ t, exec (.dbgMemRead val) s = .next t ∧ t.mem = s.mem ∧ t.regs.dbgData = BitVec.ofNat 32 (memNat s.mem at_.toNat 4) ∧
            t.regs.dbgCtl = (if s.layerAt at_ = .gated then 8 else 0)) ∧
        (val.getLsbD 1 = false → s.dbgOk at_ = true → s.layerAt at_ = .fused →
          exec (.dbgMemRead val) s = .next { s with regs := { s.regs with dbgCtl := 16, dbgData := 0xFFFFFFFF } }) ∧
        (val.getLsbD 1 = false → s.dbgOk at_ = false →
          exec (.dbgMemRead val) s = .next { s with regs := { s.regs with dbgCtl := 24, dbgData := 0xFFFFFFFF } }) ∧
        (val.getLsbD 1 = true → s.dbgOk at_ = true → s.layerAt at_ ≠ .fused → MemOk s → Unshadowed s →
          ∃ t, exec (.dbgMemWrite val) s = .next t ∧ t.regs.dbgCtl = (if s.layerAt at_ = .gated then 10 else 2) ∧
            t.regs.dbgData = s.regs.dbgData ∧
            (∀ a, (at_.toNat ≤ a ∧ a < at_.toNat + 4 →
                memByte t.mem a = (leBytes 4 s.regs.dbgData.toNat).getD (a - at_.toNat) 0) ∧
              (¬(at_.toNat ≤ a ∧ a < at_.toNat + 4) → memByte t.mem a = memByte s.mem a))) ∧
        (val.getLsbD 1 = true → s.dbgOk at_ = true → s.layerAt at_ = .fused →
          exec (.dbgMemWrite val) s = .next { s with regs := { s.regs with dbgCtl := 18 } }) ∧
        (val.getLsbD 1 = true → s.dbgOk at_ = false →
          exec (.dbgMemWrite val) s = .next { s with regs := { s.regs with dbgCtl := 26 } })))

/-- Power and boot (R116, R349 to R355, R377): without power only what is in flash remains; a boot whose attempts pass
ends in SERVICE with every step recorded as passed; every boot ends in SERVICE or RECOVERY, or stops for the host; a
stopped one goes on only while no launch is resident (R115; log 121); entering RECOVERY, skipping a required step, and
asking for an alternate that a step does not have end in RECOVERY. It rests on the model's choice (log 6). The answers
of SPDM and PLDM and the saving of telemetry (R353, R356, R357, R375 to R380): each request leaves one answer; a
signed one draws a fresh signature (log 19); only the limit within its range, a mask that leaves a slice, and a clear
while no boot step waits are taken. It rests on the model's choices (logs 19 and 45). The fabric (R361, R364, R365,
R367 to R373): a frame that is intact and next in order is accepted with its packets, a damaged or later one is
answered with NAK; a new frame leaves with the next number and stays in the replay buffer, a frame to be sent again
leaves as it was; a packet for this module is delivered; a lost lane starts training; masks and speeds that agree
bring the link up; a disabled link's report moves what was not accepted to the drain; the route of a pair within the
group is minimal. It rests on the model's choice (log 57). -/
def Obligations.BootAndFabric : Prop :=
  (∀ (s : State) (inp : BootInput),
      let ends := fun (t : State) => t.mode = 0 ∨ t.mode = 3 ∨ t.boot.waiting = true
      let off := (s.setLinks 0 allPorts (Link.boot 0 none)).fab
      let recovery := fun (i : Instr) => exec i s = .next { s with mode := 3, boot := { s.boot with waiting := false }, fab := off }
      (∃ t, exec .powerLoss s = .next t ∧ t.mem = [] ∧ t.parties = [] ∧ t.grids = [] ∧ t.regs = Regs.init ∧ t.mode = 1 ∧
        t.boot.ents = s.boot.ents ∧ t.boot.retire = s.boot.retire ∧ t.boot.host = s.boot.host ∧ t.boot.slots = s.boot.slots ∧ t.tel.flash = s.tel.flash ∧
        t.tel.live = []) ∧
      (s.tel.restored = true → ∃ t, exec .orderlyPowerDown s = .next t ∧ t.mem = [] ∧
        t.tel.flash = (s.tel.live :: s.tel.flash).take 2) ∧
      (inp.lost = 0 →
        ∃ t, exec (.powerOn inp) s = .next t ∧ t.mem = [] ∧ t.parties = [] ∧ t.boot.retire = s.boot.retire ∧ ends t) ∧
      (inp.lost = 1 → exec (.powerOn inp) s = exec .powerLoss s) ∧
      (s.boot.ents = [] → s.boot.host = false → inp.pass = [] → inp.lost = 0 → s.imageOk 0 = true →
        ∃ t, exec (.powerOn inp) s = .next t ∧ t.mode = 0 ∧ t.boot.step = 10 ∧ t.boot.waiting = false ∧
          ∀ n ∈ [1, 2, 3, 4, 5, 6, 7, 8, 10], t.bootEnt n = { result := 1, method := 0, fails := 0, skips := 0 }) ∧
      (s.boot.waiting = true → s.grids ≠ [] →
        ∀ i ∈ [Instr.bootRetry inp, .bootNextAlternate inp, .bootSkip inp, .bootEnterRecovery], exec i s = .next s) ∧
      (s.boot.waiting = true → s.grids = [] →
        (inp.lost = 0 → ∃ t, exec (.bootRetry inp) s = .next t ∧ t.mem = s.mem ∧ ends t) ∧
        recovery .bootEnterRecovery ∧
        (stepOptional s.boot.step = false → recovery (.bootSkip inp)) ∧
        (stepOptional s.boot.step = true → inp.lost = 0 → ∃ t, exec (.bootSkip inp) s = .next t ∧ t.mem = s.mem ∧ ends t) ∧
        (stepAlternates s.boot.step ≤ s.boot.method → recovery (.bootNextAlternate inp)) ∧
        (s.boot.method < stepAlternates s.boot.step → inp.lost = 0 → ∃ t, exec (.bootNextAlternate inp) s = .next t ∧ t.mem = s.mem ∧ ends t))) ∧
  (∀ (s : State),
      let replies := fun (i : Instr) (o : Out) => exec i s = .next { s with out := s.out ++ [o] }
      let signed := fun (i : Instr) (code : Nat) (body : List Nat) =>
        exec i s = .next { s with out := s.out ++ [.spdm code (body ++ fixedBytes (2 ^ 64 + 64 * s.free) 64)], free := s.free + 1 }
      replies .getVersion (.spdm 4 [0x1300]) ∧
      (s.boot.peer.version = 0x13 → replies .getCapabilities (.spdm 0x61 [0x16]) ∧
        replies .negotiateAlgorithms (.spdm 0x63 [s.boot.peer.asym &&& 0x400, s.boot.peer.hash &&& 4])) ∧
      (s.boot.peer.version ≠ 0x13 → replies .getCapabilities (.spdm 0x7F [0x41]) ∧
        replies .negotiateAlgorithms (.spdm 0x7F [0x41])) ∧
      replies .getDigests (.spdm 1 (1 :: fixedBytes (2 ^ 40) 64)) ∧
      (∀ off len, replies (.getCertificate 0 off len) (.spdm 2 (0 :: fixedBytes off (len % 65536)))) ∧
      signed (.challenge 0) 3 (0 :: fixedBytes (2 ^ 40) 64) ∧
      signed (.getMeasurements 0) 0x60 [4] ∧
      (∀ idx, 1 ≤ idx → idx ≤ 4 → signed (.getMeasurements idx) 0x60 (idx :: s.measurement idx)) ∧
      (∀ slot, slot ≠ 0 → replies (.challenge slot) (.spdm 0x7F [1])) ∧
      (∀ code, replies (.spdmUnsupported code) (.spdm 0x7F [7, code])) ∧
      (let id := (s.tel.snapNo + 1) % 2 ^ 32
       exec .getSnapshot s = .next { s with
         tel := { s.tel with snap := some (id, s.ns, s.latched), snapNo := id }, out := s.out ++ [.pldm 1 [id, s.ns, snapLen]] }) ∧
      (∀ id off len,
        (∀ k ns m, s.tel.snap = some (k, ns, m) → k = id →
          replies (.readSnapshot id off len) (.pldm 2 (0 :: (List.range (min (min len 1024) (snapLen - off))).map (fun i =>
            snapByte m telIds (off + i))))) ∧
        ((∀ ns m, s.tel.snap ≠ some (id, ns, m)) → replies (.readSnapshot id off len) (.pldm 2 [0x80]))) ∧
      (s.boot.waiting = false → exec .clearBootRecord s =
        .next { s with boot := { s.boot with ents := [] }, out := s.out ++ [.pldm 3 [0]] }) ∧
      (s.boot.waiting = true → replies .clearBootRecord (.pldm 3 [0x82])) ∧
      (∀ w, 1500 ≤ w → w ≤ 3200 → exec (.setPowerLimit w) s =
        .next { s with regs := { s.regs with powerLimit := w }, out := s.out ++ [.pldm 4 [0]] }) ∧
      (∀ w, w < 1500 ∨ 3200 < w → replies (.setPowerLimit w) (.pldm 4 [0x81])) ∧
      (∀ k (mask : BitVec 32), k < 16 →
        (mask ≠ 0xFFFFFFFF → exec (.setSliceRetire k mask) s = .next { s with
          boot := { s.boot with retire := Map.put s.boot.retire k mask 0 }, out := s.out ++ [.pldm 5 [0]] }) ∧
        (mask = 0xFFFFFFFF → replies (.setSliceRetire k mask) (.pldm 5 [0x83]))) ∧
      (∀ n, n < 1055 → replies (.sensorRead (8 * 4096 + n)) (.pldm 0x11 [0, Map.getD s.tel.live (telKey 8 n 32) 0])) ∧
      (s.tel.savedAt + 600000000000 ≤ s.ns → exec .telemetrySave s =
        .next { s with tel := { s.tel.restore (s.tel.flash.headD []) with
          flash := ((s.tel.restore (s.tel.flash.headD [])).live :: s.tel.flash).take 2, savedAt := s.ns } })) ∧
  (∀ (s : State), Map.sorted s.fab.links = true →
      (∀ (port : Nat), port < 1055 →
        let x := s.link port
        (∀ fr : LinkFrame, x.st = .up →
          let want := (x.acc + 1) % 65536
          (fr.crcOk = false → exec (.linkFrameReceive port fr) s = .next (s.setLink port { x with nak := true })) ∧
          (fr.crcOk = true → fr.fseq = want →
            ∃ t y, exec (.linkFrameReceive port fr) s = .next t ∧ t.link port = y ∧ y.acc = fr.fseq ∧
              y.nak = false ∧ y.inq = x.inq ++ fr.whole ∧ y.out = x.out ∧ { t with fab := s.fab } = s ∧
              (∀ j, j ≠ port → t.link j = s.link j)) ∧
          (fr.crcOk = true → fr.fseq = (x.acc + 2) % 65536 →
            ∃ t y, exec (.linkFrameReceive port fr) s = .next t ∧ t.link port = y ∧ y.nak = true ∧ y.inq = x.inq ∧ y.acc = x.acc)) ∧
        (x.st = .up → x.resend = 0 → x.replay.length < 256 →
          ∃ t f, exec (.linkFrameSend port) s = .next t ∧ t.out = s.out ++ [.frame port f] ∧ f.fseq = x.fseq ∧ f.crcOk = true ∧
            f.flits.length = 15 ∧ f.ack = x.acc ∧ f.train = false ∧ f.nak = x.nak ∧
            (t.link port).replay = x.replay ++ [f] ∧ (t.link port).fseq = (x.fseq + 1) % 65536) ∧
        (∀ f, x.st = .up → x.resend ≠ 0 → x.replay[x.replay.length - x.resend]? = some f →
          ∃ t g, exec (.linkFrameSend port) s = .next t ∧ t.out = s.out ++ [.frame port g] ∧ g.fseq = f.fseq ∧ g.flits = f.flits ∧
            t.link port = { x with resend := x.resend - 1 }) ∧
        (∀ lane, lane < 16 → x.st = .up ∨ x.st = .training → x.good.getLsbD lane = true →
          ∃ t, exec (.laneLoss port lane) s = .next t ∧
            t.link port = { x with st := .training, good := x.good &&& ~~~((1 : BitVec 16) <<< lane), lanes := 0 } ∧
            { t with fab := s.fab, tel := s.tel } = s) ∧
        (∀ (mine remote : BitVec 16) (v : Nat), x.st = .training →
          (x.good &&& mine = remote → x.speed = v → ∀ l, chooseLanes remote = some l →
            ∃ t f, exec (.trainingExchange port mine remote v) s = .next t ∧ t.link port = { x with
              good := remote, st := .up, lanes := l, mism := 0, nak := false, resend := x.replay.length } ∧
              t.out = s.out ++ [.frame port f] ∧ f.train = true ∧ f.good = remote ∧ f.speed = x.speed ∧ f.ack = x.acc) ∧
          (x.good &&& mine ≠ remote ∨ x.speed ≠ v → x.mism < 2 → s.regs.funcMode.getLsbD 7 = false → max x.speed v + 1 ≤ lastSpeed port →
            ∃ t, exec (.trainingExchange port mine remote v) s = .next t ∧ t.link port = { x with
              st := .training, good := x.good &&& mine &&& remote, speed := max x.speed v + 1, mism := x.mism + 1 })) ∧
        (∀ fseq, x.st = .disabled → x.reported = false → x.replay = [] →
          exec (.linkReportReceive port fseq) s = .next ((s.setLink port { x with resend := 0, reported := true }).refill port)) ∧
        (∀ p rest, x.inq = p :: rest → p.dstDev = s.devId →
          let t := (s.giveBack port p.chan p.len).deliver p
          exec (.packetForward port) s = .next (t.setLink port { t.link port with inq := rest }))) ∧
      (∀ p, s.fab.egress = [p] → p.dstDev = s.devId →
        exec (.packetForward 1055) s = .next (State.deliver { s with fab := { s.fab with egress := [] } } p)) ∧
      (∀ dst : BitVec 20, dst ≠ s.devId → devGroup dst = devGroup s.devId →
        let r := s.route dst
        r.open_ = 0 → r.at_ = 0 ∨ r.at_ + 10000 ≤ s.ns → r.valiant = false →
        exec (.routeReevaluate dst) s = .next (State.setRoute { s with free := s.free + 3 } dst { r with at_ := s.ns })))
end

