-- ==== Sys2Proof/Laws/Maps.lean ====
section
/-!
SUPPORT. Laws of sparse maps: reads after writes, and the canonical form.
-/

namespace Sys2Proof.Machine

variable {α : Type}

theorem Map.find_insert_self (m : Map α) (a : Nat) (x : α) : Map.find (Map.insert m a x) a = some x := by
  induction m with
  | nil => simp [Map.insert, Map.find]
  | cons e m ih =>
    obtain ⟨k, v⟩ := e
    simp only [Map.insert]
    split
    · simp [Map.find]
    · split
      · simp [Map.find]
      · simp [Map.find, *]

theorem Map.find_insert_ne (m : Map α) (a b : Nat) (x : α) (h : b ≠ a) :
    Map.find (Map.insert m a x) b = Map.find m b := by
  induction m with
  | nil => simp [Map.insert, Map.find]; omega
  | cons e m ih =>
    obtain ⟨k, v⟩ := e
    simp only [Map.insert]
    split
    · simp only [Map.find, if_neg h]; split
      · rw [if_pos (by omega)]
      · rfl
    · split
      · subst_vars; simp only [Map.find, if_neg h]
      · simp only [Map.find, ih]

/-- A read after a write. -/
theorem Map.find_insert (m : Map α) (a b : Nat) (x : α) :
    Map.find (Map.insert m a x) b = if b = a then some x else Map.find m b := by
  split
  · subst_vars; exact Map.find_insert_self m b x
  · exact Map.find_insert_ne m a b x ‹_›

@[simp] theorem Map.getD_insert (m : Map α) (a b : Nat) (x d : α) :
    Map.getD (Map.insert m a x) b d = if b = a then x else Map.getD m b d := by
  simp only [Map.getD, Map.find_insert]; split <;> rfl

theorem Map.sortedFrom_mono {a b : Nat} (h : a ≤ b) {m : Map α} (hm : Map.sortedFrom b m = true) :
    Map.sortedFrom a m = true := by
  cases m with
  | nil => rfl
  | cons e m =>
    simp only [Map.sortedFrom, Bool.and_eq_true, decide_eq_true_eq] at *
    exact ⟨by omega, hm.2⟩

theorem Map.sortedFrom_insert (m : Map α) (b a : Nat) (x : α) (hm : Map.sortedFrom b m = true) (h : b ≤ a) :
    Map.sortedFrom b (Map.insert m a x) = true := by
  induction m generalizing b with
  | nil => simp [Map.insert, Map.sortedFrom, h]
  | cons e m ih =>
    obtain ⟨k, v⟩ := e
    simp only [Map.sortedFrom, Bool.and_eq_true, decide_eq_true_eq] at hm
    simp only [Map.insert]
    split
    · simp only [Map.sortedFrom, Bool.and_eq_true, decide_eq_true_eq]; exact ⟨h, by omega, hm.2⟩
    · split
      · subst_vars; simp only [Map.sortedFrom, Bool.and_eq_true, decide_eq_true_eq]; exact ⟨h, hm.2⟩
      · simp only [Map.sortedFrom, Bool.and_eq_true, decide_eq_true_eq]
        exact ⟨hm.1, ih _ hm.2 (by omega)⟩

theorem Map.sortedFrom_erase (m : Map α) (b a : Nat) (hm : Map.sortedFrom b m = true) :
    Map.sortedFrom b (Map.erase m a) = true := by
  induction m generalizing b with
  | nil => rfl
  | cons e m ih =>
    obtain ⟨k, v⟩ := e
    simp only [Map.sortedFrom, Bool.and_eq_true, decide_eq_true_eq] at hm
    simp only [Map.erase]
    split
    · simp [Map.sortedFrom, hm.1, hm.2]
    · split
      · exact Map.sortedFrom_mono (by omega) hm.2
      · simp only [Map.sortedFrom, Bool.and_eq_true, decide_eq_true_eq]; exact ⟨hm.1, ih _ hm.2⟩

theorem Map.find_none_of_lt {m : Map α} {b a : Nat} (hm : Map.sortedFrom b m = true) (h : a < b) :
    Map.find m a = none := by
  cases m with
  | nil => rfl
  | cons e m =>
    simp only [Map.sortedFrom, Bool.and_eq_true, decide_eq_true_eq] at hm
    simp only [Map.find]; rw [if_pos (by omega)]

/-- A read after a removal, in the canonical form. -/
theorem Map.find_erase (m : Map α) (a b c : Nat) (hm : Map.sortedFrom c m = true) :
    Map.find (Map.erase m a) b = if b = a then none else Map.find m b := by
  induction m generalizing c with
  | nil => simp [Map.erase, Map.find]
  | cons e m ih =>
    obtain ⟨k, v⟩ := e
    simp only [Map.sortedFrom, Bool.and_eq_true, decide_eq_true_eq] at hm
    simp only [Map.erase]
    split
    · simp only [Map.find]; split
      · split <;> rfl
      · split
        · rw [if_neg (by omega)]
        · split
          · subst_vars
            exact Map.find_none_of_lt hm.2 (by omega)
          · rfl
    · split
      · subst_vars
        split
        · subst_vars; exact Map.find_none_of_lt hm.2 (by omega)
        · simp only [Map.find]; split
          · exact Map.find_none_of_lt hm.2 (by omega)
          · rfl
      · simp only [Map.find]
        split
        · split <;> rfl
        · split
          · rw [if_neg (by omega)]
          · exact ih _ hm.2

theorem Map.all_insert (p : Nat × α → Bool) (m : Map α) (a : Nat) (x : α) (hm : m.all p = true) (h : p (a, x) = true) :
    (Map.insert m a x).all p = true := by
  induction m with
  | nil => simp [Map.insert, h]
  | cons e m ih =>
    obtain ⟨k, v⟩ := e
    simp only [List.all_cons, Bool.and_eq_true] at hm
    simp only [Map.insert]
    split
    · simp [h, hm.1, hm.2]
    · split
      · simp [h, hm.2]
      · simp only [List.all_cons, Bool.and_eq_true]; exact ⟨hm.1, ih hm.2⟩

theorem Map.all_erase (p : Nat × α → Bool) (m : Map α) (a : Nat) (hm : m.all p = true) :
    (Map.erase m a).all p = true := by
  induction m with
  | nil => rfl
  | cons e m ih =>
    obtain ⟨k, v⟩ := e
    simp only [List.all_cons, Bool.and_eq_true] at hm
    simp only [Map.erase]
    split
    · simp [hm.1, hm.2]
    · split
      · exact hm.2
      · simp only [List.all_cons, Bool.and_eq_true]; exact ⟨hm.1, ih hm.2⟩

/-- A write in the canonical form keeps it. -/
theorem Map.canon_put [DecidableEq α] (m : Map α) (a : Nat) (x d : α) (hm : Map.canon m d = true) :
    Map.canon (Map.put m a x d) d = true := by
  simp only [Map.canon, Map.sorted, Bool.and_eq_true] at *
  simp only [Map.put]
  split
  · exact ⟨Map.sortedFrom_erase m 0 a hm.1, Map.all_erase _ m a hm.2⟩
  · exact ⟨Map.sortedFrom_insert m 0 a x hm.1 (by omega), Map.all_insert _ m a x hm.2 (by simpa using ‹_›)⟩

/-- A read after a write in the canonical form. -/
theorem Map.getD_put [DecidableEq α] (m : Map α) (a b : Nat) (x d : α) (hm : Map.sorted m = true) :
    Map.getD (Map.put m a x d) b d = if b = a then x else Map.getD m b d := by
  simp only [Map.put]
  split
  · subst_vars
    simp only [Map.getD, Map.find_erase m a b 0 hm]
    split <;> rfl
  · exact Map.getD_insert m a b x d

end Sys2Proof.Machine
end

