-- ==== Sys2Proof/Laws/State.lean ====
section
/-!
SUPPORT. What each update of the state leaves in each field: one law per field, true by unfolding once.
-/

namespace Sys2Proof.Machine

/-! ## A party written back -/

@[simp] theorem State.setParty_schedule (s : State) (i : Nat) (p : Party) : (s.setParty i p).schedule = s.schedule := rfl
@[simp] theorem State.setParty_turn (s : State) (i : Nat) (p : Party) : (s.setParty i p).turn = s.turn := rfl
@[simp] theorem State.setParty_actor (s : State) (i : Nat) (p : Party) : (s.setParty i p).actor = s.actor := rfl
@[simp] theorem State.setParty_steps (s : State) (i : Nat) (p : Party) : (s.setParty i p).steps = s.steps := rfl
@[simp] theorem State.setParty_keys (s : State) (i : Nat) (p : Party) : (s.setParty i p).keys = s.keys := rfl
@[simp] theorem State.setParty_free (s : State) (i : Nat) (p : Party) : (s.setParty i p).free = s.free := rfl
@[simp] theorem State.setParty_out (s : State) (i : Nat) (p : Party) : (s.setParty i p).out = s.out := rfl
@[simp] theorem State.setParty_ns (s : State) (i : Nat) (p : Party) : (s.setParty i p).ns = s.ns := rfl
@[simp] theorem State.setParty_devId (s : State) (i : Nat) (p : Party) : (s.setParty i p).devId = s.devId := rfl
@[simp] theorem State.setParty_mode (s : State) (i : Nat) (p : Party) : (s.setParty i p).mode = s.mode := rfl
@[simp] theorem State.setParty_regs (s : State) (i : Nat) (p : Party) : (s.setParty i p).regs = s.regs := rfl
@[simp] theorem State.setParty_boot (s : State) (i : Nat) (p : Party) : (s.setParty i p).boot = s.boot := rfl
@[simp] theorem State.setParty_parties (s : State) (i : Nat) (p : Party) : (s.setParty i p).parties = Map.insert s.parties i p := rfl
@[simp] theorem State.setParty_cores (s : State) (i : Nat) (p : Party) : (s.setParty i p).cores = s.cores := rfl
@[simp] theorem State.setParty_stks (s : State) (i : Nat) (p : Party) : (s.setParty i p).stks = s.stks := rfl
@[simp] theorem State.setParty_teams (s : State) (i : Nat) (p : Party) : (s.setParty i p).teams = s.teams := rfl
@[simp] theorem State.setParty_grids (s : State) (i : Nat) (p : Party) : (s.setParty i p).grids = s.grids := rfl
@[simp] theorem State.setParty_lineages (s : State) (i : Nat) (p : Party) : (s.setParty i p).lineages = s.lineages := rfl
@[simp] theorem State.setParty_bars (s : State) (i : Nat) (p : Party) : (s.setParty i p).bars = s.bars := rfl
@[simp] theorem State.setParty_net (s : State) (i : Nat) (p : Party) : (s.setParty i p).net = s.net := rfl
@[simp] theorem State.setParty_mem (s : State) (i : Nat) (p : Party) : (s.setParty i p).mem = s.mem := rfl
@[simp] theorem State.setParty_tiles (s : State) (i : Nat) (p : Party) : (s.setParty i p).tiles = s.tiles := rfl
@[simp] theorem State.setParty_tickets (s : State) (i : Nat) (p : Party) : (s.setParty i p).tickets = s.tickets := rfl
@[simp] theorem State.setParty_ticketPtr (s : State) (i : Nat) (p : Party) : (s.setParty i p).ticketPtr = s.ticketPtr := rfl
@[simp] theorem State.setParty_locks (s : State) (i : Nat) (p : Party) : (s.setParty i p).locks = s.locks := rfl
@[simp] theorem State.setParty_frames (s : State) (i : Nat) (p : Party) : (s.setParty i p).frames = s.frames := rfl
@[simp] theorem State.setParty_versions (s : State) (i : Nat) (p : Party) : (s.setParty i p).versions = s.versions := rfl
@[simp] theorem State.setParty_engines (s : State) (i : Nat) (p : Party) : (s.setParty i p).engines = s.engines := rfl
@[simp] theorem State.setParty_poison (s : State) (i : Nat) (p : Party) : (s.setParty i p).poison = s.poison := rfl
@[simp] theorem State.setParty_consumes (s : State) (i : Nat) (p : Party) : (s.setParty i p).consumes = s.consumes := rfl
@[simp] theorem State.setParty_clog (s : State) (i : Nat) (p : Party) : (s.setParty i p).clog = s.clog := rfl
@[simp] theorem State.setParty_clogCount (s : State) (i : Nat) (p : Party) : (s.setParty i p).clogCount = s.clogCount := rfl
@[simp] theorem State.setParty_ports (s : State) (i : Nat) (p : Party) : (s.setParty i p).ports = s.ports := rfl
@[simp] theorem State.setParty_seeds (s : State) (i : Nat) (p : Party) : (s.setParty i p).seeds = s.seeds := rfl
@[simp] theorem State.setParty_evWait (s : State) (i : Nat) (p : Party) : (s.setParty i p).evWait = s.evWait := rfl
@[simp] theorem State.setParty_evOpen (s : State) (i : Nat) (p : Party) : (s.setParty i p).evOpen = s.evOpen := rfl
@[simp] theorem State.setParty_wanted (s : State) (i : Nat) (p : Party) : (s.setParty i p).wanted = s.wanted := rfl
@[simp] theorem State.setParty_halts (s : State) (i : Nat) (p : Party) : (s.setParty i p).halts = s.halts := rfl
@[simp] theorem State.setParty_fab (s : State) (i : Nat) (p : Party) : (s.setParty i p).fab = s.fab := rfl
@[simp] theorem State.setParty_tel (s : State) (i : Nat) (p : Party) : (s.setParty i p).tel = s.tel := rfl
@[simp] theorem State.setParty_visits (s : State) (i : Nat) (p : Party) : (s.setParty i p).visits = s.visits := rfl
@[simp] theorem State.setParty_reads (s : State) (i : Nat) (p : Party) : (s.setParty i p).reads = s.reads := rfl
@[simp] theorem State.setParty_dropped (s : State) (i : Nat) (p : Party) : (s.setParty i p).dropped = s.dropped := rfl

/-! ## A party removed -/

@[simp] theorem State.dropParty_schedule (s : State) (i : Nat) : (s.dropParty i).schedule = s.schedule := rfl
@[simp] theorem State.dropParty_turn (s : State) (i : Nat) : (s.dropParty i).turn = s.turn := rfl
@[simp] theorem State.dropParty_actor (s : State) (i : Nat) : (s.dropParty i).actor = s.actor := rfl
@[simp] theorem State.dropParty_steps (s : State) (i : Nat) : (s.dropParty i).steps = s.steps := rfl
@[simp] theorem State.dropParty_keys (s : State) (i : Nat) : (s.dropParty i).keys = s.keys := rfl
@[simp] theorem State.dropParty_free (s : State) (i : Nat) : (s.dropParty i).free = s.free := rfl
@[simp] theorem State.dropParty_out (s : State) (i : Nat) : (s.dropParty i).out = s.out := rfl
@[simp] theorem State.dropParty_ns (s : State) (i : Nat) : (s.dropParty i).ns = s.ns := rfl
@[simp] theorem State.dropParty_devId (s : State) (i : Nat) : (s.dropParty i).devId = s.devId := rfl
@[simp] theorem State.dropParty_mode (s : State) (i : Nat) : (s.dropParty i).mode = s.mode := rfl
@[simp] theorem State.dropParty_regs (s : State) (i : Nat) : (s.dropParty i).regs = s.regs := rfl
@[simp] theorem State.dropParty_boot (s : State) (i : Nat) : (s.dropParty i).boot = s.boot := rfl
@[simp] theorem State.dropParty_parties (s : State) (i : Nat) : (s.dropParty i).parties = Map.erase s.parties i := rfl
@[simp] theorem State.dropParty_cores (s : State) (i : Nat) : (s.dropParty i).cores = s.cores := rfl
@[simp] theorem State.dropParty_stks (s : State) (i : Nat) : (s.dropParty i).stks = s.stks := rfl
@[simp] theorem State.dropParty_teams (s : State) (i : Nat) : (s.dropParty i).teams = s.teams := rfl
@[simp] theorem State.dropParty_grids (s : State) (i : Nat) : (s.dropParty i).grids = s.grids := rfl
@[simp] theorem State.dropParty_lineages (s : State) (i : Nat) : (s.dropParty i).lineages = s.lineages := rfl
@[simp] theorem State.dropParty_bars (s : State) (i : Nat) : (s.dropParty i).bars = s.bars := rfl
@[simp] theorem State.dropParty_net (s : State) (i : Nat) : (s.dropParty i).net = s.net := rfl
@[simp] theorem State.dropParty_mem (s : State) (i : Nat) : (s.dropParty i).mem = s.mem := rfl
@[simp] theorem State.dropParty_tiles (s : State) (i : Nat) : (s.dropParty i).tiles = s.tiles := rfl
@[simp] theorem State.dropParty_tickets (s : State) (i : Nat) : (s.dropParty i).tickets = s.tickets := rfl
@[simp] theorem State.dropParty_ticketPtr (s : State) (i : Nat) : (s.dropParty i).ticketPtr = s.ticketPtr := rfl
@[simp] theorem State.dropParty_locks (s : State) (i : Nat) : (s.dropParty i).locks = s.locks := rfl
@[simp] theorem State.dropParty_frames (s : State) (i : Nat) : (s.dropParty i).frames = s.frames := rfl
@[simp] theorem State.dropParty_versions (s : State) (i : Nat) : (s.dropParty i).versions = s.versions := rfl
@[simp] theorem State.dropParty_engines (s : State) (i : Nat) : (s.dropParty i).engines = s.engines := rfl
@[simp] theorem State.dropParty_poison (s : State) (i : Nat) : (s.dropParty i).poison = s.poison := rfl
@[simp] theorem State.dropParty_consumes (s : State) (i : Nat) : (s.dropParty i).consumes = s.consumes := rfl
@[simp] theorem State.dropParty_clog (s : State) (i : Nat) : (s.dropParty i).clog = s.clog := rfl
@[simp] theorem State.dropParty_clogCount (s : State) (i : Nat) : (s.dropParty i).clogCount = s.clogCount := rfl
@[simp] theorem State.dropParty_ports (s : State) (i : Nat) : (s.dropParty i).ports = s.ports := rfl
@[simp] theorem State.dropParty_seeds (s : State) (i : Nat) : (s.dropParty i).seeds = s.seeds := rfl
@[simp] theorem State.dropParty_evWait (s : State) (i : Nat) : (s.dropParty i).evWait = s.evWait := rfl
@[simp] theorem State.dropParty_evOpen (s : State) (i : Nat) : (s.dropParty i).evOpen = s.evOpen := rfl
@[simp] theorem State.dropParty_wanted (s : State) (i : Nat) : (s.dropParty i).wanted = s.wanted := rfl
@[simp] theorem State.dropParty_halts (s : State) (i : Nat) : (s.dropParty i).halts = s.halts := rfl
@[simp] theorem State.dropParty_fab (s : State) (i : Nat) : (s.dropParty i).fab = s.fab := rfl
@[simp] theorem State.dropParty_tel (s : State) (i : Nat) : (s.dropParty i).tel = s.tel := rfl
@[simp] theorem State.dropParty_visits (s : State) (i : Nat) : (s.dropParty i).visits = s.visits := rfl
@[simp] theorem State.dropParty_reads (s : State) (i : Nat) : (s.dropParty i).reads = s.reads := rfl
@[simp] theorem State.dropParty_dropped (s : State) (i : Nat) : (s.dropParty i).dropped = s.dropped := rfl

/-! ## A number given out -/

@[simp] theorem State.bump_schedule (s : State) : (s.bump).schedule = s.schedule := rfl
@[simp] theorem State.bump_turn (s : State) : (s.bump).turn = s.turn := rfl
@[simp] theorem State.bump_actor (s : State) : (s.bump).actor = s.actor := rfl
@[simp] theorem State.bump_steps (s : State) : (s.bump).steps = s.steps := rfl
@[simp] theorem State.bump_keys (s : State) : (s.bump).keys = s.keys + 1 := rfl
@[simp] theorem State.bump_free (s : State) : (s.bump).free = s.free := rfl
@[simp] theorem State.bump_out (s : State) : (s.bump).out = s.out := rfl
@[simp] theorem State.bump_ns (s : State) : (s.bump).ns = s.ns := rfl
@[simp] theorem State.bump_devId (s : State) : (s.bump).devId = s.devId := rfl
@[simp] theorem State.bump_mode (s : State) : (s.bump).mode = s.mode := rfl
@[simp] theorem State.bump_regs (s : State) : (s.bump).regs = s.regs := rfl
@[simp] theorem State.bump_boot (s : State) : (s.bump).boot = s.boot := rfl
@[simp] theorem State.bump_parties (s : State) : (s.bump).parties = s.parties := rfl
@[simp] theorem State.bump_cores (s : State) : (s.bump).cores = s.cores := rfl
@[simp] theorem State.bump_stks (s : State) : (s.bump).stks = s.stks := rfl
@[simp] theorem State.bump_teams (s : State) : (s.bump).teams = s.teams := rfl
@[simp] theorem State.bump_grids (s : State) : (s.bump).grids = s.grids := rfl
@[simp] theorem State.bump_lineages (s : State) : (s.bump).lineages = s.lineages := rfl
@[simp] theorem State.bump_bars (s : State) : (s.bump).bars = s.bars := rfl
@[simp] theorem State.bump_net (s : State) : (s.bump).net = s.net := rfl
@[simp] theorem State.bump_mem (s : State) : (s.bump).mem = s.mem := rfl
@[simp] theorem State.bump_tiles (s : State) : (s.bump).tiles = s.tiles := rfl
@[simp] theorem State.bump_tickets (s : State) : (s.bump).tickets = s.tickets := rfl
@[simp] theorem State.bump_ticketPtr (s : State) : (s.bump).ticketPtr = s.ticketPtr := rfl
@[simp] theorem State.bump_locks (s : State) : (s.bump).locks = s.locks := rfl
@[simp] theorem State.bump_frames (s : State) : (s.bump).frames = s.frames := rfl
@[simp] theorem State.bump_versions (s : State) : (s.bump).versions = s.versions := rfl
@[simp] theorem State.bump_engines (s : State) : (s.bump).engines = s.engines := rfl
@[simp] theorem State.bump_poison (s : State) : (s.bump).poison = s.poison := rfl
@[simp] theorem State.bump_consumes (s : State) : (s.bump).consumes = s.consumes := rfl
@[simp] theorem State.bump_clog (s : State) : (s.bump).clog = s.clog := rfl
@[simp] theorem State.bump_clogCount (s : State) : (s.bump).clogCount = s.clogCount := rfl
@[simp] theorem State.bump_ports (s : State) : (s.bump).ports = s.ports := rfl
@[simp] theorem State.bump_seeds (s : State) : (s.bump).seeds = s.seeds := rfl
@[simp] theorem State.bump_evWait (s : State) : (s.bump).evWait = s.evWait := rfl
@[simp] theorem State.bump_evOpen (s : State) : (s.bump).evOpen = s.evOpen := rfl
@[simp] theorem State.bump_wanted (s : State) : (s.bump).wanted = s.wanted := rfl
@[simp] theorem State.bump_halts (s : State) : (s.bump).halts = s.halts := rfl
@[simp] theorem State.bump_fab (s : State) : (s.bump).fab = s.fab := rfl
@[simp] theorem State.bump_tel (s : State) : (s.bump).tel = s.tel := rfl
@[simp] theorem State.bump_visits (s : State) : (s.bump).visits = s.visits := rfl
@[simp] theorem State.bump_reads (s : State) : (s.bump).reads = s.reads := rfl
@[simp] theorem State.bump_dropped (s : State) : (s.bump).dropped = s.dropped := rfl

/-! ## A core written back -/

@[simp] theorem State.setCore_schedule (s : State) (i : Nat) (k : Core) : (s.setCore i k).schedule = s.schedule := rfl
@[simp] theorem State.setCore_turn (s : State) (i : Nat) (k : Core) : (s.setCore i k).turn = s.turn := rfl
@[simp] theorem State.setCore_actor (s : State) (i : Nat) (k : Core) : (s.setCore i k).actor = s.actor := rfl
@[simp] theorem State.setCore_steps (s : State) (i : Nat) (k : Core) : (s.setCore i k).steps = s.steps := rfl
@[simp] theorem State.setCore_keys (s : State) (i : Nat) (k : Core) : (s.setCore i k).keys = s.keys := rfl
@[simp] theorem State.setCore_free (s : State) (i : Nat) (k : Core) : (s.setCore i k).free = s.free := rfl
@[simp] theorem State.setCore_out (s : State) (i : Nat) (k : Core) : (s.setCore i k).out = s.out := rfl
@[simp] theorem State.setCore_ns (s : State) (i : Nat) (k : Core) : (s.setCore i k).ns = s.ns := rfl
@[simp] theorem State.setCore_devId (s : State) (i : Nat) (k : Core) : (s.setCore i k).devId = s.devId := rfl
@[simp] theorem State.setCore_mode (s : State) (i : Nat) (k : Core) : (s.setCore i k).mode = s.mode := rfl
@[simp] theorem State.setCore_regs (s : State) (i : Nat) (k : Core) : (s.setCore i k).regs = s.regs := rfl
@[simp] theorem State.setCore_boot (s : State) (i : Nat) (k : Core) : (s.setCore i k).boot = s.boot := rfl
@[simp] theorem State.setCore_parties (s : State) (i : Nat) (k : Core) : (s.setCore i k).parties = s.parties := rfl
@[simp] theorem State.setCore_stks (s : State) (i : Nat) (k : Core) : (s.setCore i k).stks = s.stks := rfl
@[simp] theorem State.setCore_teams (s : State) (i : Nat) (k : Core) : (s.setCore i k).teams = s.teams := rfl
@[simp] theorem State.setCore_grids (s : State) (i : Nat) (k : Core) : (s.setCore i k).grids = s.grids := rfl
@[simp] theorem State.setCore_lineages (s : State) (i : Nat) (k : Core) : (s.setCore i k).lineages = s.lineages := rfl
@[simp] theorem State.setCore_bars (s : State) (i : Nat) (k : Core) : (s.setCore i k).bars = s.bars := rfl
@[simp] theorem State.setCore_net (s : State) (i : Nat) (k : Core) : (s.setCore i k).net = s.net := rfl
@[simp] theorem State.setCore_mem (s : State) (i : Nat) (k : Core) : (s.setCore i k).mem = s.mem := rfl
@[simp] theorem State.setCore_tiles (s : State) (i : Nat) (k : Core) : (s.setCore i k).tiles = s.tiles := rfl
@[simp] theorem State.setCore_tickets (s : State) (i : Nat) (k : Core) : (s.setCore i k).tickets = s.tickets := rfl
@[simp] theorem State.setCore_ticketPtr (s : State) (i : Nat) (k : Core) : (s.setCore i k).ticketPtr = s.ticketPtr := rfl
@[simp] theorem State.setCore_locks (s : State) (i : Nat) (k : Core) : (s.setCore i k).locks = s.locks := rfl
@[simp] theorem State.setCore_frames (s : State) (i : Nat) (k : Core) : (s.setCore i k).frames = s.frames := rfl
@[simp] theorem State.setCore_versions (s : State) (i : Nat) (k : Core) : (s.setCore i k).versions = s.versions := rfl
@[simp] theorem State.setCore_engines (s : State) (i : Nat) (k : Core) : (s.setCore i k).engines = s.engines := rfl
@[simp] theorem State.setCore_poison (s : State) (i : Nat) (k : Core) : (s.setCore i k).poison = s.poison := rfl
@[simp] theorem State.setCore_consumes (s : State) (i : Nat) (k : Core) : (s.setCore i k).consumes = s.consumes := rfl
@[simp] theorem State.setCore_clog (s : State) (i : Nat) (k : Core) : (s.setCore i k).clog = s.clog := rfl
@[simp] theorem State.setCore_clogCount (s : State) (i : Nat) (k : Core) : (s.setCore i k).clogCount = s.clogCount := rfl
@[simp] theorem State.setCore_ports (s : State) (i : Nat) (k : Core) : (s.setCore i k).ports = s.ports := rfl
@[simp] theorem State.setCore_seeds (s : State) (i : Nat) (k : Core) : (s.setCore i k).seeds = s.seeds := rfl
@[simp] theorem State.setCore_evWait (s : State) (i : Nat) (k : Core) : (s.setCore i k).evWait = s.evWait := rfl
@[simp] theorem State.setCore_evOpen (s : State) (i : Nat) (k : Core) : (s.setCore i k).evOpen = s.evOpen := rfl
@[simp] theorem State.setCore_wanted (s : State) (i : Nat) (k : Core) : (s.setCore i k).wanted = s.wanted := rfl
@[simp] theorem State.setCore_halts (s : State) (i : Nat) (k : Core) : (s.setCore i k).halts = s.halts := rfl
@[simp] theorem State.setCore_fab (s : State) (i : Nat) (k : Core) : (s.setCore i k).fab = s.fab := rfl
@[simp] theorem State.setCore_tel (s : State) (i : Nat) (k : Core) : (s.setCore i k).tel = s.tel := rfl
@[simp] theorem State.setCore_visits (s : State) (i : Nat) (k : Core) : (s.setCore i k).visits = s.visits := rfl
@[simp] theorem State.setCore_reads (s : State) (i : Nat) (k : Core) : (s.setCore i k).reads = s.reads := rfl
@[simp] theorem State.setCore_dropped (s : State) (i : Nat) (k : Core) : (s.setCore i k).dropped = s.dropped := rfl

/-! ## A stack written back -/

@[simp] theorem State.setStk_schedule (s : State) (i : Nat) (k : Stack) : (s.setStk i k).schedule = s.schedule := rfl
@[simp] theorem State.setStk_turn (s : State) (i : Nat) (k : Stack) : (s.setStk i k).turn = s.turn := rfl
@[simp] theorem State.setStk_actor (s : State) (i : Nat) (k : Stack) : (s.setStk i k).actor = s.actor := rfl
@[simp] theorem State.setStk_steps (s : State) (i : Nat) (k : Stack) : (s.setStk i k).steps = s.steps := rfl
@[simp] theorem State.setStk_keys (s : State) (i : Nat) (k : Stack) : (s.setStk i k).keys = s.keys := rfl
@[simp] theorem State.setStk_free (s : State) (i : Nat) (k : Stack) : (s.setStk i k).free = s.free := rfl
@[simp] theorem State.setStk_out (s : State) (i : Nat) (k : Stack) : (s.setStk i k).out = s.out := rfl
@[simp] theorem State.setStk_ns (s : State) (i : Nat) (k : Stack) : (s.setStk i k).ns = s.ns := rfl
@[simp] theorem State.setStk_devId (s : State) (i : Nat) (k : Stack) : (s.setStk i k).devId = s.devId := rfl
@[simp] theorem State.setStk_mode (s : State) (i : Nat) (k : Stack) : (s.setStk i k).mode = s.mode := rfl
@[simp] theorem State.setStk_regs (s : State) (i : Nat) (k : Stack) : (s.setStk i k).regs = s.regs := rfl
@[simp] theorem State.setStk_boot (s : State) (i : Nat) (k : Stack) : (s.setStk i k).boot = s.boot := rfl
@[simp] theorem State.setStk_parties (s : State) (i : Nat) (k : Stack) : (s.setStk i k).parties = s.parties := rfl
@[simp] theorem State.setStk_cores (s : State) (i : Nat) (k : Stack) : (s.setStk i k).cores = s.cores := rfl
@[simp] theorem State.setStk_teams (s : State) (i : Nat) (k : Stack) : (s.setStk i k).teams = s.teams := rfl
@[simp] theorem State.setStk_grids (s : State) (i : Nat) (k : Stack) : (s.setStk i k).grids = s.grids := rfl
@[simp] theorem State.setStk_lineages (s : State) (i : Nat) (k : Stack) : (s.setStk i k).lineages = s.lineages := rfl
@[simp] theorem State.setStk_bars (s : State) (i : Nat) (k : Stack) : (s.setStk i k).bars = s.bars := rfl
@[simp] theorem State.setStk_net (s : State) (i : Nat) (k : Stack) : (s.setStk i k).net = s.net := rfl
@[simp] theorem State.setStk_mem (s : State) (i : Nat) (k : Stack) : (s.setStk i k).mem = s.mem := rfl
@[simp] theorem State.setStk_tiles (s : State) (i : Nat) (k : Stack) : (s.setStk i k).tiles = s.tiles := rfl
@[simp] theorem State.setStk_tickets (s : State) (i : Nat) (k : Stack) : (s.setStk i k).tickets = s.tickets := rfl
@[simp] theorem State.setStk_ticketPtr (s : State) (i : Nat) (k : Stack) : (s.setStk i k).ticketPtr = s.ticketPtr := rfl
@[simp] theorem State.setStk_locks (s : State) (i : Nat) (k : Stack) : (s.setStk i k).locks = s.locks := rfl
@[simp] theorem State.setStk_frames (s : State) (i : Nat) (k : Stack) : (s.setStk i k).frames = s.frames := rfl
@[simp] theorem State.setStk_versions (s : State) (i : Nat) (k : Stack) : (s.setStk i k).versions = s.versions := rfl
@[simp] theorem State.setStk_engines (s : State) (i : Nat) (k : Stack) : (s.setStk i k).engines = s.engines := rfl
@[simp] theorem State.setStk_poison (s : State) (i : Nat) (k : Stack) : (s.setStk i k).poison = s.poison := rfl
@[simp] theorem State.setStk_consumes (s : State) (i : Nat) (k : Stack) : (s.setStk i k).consumes = s.consumes := rfl
@[simp] theorem State.setStk_clog (s : State) (i : Nat) (k : Stack) : (s.setStk i k).clog = s.clog := rfl
@[simp] theorem State.setStk_clogCount (s : State) (i : Nat) (k : Stack) : (s.setStk i k).clogCount = s.clogCount := rfl
@[simp] theorem State.setStk_ports (s : State) (i : Nat) (k : Stack) : (s.setStk i k).ports = s.ports := rfl
@[simp] theorem State.setStk_seeds (s : State) (i : Nat) (k : Stack) : (s.setStk i k).seeds = s.seeds := rfl
@[simp] theorem State.setStk_evWait (s : State) (i : Nat) (k : Stack) : (s.setStk i k).evWait = s.evWait := rfl
@[simp] theorem State.setStk_evOpen (s : State) (i : Nat) (k : Stack) : (s.setStk i k).evOpen = s.evOpen := rfl
@[simp] theorem State.setStk_wanted (s : State) (i : Nat) (k : Stack) : (s.setStk i k).wanted = s.wanted := rfl
@[simp] theorem State.setStk_halts (s : State) (i : Nat) (k : Stack) : (s.setStk i k).halts = s.halts := rfl
@[simp] theorem State.setStk_fab (s : State) (i : Nat) (k : Stack) : (s.setStk i k).fab = s.fab := rfl
@[simp] theorem State.setStk_tel (s : State) (i : Nat) (k : Stack) : (s.setStk i k).tel = s.tel := rfl
@[simp] theorem State.setStk_visits (s : State) (i : Nat) (k : Stack) : (s.setStk i k).visits = s.visits := rfl
@[simp] theorem State.setStk_reads (s : State) (i : Nat) (k : Stack) : (s.setStk i k).reads = s.reads := rfl
@[simp] theorem State.setStk_dropped (s : State) (i : Nat) (k : Stack) : (s.setStk i k).dropped = s.dropped := rfl

/-! ## A lineage written back -/

@[simp] theorem State.setLineage_schedule (s : State) (i : Nat) (x : Lineage) : (s.setLineage i x).schedule = s.schedule := rfl
@[simp] theorem State.setLineage_turn (s : State) (i : Nat) (x : Lineage) : (s.setLineage i x).turn = s.turn := rfl
@[simp] theorem State.setLineage_actor (s : State) (i : Nat) (x : Lineage) : (s.setLineage i x).actor = s.actor := rfl
@[simp] theorem State.setLineage_steps (s : State) (i : Nat) (x : Lineage) : (s.setLineage i x).steps = s.steps := rfl
@[simp] theorem State.setLineage_keys (s : State) (i : Nat) (x : Lineage) : (s.setLineage i x).keys = s.keys := rfl
@[simp] theorem State.setLineage_free (s : State) (i : Nat) (x : Lineage) : (s.setLineage i x).free = s.free := rfl
@[simp] theorem State.setLineage_out (s : State) (i : Nat) (x : Lineage) : (s.setLineage i x).out = s.out := rfl
@[simp] theorem State.setLineage_ns (s : State) (i : Nat) (x : Lineage) : (s.setLineage i x).ns = s.ns := rfl
@[simp] theorem State.setLineage_devId (s : State) (i : Nat) (x : Lineage) : (s.setLineage i x).devId = s.devId := rfl
@[simp] theorem State.setLineage_mode (s : State) (i : Nat) (x : Lineage) : (s.setLineage i x).mode = s.mode := rfl
@[simp] theorem State.setLineage_regs (s : State) (i : Nat) (x : Lineage) : (s.setLineage i x).regs = s.regs := rfl
@[simp] theorem State.setLineage_boot (s : State) (i : Nat) (x : Lineage) : (s.setLineage i x).boot = s.boot := rfl
@[simp] theorem State.setLineage_parties (s : State) (i : Nat) (x : Lineage) : (s.setLineage i x).parties = s.parties := rfl
@[simp] theorem State.setLineage_cores (s : State) (i : Nat) (x : Lineage) : (s.setLineage i x).cores = s.cores := rfl
@[simp] theorem State.setLineage_stks (s : State) (i : Nat) (x : Lineage) : (s.setLineage i x).stks = s.stks := rfl
@[simp] theorem State.setLineage_teams (s : State) (i : Nat) (x : Lineage) : (s.setLineage i x).teams = s.teams := rfl
@[simp] theorem State.setLineage_grids (s : State) (i : Nat) (x : Lineage) : (s.setLineage i x).grids = s.grids := rfl
@[simp] theorem State.setLineage_lineages (s : State) (i : Nat) (x : Lineage) : (s.setLineage i x).lineages = Map.put s.lineages i x Lineage.init := rfl
@[simp] theorem State.setLineage_bars (s : State) (i : Nat) (x : Lineage) : (s.setLineage i x).bars = s.bars := rfl
@[simp] theorem State.setLineage_net (s : State) (i : Nat) (x : Lineage) : (s.setLineage i x).net = s.net := rfl
@[simp] theorem State.setLineage_mem (s : State) (i : Nat) (x : Lineage) : (s.setLineage i x).mem = s.mem := rfl
@[simp] theorem State.setLineage_tiles (s : State) (i : Nat) (x : Lineage) : (s.setLineage i x).tiles = s.tiles := rfl
@[simp] theorem State.setLineage_tickets (s : State) (i : Nat) (x : Lineage) : (s.setLineage i x).tickets = s.tickets := rfl
@[simp] theorem State.setLineage_ticketPtr (s : State) (i : Nat) (x : Lineage) : (s.setLineage i x).ticketPtr = s.ticketPtr := rfl
@[simp] theorem State.setLineage_locks (s : State) (i : Nat) (x : Lineage) : (s.setLineage i x).locks = s.locks := rfl
@[simp] theorem State.setLineage_frames (s : State) (i : Nat) (x : Lineage) : (s.setLineage i x).frames = s.frames := rfl
@[simp] theorem State.setLineage_versions (s : State) (i : Nat) (x : Lineage) : (s.setLineage i x).versions = s.versions := rfl
@[simp] theorem State.setLineage_engines (s : State) (i : Nat) (x : Lineage) : (s.setLineage i x).engines = s.engines := rfl
@[simp] theorem State.setLineage_poison (s : State) (i : Nat) (x : Lineage) : (s.setLineage i x).poison = s.poison := rfl
@[simp] theorem State.setLineage_consumes (s : State) (i : Nat) (x : Lineage) : (s.setLineage i x).consumes = s.consumes := rfl
@[simp] theorem State.setLineage_clog (s : State) (i : Nat) (x : Lineage) : (s.setLineage i x).clog = s.clog := rfl
@[simp] theorem State.setLineage_clogCount (s : State) (i : Nat) (x : Lineage) : (s.setLineage i x).clogCount = s.clogCount := rfl
@[simp] theorem State.setLineage_ports (s : State) (i : Nat) (x : Lineage) : (s.setLineage i x).ports = s.ports := rfl
@[simp] theorem State.setLineage_seeds (s : State) (i : Nat) (x : Lineage) : (s.setLineage i x).seeds = s.seeds := rfl
@[simp] theorem State.setLineage_evWait (s : State) (i : Nat) (x : Lineage) : (s.setLineage i x).evWait = s.evWait := rfl
@[simp] theorem State.setLineage_evOpen (s : State) (i : Nat) (x : Lineage) : (s.setLineage i x).evOpen = s.evOpen := rfl
@[simp] theorem State.setLineage_wanted (s : State) (i : Nat) (x : Lineage) : (s.setLineage i x).wanted = s.wanted := rfl
@[simp] theorem State.setLineage_halts (s : State) (i : Nat) (x : Lineage) : (s.setLineage i x).halts = s.halts := rfl
@[simp] theorem State.setLineage_fab (s : State) (i : Nat) (x : Lineage) : (s.setLineage i x).fab = s.fab := rfl
@[simp] theorem State.setLineage_tel (s : State) (i : Nat) (x : Lineage) : (s.setLineage i x).tel = s.tel := rfl
@[simp] theorem State.setLineage_visits (s : State) (i : Nat) (x : Lineage) : (s.setLineage i x).visits = s.visits := rfl
@[simp] theorem State.setLineage_reads (s : State) (i : Nat) (x : Lineage) : (s.setLineage i x).reads = s.reads := rfl
@[simp] theorem State.setLineage_dropped (s : State) (i : Nat) (x : Lineage) : (s.setLineage i x).dropped = s.dropped := rfl

/-! ## Parties and bundles -/

@[simp] theorem State.party?_setParty_self (s : State) (i : Nat) (p : Party) : (s.setParty i p).party? i = some p :=
  Map.find_insert_self _ _ _

theorem State.party?_setParty_ne (s : State) (i j : Nat) (p : Party) (h : j ≠ i) :
    (s.setParty i p).party? j = s.party? j := Map.find_insert_ne _ _ _ _ h

@[simp] theorem Party.setBundle_partyId (p : Party) (b : Bundle) : (p.setBundle b).partyId = p.partyId := rfl
@[simp] theorem Party.setBundle_teamId (p : Party) (b : Bundle) : (p.setBundle b).teamId = p.teamId := rfl
@[simp] theorem Party.setBundle_gridId (p : Party) (b : Bundle) : (p.setBundle b).gridId = p.gridId := rfl
@[simp] theorem Party.setBundle_launchId (p : Party) (b : Bundle) : (p.setBundle b).launchId = p.launchId := rfl
@[simp] theorem Party.setBundle_lineage (p : Party) (b : Bundle) : (p.setBundle b).lineage = p.lineage := rfl
@[simp] theorem Party.setBundle_asid (p : Party) (b : Bundle) : (p.setBundle b).asid = p.asid := rfl
@[simp] theorem Party.setBundle_originDev (p : Party) (b : Bundle) : (p.setBundle b).originDev = p.originDev := rfl
@[simp] theorem Party.setBundle_originCore (p : Party) (b : Bundle) : (p.setBundle b).originCore = p.originCore := rfl
@[simp] theorem Party.setBundle_depth (p : Party) (b : Bundle) : (p.setBundle b).depth = p.depth := rfl
@[simp] theorem Party.setBundle_priority (p : Party) (b : Bundle) : (p.setBundle b).priority = p.priority := rfl
@[simp] theorem Party.setBundle_power (p : Party) (b : Bundle) : (p.setBundle b).power = p.power := rfl
@[simp] theorem Party.setBundle_winSize (p : Party) (b : Bundle) : (p.setBundle b).winSize = p.winSize := rfl
@[simp] theorem Party.setBundle_wstack (p : Party) (b : Bundle) : (p.setBundle b).wstack = p.wstack := rfl
@[simp] theorem Party.setBundle_seed (p : Party) (b : Bundle) : (p.setBundle b).seed = p.seed := rfl
@[simp] theorem Party.setBundle_handler (p : Party) (b : Bundle) : (p.setBundle b).handler = p.handler := rfl
@[simp] theorem Party.setBundle_place (p : Party) (b : Bundle) : (p.setBundle b).place = p.place := rfl
@[simp] theorem Party.setBundle_vregs (p : Party) (b : Bundle) : (p.setBundle b).vregs = p.vregs := rfl
@[simp] theorem Party.setBundle_dirty (p : Party) (b : Bundle) : (p.setBundle b).dirty = p.dirty := rfl
@[simp] theorem Party.setBundle_lanes (p : Party) (b : Bundle) : (p.setBundle b).lanes = p.lanes := rfl
@[simp] theorem Party.setBundle_scal (p : Party) (b : Bundle) : (p.setBundle b).scal = p.scal := rfl
@[simp] theorem Party.setBundle_hand (p : Party) (b : Bundle) : (p.setBundle b).hand = p.hand := rfl
@[simp] theorem Party.setBundle_cb (p : Party) (b : Bundle) : (p.setBundle b).cb = p.cb := rfl
@[simp] theorem Party.setBundle_fpflags (p : Party) (b : Bundle) : (p.setBundle b).fpflags = p.fpflags := rfl
@[simp] theorem Party.setBundle_limbCtl (p : Party) (b : Bundle) : (p.setBundle b).limbCtl = p.limbCtl := rfl
@[simp] theorem Party.setBundle_limbFlags (p : Party) (b : Bundle) : (p.setBundle b).limbFlags = p.limbFlags := rfl
@[simp] theorem Party.setBundle_wseq (p : Party) (b : Bundle) : (p.setBundle b).wseq = p.wseq := rfl
@[simp] theorem Party.setBundle_frame (p : Party) (b : Bundle) : (p.setBundle b).frame = p.frame := rfl
@[simp] theorem Party.setBundle_rngLo (p : Party) (b : Bundle) : (p.setBundle b).rngLo = p.rngLo := rfl
@[simp] theorem Party.setBundle_rngHi (p : Party) (b : Bundle) : (p.setBundle b).rngHi = p.rngHi := rfl
@[simp] theorem Party.setBundle_rngStream (p : Party) (b : Bundle) : (p.setBundle b).rngStream = p.rngStream := rfl
@[simp] theorem Party.setBundle_trap (p : Party) (b : Bundle) : (p.setBundle b).trap = p.trap := rfl
@[simp] theorem Party.setBundle_nested (p : Party) (b : Bundle) : (p.setBundle b).nested = p.nested := rfl
@[simp] theorem Party.setBundle_spillPos (p : Party) (b : Bundle) : (p.setBundle b).spillPos = p.spillPos := rfl
@[simp] theorem Party.setBundle_rejoin (p : Party) (b : Bundle) : (p.setBundle b).rejoin = p.rejoin := rfl
@[simp] theorem Party.setBundle_pend (p : Party) (b : Bundle) : (p.setBundle b).pend = p.pend := rfl
@[simp] theorem Party.setBundle_fenceW (p : Party) (b : Bundle) : (p.setBundle b).fenceW = p.fenceW := rfl
@[simp] theorem Party.setBundle_fenceR (p : Party) (b : Bundle) : (p.setBundle b).fenceR = p.fenceR := rfl
@[simp] theorem Party.setBundle_poison (p : Party) (b : Bundle) : (p.setBundle b).poison = p.poison := rfl
@[simp] theorem Party.setBundle_readyAt (p : Party) (b : Bundle) : (p.setBundle b).readyAt = p.readyAt := rfl
@[simp] theorem Party.setBundle_beganAt (p : Party) (b : Bundle) : (p.setBundle b).beganAt = p.beganAt := rfl
@[simp] theorem Party.setBundle_level (p : Party) (b : Bundle) : (p.setBundle b).level = p.level := rfl
@[simp] theorem Party.setBundle_starving (p : Party) (b : Bundle) : (p.setBundle b).starving = p.starving := rfl
@[simp] theorem Party.setBundle_blockedAt (p : Party) (b : Bundle) : (p.setBundle b).blockedAt = p.blockedAt := rfl
@[simp] theorem Party.setBundle_formedAt (p : Party) (b : Bundle) : (p.setBundle b).formedAt = p.formedAt := rfl
@[simp] theorem Party.setBundle_homeCore (p : Party) (b : Bundle) : (p.setBundle b).homeCore = p.homeCore := rfl
@[simp] theorem Party.setBundle_returned (p : Party) (b : Bundle) : (p.setBundle b).returned = p.returned := rfl
@[simp] theorem Party.setBundle_recQ (p : Party) (b : Bundle) : (p.setBundle b).recQ = p.recQ := rfl
@[simp] theorem Party.setBundle_live (p : Party) (b : Bundle) : (p.setBundle b).live = p.live := rfl
@[simp] theorem Party.setBundle_stopBy (p : Party) (b : Bundle) : (p.setBundle b).stopBy = p.stopBy := rfl
@[simp] theorem Party.setBundle_haltBy (p : Party) (b : Bundle) : (p.setBundle b).haltBy = p.haltBy := rfl
@[simp] theorem Party.setBundle_wantPark (p : Party) (b : Bundle) : (p.setBundle b).wantPark = p.wantPark := rfl
@[simp] theorem Party.setBundle_qAt (p : Party) (b : Bundle) : (p.setBundle b).qAt = p.qAt := rfl
@[simp] theorem Party.setBundle_flagAt (p : Party) (b : Bundle) : (p.setBundle b).flagAt = p.flagAt := rfl
@[simp] theorem Party.setBundle_behind (p : Party) (b : Bundle) : (p.setBundle b).behind = p.behind := rfl
@[simp] theorem Party.setBundle_counted (p : Party) (b : Bundle) : (p.setBundle b).counted = p.counted := rfl

/-- A bundle that the party has is found as written. -/
theorem Party.bundle?_setBundle (p : Party) (b x : Bundle) (h : p.bundle? b.id = some x) :
    (p.setBundle b).bundle? b.id = some b := by
  unfold Party.bundle? at h
  unfold Party.bundle? Party.setBundle mapWhere
  dsimp only
  revert h
  induction p.bundles with
  | nil => intro h; cases h
  | cons y l ih =>
    intro h
    by_cases hy : y.id = b.id
    · simp [hy]
    · simp only [List.find?_cons, hy, decide_false] at h
      simp only [List.map_cons, List.find?_cons, hy, decide_false, Bool.false_eq_true, if_false]
      exact ih h

end Sys2Proof.Machine
end

