-- ==== Sys2Proof/Laws/Issue.lean ====
section
/-!
SUPPORT. Laws of the issue of a word: what issuing can do, said once, and how the shapes that the families share come down
to it.
-/

namespace Sys2Proof.Machine

open Host Sys2Proof.Safety

/-! ## The context -/

/-- The context of a bundle in execution belongs to the state it was taken from. -/
theorem ctx?_eq {s : State} {c : Ctx} (h : s.ctx? = some c) :
    c.s = s ∧ s.actor = .bundle c.pid c.b.id ∧ s.party? c.pid = some c.p ∧ c.p.bundle? c.b.id = some c.b ∧
      c.b.run = some c.r ∧ c.core = c.p.core ∧ c.act = [] := by
  unfold State.ctx? at h
  split at h
  · rename_i pid bid ha
    split at h
    · cases h
    · rename_i p hp
      split at h
      · cases h
      · rename_i b hb
        split at h
        · cases h
        · rename_i r hr
          cases h
          have hid : b.id = bid := by
            have := List.find?_some hb
            simpa using this
          subst hid
          exact ⟨rfl, ha, hp, hb, hr, rfl, rfl⟩
  · cases h

/-- What an issue context says of the state. -/
theorem issueCtx_eq {s : State} {g : BitVec 4} {c : Ctx} (h : issueCtx s g = some c) :
    ∃ c0, s.ctx? = some c0 ∧ c0.canIssue = true ∧ c0.r.skip ≠ some c0.here ∧ c0.word.govr.getD g ≠ 15 ∧
      c = { c0 with act := c0.guarded (c0.word.govr.getD g) } := by
  unfold issueCtx at h
  split at h
  · cases h
  · rename_i c0 hc
    split at h
    · cases h
    · rename_i hn
      simp only [not_or] at hn
      cases h
      exact ⟨c0, hc, by simpa using hn.1, hn.2.1, hn.2.2, rfl⟩

theorem issueCtx_s {s : State} {g : BitVec 4} {c : Ctx} (h : issueCtx s g = some c) : c.s = s := by
  obtain ⟨c0, h0, -, -, -, rfl⟩ := issueCtx_eq h
  exact (ctx?_eq h0).1

/-- Lanes of a mask are below 64 and listed once. -/
theorem lanesOf_lt {m : DWord} {l : Nat} (h : l ∈ lanesOf m) : l < 64 := by
  unfold lanesOf at h
  simpa using (List.mem_filter.mp h).1

theorem lanesOf_nodup (m : DWord) : (lanesOf m).Nodup := List.nodup_range.filter _

theorem act_lt {s : State} {g : BitVec 4} {c : Ctx} (h : issueCtx s g = some c) {l : Nat} (hl : l ∈ c.act) : l < 64 := by
  obtain ⟨c0, -, -, -, -, rfl⟩ := issueCtx_eq h
  exact lanesOf_lt (List.mem_of_mem_filter hl)

theorem act_nodup {s : State} {g : BitVec 4} {c : Ctx} (h : issueCtx s g = some c) : c.act.Nodup := by
  obtain ⟨c0, -, -, -, -, rfl⟩ := issueCtx_eq h
  exact (lanesOf_nodup _).filter _

/-! ## Issuing -/

/-- A word whose operands are clear does what its checks and its effect say. -/
theorem issue_clear {s : State} {g : BitVec 4} {args : List Arg} {c : Ctx} (h : Issues s g args c) (pre : Ctx → Pre)
    (eff : Ctx → Res) :
    issue s g args pre eff =
      match pre c with
      | .traps ts => .next (s.raise c.pid c.b.id ts c.here false)
      | .hold t => .next t
      | .go =>
        match eff (c.markLast args) with
        | .done c' => .next c'.advance
        | .stay t => .next t := by
  obtain ⟨hc, hcl⟩ := h
  obtain ⟨c0, h0, hcan, hskip, hg, rfl⟩ := issueCtx_eq hc
  simp only [clear, Bool.and_eq_true, decide_eq_true_eq, Bool.not_eq_true', List.isEmpty_iff] at hcl
  obtain ⟨⟨⟨⟨hact, hargs⟩, hmod⟩, hst⟩, hpo⟩ := hcl
  unfold issue
  simp only [h0, hcan, hskip, Bool.not_true, Bool.false_eq_true, if_false]
  rw [if_neg (by simp only [not_or]; exact ⟨hg, by simpa using hargs⟩),
    if_neg (by simp only [not_and_or]; left; simpa using hmod), if_neg (by simpa using hst), if_neg (by simpa using hpo)]
  rewrite [if_neg hact, if_neg hact]
  rfl

/-- The word goes ahead and executes. -/
theorem issue_done {s : State} {g : BitVec 4} {args : List Arg} {c c' : Ctx} (h : Issues s g args c) {pre : Ctx → Pre}
    {eff : Ctx → Res} (hp : pre c = .go) (he : eff (c.markLast args) = .done c') :
    issue s g args pre eff = .next c'.advance := by
  rw [issue_clear h, hp]; simp only [he]

/-- The word traps. -/
theorem issue_traps {s : State} {g : BitVec 4} {args : List Arg} {c : Ctx} (h : Issues s g args c) {pre : Ctx → Pre}
    {eff : Ctx → Res} {ts : List Trap} (hp : pre c = .traps ts) :
    issue s g args pre eff = .next (s.raise c.pid c.b.id ts c.here false) := by
  rw [issue_clear h, hp]

/-- A word whose operands depend on hints. -/
theorem issueBy_eq {s : State} {c0 : Ctx} (h : s.ctx? = some c0) (g : BitVec 4) (args : Ctx → List Arg) (pre : Ctx → Pre)
    (eff : Ctx → Res) : issueBy s g args pre eff = issue s g (args c0) pre eff := by
  unfold issueBy; rw [h]

/-- Everything that issuing a word can do. -/
theorem issue_cases (s : State) (g : BitVec 4) (args : List Arg) (pre : Ctx → Pre) (eff : Ctx → Res) :
    (s.ctx? = none ∧ issue s g args pre eff = .fault .noActor) ∨
    (∃ c ts, s.ctx? = some c ∧ issue s g args pre eff = .next (s.raise c.pid c.b.id ts c.here false)) ∨
    (∃ c, s.ctx? = some c ∧ issue s g args pre eff = .next c.stall) ∨
    (∃ c l, s.ctx? = some c ∧ issue s g args pre eff = .next (c.consume l)) ∨
    (∃ c t, pre c = .hold t ∧ issue s g args pre eff = .next t) ∨
    (∃ c t, eff c = .stay t ∧ issue s g args pre eff = .next t) ∨
    (∃ c c', eff c = .done c' ∧ issue s g args pre eff = .next c'.advance) ∨
    (∃ c l, s.ctx? = some c ∧ issue s g args pre eff = .next ({ c with act := l } : Ctx).passLive.advance) ∨
    (∃ c, s.ctx? = some c ∧ issue s g args pre eff = .next c.passLive.advance) ∨
    issue s g args pre eff = .next s := by
  generalize hr : issue s g args pre eff = r
  unfold issue at hr
  cases hc : s.ctx? with
  | none => rw [hc] at hr; exact .inl ⟨rfl, hr.symm⟩
  | some c0 =>
    rw [hc] at hr
    dsimp only at hr
    split at hr
    · simp only [← hr, or_true]
    split at hr
    · exact .inr (.inr (.inr (.inr (.inr (.inr (.inr (.inr (.inl ⟨c0, rfl, hr.symm⟩))))))))
    split at hr
    · exact .inr (.inl ⟨c0, _, rfl, hr.symm⟩)
    split at hr
    · exact .inr (.inl ⟨c0, _, rfl, hr.symm⟩)
    split at hr
    · exact .inr (.inr (.inl ⟨_, rfl, hr.symm⟩))
    split at hr
    · exact .inr (.inr (.inr (.inl ⟨_, _, rfl, hr.symm⟩)))
    split at hr
    · exact .inr (.inl ⟨c0, _, rfl, hr.symm⟩)
    · rename_i hp
      split at hp
      · cases hp
      · exact .inr (.inr (.inr (.inr (.inl ⟨_, _, hp, hr.symm⟩))))
    · split at hr
      · exact .inr (.inr (.inr (.inr (.inr (.inr (.inr (.inl ⟨c0, _, rfl, hr.symm⟩)))))))
      · split at hr
        · exact .inr (.inr (.inr (.inr (.inr (.inr (.inl ⟨_, _, ‹_›, hr.symm⟩))))))
        · exact .inr (.inr (.inr (.inr (.inr (.inl ⟨_, _, ‹_›, hr.symm⟩)))))

end Sys2Proof.Machine
end

