-- ==== Sys2Proof/Laws/Lanes.lean ====
section
/-!
SUPPORT. Laws of the writes of a run: what a register write, a push and a condition leave, and what working through the
active lanes amounts to.
-/

namespace Sys2Proof.Machine

open Host Sys2Proof.Safety

/-! ## One lane -/

/-- What a step of lane `l` has left: the writes `ws`, the predicates `p`, the added conditions `fl`. -/
structure LaneStep (d d' : Ctx) (l : Nat) (ws : List (Nat × Word)) (p : BitVec 16) (fl : BitVec 16) : Prop where
  regs  : ∀ k, d'.atKey k = if k % 64 = l then written d l ws k (d.atKey k) else d.atKey k
  preds : ∀ j, d'.preds j = if j = l then p else d.preds j
  flags : ∀ k, Map.getD d'.r.ov.fp k 0 =
    if k / 64 = d.r.ov.fpEpoch ∧ k % 64 = l then Map.getD d.r.ov.fp k 0 ||| fl else Map.getD d.r.ov.fp k 0
  ops   : opShape d d'.p.pend = opShape d d.p.pend
  rest  : d' = { d with
            p := { d.p with pend := d'.p.pend },
            r := { d.r with ov := { d.r.ov with
              v := d'.r.ov.v, preds := d'.r.ov.preds, fp := d'.r.ov.fp, marks := d'.r.ov.marks } } }

theorem regKey_lane {r l : Nat} (h : l < 64) : regKey r l % 64 = l := by unfold regKey; omega

/-- Nothing done. -/
theorem LaneStep.refl (d : Ctx) (l : Nat) : LaneStep d d l [] (d.preds l) 0 where
  regs _ := by simp [written]
  preds j := by split <;> simp [*]
  flags j := by split <;> simp
  ops := rfl
  rest := rfl

theorem LaneStep.wbOf {d d' : Ctx} {l : Nat} {ws : List (Nat × Word)} {p fl : BitVec 16} (h : LaneStep d d' l ws p fl)
    (j : Nat) : d'.wbOf j = d.wbOf j := by rw [h.rest]; rfl

theorem LaneStep.regOf {d d' : Ctx} {l : Nat} {ws : List (Nat × Word)} {p fl : BitVec 16} (h : LaneStep d d' l ws p fl)
    (n j : Nat) : d'.regOf n j = d.regOf n j := by unfold Ctx.regOf; rw [h.wbOf]

theorem LaneStep.written {d d' : Ctx} {l : Nat} {ws : List (Nat × Word)} {p fl : BitVec 16} (h : LaneStep d d' l ws p fl)
    (j : Nat) (vs : List (Nat × Word)) (k : Nat) (x : Word) : written d' j vs k x = written d j vs k x := by
  unfold Safety.written; simp only [h.regOf]

/-- A step of a lane writes no FPFLAGS. -/
theorem LaneStep.fpEpoch {d d' : Ctx} {l : Nat} {ws : List (Nat × Word)} {p fl : BitVec 16} (h : LaneStep d d' l ws p fl) :
    d'.r.ov.fpEpoch = d.r.ov.fpEpoch := by rw [h.rest]; rfl

/-- Whether an operation blocks depends on the bundle alone. -/
theorem LaneStep.opBlocks {d d' : Ctx} {l : Nat} {ws : List (Nat × Word)} {p fl : BitVec 16} (h : LaneStep d d' l ws p fl) :
    d'.opBlocks = d.opBlocks := by rw [h.rest]; rfl

theorem LaneStep.opShape {d d' : Ctx} {l : Nat} {ws : List (Nat × Word)} {p fl : BitVec 16} (h : LaneStep d d' l ws p fl)
    (o : List PendOp) : opShape d' o = opShape d o := by unfold Safety.opShape; rw [h.opBlocks]

/-- Two steps of one lane. -/
theorem LaneStep.trans {d d1 d2 : Ctx} {l : Nat} {w1 w2 : List (Nat × Word)} {p1 p2 f1 f2 : BitVec 16}
    (h1 : LaneStep d d1 l w1 p1 f1) (h2 : LaneStep d1 d2 l w2 p2 f2) : LaneStep d d2 l (w1 ++ w2) p2 (f1 ||| f2) where
  regs k := by
    rw [h2.regs, h1.written]
    split
    · rw [h1.regs, if_pos ‹_›]; unfold Safety.written; rw [List.foldl_append]
    · rw [h1.regs, if_neg ‹_›]
  preds j := by rw [h2.preds]; split; · rfl
                rw [h1.preds, if_neg ‹_›]
  flags j := by
    rw [h2.flags, h1.fpEpoch]
    split
    · rw [h1.flags, if_pos ‹_›, BitVec.or_assoc]
    · rw [h1.flags, if_neg ‹_›]
  ops := by
    have := h2.ops
    rw [h1.opShape, h1.opShape] at this
    rw [this, h1.ops]
  rest := by
    rw [h2.rest]
    have := h1.rest
    generalize d2.p.pend = a
    generalize d2.r.ov.v = b
    generalize d2.r.ov.preds = e
    generalize d2.r.ov.fp = f
    generalize d2.r.ov.marks = g
    rw [this]

/-- Discarding late results changes nothing that a word reads. -/
theorem cutLate_shape (d : Ctx) (f : Dest → Bool) : opShape d (d.cutLate f).p.pend = opShape d d.p.pend := by
  unfold opShape Ctx.cutLate
  dsimp only
  rw [List.map_map]
  apply List.map_congr_left
  intro o _
  simp only [Function.comp, Ctx.opBlocks]
  by_cases h : (o.late && !o.committed && decide (o.bundle = d.b.id)) = true
  · simp only [h, if_true, Bool.not_true, Bool.false_eq_true, if_false]
  · simp only [Bool.not_eq_true] at h
    simp only [h, Bool.not_false, if_true, Bool.false_eq_true, if_false]

/-- A read of a register after a write of one. -/
theorem atKey_setReg (d : Ctx) (r l k : Nat) (x : Word) :
    (d.setReg r l x).atKey k = if k = regKey r l then x else d.atKey k := by
  show (match Map.find (Map.insert d.r.ov.v (regKey r l) x) k with
    | some x => x
    | none => if k < tempBase * 64 then Map.getD d.p.vregs k 0 else 0) = _
  rw [Map.find_insert]
  by_cases h : k = regKey r l
  · rw [if_pos h, if_pos h]
  · rw [if_neg h, if_neg h]; rfl

/-- The write of a register by code; code 60 and above writes none (R139). -/
theorem LaneStep.setV (d : Ctx) (n l : Nat) (x : Word) (hl : l < 64) :
    LaneStep d (d.setV n l x) l [(n, x)] (d.preds l) 0 := by
  unfold Ctx.setV
  split
  · rename_i hn
    refine ⟨fun k => ?_, fun j => ?_, fun j => ?_, cutLate_shape d _, rfl⟩
    · rw [atKey_setReg]
      simp only [Safety.written, List.foldl_cons, List.foldl_nil, hn, true_and]
      by_cases hk : k = regKey (d.regOf n l) l
      · simp [hk, regKey_lane hl]
      · have hk' : ¬ regKey (d.regOf n l) l = k := fun h => hk h.symm
        simp [hk, hk']
    · show d.preds j = _; split <;> simp [*]
    · show Map.getD d.r.ov.fp j 0 = _; split <;> simp
  · rename_i hn
    have h := LaneStep.refl d l
    refine ⟨fun k => ?_, h.preds, h.flags, h.ops, h.rest⟩
    simp [Safety.written, hn]

/-- The write of a result of width `w`. -/
theorem LaneStep.setOp (d : Ctx) (w n l x : Nat) (hl : l < 64) :
    LaneStep d (d.setOp w n l x) l (outWords w n x) (d.preds l) 0 := by
  unfold Ctx.setOp outWords
  split
  · unfold Ctx.setV64
    split
    · rename_i hn
      have h1 := LaneStep.setV d n l ((BitVec.ofNat 64 x).setWidth 32) hl
      have h2 := LaneStep.setV (d.setV n l ((BitVec.ofNat 64 x).setWidth 32)) (n + 1) l (field (BitVec.ofNat 64 x) 32 32) hl
      have h := h1.trans h2
      have hp : (d.setV n l ((BitVec.ofNat 64 x).setWidth 32)).preds l = d.preds l := by rw [h1.preds]; simp
      have hx : (BitVec.ofNat 64 x).setWidth 32 = BitVec.ofNat 32 x := by
        apply BitVec.eq_of_toNat_eq
        simp only [BitVec.toNat_setWidth, BitVec.toNat_ofNat]
        rw [Nat.mod_mod_of_dvd _ (by norm_num)]
      have hy : field (BitVec.ofNat 64 x) 32 32 = BitVec.ofNat 32 (x / 2 ^ 32) := by
        apply BitVec.eq_of_toNat_eq
        simp only [field, BitVec.extractLsb'_toNat, BitVec.toNat_ofNat, Nat.shiftRight_eq_div_pow]
        omega
      rw [hp, show (0 : BitVec 16) ||| 0 = 0 from rfl] at h
      rw [hx, hy] at h
      rw [hx, hy]
      exact h
    · rename_i hn
      have h := LaneStep.refl d l
      refine ⟨fun k => ?_, h.preds, h.flags, h.ops, h.rest⟩
      have hn2 : ¬ n + 1 < 60 := by omega
      simp [Safety.written, hn, hn2]
  · exact LaneStep.setV d n l _ hl

/-- Conditions added. -/
theorem LaneStep.addFp (d : Ctx) (l : Nat) (f : BitVec 16) (hl : l < 64) :
    LaneStep d (d.addFp l f) l [] (d.preds l) f := by
  unfold Ctx.addFp
  split
  · subst_vars; exact LaneStep.refl d l
  · refine ⟨fun k => ?_, fun j => ?_, fun j => ?_, rfl, rfl⟩
    · simp [Safety.written]; rfl
    · show d.preds j = _; split <;> simp [*]
    · simp only [Map.getD_insert]
      by_cases hj : j = d.r.ov.fpEpoch * 64 + l
      · rw [if_pos hj, if_pos ⟨by omega, by omega⟩, hj]
      · rw [if_neg hj, if_neg (by omega)]

/-- The predicates of a lane replaced. -/
theorem LaneStep.setPreds (d : Ctx) (l : Nat) (x : BitVec 16) : LaneStep d (d.setPreds l x) l [] x 0 := by
  refine ⟨fun k => ?_, fun j => ?_, fun j => ?_, rfl, rfl⟩
  · simp [Safety.written]; rfl
  · unfold Ctx.setPreds Ctx.preds; simp only [Map.getD_insert]
  · show Map.getD d.r.ov.fp j 0 = _; split <;> simp

/-- A push. -/
theorem LaneStep.push (d : Ctx) (l : Nat) (v : Bool) : LaneStep d (d.push l v) l [] (pushBit (d.preds l) v) 0 :=
  LaneStep.setPreds d l _

/-! ## All active lanes -/

/-- `d` is `c` after other lanes have worked: lane `l` finds in it what it would find in `c`. -/
structure Agree (c d : Ctx) (l : Nat) : Prop where
  regs  : ∀ k, k % 64 = l → d.atKey k = c.atKey k
  preds : d.preds l = c.preds l
  rest  : d = { c with
            p := { c.p with pend := d.p.pend },
            r := { c.r with ov := { c.r.ov with
              v := d.r.ov.v, preds := d.r.ov.preds, fp := d.r.ov.fp, marks := d.r.ov.marks } } }

theorem Agree.regOf {c d : Ctx} {l : Nat} (h : Agree c d l) (n j : Nat) : d.regOf n j = c.regOf n j := by
  rw [h.rest]; rfl

/-- A lane reads its register operands as in `c`. -/
theorem Agree.v {c d : Ctx} {l : Nat} (h : Agree c d l) (hl : l < 64) (n : Nat) : d.v n l = c.v n l := by
  unfold Ctx.v
  split
  · rw [h.regOf, h.regs _ (regKey_lane hl)]
  · split
    · rfl
    · split
      · rw [h.rest]; rfl
      · rfl

theorem Agree.v64 {c d : Ctx} {l : Nat} (h : Agree c d l) (hl : l < 64) (n : Nat) : d.v64 n l = c.v64 n l := by
  unfold Ctx.v64
  rw [h.v hl, h.v hl, h.rest]
  rfl

theorem Agree.op {c d : Ctx} {l : Nat} (h : Agree c d l) (hl : l < 64) (w n : Nat) : d.op w n l = c.op w n l := by
  unfold Ctx.op; rw [h.v hl, h.v64 hl]

theorem Agree.pred {c d : Ctx} {l : Nat} (h : Agree c d l) (n : Nat) : d.pred n l = c.pred n l := by
  unfold Ctx.pred; rw [h.preds]

theorem Agree.mods {c d : Ctx} {l : Nat} (h : Agree c d l) : d.mods = c.mods := by rw [h.rest]; rfl

theorem Agree.sc {c d : Ctx} {l : Nat} (h : Agree c d l) : d.sc = c.sc := by rw [h.rest]; rfl

theorem Agree.immInt {c d : Ctx} {l : Nat} (h : Agree c d l) : d.immInt = c.immInt := by rw [h.rest]; rfl

/-- A step of each active lane, in order: `f` works in lane `l` as it would in `c`. -/
theorem each_lanes {c : Ctx} {f : Ctx → Nat → Ctx} {ws : Nat → List (Nat × Word)} {ps fl : Nat → BitVec 16}
    (hnd : c.act.Nodup)
    (hf : ∀ d l, l ∈ c.act → Agree c d l → LaneStep d (f d l) l (ws l) (ps l) (fl l)) :
    LaneResult c (c.each f) ws ps fl := by
  have key : ∀ (ls done : List Nat) (d : Ctx), (∀ l ∈ ls, l ∈ c.act) → (∀ l ∈ done, l ∈ c.act) → ls.Nodup →
      (∀ l ∈ ls, l ∉ done) →
      (∀ k, d.atKey k = if k % 64 ∈ done then written c (k % 64) (ws (k % 64)) k (c.atKey k) else c.atKey k) →
      (∀ l, d.preds l = if l ∈ done then ps l else c.preds l) →
      (∀ k, Map.getD d.r.ov.fp k 0 = if k / 64 = c.r.ov.fpEpoch ∧ k % 64 ∈ done then Map.getD c.r.ov.fp k 0 ||| fl (k % 64)
        else Map.getD c.r.ov.fp k 0) →
      opShape c d.p.pend = opShape c c.p.pend →
      d = { c with
            p := { c.p with pend := d.p.pend },
            r := { c.r with ov := { c.r.ov with
              v := d.r.ov.v, preds := d.r.ov.preds, fp := d.r.ov.fp, marks := d.r.ov.marks } } } →
      ∀ d', d' = ls.foldl f d →
      (∀ k, d'.atKey k = if k % 64 ∈ done ++ ls then written c (k % 64) (ws (k % 64)) k (c.atKey k) else c.atKey k) ∧
      (∀ l, d'.preds l = if l ∈ done ++ ls then ps l else c.preds l) ∧
      (∀ k, Map.getD d'.r.ov.fp k 0 = if k / 64 = c.r.ov.fpEpoch ∧ k % 64 ∈ done ++ ls then
        Map.getD c.r.ov.fp k 0 ||| fl (k % 64) else Map.getD c.r.ov.fp k 0) ∧
      opShape c d'.p.pend = opShape c c.p.pend ∧
      d' = { c with
            p := { c.p with pend := d'.p.pend },
            r := { c.r with ov := { c.r.ov with
              v := d'.r.ov.v, preds := d'.r.ov.preds, fp := d'.r.ov.fp, marks := d'.r.ov.marks } } } := by
    intro ls
    induction ls with
    | nil =>
      intro done d _ _ _ _ h1 h2 h3 h4 h5 d' hd'
      subst hd'
      simp only [List.append_nil]
      exact ⟨h1, h2, h3, h4, h5⟩
    | cons l ls ih =>
      intro done d hls hdone hn hout h1 h2 h3 h4 h5 d' hd'
      have hl : l ∈ c.act := hls l (by simp)
      have hld : l ∉ done := hout l (by simp)
      have hag : Agree c d l := ⟨fun k hk => by rw [h1, hk, if_neg hld], by rw [h2, if_neg hld], h5⟩
      have hs := hf d l hl hag
      have hreg : ∀ j vs k x, written d j vs k x = written c j vs k x := by
        intro j vs k x; unfold Safety.written; simp only [hag.regOf]
      have hsh : ∀ o, opShape d o = opShape c o := by
        intro o; unfold Safety.opShape; rw [h5]; rfl
      have := ih (done ++ [l]) (f d l) (fun x hx => hls x (by simp [hx]))
        (fun x hx => by
          rcases List.mem_append.mp hx with h | h
          · exact hdone x h
          · simp at h; subst h; exact hl) (List.nodup_cons.mp hn).2
        (fun x hx h => by
          rcases List.mem_append.mp h with h | h
          · exact hout x (by simp [hx]) h
          · simp at h; subst h; exact (List.nodup_cons.mp hn).1 hx)
        (fun k => by
          rw [hs.regs, hreg]
          by_cases hk : k % 64 = l
          · rw [if_pos hk, if_pos (by simp [hk]), h1, hk, if_neg hld]
          · rw [if_neg hk, h1]; simp [hk])
        (fun j => by
          rw [hs.preds]
          by_cases hj : j = l
          · rw [if_pos hj, if_pos (by simp [hj]), hj]
          · rw [if_neg hj, h2]; simp [hj])
        (fun j => by
          have he : d.r.ov.fpEpoch = c.r.ov.fpEpoch := by rw [h5]; rfl
          rw [hs.flags, he, h3]
          by_cases hk : j / 64 = c.r.ov.fpEpoch <;> by_cases hj : j % 64 = l <;> simp [hk, hj, hld])
        (by have := hs.ops; rw [hsh, hsh] at this; rw [this, h4])
        (by
          have e := hs.rest
          generalize (f d l).p.pend = a1 at *
          generalize (f d l).r.ov.v = a2 at *
          generalize (f d l).r.ov.preds = a3 at *
          generalize (f d l).r.ov.fp = a4 at *
          generalize (f d l).r.ov.marks = a5 at *
          rw [e, h5])
        d' (by simpa using hd')
      simpa [List.append_assoc] using this
  have := key c.act [] c (fun _ h => h) (by simp) hnd (by simp) (by simp) (by simp) (by simp) rfl rfl (c.each f) rfl
  simp only [List.nil_append] at this
  exact ⟨this.1, this.2.1, this.2.2.1, this.2.2.2.1, this.2.2.2.2⟩

/-! ## The marks of `last`, and the state after the word -/

/-- `last` marks change no reading (R148). -/
theorem markLast_eq (c : Ctx) (args : List Arg) :
    c.markLast args = { c with r := { c.r with ov := { c.r.ov with marks := (c.markLast args).r.ov.marks } } } := by
  unfold Ctx.markLast; split <;> rfl

/-- What a word leaves, seen from the context before the marks. -/
theorem LaneResult.ofMarks {c c' : Ctx} {args : List Arg} {ws : Nat → List (Nat × Word)} {ps fl : Nat → BitVec 16}
    (h : LaneResult (c.markLast args) c' ws ps fl) : LaneResult c c' ws ps fl := by
  have e := markLast_eq c args
  generalize (c.markLast args).r.ov.marks = m at e
  rw [e] at h
  exact ⟨h.regs, h.preds, h.flags, h.ops, h.rest⟩

/-- A word that changes its party alone, and gives out at most one number, has executed. -/
theorem executed_of {s : State} {g : BitVec 4} {c c' : Ctx} (h : issueCtx s g = some c) (hp : c'.pid = c.pid)
    (hs : c'.s = c.s ∨ c'.s = c.s.bump) : Executed s c'.advance c c' := by
  have e := issueCtx_s h
  refine ⟨rfl, ?_, fun q hq => ?_⟩
  · unfold Ctx.advance Ctx.save
    rcases hs with hs | hs <;> simp only [hs, e] <;> rfl
  · unfold Ctx.advance Ctx.save
    dsimp only
    rw [State.party?_setParty_ne _ _ _ _ (by rw [hp]; exact hq)]
    rcases hs with hs | hs <;> simp only [hs, e]; rfl

/-- A context with other marks of `last`. -/
abbrev Ctx.withMarks (c : Ctx) (m : List Nat) : Ctx := { c with r := { c.r with ov := { c.r.ov with marks := m } } }

/-- A word that works in each active lane by itself. -/
theorem issue_lanes {s : State} {g : BitVec 4} {args : List Arg} {c : Ctx} (h : Issues s g args c) {pre : Ctx → Pre}
    (hp : pre c = .go) {f : Ctx → Ctx → Nat → Ctx} {ws : Nat → List (Nat × Word)} {ps fl : Nat → BitVec 16}
    (hf : ∀ m d l, l ∈ c.act → l < 64 → Agree c d l → LaneStep d (f (c.withMarks m) d l) l (ws l) (ps l) (fl l)) :
    ∃ c', issue s g args pre (fun x => .done (x.each (f x))) = .next c'.advance ∧ Executed s c'.advance c c' ∧
      LaneResult c c' ws ps fl := by
  have e := markLast_eq c args
  generalize (c.markLast args).r.ov.marks = m at e
  have hr : LaneResult (c.withMarks m) ((c.withMarks m).each (f (c.withMarks m))) ws ps fl :=
    each_lanes (show c.act.Nodup from act_nodup h.1)
      (fun d l hl ha => hf m d l hl (act_lt h.1 hl) ⟨ha.regs, ha.preds, ha.rest⟩)
  refine ⟨_, issue_done h hp (by rw [e]), ?_, ⟨hr.regs, hr.preds, hr.flags, hr.ops, hr.rest⟩⟩
  refine executed_of h.1 ?_ (.inl ?_)
  · rw [hr.rest]
  · rw [hr.rest]

end Sys2Proof.Machine
end

