-- ==== Sys2Proof/Laws/Memory.lean ====
section
/-!
SUPPORT. Laws of memory: a read after a write gives what was written, other bytes stay, and every operation keeps the
canonical form.
-/

namespace Sys2Proof.Machine

theorem memPut_wf (m : List Host.Cell) (a : Nat) (x : Byte) (h : Memory.wf m = true) : Memory.wf (memPut m a x) = true :=
  Map.canon_put m a x 0 h

theorem memPuts_wf (m : List Host.Cell) (a : Nat) (l : List Byte) (h : Memory.wf m = true) :
    Memory.wf (memPuts m a l) = true := by
  induction l generalizing m a with
  | nil => exact h
  | cons x l ih => exact ih _ _ (memPut_wf m a x h)

theorem memByte_memPut (m : List Host.Cell) (a b : Nat) (x : Byte) (h : Memory.wf m = true) :
    memByte (memPut m a x) b = if b = a then x else memByte m b := by
  simp only [Memory.wf, Map.canon, Bool.and_eq_true] at h
  exact Map.getD_put m a b x 0 h.1

/-- A byte outside the bytes written reads as before. -/
theorem memByte_memPuts_out (m : List Host.Cell) (a b : Nat) (l : List Byte) (h : Memory.wf m = true)
    (hb : b < a ∨ a + l.length ≤ b) : memByte (memPuts m a l) b = memByte m b := by
  induction l generalizing m a with
  | nil => rfl
  | cons x l ih =>
    simp only [List.length_cons] at hb
    simp only [memPuts]
    rw [ih _ _ (memPut_wf m a x h) (by omega), memByte_memPut m a b x h, if_neg (by omega)]

/-- A byte among those written reads as written. -/
theorem memByte_memPuts_in (m : List Host.Cell) (a i : Nat) (l : List Byte) (h : Memory.wf m = true)
    (hi : i < l.length) : memByte (memPuts m a l) (a + i) = l.getD i 0 := by
  induction l generalizing m a i with
  | nil => simp at hi
  | cons x l ih =>
    simp only [memPuts]
    cases i with
    | zero =>
      rw [memByte_memPuts_out _ _ _ _ (memPut_wf m a x h) (by omega), Nat.add_zero, memByte_memPut m a a x h]
      simp
    | succ i =>
      have := ih (memPut m a x) (a + 1) i (memPut_wf m a x h) (by simpa using hi)
      rw [show a + (i + 1) = a + 1 + i by omega, this]
      simp

theorem length_memBytes (m : List Host.Cell) (a n : Nat) : (memBytes m a n).length = n := by
  induction n generalizing a with
  | zero => rfl
  | succ n ih => simp [memBytes, ih]

/-- Bytes read where bytes were written. -/
theorem memBytes_memPuts (m : List Host.Cell) (a : Nat) (l : List Byte) (h : Memory.wf m = true) :
    memBytes (memPuts m a l) a l.length = l := by
  have key : ∀ (m : List Host.Cell) (a n : Nat) (l : List Byte), l.length = n →
      (∀ i, i < n → memByte m (a + i) = l.getD i 0) → memBytes m a n = l := by
    intro m a n
    induction n generalizing a with
    | zero => intro l hl _; rw [List.length_eq_zero_iff.mp hl]; rfl
    | succ n ih =>
      intro l hl hh
      cases l with
      | nil => simp at hl
      | cons x l =>
        simp only [memBytes]
        have h0 := hh 0 (by omega)
        simp at h0
        rw [h0, ih (a + 1) l (by simpa using hl)]
        intro i hi
        have := hh (i + 1) (by omega)
        simpa [Nat.add_assoc, Nat.add_comm 1 i] using this
  exact key _ _ _ _ rfl (fun i hi => memByte_memPuts_in m a i l h hi)

theorem reset_mem_wf : Memory.wf State.reset.mem = true := rfl

/-! ## The one place at which agents write bytes -/

/-- A fold of steps that each leave memory alone leaves it alone. -/
theorem foldl_mem {α : Type} (f : State → α → State) (hf : ∀ s a, (f s a).mem = s.mem) (l : List α) (s : State) :
    (l.foldl f s).mem = s.mem := by
  induction l generalizing s with
  | nil => rfl
  | cons a l ih => rw [List.foldl_cons, ih, hf]

/-- VHELD of an entry stands in the entry's second byte: no other byte changes. -/
theorem State.setVheld_byte (s : State) (e : Nat) (l : Leaf) (on : Bool) (a : Nat) (hw : Memory.wf s.mem = true)
    (h : a ≠ e + 1) : memByte (s.setVheld e l on).mem a = memByte s.mem a := by
  unfold State.setVheld
  split
  · rfl
  · dsimp only [State.dropTlb]
    rw [memByte_memPut _ _ _ _ hw, if_neg h]

theorem State.setVheld_wf (s : State) (e : Nat) (l : Leaf) (on : Bool) (h : Memory.wf s.mem = true) :
    Memory.wf (s.setVheld e l on).mem = true := by
  unfold State.setVheld
  split
  · exact h
  · exact memPut_wf _ _ _ h

/-- VHELD of the pages of some bytes changes the second bytes of entries alone. -/
theorem State.syncVheld_byte (s : State) (pas : List Nat) (a : Nat) (hw : Memory.wf s.mem = true)
    (h : ∀ e ∈ s.pages, a ≠ e.1 + 1) :
    memByte (s.syncVheld pas).mem a = memByte s.mem a := by
  unfold State.syncVheld
  dsimp only
  have key : ∀ (l : List (Nat × Leaf)) (t : State), Memory.wf t.mem = true → (∀ e ∈ l, a ≠ e.1 + 1) →
      memByte (l.foldl (fun s e => s.setVheld e.1 e.2 (s.holdsVersions e.2)) t).mem a = memByte t.mem a := by
    intro l
    induction l with
    | nil => intro t _ _; rfl
    | cons e l ih =>
      intro t ht he
      rw [List.foldl_cons, ih _ (State.setVheld_wf _ _ _ _ ht) (fun x hx => he x (by simp [hx])),
        State.setVheld_byte _ _ _ _ _ ht (he e (by simp))]
  refine key _ s hw (fun e he => ?_)
  obtain ⟨x, hx, hxe⟩ := List.mem_filterMap.mp he
  have : e.1 = x.1 := by
    split at hxe
    · split at hxe
      · cases hxe; rfl
      · cases hxe
    · cases hxe
  rw [this]
  exact h x hx

theorem State.syncVheld_wf (s : State) (pas : List Nat) (h : Memory.wf s.mem = true) :
    Memory.wf (s.syncVheld pas).mem = true := by
  unfold State.syncVheld
  dsimp only
  generalize List.filterMap _ s.pages = l
  induction l generalizing s with
  | nil => exact h
  | cons e l ih => exact ih _ (State.setVheld_wf s _ _ _ h)

theorem State.shadow_mem (s : State) (who : Who) (g : Nat) : (s.shadow who g).mem = s.mem := by
  unfold State.shadow
  split
  · rfl
  · split
    · rfl
    · split <;> rfl

theorem State.shadow_pages (s : State) (who : Who) (g : Nat) : (s.shadow who g).pages = s.pages := by
  unfold State.shadow
  split
  · rfl
  · split
    · rfl
    · split <;> rfl

theorem State.shadows_byte (s : State) (who : Who) (gs : List Nat) (a : Nat) (hw : Memory.wf s.mem = true) (h : ∀ e ∈ s.pages, a ≠ e.1 + 1) :
    memByte (s.shadows who gs).mem a = memByte s.mem a := by
  unfold State.shadows
  split
  · have hm := foldl_mem (fun s g => State.shadow s who g) (fun s g => State.shadow_mem s who g) gs s
    have hp : (gs.foldl (fun s g => State.shadow s who g) s).pages = s.pages := by
      clear hm h hw
      rename_i hs
      clear hs
      induction gs generalizing s with
      | nil => rfl
      | cons g gs ih => rw [List.foldl_cons, ih, State.shadow_pages]
    rw [State.syncVheld_byte _ _ _ (by rw [hm]; exact hw) (by rw [hp]; exact h), hm]
  · rfl

theorem State.shadows_wf (s : State) (who : Who) (gs : List Nat) (h : Memory.wf s.mem = true) :
    Memory.wf (s.shadows who gs).mem = true := by
  unfold State.shadows
  split
  · refine State.syncVheld_wf _ _ ?_
    rw [foldl_mem (fun s g => State.shadow s who g) (fun s g => State.shadow_mem s who g)]
    exact h
  · exact h

theorem State.publishStore_mem (s : State) (who : Who) (pa : Nat) : (s.publishStore who pa).mem = s.mem := by
  unfold State.publishStore
  split
  · rfl
  · split
    · rfl
    · split <;> rfl

theorem State.touch_mem (s : State) (pa : Nat) : (s.touch pa).mem = s.mem := by
  unfold State.touch
  split
  · rfl
  · rfl

theorem State.see_mem (s : State) (who : Who) (pa n : Nat) : (s.see who pa n).mem = s.mem := by
  unfold State.see
  rw [State.touch_mem, foldl_mem (fun (s : State) g => s.observe who g) (fun _ _ => rfl)]

theorem State.seeWatched_mem (s : State) (pa n : Nat) : (s.seeWatched pa n).mem = s.mem :=
  foldl_mem _ (fun s _ => State.see_mem s _ _ _) _ _

theorem State.setPoison_mem (s : State) (lvl g : Nat) (bad : Bool) : (s.setPoison lvl g bad).mem = s.mem := by
  unfold State.setPoison
  split
  · rfl
  · split <;> rfl

/-- A byte written at a level changes memory at its own address or not at all. -/
theorem State.putByte_mem (s : State) (lvl pa : Nat) (x : Byte) :
    (s.putByte lvl pa x).mem = s.mem ∨ (s.putByte lvl pa x).mem = memPut s.mem pa x := by
  unfold State.putByte
  split
  · exact .inr rfl
  · split
    · exact .inl rfl
    · exact .inl rfl

theorem State.putOne_mem (s : State) (who : Who) (pa : Nat) (x : Byte) :
    (s.putOne who pa x).mem = s.mem ∨ (s.putOne who pa x).mem = memPut s.mem pa x := by
  unfold State.putOne
  dsimp only
  split
  · exact State.putByte_mem _ _ _ _
  · split
    · exact State.putByte_mem _ _ _ _
    · split
      · exact State.putByte_mem _ _ _ _
      · exact State.putByte_mem { s with grids := _ } _ _ _

theorem State.putOne_wf (s : State) (who : Who) (pa : Nat) (x : Byte) (h : Memory.wf s.mem = true) :
    Memory.wf (s.putOne who pa x).mem = true := by
  rcases State.putOne_mem s who pa x with e | e <;> rw [e]
  · exact h
  · exact memPut_wf _ _ _ h

theorem State.putOne_byte (s : State) (who : Who) (pa : Nat) (x : Byte) (a : Nat) (hw : Memory.wf s.mem = true) (h : a ≠ pa) :
    memByte (s.putOne who pa x).mem a = memByte s.mem a := by
  rcases State.putOne_mem s who pa x with e | e <;> rw [e]
  rw [memByte_memPut _ _ _ _ hw, if_neg h]

theorem State.putAll_wf (s : State) (who : Who) (pa : Nat) (l : List Byte) (h : Memory.wf s.mem = true) :
    Memory.wf (s.putAll who pa l).mem = true := by
  induction l generalizing s pa with
  | nil => exact h
  | cons x l ih => exact ih _ _ (State.putOne_wf s who pa x h)

theorem State.putAll_byte (s : State) (who : Who) (pa : Nat) (l : List Byte) (a : Nat) (hw : Memory.wf s.mem = true)
    (h : a < pa ∨ pa + l.length ≤ a) : memByte (s.putAll who pa l).mem a = memByte s.mem a := by
  induction l generalizing s pa with
  | nil => rfl
  | cons x l ih =>
    simp only [List.length_cons] at h
    simp only [State.putAll]
    rw [ih _ _ (State.putOne_wf s who pa x hw) (by omega), State.putOne_byte _ _ _ _ _ hw (by omega)]

theorem State.putBytes_wf (s : State) (who : Who) (pa : Nat) (l : List Byte) (h : Memory.wf s.mem = true) :
    Memory.wf (s.putBytes who pa l).mem = true := by
  unfold State.putBytes
  split
  · exact memPuts_wf _ _ _ h
  · exact State.putAll_wf _ _ _ _ h

theorem State.putBytes_byte (s : State) (who : Who) (pa : Nat) (l : List Byte) (a : Nat) (hw : Memory.wf s.mem = true)
    (h : a < pa ∨ pa + l.length ≤ a) : memByte (s.putBytes who pa l).mem a = memByte s.mem a := by
  unfold State.putBytes
  split
  · exact memByte_memPuts_out _ _ _ _ hw h
  · exact State.putAll_byte _ _ _ _ _ hw h

/-- The memory that a store finds, with VHELD of the pages whose bytes a protected unit keeps (R316, R339). -/
def State.storeBase (s : State) (who : Who) (pa n : Nat) : State :=
  ((granules pa n).foldl (fun s g => s.logGranule who g) (s.publishStore who pa)).shadows who (granules pa n)

theorem State.store_mem (s : State) (who : Who) (pa : Nat) (data : List Byte) :
    (s.store who pa data).mem = ((s.storeBase who pa data.length).putBytes who pa data).mem := by
  unfold State.store State.storeBase
  dsimp only
  show (State.seeWatched _ _ _).mem = _
  rw [State.seeWatched_mem, State.touch_mem, foldl_mem _ (fun s g => State.setPoison_mem s _ _ _)]

theorem State.logs_mem (s : State) (who : Who) (pa : Nat) (gs : List Nat) :
    (gs.foldl (fun s g => State.logGranule s who g) (s.publishStore who pa)).mem = s.mem := by
  rw [foldl_mem (fun s g => State.logGranule s who g) (fun _ _ => rfl), State.publishStore_mem]

theorem State.logs_pages (s : State) (who : Who) (pa : Nat) (gs : List Nat) :
    (gs.foldl (fun s g => State.logGranule s who g) (s.publishStore who pa)).pages = s.pages := by
  have h0 : (s.publishStore who pa).pages = s.pages := by
    unfold State.publishStore
    split
    · rfl
    · split
      · rfl
      · split <;> rfl
  generalize s.publishStore who pa = t at *
  rw [← h0]
  clear h0
  induction gs generalizing t with
  | nil => rfl
  | cons g gs ih => rw [List.foldl_cons, ih]; rfl

theorem State.storeBase_wf (s : State) (who : Who) (pa n : Nat) (h : Memory.wf s.mem = true) :
    Memory.wf (s.storeBase who pa n).mem = true := by
  unfold State.storeBase
  refine State.shadows_wf _ _ _ ?_
  rw [State.logs_mem]
  exact h

/-- A store writes its bytes and no other, but for VHELD in the second bytes of entries. -/
theorem State.store_byte (s : State) (who : Who) (pa : Nat) (data : List Byte) (a : Nat) (hw : Memory.wf s.mem = true)
    (h : ¬ (pa ≤ a ∧ a < pa + data.length)) (hv : ∀ e ∈ s.pages, a ≠ e.1 + 1) :
    memByte (s.store who pa data).mem a = memByte s.mem a := by
  rw [State.store_mem, State.putBytes_byte _ _ _ _ _ (State.storeBase_wf _ _ _ _ hw) (by omega)]
  unfold State.storeBase
  rw [State.shadows_byte _ _ _ _ (by rw [State.logs_mem]; exact hw) (by rw [State.logs_pages]; exact hv), State.logs_mem]

/-- A store leaves its bytes where no unit has shadows (R339). -/
theorem State.store_byte_in (s : State) (who : Who) (pa : Nat) (data : List Byte) (i : Nat) (hw : Memory.wf s.mem = true)
    (hn : (s.storeBase who pa data.length).grids.all (fun e => e.2.undo.isEmpty) = true) (hi : i < data.length) :
    memByte (s.store who pa data).mem (pa + i) = data.getD i 0 := by
  rw [State.store_mem, State.putBytes, if_pos hn]
  exact memByte_memPuts_in _ _ _ _ (State.storeBase_wf _ _ _ _ hw) hi

/-- A store keeps the canonical form. -/
theorem State.store_wf (s : State) (who : Who) (pa : Nat) (data : List Byte) (h : Memory.wf s.mem = true) :
    Memory.wf (s.store who pa data).mem = true := by
  rw [State.store_mem]
  exact State.putBytes_wf _ _ _ _ (State.storeBase_wf _ _ _ _ h)

/-- A load writes nothing. -/
theorem State.load_mem (s : State) (who : Who) (pa n : Nat) : (s.load who pa n).2.mem = s.mem := State.see_mem _ _ _ _

end Sys2Proof.Machine
end

