-- ==== Sys2Proof/Tests/Slice0.lean ====
section
/-!
SUPPORT. Tests: words of every family written out from the spec's encodings, an ill-formed term for each check, states
that meet the hypotheses of the statements, and single words on small values.
-/

set_option Elab.async false

open Sys2Proof Sys2Proof.Machine Sys2Proof.Safety

namespace Sys2Proof.Tests
/-- The word whose fields, from bit 31 down, are these widths and values. -/
def bits (l : List (Nat × Nat)) : Nat := l.foldl (fun a e => a * 2 ^ e.1 + e.2) 0

/-- A word of 32 bits that decodes to a well-formed instruction. -/
abbrev reads (l : List (Nat × Nat)) (i : Instr) : Prop :=
  (l.map Prod.fst).sum = 32 ∧ decodeTableWord 32 (bits l) = some i ∧ i.wf = true

/-- Words of the system family, field by field from bit 31 down (R169, R171, R174, R170, R163). -/
theorem test_decode_system :
    reads [(6, 0), (4, 7), (22, 0)] (.nop 7) ∧
    reads [(6, 0), (4, 7), (22, 1)] (.yield 7) ∧
    reads [(6, 0), (4, 7), (6, 9), (16, 2)] (.trap 7 9) ∧
    reads [(6, 0), (4, 7), (22, 3)] (.tretRetry 7) ∧
    reads [(6, 0), (4, 7), (22, 0x10003)] (.tretSkip 7) ∧
    reads [(6, 0), (4, 7), (6, 4), (6, 1), (6, 0x10), (4, 4)] (.mfs 7 4 1 16) ∧
    reads [(6, 0), (4, 7), (6, 9), (6, 1), (6, 0), (4, 5)] (.mts 7 9 1 0) ∧
    reads [(6, 0), (4, 7), (6, 0), (6, 8), (6, 0xc), (4, 6)] (.tbr 7 8 12) ∧
    reads [(6, 0), (4, 7), (22, 7)] (.halt 7) := by
  decide

/-- Words of the control family, field by field from bit 31 down (R162, R163, R165, R166, R167, R168). -/
theorem test_decode_control :
    reads [(6, 1), (4, 7), (22, 0x300001)] (.br 7 3145729) ∧
    reads [(6, 2), (4, 7), (22, 0x12345)] (.call 7 74565) ∧
    reads [(6, 3), (4, 7), (6, 0), (6, 8), (10, 0)] (.ret 7 8) ∧
    reads [(6, 3), (4, 7), (6, 0), (6, 8), (10, 1)] (.callr 7 8) ∧
    reads [(6, 3), (4, 7), (6, 0), (6, 8), (10, 2)] (.brr 7 8) ∧
    reads [(6, 3), (4, 7), (12, 0), (6, 3), (4, 3)] (.enter 7 3) ∧
    reads [(6, 3), (4, 7), (12, 0), (6, 3), (4, 4)] (.leave 7 3) ∧
    reads [(6, 3), (4, 7), (6, 4), (6, 8), (10, 5)] (.fork 7 4 8) ∧
    reads [(6, 3), (4, 7), (22, 6)] (.fend 7) ∧
    reads [(6, 3), (4, 7), (22, 7)] (.exit 7) := by
  decide

/-- Words of the barrier family, field by field from bit 31 down (R176, R177, R60, R61). -/
theorem test_decode_barrier :
    reads [(6, 4), (4, 7), (6, 0), (6, 8), (6, 0xc), (4, 0)] (.bar 7 8 12) ∧
    reads [(6, 4), (4, 7), (6, 4), (6, 8), (6, 0xc), (4, 1)] (.barw 7 4 8 12) ∧
    reads [(6, 4), (4, 7), (6, 0), (6, 8), (10, 2)] (.rejoin 7 8) ∧
    reads [(6, 4), (4, 7), (6, 0), (6, 8), (6, 0xc), (4, 3)] (.rejoinw 7 8 12) ∧
    reads [(6, 4), (4, 7), (6, 4), (6, 8), (6, 0xc), (4, 4)] (.arrive 7 4 8 12) ∧
    reads [(6, 4), (4, 7), (6, 0), (6, 8), (6, 0xc), (4, 5)] (.barq 7 8 12) := by
  decide

/-- Words of the grid family, field by field from bit 31 down (R178, R179). -/
theorem test_decode_grid :
    reads [(6, 5), (4, 7), (6, 0), (6, 8), (10, 0)] (.launch 7 8) ∧
    reads [(6, 5), (4, 7), (6, 4), (6, 8), (10, 1)] (.gridwait 7 4 8) ∧
    reads [(6, 5), (4, 7), (6, 4), (6, 8), (10, 2)] (.gridq 7 4 8) := by
  decide

/-- Words of the comparison family, field by field from bit 31 down (R159, R160). -/
theorem test_decode_comparison :
    reads [(6, 6), (4, 7), (6, 0), (6, 8), (6, 0xc), (4, 3)] (.cmp 7 8 12 3) ∧
    reads [(6, 6), (4, 7), (6, 1), (6, 8), (6, 0xc), (4, 3)] (.cmpD 7 8 12 3) ∧
    reads [(6, 7), (4, 7), (6, 3), (6, 8), (10, 0x155)] (.cmpi 7 3 8 341) ∧
    reads [(6, 8), (4, 7), (6, 1), (6, 8), (6, 0xc), (4, 3)] (.fcmp 7 1 8 12 3) := by
  decide

/-- Words of the predicate family, field by field from bit 31 down (R161). -/
theorem test_decode_predicate :
    reads [(6, 9), (4, 7), (12, 0), (6, 3), (4, 0)] (.ppop 7 3) ∧
    reads [(6, 9), (4, 7), (6, 0), (6, 8), (10, 1)] (.pdup 7 8) ∧
    reads [(6, 9), (4, 7), (6, 0), (6, 8), (6, 0xc), (4, 2)] (.pand 7 8 12) ∧
    reads [(6, 9), (4, 7), (6, 0), (6, 8), (6, 0xc), (4, 3)] (.por 7 8 12) ∧
    reads [(6, 9), (4, 7), (6, 0), (6, 8), (6, 0xc), (4, 4)] (.pxor 7 8 12) ∧
    reads [(6, 9), (4, 7), (6, 0), (6, 8), (10, 5)] (.pnot 7 8) ∧
    reads [(6, 9), (4, 7), (6, 0), (6, 8), (10, 6)] (.pany 7 8) ∧
    reads [(6, 9), (4, 7), (6, 0), (6, 8), (10, 7)] (.pall 7 8) ∧
    reads [(6, 9), (4, 7), (6, 4), (6, 8), (10, 8)] (.pcnt 7 4 8) ∧
    reads [(6, 9), (4, 7), (6, 4), (16, 9)] (.pget 7 4) ∧
    reads [(6, 9), (4, 7), (6, 0), (6, 8), (10, 0xa)] (.pset 7 8) ∧
    reads [(6, 9), (4, 7), (6, 4), (6, 8), (10, 0xb)] (.pfirst 7 4 8) ∧
    reads [(6, 9), (4, 7), (6, 0), (6, 8), (6, 0xc), (4, 0xc)] (.pswap 7 8 12) := by
  decide

/-- Words of the integer family, field by field from bit 31 down (R181, R182). -/
theorem test_decode_integer :
    reads [(6, 0xa), (4, 7), (6, 4), (6, 8), (6, 0xc), (4, 0)] (.add 7 4 8 12) ∧
    reads [(6, 0xa), (4, 7), (6, 4), (6, 8), (6, 0xc), (4, 1)] (.sub 7 4 8 12) ∧
    reads [(6, 0xa), (4, 7), (6, 4), (6, 8), (6, 0xc), (4, 2)] (.mul 7 4 8 12) ∧
    reads [(6, 0xa), (4, 7), (6, 4), (6, 8), (6, 0xc), (4, 3)] (.mulh 7 4 8 12) ∧
    reads [(6, 0xa), (4, 7), (6, 4), (6, 8), (6, 0xc), (4, 4)] (.mulhu 7 4 8 12) ∧
    reads [(6, 0xa), (4, 7), (6, 4), (6, 8), (6, 0xc), (4, 5)] (.and 7 4 8 12) ∧
    reads [(6, 0xa), (4, 7), (6, 4), (6, 8), (6, 0xc), (4, 6)] (.or 7 4 8 12) ∧
    reads [(6, 0xa), (4, 7), (6, 4), (6, 8), (6, 0xc), (4, 7)] (.xor 7 4 8 12) ∧
    reads [(6, 0xa), (4, 7), (6, 4), (6, 8), (6, 0xc), (4, 8)] (.shl 7 4 8 12) ∧
    reads [(6, 0xa), (4, 7), (6, 4), (6, 8), (6, 0xc), (4, 9)] (.shr 7 4 8 12) ∧
    reads [(6, 0xa), (4, 7), (6, 4), (6, 8), (6, 0xc), (4, 0xa)] (.sar 7 4 8 12) ∧
    reads [(6, 0xa), (4, 7), (6, 4), (6, 8), (6, 0xc), (4, 0xb)] (.rot 7 4 8 12) ∧
    reads [(6, 0xa), (4, 7), (6, 4), (6, 8), (6, 0xc), (4, 0xc)] (.min 7 4 8 12) ∧
    reads [(6, 0xa), (4, 7), (6, 4), (6, 8), (6, 0xc), (4, 0xd)] (.max 7 4 8 12) ∧
    reads [(6, 0xa), (4, 7), (6, 4), (6, 8), (6, 0xc), (4, 0xe)] (.minu 7 4 8 12) ∧
    reads [(6, 0xa), (4, 7), (6, 4), (6, 8), (6, 0xc), (4, 0xf)] (.maxu 7 4 8 12) := by
  decide

/-- Words of the immediate family, field by field from bit 31 down (R184, R185). -/
theorem test_decode_immediate :
    reads [(6, 0xb), (4, 7), (6, 4), (6, 8), (10, 0x155)] (.addi 7 4 8 341) ∧
    reads [(6, 0xc), (4, 7), (6, 4), (6, 8), (10, 0x155)] (.andi 7 4 8 341) ∧
    reads [(6, 0xd), (4, 7), (6, 4), (6, 8), (10, 0x155)] (.ori 7 4 8 341) ∧
    reads [(6, 0xe), (4, 7), (6, 4), (6, 8), (10, 0x155)] (.xori 7 4 8 341) ∧
    reads [(6, 0xf), (4, 7), (6, 4), (6, 8), (2, 2), (3, 0), (5, 9)] (.shi 7 4 8 2 9) ∧
    reads [(6, 0x10), (4, 7), (6, 4), (6, 0), (10, 0x155)] (.movi 7 4 341) ∧
    reads [(6, 0x11), (4, 7), (6, 4), (6, 0), (10, 0x155)] (.movhi 7 4 341) := by
  decide

/-- Words of the extended integer family, field by field from bit 31 down (R186, R189, R188, R187). -/
theorem test_decode_extended_integer :
    reads [(6, 0x12), (4, 7), (6, 4), (6, 8), (6, 0xc), (4, 0)] (.mad 7 4 8 12) ∧
    reads [(6, 0x12), (4, 7), (6, 4), (6, 8), (6, 0xc), (4, 1)] (.madh 7 4 8 12) ∧
    reads [(6, 0x12), (4, 7), (6, 4), (6, 8), (10, 2)] (.abs 7 4 8) ∧
    reads [(6, 0x12), (4, 7), (6, 4), (6, 8), (10, 3)] (.neg 7 4 8) ∧
    reads [(6, 0x12), (4, 7), (6, 4), (6, 8), (10, 4)] (.clz 7 4 8) ∧
    reads [(6, 0x12), (4, 7), (6, 4), (6, 8), (10, 5)] (.popc 7 4 8) ∧
    reads [(6, 0x12), (4, 7), (6, 4), (6, 8), (10, 6)] (.brev 7 4 8) ∧
    reads [(6, 0x12), (4, 7), (6, 4), (6, 8), (6, 0xc), (4, 7)] (.bfe 7 4 8 12) ∧
    reads [(6, 0x12), (4, 7), (6, 4), (6, 8), (6, 0xc), (4, 8)] (.bfi 7 4 8 12) ∧
    reads [(6, 0x12), (4, 7), (6, 4), (6, 8), (6, 0xc), (4, 9)] (.sel 7 4 8 12) ∧
    reads [(6, 0x12), (4, 7), (6, 4), (6, 8), (10, 0xa)] (.mov 7 4 8) ∧
    reads [(6, 0x12), (4, 7), (6, 4), (6, 8), (6, 0xc), (4, 0xb)] (.addc 7 4 8 12) ∧
    reads [(6, 0x12), (4, 7), (6, 4), (6, 8), (6, 0xc), (4, 0xc)] (.subb 7 4 8 12) ∧
    reads [(6, 0x12), (4, 7), (6, 4), (6, 8), (6, 0xc), (4, 0xd)] (.divu 7 4 8 12) ∧
    reads [(6, 0x12), (4, 7), (6, 4), (6, 8), (6, 0xc), (4, 0xe)] (.divs 7 4 8 12) ∧
    reads [(6, 0x12), (4, 7), (6, 4), (6, 8), (6, 0xc), (4, 0xf)] (.rem 7 4 8 12) := by
  decide

/-- Words of the floating point family, field by field from bit 31 down (R206, R207, R208, R209). -/
theorem test_decode_floating_point :
    reads [(6, 0x13), (4, 7), (6, 4), (6, 8), (6, 0xc), (4, 0)] (.fadd 7 4 8 12) ∧
    reads [(6, 0x13), (4, 7), (6, 4), (6, 8), (6, 0xc), (4, 1)] (.fsub 7 4 8 12) ∧
    reads [(6, 0x13), (4, 7), (6, 4), (6, 8), (6, 0xc), (4, 2)] (.fmul 7 4 8 12) ∧
    reads [(6, 0x13), (4, 7), (6, 4), (6, 8), (6, 0xc), (4, 3)] (.ffma 7 4 8 12) ∧
    reads [(6, 0x13), (4, 7), (6, 4), (6, 8), (6, 0xc), (4, 4)] (.fmin 7 4 8 12) ∧
    reads [(6, 0x13), (4, 7), (6, 4), (6, 8), (6, 0xc), (4, 5)] (.fmax 7 4 8 12) ∧
    reads [(6, 0x13), (4, 7), (6, 4), (6, 8), (10, 6)] (.fabs 7 4 8) ∧
    reads [(6, 0x13), (4, 7), (6, 4), (6, 8), (10, 7)] (.fneg 7 4 8) ∧
    reads [(6, 0x13), (4, 7), (6, 4), (6, 8), (10, 8)] (.frcp 7 4 8) ∧
    reads [(6, 0x13), (4, 7), (6, 4), (6, 8), (10, 9)] (.fsqrt 7 4 8) ∧
    reads [(6, 0x13), (4, 7), (6, 4), (6, 8), (10, 0xa)] (.frsq 7 4 8) ∧
    reads [(6, 0x13), (4, 7), (6, 4), (6, 8), (10, 0xb)] (.fexp2 7 4 8) ∧
    reads [(6, 0x13), (4, 7), (6, 4), (6, 8), (10, 0xc)] (.flog2 7 4 8) ∧
    reads [(6, 0x13), (4, 7), (6, 4), (6, 8), (10, 0xd)] (.ftanh 7 4 8) ∧
    reads [(6, 0x13), (4, 7), (6, 4), (6, 8), (6, 0xc), (4, 0xe)] (.fdiv 7 4 8 12) ∧
    reads [(6, 0x13), (4, 7), (6, 4), (6, 8), (10, 0xf)] (.fcls 7 4 8) := by
  decide

/-- Words of the half pair family, field by field from bit 31 down (R210, R211). -/
theorem test_decode_half_pair :
    reads [(6, 0x14), (4, 7), (6, 4), (6, 8), (6, 0xc), (4, 0)] (.haddBf16 7 4 8 12) ∧
    reads [(6, 0x14), (4, 7), (6, 4), (6, 8), (6, 0xc), (4, 1)] (.hsubBf16 7 4 8 12) ∧
    reads [(6, 0x14), (4, 7), (6, 4), (6, 8), (6, 0xc), (4, 2)] (.hmulBf16 7 4 8 12) ∧
    reads [(6, 0x14), (4, 7), (6, 4), (6, 8), (6, 0xc), (4, 3)] (.hfmaBf16 7 4 8 12) ∧
    reads [(6, 0x14), (4, 7), (6, 4), (6, 8), (6, 0xc), (4, 4)] (.hminBf16 7 4 8 12) ∧
    reads [(6, 0x14), (4, 7), (6, 4), (6, 8), (6, 0xc), (4, 5)] (.hmaxBf16 7 4 8 12) ∧
    reads [(6, 0x14), (4, 7), (6, 4), (6, 8), (6, 0xc), (4, 6)] (.hdot2Bf16 7 4 8 12) ∧
    reads [(6, 0x14), (4, 7), (6, 4), (6, 8), (6, 0xc), (4, 8)] (.haddFp16 7 4 8 12) ∧
    reads [(6, 0x14), (4, 7), (6, 4), (6, 8), (6, 0xc), (4, 9)] (.hsubFp16 7 4 8 12) ∧
    reads [(6, 0x14), (4, 7), (6, 4), (6, 8), (6, 0xc), (4, 0xa)] (.hmulFp16 7 4 8 12) ∧
    reads [(6, 0x14), (4, 7), (6, 4), (6, 8), (6, 0xc), (4, 0xb)] (.hfmaFp16 7 4 8 12) ∧
    reads [(6, 0x14), (4, 7), (6, 4), (6, 8), (6, 0xc), (4, 0xc)] (.hminFp16 7 4 8 12) ∧
    reads [(6, 0x14), (4, 7), (6, 4), (6, 8), (6, 0xc), (4, 0xd)] (.hmaxFp16 7 4 8 12) ∧
    reads [(6, 0x14), (4, 7), (6, 4), (6, 8), (6, 0xc), (4, 0xe)] (.hdot2Fp16 7 4 8 12) := by
  decide

/-- Words of the conversion family, field by field from bit 31 down (R212, R213). -/
theorem test_decode_conversion :
    reads [(6, 0x15), (4, 7), (6, 4), (6, 8), (6, 0x14), (4, 0)] (.i2f 7 4 8 20) ∧
    reads [(6, 0x15), (4, 7), (6, 4), (6, 8), (6, 0x15), (4, 1)] (.u2f 7 4 8 21) ∧
    reads [(6, 0x15), (4, 7), (6, 4), (6, 8), (6, 0x14), (4, 2)] (.f2i 7 4 8 20) ∧
    reads [(6, 0x15), (4, 7), (6, 4), (6, 8), (6, 0x16), (4, 3)] (.f2iz 7 4 8 22) ∧
    reads [(6, 0x15), (4, 7), (6, 4), (6, 8), (6, 0x15), (4, 4)] (.f2u 7 4 8 21) ∧
    reads [(6, 0x15), (4, 7), (6, 4), (6, 8), (10, 5)] (.f2bf 7 4 8) ∧
    reads [(6, 0x15), (4, 7), (6, 4), (6, 8), (10, 6)] (.bf2f 7 4 8) ∧
    reads [(6, 0x15), (4, 7), (6, 4), (6, 8), (10, 7)] (.f2h 7 4 8) ∧
    reads [(6, 0x15), (4, 7), (6, 4), (6, 8), (10, 8)] (.h2f 7 4 8) ∧
    reads [(6, 0x15), (4, 7), (6, 4), (6, 8), (6, 5), (4, 9)] (.f2n 7 4 8 5) ∧
    reads [(6, 0x15), (4, 7), (6, 4), (6, 8), (6, 5), (4, 0xa)] (.n2f 7 4 8 5) := by
  decide

/-- Words of the mx family, field by field from bit 31 down (R215, R216, R217). -/
theorem test_decode_mx :
    reads [(6, 0x16), (4, 7), (6, 4), (6, 8), (10, 0)] (.mxscale 7 4 8) ∧
    reads [(6, 0x16), (4, 7), (6, 4), (6, 8), (6, 0xc), (4, 1)] (.mxq 7 4 8 12) ∧
    reads [(6, 0x16), (4, 7), (6, 4), (6, 8), (6, 0xc), (4, 2)] (.mxdq 7 4 8 12) ∧
    reads [(6, 0x16), (4, 7), (6, 4), (6, 8), (6, 0), (4, 3)] (.mxpack 7 4 8 0) ∧
    reads [(6, 0x16), (4, 7), (6, 4), (6, 8), (6, 0), (4, 4)] (.mxunp 7 4 8 0) := by
  decide

/-- Words of the cross lane family, field by field from bit 31 down (R219, R220, R221, R222, R223). -/
theorem test_decode_cross_lane :
    reads [(6, 0x17), (4, 7), (6, 4), (6, 8), (6, 0xc), (4, 0)] (.shfl 7 4 8 12) ∧
    reads [(6, 0x17), (4, 7), (6, 4), (6, 8), (6, 3), (4, 1)] (.shfup 7 4 8 3) ∧
    reads [(6, 0x17), (4, 7), (6, 4), (6, 8), (6, 3), (4, 2)] (.shfdn 7 4 8 3) ∧
    reads [(6, 0x17), (4, 7), (6, 4), (6, 8), (6, 0x21), (4, 3)] (.shfxor 7 4 8 33) ∧
    reads [(6, 0x17), (4, 7), (6, 4), (6, 8), (6, 3), (4, 4)] (.bcast 7 4 8 3) ∧
    reads [(6, 0x17), (4, 7), (6, 4), (6, 8), (6, 2), (4, 5)] (.redlog 7 4 8 2) ∧
    reads [(6, 0x17), (4, 7), (6, 4), (6, 8), (6, 0x22), (4, 6)] (.scan 7 4 8 34) ∧
    reads [(6, 0x17), (4, 7), (6, 4), (6, 8), (10, 7)] (.argmax 7 4 8) ∧
    reads [(6, 0x17), (4, 7), (6, 4), (6, 8), (6, 0xc), (4, 8)] (.kth 7 4 8 12) ∧
    reads [(6, 0x17), (4, 7), (6, 4), (6, 8), (10, 9)] (.ballot 7 4 8) ∧
    reads [(6, 0x17), (4, 7), (6, 4), (6, 8), (6, 0xc), (4, 0xa)] (.permb 7 4 8 12) ∧
    reads [(6, 0x17), (4, 7), (6, 4), (6, 8), (6, 0xc), (4, 0xb)] (.vtos 7 4 8 12) ∧
    reads [(6, 0x17), (4, 7), (6, 4), (6, 8), (10, 0xc)] (.stov 7 4 8) := by
  decide

/-- Words of the codebook family, field by field from bit 31 down (R225, R226). -/
theorem test_decode_codebook :
    reads [(6, 0x18), (4, 7), (6, 0), (6, 8), (10, 0)] (.cbld 7 8) ∧
    reads [(6, 0x18), (4, 7), (6, 4), (6, 8), (10, 1)] (.cbdec 7 4 8) ∧
    reads [(6, 0x18), (4, 7), (6, 4), (6, 8), (10, 2)] (.cbenc 7 4 8) ∧
    reads [(6, 0x18), (4, 7), (6, 4), (6, 8), (10, 3)] (.cbrd 7 4 8) := by
  decide

/-- Words of the limb family, field by field from bit 31 down (R195, R197, R198, R199, R200, R201). -/
theorem test_decode_limb :
    reads [(6, 0x19), (4, 7), (12, 0), (6, 3), (4, 0)] (.lbind 7 3) ∧
    reads [(6, 0x19), (4, 7), (22, 1)] (.lunbind 7) ∧
    reads [(6, 0x19), (4, 7), (6, 4), (6, 8), (6, 0xc), (4, 2)] (.ladd 7 4 8 12) ∧
    reads [(6, 0x19), (4, 7), (6, 4), (6, 8), (6, 0xc), (4, 3)] (.lsub 7 4 8 12) ∧
    reads [(6, 0x19), (4, 7), (6, 4), (6, 8), (6, 0xc), (4, 4)] (.lshl 7 4 8 12) ∧
    reads [(6, 0x19), (4, 7), (6, 4), (6, 8), (6, 0xc), (4, 5)] (.lshr 7 4 8 12) ∧
    reads [(6, 0x19), (4, 7), (6, 4), (6, 8), (6, 0xc), (4, 6)] (.lsar 7 4 8 12) ∧
    reads [(6, 0x19), (4, 7), (6, 3), (6, 8), (6, 0xc), (4, 7)] (.lcmp 7 3 8 12) ∧
    reads [(6, 0x19), (4, 7), (6, 4), (6, 8), (6, 0xc), (4, 8)] (.lmac 7 4 8 12) ∧
    reads [(6, 0x19), (4, 7), (6, 4), (16, 9)] (.lcarry 7 4) ∧
    reads [(6, 0x19), (4, 7), (6, 4), (6, 8), (10, 0xa)] (.lneg 7 4 8) := by
  decide

/-- Words of the scalar arithmetic family, field by field from bit 31 down (R190). -/
theorem test_decode_scalar_arithmetic :
    reads [(6, 0x1a), (4, 7), (6, 4), (6, 8), (6, 0xc), (4, 0)] (.sadd 7 4 8 12) ∧
    reads [(6, 0x1a), (4, 7), (6, 4), (6, 8), (6, 0xc), (4, 1)] (.ssub 7 4 8 12) ∧
    reads [(6, 0x1a), (4, 7), (6, 4), (6, 8), (6, 0xc), (4, 2)] (.smul 7 4 8 12) ∧
    reads [(6, 0x1a), (4, 7), (6, 4), (6, 8), (6, 0xc), (4, 3)] (.smulh 7 4 8 12) ∧
    reads [(6, 0x1a), (4, 7), (6, 4), (6, 8), (6, 0xc), (4, 4)] (.smulhu 7 4 8 12) ∧
    reads [(6, 0x1a), (4, 7), (6, 4), (6, 8), (6, 0xc), (4, 5)] (.sand 7 4 8 12) ∧
    reads [(6, 0x1a), (4, 7), (6, 4), (6, 8), (6, 0xc), (4, 6)] (.sor 7 4 8 12) ∧
    reads [(6, 0x1a), (4, 7), (6, 4), (6, 8), (6, 0xc), (4, 7)] (.sxor 7 4 8 12) ∧
    reads [(6, 0x1a), (4, 7), (6, 4), (6, 8), (6, 0xc), (4, 8)] (.sshl 7 4 8 12) ∧
    reads [(6, 0x1a), (4, 7), (6, 4), (6, 8), (6, 0xc), (4, 9)] (.sshr 7 4 8 12) ∧
    reads [(6, 0x1a), (4, 7), (6, 4), (6, 8), (6, 0xc), (4, 0xa)] (.ssar 7 4 8 12) ∧
    reads [(6, 0x1a), (4, 7), (6, 4), (6, 8), (6, 0xc), (4, 0xb)] (.srot 7 4 8 12) ∧
    reads [(6, 0x1a), (4, 7), (6, 4), (6, 8), (6, 0xc), (4, 0xc)] (.smin 7 4 8 12) ∧
    reads [(6, 0x1a), (4, 7), (6, 4), (6, 8), (6, 0xc), (4, 0xd)] (.smax 7 4 8 12) ∧
    reads [(6, 0x1a), (4, 7), (6, 4), (6, 8), (6, 0xc), (4, 0xe)] (.sminu 7 4 8 12) ∧
    reads [(6, 0x1a), (4, 7), (6, 4), (6, 8), (6, 0xc), (4, 0xf)] (.smaxu 7 4 8 12) := by
  decide

/-- Words of the scalar family, field by field from bit 31 down (R190, R191, R159). -/
theorem test_decode_scalar :
    reads [(6, 0x1b), (4, 7), (6, 4), (6, 8), (10, 0x155)] (.saddi 7 4 8 341) ∧
    reads [(6, 0x1c), (4, 7), (6, 4), (6, 0), (10, 0x155)] (.smovi 7 4 341) ∧
    reads [(6, 0x1d), (4, 7), (6, 4), (6, 8), (10, 0)] (.smov 7 4 8) ∧
    reads [(6, 0x1d), (4, 7), (6, 4), (6, 8), (10, 1)] (.hget 7 4 8) ∧
    reads [(6, 0x1d), (4, 7), (6, 4), (6, 8), (10, 2)] (.hput 7 4 8) ∧
    reads [(6, 0x1d), (4, 7), (6, 4), (16, 3)] (.hnull 7 4) ∧
    reads [(6, 0x1e), (4, 7), (6, 0), (6, 8), (6, 0xc), (4, 3)] (.scmp 7 8 12 3) := by
  decide

/-- Words of the memory family, field by field from bit 31 down (R230, R233, R241, R231). -/
theorem test_decode_memory :
    reads [(6, 0x20), (4, 7), (6, 4), (6, 8), (5, 6), (3, 4), (2, 1)] (.ld 7 4 8 6 4 1) ∧
    reads [(6, 0x21), (4, 7), (6, 4), (6, 8), (5, 6), (3, 4), (2, 1)] (.st 7 4 8 6 4 1) ∧
    reads [(6, 0x22), (4, 7), (6, 4), (6, 8), (5, 6), (3, 4), (2, 0)] (.atom 7 4 8 6 4) ∧
    reads [(6, 0x27), (4, 7), (6, 4), (6, 8), (5, 6), (3, 4), (2, 0)] (.stp 7 4 8 6 4) ∧
    reads [(6, 0x28), (4, 7), (6, 4), (6, 8), (5, 6), (3, 4), (2, 0)] (.atp 7 4 8 6 4) ∧
    reads [(6, 0x2f), (4, 7), (6, 4), (6, 8), (5, 6), (3, 4), (2, 1)] (.sld 7 4 8 6 4 1) ∧
    reads [(6, 0x30), (4, 7), (6, 4), (6, 8), (5, 6), (3, 4), (2, 1)] (.sst 7 4 8 6 4 1) := by
  decide

/-- Words of the ticket family, field by field from bit 31 down (R235, R236, R237, R240, R93, R95, R94, R80). -/
theorem test_decode_ticket :
    reads [(6, 0x23), (4, 7), (6, 4), (6, 8), (5, 6), (3, 4), (2, 1)] (.ldt 7 4 8 6 4 1) ∧
    reads [(6, 0x24), (4, 7), (6, 4), (6, 8), (5, 6), (3, 0), (2, 1)] (.ldtb 7 4 8 6 1) ∧
    reads [(6, 0x25), (4, 7), (6, 4), (6, 8), (5, 6), (3, 4), (2, 0)] (.att 7 4 8 6 4) ∧
    reads [(6, 0x26), (4, 7), (6, 4), (6, 8), (6, 5), (4, 0)] (.rdm 7 4 8 5) ∧
    reads [(6, 0x26), (4, 7), (6, 4), (6, 8), (10, 1)] (.rdmb 7 4 8) ∧
    reads [(6, 0x26), (4, 7), (6, 0), (6, 8), (10, 2)] (.trel 7 8) ∧
    reads [(6, 0x26), (4, 7), (6, 0), (6, 8), (10, 3)] (.trelb 7 8) ∧
    reads [(6, 0x26), (4, 7), (6, 0), (6, 8), (10, 4)] (.ttest 7 8) ∧
    reads [(6, 0x26), (4, 7), (6, 0), (6, 8), (10, 5)] (.ttestb 7 8) ∧
    reads [(6, 0x2a), (4, 7), (6, 4), (6, 8), (5, 6), (5, 0)] (.egath 7 4 8 6) := by
  decide

/-- Words of the memory side family, field by field from bit 31 down (R76, R77, R78, R79). -/
theorem test_decode_memory_side :
    reads [(6, 0x29), (4, 7), (6, 4), (6, 8), (10, 0x3e0)] (.msoCas2 7 4 8) ∧
    reads [(6, 0x29), (4, 7), (6, 4), (6, 8), (10, 0x3e4)] (.msoCas4 7 4 8) ∧
    reads [(6, 0x29), (4, 7), (6, 4), (6, 8), (10, 0x3e8)] (.msoEnq 7 4 8) ∧
    reads [(6, 0x29), (4, 7), (6, 4), (6, 8), (10, 0x3ec)] (.msoChase 7 4 8) ∧
    reads [(6, 0x29), (4, 7), (6, 0x3c), (6, 8), (10, 0x3f0)] (.msoRowput 7 8) := by
  decide

/-- Words of the synchronisation family, field by field from bit 31 down (R108, R81). -/
theorem test_decode_synchronisation :
    reads [(6, 0x2b), (4, 7), (22, 0)] (.fence 7) ∧
    reads [(6, 0x2b), (4, 7), (6, 4), (6, 8), (1, 1), (5, 9), (4, 1)] (.watch 7 4 8 1 9) := by
  decide

/-- Words of the copy engine family, field by field from bit 31 down (R247, R249, R250, R251, R252). -/
theorem test_decode_copy_engine :
    reads [(6, 0x2c), (4, 7), (6, 4), (6, 8), (10, 0)] (.cpy 7 4 8) ∧
    reads [(6, 0x2c), (4, 7), (6, 4), (6, 8), (10, 1)] (.cpys 7 4 8) ∧
    reads [(6, 0x2c), (4, 7), (6, 4), (6, 8), (10, 2)] (.cpyg 7 4 8) ∧
    reads [(6, 0x2c), (4, 7), (6, 4), (6, 8), (10, 3)] (.cpyr 7 4 8) ∧
    reads [(6, 0x2c), (4, 7), (6, 4), (6, 8), (10, 4)] (.wait 7 4 8) ∧
    reads [(6, 0x2c), (4, 7), (6, 0), (6, 8), (10, 5)] (.test 7 8) ∧
    reads [(6, 0x2c), (4, 7), (6, 0), (6, 8), (10, 6)] (.cancel 7 8) := by
  decide

/-- Words of the frame family, field by field from bit 31 down (R274, R275, R277, R276). -/
theorem test_decode_frame :
    reads [(6, 0x2d), (4, 7), (6, 4), (6, 8), (10, 0)] (.spopen 7 4 8) ∧
    reads [(6, 0x2d), (4, 7), (6, 4), (6, 8), (6, 0xc), (4, 1)] (.stx 7 4 8 12) ∧
    reads [(6, 0x2d), (4, 7), (6, 4), (6, 8), (6, 0xc), (4, 2)] (.spacc 7 4 8 12) ∧
    reads [(6, 0x2d), (4, 7), (6, 4), (6, 8), (10, 3)] (.spdrop 7 4 8) ∧
    reads [(6, 0x2d), (4, 7), (6, 0), (6, 8), (10, 4)] (.spbind 7 8) := by
  decide

/-- Words of the generator family, field by field from bit 31 down (R270). -/
theorem test_decode_generator :
    reads [(6, 0x2e), (4, 7), (6, 4), (6, 8), (10, 0)] (.rngu 7 4 8) ∧
    reads [(6, 0x2e), (4, 7), (6, 0), (6, 8), (10, 1)] (.rngkey 7 8) ∧
    reads [(6, 0x2e), (4, 7), (6, 0), (6, 8), (10, 2)] (.rngstrm 7 8) ∧
    reads [(6, 0x2e), (4, 7), (6, 4), (6, 8), (10, 3)] (.unif 7 4 8) ∧
    reads [(6, 0x2e), (4, 7), (6, 4), (6, 8), (10, 4)] (.gumb 7 4 8) := by
  decide

/-- Words of the matrix transfer family, field by field from bit 31 down (R259, R260). -/
theorem test_decode_matrix_transfer :
    reads [(6, 0x31), (4, 7), (6, 0), (6, 8), (10, 0)] (.mput 7 8) ∧
    reads [(6, 0x32), (4, 7), (6, 4), (6, 8), (10, 0)] (.mget 7 4 8) := by
  decide

/-- Words of the hint family, field by field from bit 31 down (R146, R49, R147, R148). -/
theorem test_decode_hint :
    reads [(6, 0x3f), (4, 0), (22, 0x2abcde)] (.imm 2800862) ∧
    reads [(6, 0x3f), (4, 1), (2, 1), (16, 0xabcd), (4, 0)] (.live 1 43981) ∧
    reads [(6, 0x3f), (4, 2), (3, 2), (2, 1), (2, 1), (1, 1), (6, 0x16), (8, 0)] (.mod 2 1 1 1 22) ∧
    reads [(6, 0x3f), (8, 0x30), (6, 3), (6, 2), (6, 1)] (.last 3 2 1) := by
  decide

/-- Words of the run header family, field by field from bit 31 down (R143). -/
theorem test_decode_run_header :
    reads [(6, 0x3e), (5, 5), (1, 1), (12, 0x123), (4, 2), (4, 3)] (.runHeader 5 1 291 2 3) := by
  decide

/-- Words of the matrix stream family, field by field from bit 31 down (R261, R262, R263, R264, R265). -/
theorem test_decode_matrix_stream :
    reads [(6, 0x38), (10, 0x155), (4, 9), (4, 3), (1, 1), (3, 5), (1, 0), (1, 1), (2, 0)] (.mma 341 9 3 1 5 0 1) ∧
    reads [(6, 0x39), (4, 0), (10, 0x2ab), (12, 0)] (.mzero 683) ∧
    reads [(6, 0x39), (4, 1), (10, 0x2ab), (3, 5), (9, 0)] (.mlda 683 5) ∧
    reads [(6, 0x39), (4, 2), (10, 0x2ab), (3, 5), (1, 1), (8, 0)] (.msta 683 5 1) ∧
    reads [(6, 0x3a), (4, 0), (4, 9), (2, 0), (16, 0x1234)] (.msig 9 4660) ∧
    reads [(6, 0x3a), (4, 1), (4, 9), (2, 0), (16, 0xffff)] (.msync 9 65535) ∧
    reads [(6, 0x3b), (4, 5), (2, 0), (20, 0x12345)] (.mset 5 74565) ∧
    reads [(6, 0x3b), (4, 5), (2, 1), (20, 0x12345)] (.msetAdd 5 74565) ∧
    reads [(6, 0x3b), (4, 5), (2, 2), (20, 0x12345)] (.msetSet 5 74565) ∧
    reads [(6, 0x3b), (6, 3), (20, 0x12344)] (.msetCb 74564) ∧
    reads [(6, 0x3c), (6, 0), (20, 3)] (.mloop 3) ∧
    reads [(6, 0x3c), (26, 0x400000)] (.mnext) ∧
    reads [(6, 0x3d), (26, 0)] (.mend) := by
  decide

/-! ## Ill-formed terms, one for each check -/

/-- Guard 0b1111 (R136), and codes outside classes V, pairs, quads, S and H (R139, R140). -/
theorem test_wf_codes :
    (Instr.nop 15).wf = false ∧ (Instr.add 7 61 1 2).wf = false ∧ (Instr.add 7 4 63 2).wf = false ∧
    (Instr.add 7 4 1 63).wf = false ∧ (Instr.ladd 7 3 4 6).wf = false ∧ (Instr.ladd 7 4 5 6).wf = false ∧
    (Instr.ladd 7 4 6 63).wf = false ∧ (Instr.permb 7 4 6 1).wf = false ∧ (Instr.msoCas4 7 6 8).wf = false ∧
    (Instr.sadd 7 32 1 2).wf = false ∧ (Instr.sadd 7 1 32 2).wf = false ∧ (Instr.sadd 7 1 2 32).wf = false ∧
    (Instr.hput 7 16 1).wf = false ∧ (Instr.trelb 7 16).wf = false ∧ (Instr.rngkey 7 31).wf = false ∧
    (Instr.cpy 7 1 29).wf = false ∧ (Instr.atp 7 62 2 0 4).wf = false ∧ (Instr.egath 7 4 62 1).wf = false := by
  decide

/-- Selector fields with a value that is not accepted (R135). -/
theorem test_wf_selectors :
    (Instr.enter 7 0).wf = false ∧ (Instr.leave 7 57).wf = false ∧ (Instr.cmp 7 1 2 12).wf = false ∧
    (Instr.cmpi 7 12 1 0).wf = false ∧ (Instr.fcmp 7 3 1 2 0).wf = false ∧ (Instr.fcmp 7 0 1 2 14).wf = false ∧
    (Instr.ppop 7 0).wf = false ∧ (Instr.ppop 7 17).wf = false ∧ (Instr.pdup 7 16).wf = false ∧
    (Instr.i2f 7 1 2 17).wf = false ∧ (Instr.u2f 7 1 2 20).wf = false ∧ (Instr.f2n 7 1 2 10).wf = false ∧
    (Instr.mxpack 7 1 2 2).wf = false ∧ (Instr.shfup 7 1 2 40).wf = false ∧ (Instr.redlog 7 1 2 11).wf = false ∧
    (Instr.redlog 7 1 2 24).wf = false ∧ (Instr.redlog 7 1 2 32).wf = false ∧ (Instr.lbind 7 7).wf = false ∧
    (Instr.lcmp 7 12 2 4).wf = false ∧ (Instr.rdm 7 4 6 3).wf = false ∧ (Instr.mget 7 41 1).wf = false ∧
    (Instr.mput 7 56).wf = false := by
  decide

/-- Memory words with a reserved WIDTH, order or base, or a group that does not fit (R227, R228, R240, R242). -/
theorem test_wf_memory :
    (Instr.ld 7 4 2 0 4 3).wf = false ∧ (Instr.ld 7 4 2 0 7 1).wf = false ∧ (Instr.ld 7 4 62 0 4 0).wf = false ∧
    (Instr.ld 7 4 3 31 4 0).wf = false ∧ (Instr.ld 7 5 2 0 5 0).wf = false ∧ (Instr.ld 7 6 2 0 6 0).wf = false ∧
    (Instr.st 7 4 2 0 1 0).wf = false ∧ (Instr.st 7 62 2 0 4 0).wf = false ∧ (Instr.ldt 7 4 2 0 7 0).wf = false ∧
    (Instr.ldtb 7 1 2 31 0).wf = false ∧ (Instr.sld 7 1 2 3 6 0).wf = false ∧ (Instr.sst 7 1 2 3 1 0).wf = false ∧
    (Instr.stp 7 4 2 0 7).wf = false ∧ (Instr.rdm 7 5 6 5).wf = false ∧ (Instr.msoCas2 7 4 48).wf = false ∧
    (Instr.msoEnq 7 4 3).wf = false ∧ (Instr.msoRowput 7 52).wf = false := by
  decide

/-- Hints, headers, matrix words and events (R143, R147, R148, R264, R265). -/
theorem test_wf_others :
    (Instr.live 3 0x100).wf = false ∧ (Instr.mod 5 0 0 0 20).wf = false ∧ (Instr.mod 0 0 3 0 20).wf = false ∧
    (Instr.mod 0 0 0 0 11).wf = false ∧ (Instr.last 56 0 0).wf = false ∧ (Instr.runHeader 0 0 0 15 15).wf = false ∧
    (Instr.runHeader 25 0 0 15 15).wf = false ∧ (Instr.msetCb 2).wf = false ∧ (Instr.mloop 0).wf = false ∧
    (Instr.arrivalAdmit 512).wf = false ∧ (Instr.stewardEvaluation 16).wf = false ∧ (Instr.engineStart 256).wf = false ∧
    (Instr.ticketDeadline 512 0).wf = false ∧ (Instr.framePrepare 4096 0).wf = false ∧
    (Instr.shadowLatchEvent 1168).wf = false ∧ (Instr.linkFrameSend 1055).wf = false := by
  decide

/-! ## States for single words -/

/-- The state in which a party stands at a word of its run, with its party, its run and the machine changed. -/
def stand (f : Party → Party) (r : Run → Run) (h : State → State) : State :=
  let s := State.reset.withFetchWord 32 0x01C00000;
  h { s with
    schedule := [], actor := .bundle (State.reset.keys + 1) State.reset.keys,
    parties := s.parties.map (fun (e : Nat × Party) => (e.1, f { e.2 with
      bundles := e.2.bundles.map (fun (b : Bundle) => { b with run := b.run.map r }) })) }

/-- The plain state. -/
def plain : State := stand id id id

/-- A `mod` hint in force: scope, order, rounding, saturate, format (R147). -/
def modded (sc o rnd sat f : Nat) (r : Run) : Run :=
  { r with modh := some (BitVec.ofNat 22 (sc * 2 ^ 19 + o * 2 ^ 17 + rnd * 2 ^ 15 + sat * 2 ^ 14 + f * 2 ^ 8)) }

/-- The state with a format in force. -/
def formatted (f : Nat) : State := stand id (modded 4 0 0 0 f) id

/-- The state with a format in force and stochastic rounding. -/
def stochastic (f : Nat) : State := stand id (modded 4 0 2 0 f) id

/-- Lane 0 of the party holds these registers, and the scalars these values. -/
def holding (v : Map Word) (sc : Map DWord) (p : Party) : Party :=
  { p with vregs := v.map (fun e => (regKey e.1 0, e.2)), scal := sc }

/-- The context in which the next word of guard 7 issues meets a condition. -/
def meets (s : State) (q : Ctx → Bool) : Bool := (issueCtx s 7).any q

/-- Operands that are clear at their context, with a condition, are a witness of the hypothesis `Issues`. -/
theorem issues_of_meets {s : State} {args : Ctx → List Arg} {q : Ctx → Bool}
    (h : meets s (fun c => clear c (args c) && q c) = true) : ∃ c, Issues s 7 (args c) c ∧ q c = true := by
  unfold meets at h
  cases hc : issueCtx s 7 with
  | none => rw [hc] at h; cases h
  | some c =>
    rw [hc] at h
    simp only [Option.any_some, Bool.and_eq_true] at h
    exact ⟨c, ⟨hc, h.1⟩, h.2⟩

/-- Every operand list of the table is clear in one context, together with a condition. -/
abbrev clears (s : State) (q : Ctx → Bool) (l : Ctx → List (List Arg)) : Prop :=
  meets s (fun c => q c && (l c).all (clear c)) = true

/-! ## Witnesses: states and operands that meet the hypotheses of the statements -/

/-- IntPatterns, on 32 and on 64 bits, at the first and the last format of R180. -/
theorem test_witness_IntPatterns :
    clears plain (fun c => decide (intFmt (c.fmtOr 20))) (fun _ => [[.dst 32 60, .src 32 61, .src 32 0]]) ∧
    clears (formatted 23) (fun c => decide (intFmt (c.fmtOr 20))) (fun _ => [[.dst 64 4, .src 64 61, .src 64 58]]) := by
  decide

/-- IntSaturating, with saturation off and on. -/
theorem test_witness_IntSaturating :
    clears plain (fun c => decide (intFmt (c.fmtOr 20)) && !c.mods.sat)
      (fun _ => [[.dst 32 3, .src 32 4, .src 32 5], [.dst 32 3, .src 32 4, .src 32 5, .src 32 3], [.dst 32 3, .src 32 4]]) ∧
    clears (stand id (modded 4 0 0 1 23) id) (fun c => decide (intFmt (c.fmtOr 20)) && c.mods.sat)
      (fun _ => [[.dst 64 2, .src 64 4, .src 64 6], [.dst 64 2, .src 64 4, .src 64 6, .src 64 2], [.dst 64 2, .src 64 4]]) := by
  decide

/-- IntImmediate. -/
theorem test_witness_IntImmediate :
    clears plain (fun c => decide (intFmt (c.fmtOr 20)) && decide (intWidth (c.fmtOr 20) = 32))
      (fun c => [[.dst 32 3, .src 32 4], [.dst 32 3], [.vw 3, .vr 3], [.need c.r.imm.isNone, .vw 3, .vr 4]]) := by
  decide

/-- IntExtended. -/
theorem test_witness_IntExtended :
    clears plain (fun c => decide (intFmt (c.fmtOr 20)) && decide (intFmt (c.fmtOr 21)))
      (fun _ => [[.dst 32 3, .src 32 4], [.dst 32 3, .src 32 4, .src 32 5], [.dst 32 3, .src 32 4, .src 32 5, .old 32 3]]) ∧
    clears (formatted 22) (fun c => decide (intFmt (c.fmtOr 20)) && decide (intFmt (c.fmtOr 21)))
      (fun _ => [[.dst 64 2, .src 64 4], [.dst 64 2, .src 64 4, .src 64 6], [.dst 64 2, .src 64 4, .src 64 6, .old 64 2]]) := by
  decide

/-- Division, by a zero and by another divisor. -/
theorem test_witness_Division :
    clears plain (fun c => decide (intFmt (c.fmtOr 21)) && decide (val c 32 5 0 = 0)) (fun _ => [[.dst 32 3, .src 32 4, .src 32 5]]) ∧
    clears (stand (holding [(5, 3)] []) id id) (fun c => decide (intFmt (c.fmtOr 20)) && decide (val c 32 5 0 = 3))
      (fun _ => [[.dst 32 3, .src 32 4, .src 32 5]]) := by
  decide

/-- Comparisons. -/
theorem test_witness_Comparisons :
    clears plain (fun _ => true) (fun _ => [[.vr 0, .vr 61], [.pr 2, .pr 4], [.sr 0, .sr 31], [.vr 1]]) := by
  decide

/-- PredicateWords: `pfirst` with a lane that qualifies. -/
theorem test_witness_PredicateWords :
    clears plain (fun c => decide (0 ∈ c.act) && !(c.preds 0).getLsbD 15) (fun _ => [[], [.vw 60], [.vr 3]]) := by
  decide

/-- ScalarArithmetic and ScalarMoves, `s31` among the destinations. -/
theorem test_witness_Scalars :
    clears plain (fun c => decide (c.fmtOr 22 = 22))
      (fun _ => [[.sw 30, .sr 1, .sr 31], [.sw 30], [.sw 30, .sr 2], [.sw 30, .hr 15], [.hw 15, .sr 0], [.hw 0], [.sw 31],
        [.sw 31, .sr 4], [.sw 31, .hr 4], [.sw 31, .sr 4, .sr 5]]) ∧
    clears (formatted 23) (fun c => decide (c.fmtOr 22 = 23)) (fun _ => [[.sw 0, .sr 1, .sr 2]]) := by
  decide

/-- FloatShort, FloatPlain and FloatLong, with rounding to nearest and stochastic rounding. -/
theorem test_witness_Float :
    clears plain (fun c => decide (c.fmtOr 0 = 0) && decide (c.rmode ≠ .sr))
      (fun c => [[.vw 3, .vr 4, .vr 5] ++ c.drawArgs, [.vw 3, .vr 4, .vr 5, .vr 3] ++ c.drawArgs, [.vw 3, .vr 4], [.vw 3, .vr 4, .vr 5]]) ∧
    clears (stochastic 0) (fun c => decide (c.fmtOr 0 = 0) && decide (c.rmode = .sr))
      (fun c => [[.vw 3, .vr 4, .vr 5] ++ c.drawArgs, [.vw 3, .vr 4, .vr 52, .vr 53], [.vw 3, .vr 4, .vr 5, .vr 52, .vr 53]]) := by
  decide

/-- HalfPairs, Conversions and MxBlocks. -/
theorem test_witness_Formats :
    clears plain (fun c => decide (c.fmtOr 0 ≤ 2) && decide (c.fmtOr 3 = 3))
      (fun c => [[.vw 3, .vr 4, .vr 5, .vr 3] ++ c.drawArgs, [.vw 3, .vr 4, .vr 5], [.vw 3, .src 64 4] ++ c.drawArgs,
        [.dst 64 2, .vr 4] ++ c.drawArgs, [.dst 32 2, .vr 4], [.vw 3, .vr 4] ++ c.drawArgs, [.vw 3, .vr 4],
        [.vw 3, .xr 4 (c.pairs (fun l => ((List.range (32 / planeBits 3)).map (fun j => 32 / planeBits 3 * l + j)).filter c.act.contains))],
        [.vw 3, .xr 4 (c.pairs (fun l => [l / (32 / planeBits 3)]))]]) ∧
    clears (formatted 5) (fun c => decide (c.fmtOr 3 ≤ 8) && hasComp (c.fmtOr 3))
      (fun c => [[.vw 3, .xr 4 (c.pairs (fun l => [l / 16])), .vr 3]]) ∧
    clears (stand (fun p => { p with cb := some 0 }) id id) (fun c => c.book.isSome && !c.widePending .cb) (fun _ => [[.vw 3, .vr 4]]) := by
  decide

/-- Shuffles, Reductions and CrossLaneRest. -/
theorem test_witness_CrossLane :
    clears plain (fun c => decide (c.fmtOr 0 = 0) && decide (intFmt (c.fmtOr 20)))
      (fun c => [[.vw 3, .xr 4 (c.pairs (fun _ => [63])), .vr 5], [.vw 3, .xr 4 (c.pairs (fun l => [l])), .need true],
        [.dst 32 3, .src 32 4], [.dst 64 2, .src 64 4], [.pw 2, .vr 4], [.vw 3, .vr 4, .sr 5], [.pw 2], [.vw 3, .qr 4, .vr 5],
        [.sw 3, .sr 5] ++ laneReads c 32 4 0, [.dst 32 3, .sr 4]]) := by
  decide

/-- Generator, Codebooks: a codebook is held, and `cbld` of address 0. -/
theorem test_witness_GeneratorAndCodebooks :
    clears (stand (fun p => { p with cb := some 5 }) id id)
      (fun c => !c.widePending .cb && decide (c.book.toList = [5]) && decide (c.sc 1 = 0))
      (fun _ => [[.vw 3, .pr 4], [.sr 30, .sr 31], [.sr 1], [.vw 3, .vr 4]]) := by
  decide

/-- Codebooks: 32 bytes of the core's own memory to be loaded. -/
theorem test_witness_CodebookLoad :
    clears (stand (holding [] [(1, 0x20000)]) id id)
      (fun c => decide (c.sc 1 ≠ 0) && !c.acqPending && c.p.fenceR.isEmpty &&
        (placeOf c 32 true false (c.sc 1).toNat).any (fun x => c.act.all (fun l => atHand c 32 l x))) (fun _ => [[.sr 1]]) := by
  decide

/-- LimbWords, traps: a party of two lanes, bound or not, one of whose lanes the guard leaves out; a binding that takes in
lanes that are not there; a shift by the width of the integer. -/
theorem test_witness_LimbTraps :
    (∀ n ∈ ([1, 0] : List Nat),
      clears (stand (fun p => { p with
          limbCtl := BitVec.ofNat 32 n,
          bundles := p.bundles ++ p.bundles.map (fun (b : Bundle) => { b with id := 8, mask := 2, phase := .waiting, run := none }) }) id id)
        (fun c => decide (c.limbCtl = BitVec.ofNat 32 n) && decide (c.act = [0]) && decide (c.p.mask = 3) &&
          (integerOf 1 0).any (fun k => !c.act.contains k))
        (fun _ => [[.pw 2, .pr 4, .pr 6], [.pw 2, .pr 4], [.pr 4, .pr 6, .need true], [.pw 2, .pr 2, .pr 4, .pr 6], [.vw 3],
          [.pw 2, .pr 4, .vr 5], [.need true], []])) ∧
    clears plain (fun c => decide (c.limbCtl = 0) && decide (maskOf c.act = c.p.mask) && decide (0 ∈ c.act) && decide (1 ∉ c.act))
      (fun _ => [[.need true]]) ∧
    clears (stand (fun p => { holding [(5, 128)] [] p with
        limbCtl := 1, bundles := p.bundles.map (fun (b : Bundle) => { b with mask := 3 }) }) id id)
      (fun c => decide (c.limbCtl = 1) && decide (c.act = [0, 1]) && decide (c.limbLanes = 2) && decide (128 ≤ (c.v 5 0).toNat))
      (fun _ => [[.pw 2, .pr 4, .vr 5]]) := by
  decide

/-- LimbWords: an integer of two lanes in a binding, and the unbound party. -/
theorem test_witness_LimbWords :
    clears plain (fun c => decide (c.limbCtl = 0) && decide (maskOf c.act = c.p.mask)) (fun _ => [[]]) ∧
    clears (stand (fun p => { p with limbCtl := 1, bundles := p.bundles.map (fun (b : Bundle) => { b with mask := 3 }) }) id id)
      (fun c => decide (c.limbCtl ≠ 0) && decide (c.act = [0, 1]) && decide (maskOf c.act = c.p.mask) && decide (c.limbLanes = 2) &&
        decide ((c.v 5 0).toNat < 128))
      (fun _ => [[.pw 2, .pr 4, .pr 6], [.pw 2, .pr 4], [.pw 2, .pr 4, .vr 5], [.pr 4, .pr 6], [.pw 2, .pr 2, .pr 4, .pr 6], [.vw 3], []]) := by
  decide

/-- Jumps: targets that hold the run header of the placed run, by offset, by pointer and by table. -/
theorem test_witness_Jumps :
    clears (stand (holding [(4, 0x10000)] [(1, 0x10000)]) id id)
      (fun c => headerThere c c.r.header.toNat && headerThere c (c.v64 4 0).toNat &&
        headerThere c (c.sc 1 + ((c.v 5 0).setWidth 64 <<< 2)).toNat && (c.divided (fun _ => 0)).isEmpty)
      (fun _ => [[], [.pw 54], [.pr 4], [.pw 54, .pr 4], [.vr 5, .sr 1]]) := by
  decide

/-- Windows: at the top of a window space of 64 registers, and at its bottom. -/
theorem test_witness_Windows :
    clears plain (fun c => c.act.all (fun l => decide (c.wbOf l + 8 + 56 ≤ c.p.winSize) && decide (c.p.winSize < c.wbOf l + 9 + 56) &&
      decide (c.wbOf l < 1))) (fun _ => [[.need true]]) ∧
    clears (stand (fun p => { p with bundles := p.bundles.map (fun (b : Bundle) => { b with wb := 8 }) }) id id)
      (fun c => c.act.all (fun l => decide (8 ≤ c.wbOf l) && decide (c.lowReg l ≤ c.wbOf l - 8)) && c.p.fenceR.isEmpty)
      (fun _ => [[.need true]]) := by
  decide

/-- CommitWords: with no trap record, and with one that covers the party. -/
theorem test_witness_CommitWords :
    clears (stand (fun p => { p with trap := some ⟨0, 1, 0, 0x10004, 0, none, []⟩ }) id id)
      (fun c => (c.divided (fun _ => 0)).isEmpty && decide (maskOf c.act = c.p.mask) &&
        c.p.trap.any (fun r => c.act.all (fun l => decide (c.wbOf l = r.baseOf l)))) (fun _ => [[]]) := by
  decide

/-- Forks. -/
theorem test_witness_Forks :
    clears plain (fun c => decide (c.limbCtl = 0) && decide (c.p.originDev = c.s.devId) && decide (Map.find c.b.ans 64 = none) &&
      decide ((c.s.lineage c.p.lineageKey).count = 1)) (fun _ => [[.vw 3, .pr 4, .gr 0 56]]) := by
  decide

/-- SpecialRegisters, with LIMB_FLAGS bits defined. -/
theorem test_witness_SpecialRegisters :
    clears (stand (fun p => { p with limbCtl := 1 }) id id) (fun c => decide (c.limbCtl.toNat % 8 = 1) && srAssigned 0x041)
      (fun _ => [[.sw 30, .need true], [.sw 31, .need true], [.sr 3, .need true]]) := by
  decide

/-- TrapWords: a party that may form a trap party, one whose slot is taken, a trap party, and a halt-enabled core. -/
theorem test_witness_TrapWords :
    clears (stand (fun p => { p with handler := 0x10000 }) id id)
      (fun c => c.p.seed.isNone && c.p.trap.isNone && (c.s.lineage c.p.lineageKey).slot.isNone && decide (c.p.handler ≠ 0) &&
        decide (c.p.limbCtlFor c.b = 0) && decide (c.r.wb0 = []) && decide (c.pid < c.s.keys) && !c.s.haltEnabled c.core) (fun _ => [[]]) ∧
    clears (stand id id (fun s => { s with
        lineages := s.lineages.map (fun (e : Nat × Lineage) => (e.1, { e.2 with slot := some ⟨0, 1, 0, 0, 0, none, []⟩ })) }))
      (fun c => c.p.seed.isNone && c.p.trap.isNone && (c.s.lineage c.p.lineageKey).slot.isSome) (fun _ => [[]]) ∧
    clears (stand (fun p => { p with trap := some ⟨0, 1, 0, 0, 0, none, []⟩ }) id id)
      (fun c => c.p.seed.isNone && c.p.trap.isSome) (fun _ => [[]]) ∧
    clears (stand id id (fun s => { s with regs := { s.regs with haltEn := [(0, 1)] } })) (fun c => c.s.haltEnabled c.core)
      (fun _ => [[]]) := by
  decide

/-- A party at a word that waits for an answer, with the answer there or not. -/
def answered (l : List (Nat × Answer)) (p : Party) : Party :=
  { p with bundles := p.bundles.map (fun (b : Bundle) => { b with ans := l }) }

/-- BarrierWords and RejoinWords: barrier 5 of the core, fresh and not, before and after the answer; a team barrier. -/
theorem test_witness_Barriers :
    clears (stand (holding [] [(1, 5), (2, 2)]) id id)
      (fun c => decide (c.barRef (c.sc 1) = some (.named 0 0 5)) && decide (c.sc 2 ≠ 0) && decide ((c.sc 2).toNat ≤ 65535) &&
        decide (Map.find c.b.ans 64 = none) && c.p.commitReady c.b.id && !c.fresh && decide (c.p.bundles.length = 1) &&
        decide (c.s.namedBar (c.sc 1) = some (.named c.s.devId c.core 5)) && !(c.sc 1).getLsbD 63)
      (fun _ => [[.sr 1, .sr 2], [.sr 3, .sr 1, .sr 2], [.sw 3, .sr 1, .sr 2], [.sr 1]]) ∧
    clears (stand (holding [] [(1, 0x8000000000000003), (2, 0)]) (fun r => { r with cont := true }) id)
      (fun c => decide (c.barRef (c.sc 1) = some (.team c.p.teamKey 3)) && decide ((c.sc 2).toNat ≤ 65535) && c.stoppedAt.isNone &&
        decide (Map.find c.b.ans 64 = none) && c.p.commitReady c.b.id && c.fresh)
      (fun _ => [[.sr 1, .sr 2], [.sr 3, .sr 1, .sr 2], [.sw 3, .sr 1, .sr 2]]) ∧
    clears (stand (holding [] [(1, 5), (2, 2)]) (fun r => { r with cont := true }) id)
      (fun c => decide (c.s.namedBar (c.sc 1) = some (.named c.s.devId c.core 5)) && !(c.sc 1).getLsbD 63 && c.fresh &&
        decide (Map.find c.b.ans 64 = none) && c.p.commitReady c.b.id && decide (c.p.bundles.length = 1) &&
        decide (c.s.releaseWaits c.p c.pid 4 = [])) (fun _ => [[.sr 1], [.sr 1, .sr 2]]) ∧
    clears (stand (fun p => answered [(64, .expired)] (holding [] [(1, 5), (2, 65535)] p)) id id)
      (fun c => decide (c.barRef (c.sc 1) = some (.named 0 0 5)) && decide ((c.sc 2).toNat ≤ 65535) &&
        decide (Map.find c.b.ans 64 = some .expired)) (fun _ => [[.sr 3, .sr 1, .sr 2], [.sr 1]]) := by
  decide

/-- Checks that let a word go ahead. -/
def goes : Pre → Bool
  | .go => true
  | _ => false

/-- `goes` is the statements' `goesAhead`. -/
theorem goes_iff (p : Pre) : goes p = true ↔ goesAhead p := by
  cases p <;> simp [goes, goesAhead]

/-- GridWords: a record and a completion word that the part can read; a watched word that differs, and one that does
not. -/
theorem test_witness_GridWords :
    clears (stand (holding [(4, 0x20000)] [(1, 0x20000), (2, 0)]) id id)
      (fun c => decide (c.p.partyId = 0) && !c.acqPending && (placeOf c 256 true false (c.sc 1).toNat).isSome && c.p.fenceR.isEmpty &&
        (placeOf c 8 true false (c.sc 1).toNat).any (fun x => c.act.all (fun l => atHand c 8 l x) && decide (memNat c.s.mem x.pa 8 = 0)) &&
        decide (Map.find c.b.ans 64 = none) && decide (Map.find c.b.ans 70 = none) && decide (Map.find c.b.ans 71 = none) &&
        decide (intFmt (c.fmtOr 20)) && c.act.all (fun l => (placeOf c 4 true false (c.v64 4 l).toNat).any (fun x =>
          nearBy c 4 l x && decide (readNum c x 4 = c.op 32 6 l))) && decide (c.sc 2 = 0))
      (fun _ => [[.sr 1], [.sw 3, .sr 1], [.src 32 6, .pr 4, .sr 2]]) ∧
    clears (stand (holding [(4, 0x10000)] [(1, 0x10000), (2, 7)]) id id)
      (fun c => !c.acqPending && (placeOf c 8 true false (c.sc 1).toNat).any (fun x => c.act.all (fun l => atHand c 8 l x) &&
          decide (memNat c.s.mem x.pa 8 ≠ 0)) && decide (c.sc 2 ≠ 0) &&
        c.act.any (fun l => (placeOf c 4 true false (c.v64 4 l).toNat).any (fun x =>
          nearBy c 4 l x && decide (readNum c x 4 ≠ c.op 32 6 l))))
      (fun _ => [[.sw 3, .sr 1], [.src 32 6, .pr 4, .sr 2]]) ∧
    clears (stand (fun p => { p with partyId := 1 }) id id) (fun c => decide (c.p.partyId ≠ 0)) (fun _ => [[.sr 1]]) := by
  decide

/-- Loads and Stores, with pointers in registers and in scalars, at the narrowest and the widest width. -/
theorem test_witness_LoadsAndStores :
    clears (stand (holding [(4, 0x20000)] [(1, 0x20000)]) id id)
      (fun c => !c.acqPending && c.p.fenceR.isEmpty && ([1, 16] : List Nat).all (fun n =>
        c.act.all (fun l => (placeOf c n true false (c.addr 31 4 l)).any (nearBy c n l)) &&
        c.act.all (fun l => (placeOf c n true false (c.addr 1 6 l)).any (nearBy c n l)) &&
        c.act.all (fun l => (placeOf c n false true (c.addr 31 4 l)).any (writable c n)) &&
        (placeOf c n true false (c.sc 1 + c.sc 2 + c.disp).toNat).any (fun x => c.act.all (fun l => nearBy c n l x) && writable c n x)))
      (fun _ => [addrArgs 31 4 ++ [widthDst 0 8, .need true, .need true], addrArgs 1 6 ++ [widthDst 6 8, .need true, .need true],
        scalarAddrArgs 1 2 ++ [.sw 3, .need true, .need true], addrArgs 31 4 ++ widthSrc 0 8 ++ [.need true, .need true, .need true],
        addrArgs 31 4 ++ widthSrc 6 8 ++ [.need true], scalarAddrArgs 1 2 ++ [.sr 3, .need true, .need true]]) := by
  decide

/-- Atomic words, as `add` on 32 bits and `cas` on 64. -/
theorem test_witness_Atomics :
    clears (stand (holding [(4, 0x20000)] []) id id)
      (fun c => decide (atomSel 0 (c.fmtOr 20) = some (.add, false)) && !c.acqPending &&
        c.act.all (fun l => (placeOf c 4 true true (c.addr 31 4 l)).any (writable c 4)))
      (fun _ => [addrArgs 31 4 ++ [atomOperand (some (.add, false)) 8, .need true, .vw 8],
        addrArgs 31 4 ++ [.pw 8, atomOperand (some (.add, false)) 8]]) ∧
    clears (stand (holding [(4, 0x20000)] []) (modded 4 3 0 0 23) id)
      (fun c => decide (atomSel 7 (c.fmtOr 20) = some (.cas, true)) && !c.acqPending &&
        c.act.all (fun l => (placeOf c 8 true true (c.addr 31 4 l)).any (writable c 8)))
      (fun _ => [addrArgs 31 4 ++ [atomOperand (some (.cas, true)) 8, .need true, .vw 8, .pw 8],
        addrArgs 31 4 ++ [atomOperand (some (.cas, true)) 8, .need true]]) := by
  decide

/-- A page of FP8 elements at 2^30, and a page of the cluster's scratchpad at 2^31, held by the translation buffer. -/
def mapped (s : State) : State :=
  let page := fun (base fmt : Nat) (e : BitVec 256) (t : Target) =>
    Leaf.mk 0 base 16 0 true true false fmt e t;
  { s with cores := Map.put s.cores 0 { s.core 0 with
      tlb := [page (2 ^ 30) 1 (BitVec.ofNat 256 (4 + 32 * 2 ^ 8 + 0 * 2 ^ 16 + 16 * 2 ^ 24 + 2 ^ 30 * 2 ^ 64 + 2 ^ 31 * 2 ^ 128))
          (.dram 0 0 0 0x40000),
        page (2 ^ 31) 0 0 (.scratch 0 0)] } Core.init }

/-- ElementWords: an element of a formatted page, to be read and to be written. -/
theorem test_witness_ElementWords :
    clears (stand (holding [] [(1, 0x40000000)]) id mapped)
      (fun c => !c.acqPending && !c.widePending .cb && c.p.fenceR.isEmpty &&
        ([(true, false), (false, true)] : List (Bool × Bool)).all (fun e => c.act.all (fun l =>
          match c.elemAcc l (c.elemBase 1 6 l).1 (c.elemBase 1 6 l).2 e.1 e.2 with
          | .ok t => nearBy c t.ref.bytes l t.ref.data && writable c t.ref.bytes t.ref.data && !c.s.elemLocked t.ref false &&
              !t.ref.comp.any (fun y => c.s.locked y.1 1 true) && decide (Map.find c.b.ans (256 + l) = none) &&
              t.ref.planes.all (fun y => !c.s.poisoned y.pa 1 && !c.s.elsewhere y && !c.isHeld l (c.s.homeOf y) &&
                !c.unsent l (c.s.homeOf y)) && (c.queuedTeam t.ref.data).isNone && c.p.pend.all (fun o => decide (o.id < c.s.keys))
          | _ => false)))
      (fun c => [addrArgs 1 6 ++ [.vw 3, .need true, .need true],
        addrArgs 1 6 ++ [.vr 3, .need true, .need true, .need true, .need true] ++ c.drawArgs]) := by
  decide

/-- TicketRequests: a lane's own datum, and a block of 4,096 B. -/
theorem test_witness_TicketRequests :
    clears (stand (holding [(4, 0x20000)] [(1, 0x20000), (2, 4096)]) id id)
      (fun c => !c.acqPending && c.p.fenceR.isEmpty && c.act.all (fun l => (placeOf c 16 true false (c.addr 31 4 l)).any (fun x =>
        !c.isHeld l (c.s.homeOf x))) && decide ((c.sc 2).toNat % 16 = 0) &&
        (placeOf c 16 true false (c.sc 1 + c.disp).toNat).any (fun x => c.act.all (fun l => !c.isHeld l (c.s.homeOf x))))
      (fun _ => [addrArgs 31 4 ++ [.pw 8, .need true, .need true], [.hw 3, .sr 2, .sr 1, .need true, .need true]]) := by
  decide

/-- A descriptor of two rows of 4 B at 0x20000 (R80). -/
def gathered (s : State) : State :=
  { s with mem := memPuts s.mem 0x20000 (leBytes 8 0x30000 ++ leBytes 4 4 ++ leBytes 4 2) }

/-- TicketRequests: a gather whose index names a row, and one whose index names none. -/
theorem test_witness_Gather :
    clears (stand (holding [(6, 1)] [(1, 0x20000)]) id gathered)
      (fun c => !c.acqPending && c.p.fenceR.isEmpty && decide (Map.find c.b.ans 64 = none) &&
        (placeOf c 64 true false (c.sc 1 + c.disp).toNat).any (fun x => c.act.all (fun l => atHand c 64 l x) &&
          decide (readNum c x 64 = 0x30000 + 4 * 2 ^ 64 + 2 * 2 ^ 96)) && decide ((c.v 6 0).toInt < 2) &&
        (placeOf c 4 true false 0x30004).any (fun y => !c.isHeld 0 (c.s.homeOf y)))
      (fun _ => [[.pw 8, .vr 6, .need true, .sr 1, .need true]]) ∧
    clears (stand (holding [(6, 2)] [(1, 0x20000)]) id gathered) (fun c => decide ((2 : Int) ≤ (c.v 6 0).toInt))
      (fun _ => [[.pw 8, .vr 6, .need true, .sr 1, .need true]]) := by
  decide +kernel

/-- A ticket of the party's launch for entry 0 of slice 0. -/
def ownTicket (block : Bool) : DWord := mkTicket 0 0 0 1 block 1 0

/-- TicketUses: a ticket of the party; the answers to a test and to the claim of a block; the null ticket. -/
theorem test_witness_TicketUses :
    clears (stand (holding [(4, (ownTicket false).setWidth 32), (5, (ownTicket false >>> 32).setWidth 32)] []) id id)
      (fun c => c.act.all (fun l => !c.foreign (c.v64 4 l) false && decide (c.v64 4 l ≠ 0)) && !c.acqPending)
      (fun _ => [[.pr 4, .vw 8, .need true], [.pr 4, .qw 8, .need true], [.pr 4]]) ∧
    clears (stand (fun p => answered [(0, .flag true)]
        (holding [(4, (ownTicket false).setWidth 32), (5, (ownTicket false >>> 32).setWidth 32)] [] p)) id id)
      (fun c => c.act.all (fun l => (testAnswer c l (c.v64 4 l)).isSome)) (fun _ => [[.pr 4]]) ∧
    clears (stand (fun p => answered [(64, .data (List.replicate 16 7) false)]
        { holding [] [(3, 0x80000000)] p with hand := [(4, ownTicket true)] }) id mapped)
      (fun c => !c.acqPending && decide (c.hd 4 ≠ 0) && !c.foreign (c.hd 4) true &&
        (placeOf c 1 false true (c.sc 3).toNat).any (fun x => x.isScratch && c.s.isLocal c.core x) && !c.walkDue (c.sc 3).toNat &&
        decide ((claimData c 64 (c.hd 4)).toList = [List.replicate 16 7]) && oneGranule (c.sc 3).toNat (c.lenOf (c.hd 4)))
      (fun _ => [[.sr 3, .hr 4], [.hr 4]]) ∧
    clears plain (fun c => !c.foreign (c.hd 4) true && (testAnswer c 64 (c.hd 4)).isSome && !c.acqPending && decide (c.hd 4 = 0) &&
      decide (Map.find c.b.ans 64 = none) &&
      decide (c.s.access c.core c.p.asid (c.sc 3).toNat 1 false true ≠ .page) &&
      decide (c.s.access c.core c.p.asid (c.sc 3).toNat 1 false true ≠ .wait) &&
      c.act.all (fun l => !c.foreign (c.v64 4 l) false && decide (c.v64 4 l = 0))) (fun _ => [[.sr 3, .hr 4], [.hr 4], [.pr 4]]) := by
  decide

/-- MemorySide: operands of each group at an address of the core, a null and another pointer, a row of the scratchpad. -/
theorem test_witness_MemorySide :
    clears (stand (holding [(8, 0x20000), (10, 0x80000000), (12, 16)] []) id mapped)
      (fun c => !c.acqPending && c.act.all (fun l => ([16, 32] : List Nat).all (fun n =>
          (placeOf c n true true (c.v64 8 l + c.disp).toNat).any (fun x => !x.isHost)) &&
          decide ((c.v64 10 l).toNat = 0x80000000) && decide ((c.v 12 l).toNat = 16) && (c.rowSource (c.v64 10 l).toNat 16).isSome))
      (fun _ => [[.pw 2, .need true, .gr 8 12, .need true], [.pw 60, .need true, .gr 8 4, .need true],
        [.qw 4, .need true, .gr 8 20, .need true], [.gr 8 5, .need true, .need true]]) ∧
    clears (stand (holding [(8, 0x20000), (10, 4088)] []) id id)
      (fun c => !c.acqPending && c.act.all (fun l => decide ((c.v 10 l).toNat = 4088) && decide ((c.v64 8 l).toNat ≠ 0) &&
        (placeOf c 8 true false ((c.v64 8 l).toNat + 4088)).any (fun x => !x.isHost)))
      (fun _ => [[.pw 2, .gr 8 3, .need true, .need true]]) ∧
    clears plain (fun c => c.act.all (fun l => decide ((c.v64 8 l).toNat = 0))) (fun _ => [[.pw 60, .gr 8 3, .need true, .need true]]) := by
  decide

/-- CopyAndHandles: a copy of 16 B between pages of the core, a strided and a gathered one with their descriptors, and
the null handle, a complete, an incomplete and a refused operation. -/
theorem test_witness_Copies :
    clears (stand (holding [] [(1, 0x20000), (2, 0x30000), (3, 16)]) id id)
      (fun c => goes (c.engineChecks (CopyReq.mk .cpy false 0x20000 0x30000 16 1 0 0 [])) &&
        goes (c.engineChecks (CopyReq.mk .cpyr false 0x20000 0x30000 16 1 0 0 [])) && decide (c.fmtOr 0 = 0) &&
        (c.s.pickEngine (c.engineStack (CopyReq.mk .cpy false 0x20000 0x30000 16 1 0 0 []))).isSome)
      (fun _ => [[.hw 3, .sr 1, .need true, .sr 2, .sr 3]]) ∧
    clears (stand (holding [] [(1, 0x20000)]) id (fun s => { s with
        mem := memPuts s.mem 0x20000 (leBytes 32 (0x30000 + 0x40000 * 2 ^ 64 + 16 * 2 ^ 192 + 2 ^ 208)) }))
      (fun c => !c.acqPending && c.p.fenceR.isEmpty && goes (c.readRange 0x20000 32 (fun _ => .go)) &&
        decide (leNat (c.rangeBytes 0x20000 32) = 0x30000 + 0x40000 * 2 ^ 64 + 16 * 2 ^ 192 + 2 ^ 208) &&
        goes (c.engineChecks (CopyReq.mk .cpys false 0x30000 0x40000 16 1 0 0 [])))
      (fun _ => [[.hw 3, .sr 1]]) ∧
    clears (stand (holding [] [(1, 0x30000), (2, 0x20000), (3, BitVec.ofNat 64 (1 + 16 * 2 ^ 32))]) id (fun s => { s with
        mem := memPuts s.mem 0x20000 (leBytes 8 0x40000) }))
      (fun c => !c.acqPending && c.p.fenceR.isEmpty && goes (c.readRange 0x20000 8 (fun _ => .go)) &&
        decide (leNat (c.rangeBytes 0x20000 8) = 0x40000) &&
        goes (c.engineChecks (CopyReq.mk .cpyg false 0x30000 0 16 1 0 0 [0x40000])))
      (fun _ => [[.hw 3, .sr 1, .need true, .sr 2, .sr 3]]) := by
  decide +kernel

/-- A handle of engine 0 of this module with SEQ 0, under the launch of the placed party. -/
def engHandle : DWord := BitVec.ofNat 64 (1 * 2 ^ 56 + 2 ^ 63)

/-- An operation of engine 0. -/
def engOp (op : Nat) (started : Bool) : EngOp :=
  { op := op, seq := 0, kind := .cpy, bf16 := false, dst := 0x20000, src := 0x30000, len := 16, rows := 1, dstStep := 0,
    srcStep := 0, list := [], leaves := [], party := 2, grid := 1, team := 0, lcheck := 1, committed := true, after := [],
    started := started, limit := none, sent := false, lin := 2 ^ 32 + 1 }

/-- CopyAndHandles, its handles. -/
theorem test_witness_Handles :
    clears plain (fun c => decide (c.hd 4 = 0)) (fun _ => [[.sw 3, .hr 4], [.hr 4]]) ∧
    (∀ v ∈ ([([engOp 9 false], HandleRes.pending), ([], .done 16)] : List (List EngOp × HandleRes)),
      clears (stand (fun p => { p with hand := [(4, engHandle)] }) id (fun s => { s with engines := [(0, ⟨1, v.1, [(0, 16)]⟩)] }))
        (fun c => handleBits (c.hd 4) c.p.launchId && decide (field (c.hd 4) 8 20 = c.s.devId) && decide (field (c.hd 4) 28 2 ≠ 1) &&
          !c.acqPending && decide (c.s.readHandle (c.hd 4) = v.2)) (fun _ => [[.sw 3, .hr 4], [.sw 31, .hr 4], [.hr 4]])) ∧
    clears (stand (fun p => { p with hand := [(4, engHandle + 2 ^ 28 + 2 ^ 44)] }) id (fun s => { s with
        frames := [(0, { FrameEnt.init with gen := 2, lastGen := 1, lastBad := true })] }))
      (fun c => handleBits (c.hd 4) c.p.launchId && (match c.s.readHandle (c.hd 4) with
        | .refused _ => true
        | _ => false)) (fun _ => [[.sw 3, .hr 4]]) := by
  decide +kernel

/-- A frame of this module under the launch of the placed party, entry 0, GEN 1. -/
def ownFrame : DWord := mkFrame 0 0 1 1

/-- FrameWords: requests before and after their answers, the null frame, and `stx` under a binding. -/
theorem test_witness_FrameWords :
    clears (stand (fun p => { holding [(4, 0x20000)] [] p with hand := [(4, ownFrame)], frame := ownFrame }) id id)
      (fun c => !c.acqPending && decide ((c.hd 4).getLsbD 63 = false) && decide (field (c.hd 4) 40 16 = 0) &&
        decide (field (c.hd 4) 56 7 = c.p.launchId.setWidth 7) && decide (Map.find c.b.ans 64 = none) &&
        decide (intFmt (c.fmtOr 20)) && decide (c.frame ≠ 0) && decide (field c.frame 12 20 = c.s.devId) &&
        c.act.all (fun l => (placeOf c 4 false true (c.v64 4 l).toNat).any (fun x =>
          !x.isHost && !x.isScratch && decide (x.dev = c.s.devId))))
      (fun _ => [[.hw 3, .sr 1], [.hw 3, .hr 4, .sr 1], [.hw 3, .hr 4], [.hr 4], [.src 32 6, .pr 4, .vr 5]]) ∧
    clears (stand (answered [(64, .val 5)]) id id)
      (fun c => decide (Map.find c.b.ans 64 = some (.val 5)) && decide (c.hd 4 = 0) && !c.acqPending) (fun _ => [[.hw 3, .sr 1], [.hr 4]]) := by
  decide

/-- The state in which the sequencer of the placed team stands at a word. -/
def standSeq (w : Nat) (f : Seqr → Seqr) (h : State → State) : State :=
  let s := State.reset.withFetchWord 32 w;
  h { s with
    schedule := [], actor := .sequencer (placeTeam s),
    teams := s.teams.map (fun (e : Nat × Team) => (e.1, { e.2 with seqr := e.2.seqr.map f })) }

/-- A condition on the sequencer that is to execute a word. -/
def seqMeets (s : State) (q : SeqCtx → Bool) : Bool := s.seqCtx?.any (fun c => c.runs && q c)

/-- A tile pair of FP32 for operand pair 0, in the sequencer's registers m0 and m1, m14 and m15 (R257). -/
def pairIn (q : Seqr) : Seqr :=
  { q with m := [(0, 0x20000), (1, 0x80), (2, 0x30000), (3, 0x80)] }

/-- MatrixWords: `mput` of a party below 8 with an empty queue, `mget` of a tile the team has, and both of a party that
visits from another module. -/
theorem test_witness_MatrixTransfers :
    clears (stand id (modded 4 0 0 0 2) (fun s => { s with
        teams := s.teams.map (fun (e : Nat × Team) => (e.1, { e.2 with seqr := some (Seqr.start 0x10000) })) }))
      (fun c => c.p.seed.isNone && c.stoppedAt.isNone && decide (c.fmtOr 2 = 2) && decide (c.p.partyId.toNat < 8) &&
        decide (c.p.originDev = c.s.devId) && decide (c.s.queueLen c.p.teamKey c.p.partyId.toNat < 8) &&
        (Map.find c.s.teams c.p.teamKey).any (fun t => t.seqr.isSome && decide ((c.sc 1).toNat < t.tiles.length)))
      (fun c => [.need true :: (List.range 8).map (fun i => .xr (8 + i) ((lanesOf c.b.mask).map (fun l => (c.act.headD 64, l)))),
        .need true :: .sr 1 :: (List.range 16).map (fun i => .vw (40 + i))]) ∧
    clears (stand (fun p => answered [(73, .val 0)] { p with originDev := 5 }) (modded 4 0 0 0 2) (fun s => { s with
        visits := s.grids.flatMap (fun e => s.parties.map (fun (x : Nat × Party) => (x.2.visitKey, Visit.mk e.2.rcd e.2.dict []))) }))
      (fun c => c.p.seed.isNone && decide (c.fmtOr 2 = 2) && decide (c.p.originDev ≠ c.s.devId) &&
        decide (Map.find c.b.ans 73 = some (.val 0)) && decide (c.p.partyId.toNat < 8) &&
        (c.s.launchOf c.p).any (fun v => decide ((c.sc 1).toNat < v.rcd.accum)))
      (fun c => [.need true :: (List.range 8).map (fun i => .xr (8 + i) ((lanesOf c.b.mask).map (fun l => (c.act.headD 64, l)))),
        .need true :: .sr 1 :: (List.range 16).map (fun i => .vw (40 + i))]) := by
  decide +kernel

/-- MatrixWords: a sequencer without loops and words in flight, one in a loop, one with four, one that has been
released. -/
theorem test_witness_Sequencer :
    seqMeets (standSeq 0xF4000000 id id) (fun c => c.q.loops.isEmpty && c.q.work.isEmpty && decide (c.q.st ≠ .waitBar) &&
      decide (5 < c.t.tiles.length) && decide (c.t.tiles.length ≤ 1023) && c.s.poison.isEmpty) = true ∧
    seqMeets (standSeq 0xF4000000 (fun q => { q with loops := [(8, 2)] }) id) (fun c => decide (c.q.loops = [(8, 2)])) = true ∧
    seqMeets (standSeq 0xF4000000 (fun q => { q with loops := [(8, 2), (8, 2), (8, 2), (8, 2)] }) id)
      (fun c => decide (4 ≤ c.q.loops.length)) = true ∧
    seqMeets (standSeq 0xF4000000 (fun q => { q with st := .waitBar, freed := true }) id)
      (fun c => decide (c.q.st = .waitBar) && c.q.freed) = true := by
  decide +kernel

/-- MatrixWords: a parameter block that can be read, across two pages, and one that lies where nothing is. -/
theorem test_witness_Parameters :
    (∀ e ∈ ([(0x20FFC, true), (2 ^ 52, false)] : List (Nat × Bool)),
      seqMeets (standSeq 0xF4000000 id (fun s => { s with
          grids := s.grids.map (fun (g : Nat × Grid) => (g.1, { g.2 with rcd := { g.2.rcd with param := BitVec.ofNat 64 e.1 } })) }))
        (fun c => ([8, 32] : List Nat).all (fun n =>
          match c.s.readVa (.stream c.key) (4 * c.t.cluster) c.g.asid e.1 n with
          | .ok y => e.2 && decide (y.length = n)
          | .bad => !e.2
          | _ => false)) = true) := by
  decide +kernel

/-! ## Witnesses of steps, runs and events -/

/-- An instruction of core 0's bundle executes, and no trap of another core in the same clk comes before one that it raises
(R42). -/
def first (s : State) (i : Instr) (note : State → State) : Bool :=
  match exec i s with
  | .next t => ((State.delivered { s with actor := .none } (note t) 0).bind (State.rival { s with actor := .none } 0)).isNone
  | _ => false

/-- StepRunsDecoded: the next bundle, a header, a sequencer and an event. -/
theorem test_witness_StepRunsDecoded :
    (let s := State.reset.withFetchWord 32 0x29C31050;
     let s1 : State := { s with steps := 1, schedule := [], actor := .bundle 2 1 };
     s.schedule = [.issue 0] ∧ State.candidates { s with steps := 1, schedule := [] } 0 = [(2, 1)] ∧
     (s1.ctx?.any (fun c => c.canIssue && !c.word.bad && decide (decodeWord c.word.w = some (.add 7 3 4 5)) && !s1.noRoom 2 c.b.mask)) = true ∧
     s1.raiseClaims 2 1 = none ∧ first s1 (.add 7 3 4 5) (fun t => t.noteWalks s1 (.add 7 3 4 5)) = true ∧
     matrixWord (.add 7 3 4 5) = false) ∧
    (let s := State.reset.withFetchWord 32 0xF82000FF;
     State.candidates { s with steps := 1, schedule := [] } 0 = [(2, 1)] ∧
     ((s.party? 2).any (fun p => (p.bundle? 1).any (fun b => decide (b.phase = .waiting) && b.asked.isEmpty &&
       decide (s.fetchFor b p.core p.asid b.pc.toNat = .word 0xF82000FF)))) = true ∧
     first { s with steps := 1, schedule := [], actor := .bundle 2 1 } (.runHeader 1 0 0 15 15) (fun t => t.noteWalk s 0 0 0x10000) = true ∧
     decodeWord 0xF82000FF = some (.runHeader 1 0 0 15 15)) ∧
    (let s := State.reset.withFetchWord 32 0xF4000000;
     s.schedule = [.sequence (placeTeam s)] ∧
     (({ s with steps := 1, schedule := [], actor := .sequencer (placeTeam s) } : State).seqCtx?.any (fun c => c.runs &&
       decide (c.q.st ≠ .waitBar) && decide (c.fetch = .word 0xF4000000))) = true ∧
     State.teamOver { s with steps := 1, schedule := [], actor := .sequencer (placeTeam s) } (placeTeam s) = false ∧
     decodeWord 0xF4000000 = some .mend ∧ matrixWord .mend = true) ∧ isEvent .powerLoss = true := by
  decide +kernel

/-- The placed party, changed, with nobody's instruction in execution. -/
def rest (f : Party → Party) (h : State → State) : State := stand f id (fun s => h { s with actor := .none })

/-- Its bundle changed. -/
def bundled (f : Bundle → Bundle) (p : Party) : Party := { p with bundles := p.bundles.map f }

/-- Its bundle at a header. -/
def waiting (p : Party) : Party := bundled (fun b => { b with phase := .waiting, run := none }) p

/-- A condition on the placed party and its bundle. -/
def finds (s : State) (q : Party → Bundle → Bool) : Bool := (s.party? 2).any (fun p => (p.bundle? 1).any (q p))

/-- RunWords: a hint word, and a header at which a bundle waits. -/
theorem test_witness_RunWords :
    (plain.ctx?.any (fun c => c.canIssue && decide (c.r.skip ≠ some c.here))) = true ∧
    finds (stand waiting id id) (fun p b => p.isActive && decide (b.phase = .waiting) && b.asked.isEmpty &&
      ([0, 1] : List Nat).all (fun i => decide ((stand waiting id id).fetchWord p.core p.asid (b.pc.toNat + 4 + 4 * i) ≠ .page) &&
        decide ((stand waiting id id).fetchFor b p.core p.asid (b.pc.toNat + 4 + 4 * i) ≠ .far)) &&
      decide ((readRun ((stand waiting id id).fetchFor b p.core p.asid) [] b.pc.toNat 1 false).2 = none)) = true := by
  decide +kernel

/-- The bundle at the end of its run, or before its beginning. -/
def phased (ph : Phase) (p : Party) : Party := bundled (fun b => { b with phase := ph }) p

/-- The placed bundle at the end of a run with these effects. -/
def finished (es : List Eff) (h : State → State) : State :=
  rest (bundled (fun b => { b with phase := .executed, run := b.run.map (fun (r : Run) => { r with eff := es }) })) h

/-- The hypotheses that `Commits` lists, and no message with a number to come. -/
def mayCommit (s : State) : Bool :=
  finds s (fun p b => p.isActive && decide (b.phase = .executed) && b.asked.isEmpty && p.commitReady 1 && decide (b.mask ≠ 0) &&
    decide ((p.bundles.map (fun x => x.id)).Nodup) && p.bundles.all (fun x => decide (x.id < s.keys)) &&
    Map.sorted p.vregs && Map.sorted p.lanes && p.trap.isNone &&
    b.run.any (fun r => Map.sorted r.ov.v && Map.sorted r.ov.preds && Map.sorted r.ov.fills)) &&
  Map.sorted s.parties && s.consumes.isEmpty && s.net.all (fun m => decide (m.id < s.keys))

/-- RunsAndReturns: a run that may begin, and returns: of a trap party, of one with an outer record, and to a continuation. -/
theorem test_witness_RunsAndReturns :
    finds (rest (phased .fetched) id) (fun p b => p.isActive && decide (b.phase = .fetched) && b.asked.isEmpty &&
      b.run.any (fun r => decide (r.wait = 0)) && p.gatesClear b && b.yieldTo.isNone && !p.counted &&
      !((rest (phased .fetched) id).core p.core).stopped && !(rest (phased .fetched) id).unitHeld p &&
      !(rest (phased .fetched) id).noRoom 2 b.mask) = true ∧
    (∀ n ∈ [false, true],
      let rec0 : TrapRec := ⟨0, 1, 0, 0x10004, 0, none, []⟩
      let s := finished [⟨1, .tret n⟩] (fun s => { s with
        parties := s.parties.map (fun (e : Nat × Party) => (e.1, { e.2 with
          trap := some rec0, nested := n, outer := if n then some rec0 else none })),
        lineages := s.lineages.map (fun (e : Nat × Lineage) => (e.1, { e.2 with slot := some rec0, holders := 1 })) })
      finds s (fun p b => p.isActive && decide (b.phase = .executed) && b.asked.isEmpty && p.commitReady 1 && decide (b.mask ≠ 0) &&
        p.trap.any (fun t => t.apart.isEmpty) && decide (p.nested = n) && decide (p.bundles = [b]) &&
        b.run.any (fun r => decide (r.ov = Overlay.empty)) && (s.lineage p.lineageKey).slot.isSome) = true ∧
        Map.sorted s.lineages = true) := by
  decide +kernel

/-- RunsAndReturns, commits: with nothing to send, with `yield` with and without another READY party of the core, with
`fence`, `exit`, `fend` of all and of some lanes, a child, and the operation of an engine. -/
theorem test_witness_RunCommits :
    (∀ e ∈ ([[], [⟨1, .yield⟩], [⟨1, .fence 0 3⟩], [⟨1, .exit⟩], [⟨1, .fend⟩], [⟨0, .fend⟩], [⟨1, .child 5 0x10000 0 0 [(3, 7)]⟩],
        [⟨1, .engine 0 0⟩]] : List (List Eff)), mayCommit (finished e id) = true ∧ finds (finished e id) (fun p b =>
        b.run.any (fun r => decide (r.eff = e)) && !p.mask.getLsbD 5 && decide (b.mask = 1)) = true) ∧
    (let s := finished [⟨1, .yield⟩] (fun s => { s with
       keys := 30, parties := s.parties ++ s.parties.map (fun (e : Nat × Party) => (9, { e.2 with place := .slot 0 .ready })) });
     mayCommit s = true ∧ ((s.residents 0).any (fun e => decide (e.1 ≠ 2) && decide (e.2.place = .slot 0 .ready) &&
       finds s (fun p _ => decide ((p.aged (s.clk p.core)).effPrio ≤ (e.2.aged (s.clk p.core)).effPrio)))) = true) := by
  decide +kernel

/-- RunsAndReturns, what runs send: messages that go out, one with a release and an acquire, plain local writes, a tile. -/
theorem test_witness_RunSends :
    (let d : Draft := { Draft.plain (.core 1 0) (.write ⟨1, 0x20000⟩ [1] []) with sync := true };
     let s := finished [⟨1, .send d⟩, ⟨1, .send d⟩] id;
     mayCommit s = true ∧ finds s (fun p _ => sentOut s p d) = true ∧ d.release = none ∧ d.acq = false ∧
     (let s := finished [⟨1, .send { d with release := some 3, acq := true }⟩] id;
      mayCommit s = true ∧ finds s (fun p _ => sentOut s p { d with release := some 3, acq := true }) = true)) ∧
    (let w : Eff := ⟨1, sending (.core 0 0) (.write ⟨0, 0x20000⟩ [1, 2] []) none false false false⟩;
     let s := finished [w, w] id;
     mayCommit s = true ∧ finds s (fun p b => p.fenceW.isEmpty && s.isLocal p.core ⟨0, 0x20000⟩ && !s.unsentTo 2 b.mask (.core 0 0) &&
       !s.queuedTo 2 (.core 0 0)) = true ∧ s.homeOf ⟨0, 0x20000⟩ = .core 0 0 ∧ s.locked ⟨0, 0x20000⟩ 2 true = false ∧
     (s.grids.all (fun e => e.2.undo.isEmpty && !e.2.prot)) = true) ∧
    (let s := finished [⟨1, .tile 0 ⟨0, [], none⟩⟩] (fun s => { s with
       teams := s.teams.map (fun (e : Nat × Team) => (e.1, { e.2 with seqr := some (Seqr.start 0x10000) })) });
     mayCommit s = true ∧ finds s (fun p _ => decide (p.originDev = s.devId) &&
       (Map.find s.teams p.teamKey).any (fun x => x.seqr.isSome)) = true) := by
  decide +kernel

/-- An operation of a committed run whose result has come. -/
def arrived : PendOp :=
  { id := 9, bundle := 1, lanes := 1, exec := true, flag := none, committed := true, late := false, acquire := false,
    ready := true, poison := false, va := 0, pa := 0, role := .plain, pc := 0, trap := none, dests := [.v 3 0, .push 0], vals := [5, 1] }

/-- Scheduling: a resident party, a READY one with room in the active set, a stalled one, one that yields, and an
operation whose result has come. -/
theorem test_witness_Scheduling :
    finds (rest waiting (fun s => { s with ns := 100000 })) (fun p b => p.resident && !p.isBlocked && b.mergeable) = true ∧
    61440 ≤ (rest waiting (fun s => { s with ns := 100000 })).clk 0 ∧
    (let s := rest (fun p => { waiting p with place := .slot 0 .ready }) id;
     (s.nextReady 0).map Prod.fst = some 2 ∧ ((s.residents 0).filter (fun e => e.2.isActive)).length < 8) ∧
    finds (rest (bundled (fun b => { b with phase := .held .grid, yieldTo := some 3 })) id)
      (fun p b => !p.able b && decide (p.place = .slot 0 .active) && decide (b.yieldTo = some 3)) = true ∧
    finds (rest (bundled (fun b => { b with asked := [9] })) (fun s => { s with ns := 1000 }))
      (fun p b => !b.departs && decide (p.place = .slot 0 .active) && decide (b.phase = .running) && decide (b.asked ≠ []) &&
        decide (256 < (rest id (fun s => { s with ns := 1000 })).clk 0 - b.stallAt)) = true ∧
    finds (rest (fun p => { p with pend := [arrived] }) id)
      (fun p _ => Map.sorted p.vregs && Map.sorted p.lanes && p.pend.all (fun o => o.ready && !o.poison && o.committed)) = true := by
  decide +kernel

/-- A message that arrives at core 0. -/
def letter (b : MsgBody) : Msg :=
  { id := 7, srcDev := 0, src := 0, dst := .core 0 0, party := 2, lin := 0, lanes := 1, grid := 0, team := 0, asid := 0,
    after := [], applied := false, sent := false, waited := 0, orig := 0, asked := false, old := false, qAt := 0, body := b }

/-- The state in which it has arrived. -/
def mailed (b : MsgBody) (h : State → State) : State := rest waiting (fun s => h { s with keys := 20, net := [letter b] })

/-- It arrives there. -/
abbrev arrives (b : MsgBody) (h : State → State) : Prop := (mailed b h).arriving 7 = some (letter b)

/-- RecordsAndQueues: a departing party, a record to be sent, accepted and admitted; a jammed stack is not needed for a
quiet evaluation; a party to be parked, a parked one, and a team to be saved. -/
theorem test_witness_RecordsAndQueues :
    finds (rest (fun p => phased (.departing (.core 0 40)) p) id) (fun p b => decide (b.phase = .departing (.core 0 40)) &&
      p.pend.isEmpty && !(rest id id).recordOut 2 && (p.firstDirty p.mask b.wb).isNone && !(rest id id).mustWait 2 p (.core 0 40) &&
      !p.behind.any (rest id id).yetToForm && p.isActive && Map.sorted p.vregs) = true ∧
    (let s := mailed (.context 2) id;
     s.deliverable (letter (.context 2)) = true ∧ finds s (fun p _ => (s.mayReserve (letter (.context 2)) 0 p.queueSlots).isSome &&
       p.rejoin.isNone) = true) ∧
    (let s := rest (fun p => { waiting p with place := .queued 0 }) id;
     (s.nextQueued 0).map Prod.fst = some 2 ∧ s.freeSlots 0 ≠ 0 ∧ (s.core 0).stopped = false) ∧
    (rest waiting (fun s => { s with ns := 1000 })).jammed 0 = false ∧
    (let s := rest (fun p => { waiting p with wantPark := true }) (fun s => { s with
       stks := [(0, { Stack.init with parkBase := 0x100000, parkCnt := 4 })] });
     finds s (fun p b => p.parkable && decide (b.phase = .waiting) && (p.firstDirty b.mask b.wb).isNone &&
       !s.spillsOut 2 && !s.recordOut 2) = true ∧ s.freePark 0 = some 0) ∧
    (let s := rest (fun p => { waiting p with place := .parked 0 0 }) (fun s => { s with
       stks := [(0, { Stack.init with parkBase := 0x100000, parkCnt := 64, parked := [(2, 0)], slots := [0] })],
       teams := s.teams.map (fun (e : Nat × Team) => (e.1, { e.2 with wantSave := true })) });
     s.freeSlots 0 ≠ 0 ∧ s.queueUsed 0 = 0 ∧ (s.membersOf (placeTeam s)).length = 1 ∧
     ((Map.find s.teams (placeTeam s)).any (fun x => x.saved.isNone && s.enginesOff x && x.seqIdle &&
       (s.freeRun x.stack x.saveBlocks).isSome)) = true) := by
  decide +kernel

/-- PostedMessages: writes, atomic operations, memory-side operations, an acknowledgement and a watch. -/
theorem test_witness_PostedMessages :
    (∀ b ∈ ([.write ⟨0, 0x20000⟩ [1, 2] [], .atomic ⟨0, 0x20000⟩ .add false 1 0 (some 9), .mso ⟨0, 0x20000⟩ (.cas2 0 0 1 1) none none,
        .mso ⟨0, 0x20000⟩ (.cas4 0 0 0 0 1 1 1 1) none none, .mso ⟨0, 0x20000⟩ (.rowput [1, 2] false) none none] : List MsgBody),
      arrives b id ∧ (mailed b id).locked ⟨0, 0x20000⟩ 32 true = false ∧ (match b with
        | .mso x k _ _ => decide ((mailed b id).msoPage (letter b) x k = none) && !(mailed b id).msoLocked (letter b) x k
        | _ => true) = true ∧ Memory.wf (mailed b id).mem = true) ∧
    (let s := rest waiting (fun s => { s with net := [{ letter (.write ⟨0, 0⟩ [] []) with applied := true }] });
     ((s.msg? 7).any (fun m => m.applied && !m.body.waits)) = true) ∧
    (∀ n ∈ [0, 1], finds (rest (phased (.held (.watch (some 0)))) (fun s => { s with ns := n }))
      (fun p b => decide (b.phase = .held (.watch (some 0))) && ((rest waiting (fun s => { s with ns := n })).clkPast p.core 0 ||
        ((rest waiting (fun s => { s with ns := n })).clkCome p.core 0 && !(rest waiting id).writeDue b))) = true) := by
  decide +kernel

/-- Who asks: the placed bundle. -/
def asker : Asker := ⟨0, 0, 2, 1, 0, 5⟩

/-- An arrival at a barrier. -/
def arrival (k : ArrKind) : Arrival := { kind := k, who := asker, count := 2, timeout := 50, op := 0, team := 0 }

/-- BarrierRounds: an arrival that opens a round and one that completes it, a withdrawal, a query, expiries, and a
lineage count that does and does not become 0. -/
theorem test_witness_BarrierRounds :
    (∀ b ∈ ([.arrival (.named 0 0 5) (arrival .barw), .withdraw (.named 0 0 5) asker 9, .barq (.named 0 0 5) 0 9, .lineage 3 (-1),
        .lineage 3 2] : List MsgBody), arrives b id ∧ (mailed b id).barStopped (.named 0 0 5) = none) ∧
    ((mailed (.barq (.named 0 0 5) 0 9) id).bar (.named 0 0 5)).held = [] ∧
    (let s := rest waiting (fun s => { s with ns := 10, bars := [(5, { Barrier.init with count := 2, arrived := [arrival .barw], expiry := some 10 })] });
     (s.bar (.named 0 0 5)).expiry = some 10 ∧ s.clkCome 0 10 = true ∧ s.clkPast 0 10 = false ∧ s.arrivalsDue (.named 0 0 5) = false ∧ (s.bar (.named 0 0 5)).arrived.length + 1 = (s.bar (.named 0 0 5)).count) ∧
    (let s := rest (phased (.held (.rejoin 0 5))) (fun s => { s with
       bars := [(5, { Barrier.init with rejoin := some ⟨1, 2, [(2, true)], some 0⟩ })] });
     ((s.bar (.named 0 0 5)).rejoin.any (fun r => decide (r.parties = [(2, true)]) && decide (r.expiry = some 0))) = true ∧ s.clkCome 0 0 = true ∧
     s.arrivalsDue (.named 0 0 5) = false) := by
  decide +kernel

/-- PagesAndHost: a sweep; a host access in an enabled window; a message to a host port. -/
theorem test_witness_PagesAndHost :
    (rest waiting (fun s => { s with ns := 1000000 })).ns = 0 + 1000000 ∧
    (let s := rest waiting (fun s => { s with
       ports := [(0, { Port.init with hdm := [(0, BitVec.ofNat 256 (2 ^ 255 + 28 * 2 ^ 128))] })] });
     (s.port 0).window 0x20000 = some (0x20000, 0) ∧ s.mode ≠ 3 ∧ (s.port 0).pending = [] ∧
     (match s.xlate none 0 0x20000 with
      | .ok l => l.r && l.w && decide (s.locOn l 0x20000 = some ⟨0, 0x20000⟩)
      | _ => false) = true ∧ s.locked ⟨0, 0x20000⟩ 64 true = false ∧ s.poisoned 0x20000 64 = false) ∧
    (let m := { letter (.hostRead ⟨0, 2 ^ 53⟩ 4 asker) with dst := .port 0 };
     let s := rest waiting (fun s => { s with net := [m] });
     s.arriving 7 = some m ∧ Memory.wf s.mem = true) := by
  decide +kernel

/-- TicketHomes, requests: a served request with a free entry, and the value of a ticket for its operation. -/
theorem test_witness_TicketRequestsAtHome :
    (let f : Fetch := ⟨⟨0, 0x20000⟩, 4, 4, false, 1, 0, 0, 1000, 9⟩;
     let s := mailed (.fetch f) id;
     arrives (.fetch f) id ∧ s.msgLocked (letter (.fetch f)) = false ∧ s.tableSlice f.loc = 0 ∧
     s.unitsUsed 0 + ticketUnits f.block f.held ≤ 16384 ∧ (s.ticket 0).st = .free ∧ Map.getD s.ticketPtr 0 0 = 0) ∧
    arrives (.ticketValue 9 2 (ownTicket false)) id ∧ ticketGen (ownTicket false) ≠ 0 := by
  decide +kernel

/-- A ticket table with entry 0 of slice 0 in a state. -/
def table (st : TState) (cl : Option Asker) (s : State) : State :=
  { s with tickets := [(0, { Ticket.init with st := st, launch := 1, data := [1, 2, 3, 4], len := 4, claim := cl, deadline := 0 })] }

/-- TicketHomes, claims: READY, PENDING and refused claims, a test, a release, a confirmation, a cancellation, a deadline,
and answers for a bundle that waits and for one that does not. -/
theorem test_witness_TicketClaims :
    (∀ st ∈ ([.ready, .pending] : List TState),
      let s := mailed (.claim (ownTicket false) asker 1 0 0) (table st none);
      s.atHome 7 = some (letter (.claim (ownTicket false) asker 1 0 0)) ∧ s.nextFor (letter (.claim (ownTicket false) asker 1 0 0)) 0 = true ∧
      (s.ticket (ticketKey (ownTicket false))).claimTrap (ownTicket false) 1 0 0 = none ∧
      (s.ticket (ticketKey (ownTicket false))).claimTrap (ownTicket false) 2 0 0 = some cForeign ∧
      (s.ticket 0).gen = ticketGen (ownTicket false) ∧ s.claimsDue 1 = false ∧ s.clkCome 0 (s.ticket 0).deadline = true ∧ s.clkPast 0 (s.ticket 0).deadline = false ∧
      s.regs.funcMode.getLsbD 3 = false) ∧
    (∀ b ∈ ([.confirm (ownTicket false) asker, .cancel (ownTicket false) asker] : List MsgBody),
      arrives b (table .ready (some asker)) ∧ ((mailed b (table .ready (some asker))).ticket 0).claim = some asker) ∧
    (∀ b ∈ ([.claimAns asker 5 (some [1]) 0 false, .claimAns asker 5 (some [1]) 258 false, .claimAns asker 5 none 260 false,
        .claimAns asker 5 none 256 false, .claimAns asker 5 none 1 false, .claimAns asker 5 (some [1, 0]) 261 false] : List MsgBody),
      arrives b id) ∧
    ((rest (fun p => { p with pend := [{ arrived with role := .frame asker, ready := false }] }) id).claimOp? asker).isSome = true ∧
    (rest waiting (table .ready none)).waitingFor 0 = [] ∧
    (let s := rest (fun p => bundled (fun b => { b with asked := [5], phase := .held .asked }) p) id;
     s.awaits asker = true ∧ s.claimOp? asker = none ∧ (rest waiting id).awaits asker = false) ∧
    (let s := mailed (.ticketValue 9 2 (ownTicket false)) (fun s => { s with dropped := [(9, 1)] });
     s.dropped.find? (fun y => decide (y.1 = 9)) = some (9, 1) ∧ (mailed (.ticketValue 9 2 (ownTicket false)) id).dropped = []) ∧
    ((rest (fun p => { p with pend := [{ arrived with role := .claim (ownTicket false) asker, ready := false }] }) id).claimOp? asker).isSome
      = true := by
  decide +kernel

/-- A frame table with entry 0 in a state. -/
def frameTable (st : FState) (cl : Option Asker) (ans : List Nat) (s : State) : State :=
  { s with frames := [(0, { FrameEnt.init with st := st, launch := 1, claim := cl, toAnswer := ans, toStep := [3] })] }

/-- FramesAndEngines, frames: requests, confirmations, cancellations, versions, and the prepare and step of a close. -/
theorem test_witness_Frames :
    arrives (.frameReq 0 0 5 asker 1 0 0) id ∧ (mailed (.frameReq 0 0 5 asker 1 0 0) id).freeFrame 4096 0 = some 0 ∧
    (let b := MsgBody.frameReq 1 ownFrame 5 asker 1 0 0;
     let s := mailed b (frameTable .opened none []);
     arrives b (frameTable .opened none []) ∧ (s.frameEnt 0).st = .opened ∧ (s.frameEnt 0).gen = field ownFrame 32 8 ∧
     (s.frameEnt 0).base + 5 ≤ 2 ^ 32) ∧
    (∀ b ∈ ([.frameConfirm 1 ownFrame 5 asker, .frameCancel ownFrame asker] : List MsgBody),
      arrives b (frameTable .opened (some asker) []) ∧ ((mailed b (frameTable .opened (some asker) [])).frameEnt 0).claim = some asker) ∧
    (let b := MsgBody.version ⟨0, 0x20000⟩ 0x20000 ownFrame 5 [1, 2, 3, 4];
     let s := mailed b (frameTable .opened none []);
     arrives b (frameTable .opened none []) ∧ s.msgLocked (letter b) = false ∧ field ownFrame 12 20 = s.devId ∧
     s.storeUsed (s.tableSlice ⟨0, 0x20000⟩) + 32 ≤ storeBytes) ∧
    (let b := MsgBody.version ⟨0, 0x20000⟩ 0x20000 ownFrame 5 [1, 2, 3, 4];
     arrives b (frameTable .free (some asker) []) ∧ ((mailed b (frameTable .free (some asker) [])).frameEnt 0).claim.isSome = true) ∧
    arrives (.frameCancel ownFrame asker) (frameTable .free (some asker) []) ∧
    (let s := rest waiting (frameTable .closing none [2]);
     (s.frameEnt 0).st = .closing ∧ 2 ∈ (s.frameEnt 0).toAnswer ∧ 2 ∉ (s.frameEnt 0).answered ∧ 3 ∈ (s.frameEnt 0).toStep) := by
  decide +kernel

/-- FramesAndEngines, engines: an operation to start, one to complete, cancels of each, a word of a sequencer. -/
theorem test_witness_Engines :
    (∀ st ∈ [false, true],
      let s := mailed (.engCancel engHandle) (fun s => { s with engines := [(0, ⟨1, [engOp 9 st], []⟩)] });
      arrives (.engCancel engHandle) (fun s => { s with engines := [(0, ⟨1, [engOp 9 st], []⟩)] }) ∧ s.locks = [] ∧ (engOp 9 st).after = [] ∧ (engOp 9 st).sent = false ∧
      (s.engRows (engOp 9 st) 0 ((engOp 9 st).req.srcs.zip (engOp 9 st).req.dsts) 16).keys = s.keys ∧
      s.engNear (engOp 9 st) = true ∧ ((Map.getD s.engines 0 Engine.init).ops.find? (fun o => decide (o.seq = (field engHandle 32 24).toNat))) =
        some (engOp 9 st)) ∧
    Map.sorted (rest waiting id).tiles = true := by
  decide +kernel

/-- FramesAndEngines, engines: an operation that writes at another module, and one whose writes have been acknowledged. -/
theorem test_witness_FarEngine :
    (let far := { engOp 9 true with leaves := [Leaf.mk 0 0x20000 16 0 true true false 0 0 (.dram 5 0 0 0),
       Leaf.mk 0 0x30000 16 0 true true false 0 0 (.dram 0 0 0 0x30000)] };
     (rest waiting id).engNear far = true ∧ far.sent = false ∧
     ((rest waiting id).engRows far 0 (far.req.srcs.zip far.req.dsts) 16).keys ≠ (rest waiting id).keys ∧
     ({ far with sent := true } : EngOp).after = [] ∧
     (let s := mailed (.engCancel engHandle) (fun s => { s with engines := [(0, ⟨1, [{ far with sent := true }], []⟩)] });
      ((Map.getD s.engines 0 Engine.init).ops.find? (fun o => decide (o.seq = 0))).any (fun o => o.started && o.sent) = true)) := by
  decide +kernel

/-- A launch record of one team at 0x28000, with its image at 0x30000 and its completion word at 0x20000 (R308). -/
def recordBytes (parties : Nat) : List Byte :=
  leBytes 256 (0x30000 + 0x20000 * 2 ^ 192 + 1 * 2 ^ 448 + parties * 2 ^ 512 + 64 * 2 ^ 528)

/-- LaunchesAndTeams, validation: a record that can be read, one that keeps the limits and one that does not. -/
theorem test_witness_Launches :
    ∀ n ∈ ([(0, 3), (1, 0)] : List (Nat × Nat)),
      let b := MsgBody.launch 0x28000 2 0 1 true 0 0 3
      let s := mailed b (fun s => { s with mem := memPuts s.mem 0x28000 (recordBytes n.1) })
      arrives b (fun s => { s with mem := memPuts s.mem 0x28000 (recordBytes n.1) }) ∧
      s.recordOf 7 0 0 0x28000 = .ok (recordBytes n.1) ∧
      s.limitStatus (parseRecord (recordBytes n.1)) (s.launchCap 0 (gridFor 0 s.devId)) true 0 0 3 = n.2 ∧
      (match s.complAt 0 0 (parseRecord (recordBytes n.1)).compl with
        | .ok _ x => decide (x.pa = 0x20000)
        | _ => false) = true ∧ s.grids.length + 2 < 2 ^ 32 := by
  decide +kernel

/-- The header of an image whose code is one run header (R300, R301), with its CRC-32. -/
def imageHead : List Byte :=
  leBytes 128 (0x304F584B + 1 * 2 ^ 32 + 192 * 2 ^ 64 + 128 * 2 ^ 96 + 128 * 2 ^ 128 + 4 * 2 ^ 160 + 1 * 2 ^ 384 + 0x35FAF3F3 * 2 ^ 992)

/-- CRC-32 of bytes that follow others. -/
theorem crcFrom_append (a b : List Byte) (c : Word) : crcFrom c (a ++ b) = crcFrom (crcFrom c a) b := by
  induction a generalizing c with
  | nil => rfl
  | cons x l ih => exact ih _

/-- The CRC-32 of the header's first 124 bytes, computed elsewhere. -/
theorem test_image_crc : crc32 (imageHead.take 124) = 0x35FAF3F3 := by
  have e : imageHead.take 124 = (imageHead.take 31 ++ (imageHead.drop 31).take 31) ++
      ((imageHead.drop 62).take 31 ++ (imageHead.drop 93).take 31) := by decide +kernel
  have h1 : crcFrom 0xFFFFFFFF (imageHead.take 31) = 0xAED42BFC := by decide +kernel
  have h2 : crcFrom 0xAED42BFC ((imageHead.drop 31).take 31) = 0x1A5DF8BB := by decide +kernel
  have h3 : crcFrom 0x1A5DF8BB ((imageHead.drop 62).take 31) = 0x6C82D155 := by decide +kernel
  have h4 : crcFrom 0x6C82D155 ((imageHead.drop 93).take 31) = 0xCA050C0C := by decide +kernel
  rw [crc32, e, crcFrom_append, crcFrom_append, crcFrom_append, h1, h2, h3, h4]
  decide

/-- LaunchesAndTeams, validation: the header stands. -/
theorem test_image_header : headerOk imageHead (parseRecord (recordBytes 1)) = true := by
  unfold headerOk
  simp only [test_image_crc]
  decide +kernel

/-- Memory with the image. -/
def imaged : State := rest waiting (fun s => { s with mem := memPuts s.mem 0x30000 (imageHead ++ leBytes 4 0xF82000FF) })

/-- What validation finds where the header stands and the sections can be read (R301, R309). -/
theorem imageOf_ok {s : State} {w : Reader} {core : Nat} {r : LaunchRec} {h d e : List Byte} (h1 : s.readVa w core r.asid r.image 128 = .ok h)
    (hh : headerOk h r = true)
    (h2 : s.readVa w core r.asid (r.image + bitsAt (leNat h) 224 32) (4 * bitsAt (leNat h) 192 16) = .ok d)
    (h3 : s.readVa w core r.asid (r.image + bitsAt (leNat h) 96 32) 4 = .ok e)
    (h4 : ((wordsIn d).any (fun w => decide (field w 26 6 = 0x3E)) = true ∨ leNat e / 2 ^ 26 ≠ 0x3E) = False) :
    s.imageOf w core r = .ok (wordsIn d) (BitVec.ofNat 64 (r.image + bitsAt (leNat h) 96 32)) := by
  unfold State.imageOf
  simp only [h1, VRead.onImage, hh, h2, h3, h4, Bool.not_true, Bool.false_eq_true, if_false]

/-- LaunchesAndTeams, validation: a record whose image stands. -/
theorem test_witness_Image : ∃ d e, imaged.imageOf (.launch 7) 0 (parseRecord (recordBytes 1)) = .ok d e := by
  refine ⟨_, _, imageOf_ok (h := imageHead) (d := []) (e := leBytes 4 0xF82000FF) ?_ test_image_header ?_ ?_ (eq_false ?_)⟩ <;>
    decide +kernel

/-- The CRC-32 of the digits 1 to 9, a known check value of the polynomial of R300. -/
theorem test_crc32 : crc32 [0x31, 0x32, 0x33, 0x34, 0x35, 0x36, 0x37, 0x38, 0x39] = 0xCBF43926 := by decide +kernel

/-- A page of the second tier that is waited for, at 2^30, and a resident one after it. -/
def paged (h : State → State) : State :=
  rest waiting (fun s => h { s with
    wanted := [(0, 0x40000000)],
    mem := memPuts (memPuts (memPuts (memPuts s.mem 0x2008 (leBytes 8 0x3001)) 0x3000 (leBytes 8 0x4001)) 0x4000 (leBytes 8 0x20073))
      0x4008 (leBytes 8 0x180073) })

/-- The pages of stack 0 with every frame in its parking pool. -/
def fullStack (s : State) : State := { s with stks := [(0, { Stack.init with parkCnt := 0x100000 })] }

/-- A stack all of whose frames are in its parking pool has none free. -/
theorem noFrame_full {s : State} {k : Nat} (h1 : (s.stk k).parkBase.toNat = k * 2 ^ 36) (h2 : (s.stk k).parkCnt = 0x100000) :
    s.noFrame k = true := by
  have h3 : (s.stk k).parkCnt.toNat % 2 ^ 32 = 2 ^ 20 := by rw [h2]; rfl
  simp only [State.noFrame, List.all_eq_true, List.mem_range]
  intro i hi
  have a : k * 2 ^ 36 ≤ k * 2 ^ 36 + 65536 * i := by omega
  have b : k * 2 ^ 36 + 65536 * i < k * 2 ^ 36 + 65536 * 2 ^ 20 := by omega
  simp only [State.frameFreeFor, h1, h3, a, b, decide_true, Bool.and_true, Bool.not_true, Bool.and_false, Bool.false_and]
  rfl

/-- PagesAndHost: a page of the second tier that is waited for and a free frame; no free frame, and the victim. -/
theorem test_witness_PageIn :
    (∀ f ∈ [id, fullStack],
      (paged f).pageWanted 0 0x40000000 = true ∧
      (match (paged f).xlate none 0 0x40000000 with
        | .tier 0 l e => decide (l.target = .tier 0 0) && decide (e = 0x4000)
        | _ => false) = true) ∧ (paged id).frameFreeFor 0 0x40000000 = true ∧ (paged fullStack).frameFreeFor 0 0x60000 = false ∧
    (((paged fullStack).victim 0).any (fun v => decide (v.frame = 0x60000))) = true ∧ (paged fullStack).frameBusy 0x60000 = false := by
  decide +kernel

/-- The second of them has no free frame. -/
theorem test_witness_NoFrame : (paged fullStack).noFrame 0 = true := noFrame_full (by decide +kernel) (by decide +kernel)

/-- LaunchesAndTeams: a team that waits for placement and has room, one that retires, grids with work and without. -/
theorem test_witness_Teams :
    (let s := { State.reset with grids := [(1, { placeGrid 0x10000 with nextTeam := 0 })] };
     (s.placeHead.any (fun w => decide (s.namedCluster w = none) && decide (w.old = none) &&
       (s.chooseCluster w.g.rcd w.g.rcd.parties (s.mayGo w)).isSome)) = true ∧ s.regs.funcMode.getLsbD 4 = false) ∧
    (let s := { rest waiting id with parties := [], lineages := [] };
     Map.sorted s.teams = true ∧ s.membersOf (placeTeam s) = [] ∧
     ((Map.find s.teams (placeTeam s)).any (fun x => x.seqIdle && s.enginesOff x && x.saved.isNone)) = true) ∧
    (let s := { rest waiting id with parties := [], lineages := [], teams := [] };
     ((s.grid? 1).any (fun g => s.gridDone g && !g.relaunch && decide (s.access 0 g.byAsid g.rcd.compl 8 false true ≠ .wait) &&
       decide (s.access 0 g.byAsid g.rcd.compl 8 false true ≠ .page))) = true) ∧
    (((rest waiting id).grid? 1).any (fun g => !(rest waiting id).gridDone g && !(rest waiting id).gridIdle g)) = true := by
  decide +kernel

/-- LaunchesAndTeams: a grid whose own work is done, with a frame open at another module. -/
theorem test_witness_FarFrames :
    (let s := { rest waiting id with
       parties := [], lineages := [], teams := [],
       grids := (rest waiting id).grids.map (fun (e : Nat × Grid) => (e.1, { e.2 with farFrames := [(5, 1)] })) };
     ((s.grid? 1).any (fun g => !s.gridDone g && s.gridIdle g)) = true) := by
  decide +kernel

/-- LaunchesAndTeams: a grid whose work is done and whose completion word's page is in the second tier. -/
theorem test_witness_RetirePage :
    (let s := { paged id with
       parties := [], lineages := [], teams := [],
       grids := (paged id).grids.map (fun (e : Nat × Grid) => (e.1, { e.2 with rcd := { e.2.rcd with compl := 0x40000000 } })) };
     ((s.grid? 1).any (fun g => s.gridDone g && !g.relaunch && decide (s.access 0 g.byAsid g.rcd.compl 8 false true = .page))) = true) := by
  decide +kernel

/-- A consumption of poison by the placed party, of a team or of none. -/
def consume (team : Nat) : Consume :=
  { party := 2, bundle := 1, lanes := 1, team := team, grid := 0, core := 0, pa := 0, va := 0, asked := false, pc := 0,
    lin := 0, unit := none, esc := none, granted := false }

/-- ContainmentAndClocks: sites of an error, consumptions within an interval and outside, a window that derates and one
that does not, the power limit and heat. -/
theorem test_witness_ContainmentAndClocks :
    ((table .ready none State.reset).ticket (0 * 4096 + 0)).st ≠ .free ∧ finds plain (fun _ _ => true) = true ∧
    (let s := rest waiting (fun s => { s with
       consumes := [consume (placeTeam s + 1)],
       teams := s.teams.map (fun (e : Nat × Team) => (e.1, { e.2 with interval := some ⟨0, [], [], [], [], false, 1, []⟩ })) });
     s.consumes[0]? = some (consume (placeTeam s + 1)) ∧
     ((Map.find s.teams (placeTeam s)).any (fun x => x.interval.any (fun v => !v.published && decide (v.rollbacks < 2)))) = true) ∧
    (rest waiting id).unitOf (consume 0).grid = none ∧
    (∀ e ∈ ([(false, false, 0), (true, true, 0), (true, false, 3), (true, false, 2)] : List (Bool × Bool × Nat)),
      let s := rest waiting (fun s => { s with
        consumes := [{ consume 0 with grid := 1 }],
        grids := s.grids.map (fun (g : Nat × Grid) => (g.1, { g.2 with
          rcd := { g.2.rcd with replay := true }, prot := e.1, foreign := e.2.1, replays := e.2.2 })) })
      s.unitOf 1 = some 1 ∧ ((s.grid? 1).any (fun g => decide (g.prot = e.1) && decide (g.foreign = e.2.1) &&
        decide (g.replays = e.2.2) && (g.parent.bind s.unitOf).isNone)) = true ∧ s.regs.funcMode.getLsbD 6 = false) ∧
    State.reset.ns < (State.reset.shadowUnit 3).since + 1000000 ∧
    (let s := { State.reset with
       ns := 1000000, tel := { State.reset.tel with units := [(3, { ShadowUnit.init with window := 65 })] } };
     (s.shadowUnit 3).since + 1000000 ≤ s.ns ∧ 64 < (s.shadowUnit 3).window ∧ 1200 < (s.shadowUnit 3).mhz ∧
     (s.shadowUnit 4).window ≤ 64 ∧ s.ns < (s.shadowUnit 4).quiet + 1000000000 ∧ s.regs.powerAt + 100000 ≤ s.ns ∧ s.teams = []) := by
  decide +kernel

/-- An open event of a subject under number 1. -/
def opened (e : EvSubject) : Nat × Event := (1, { type := 0, asid := 0, core := 0, addr := 0, aux := 0, subj := e })

/-- DriverRegisters: an invalidation and its end, function modes with and without launches, responses that name an
event. -/
theorem test_witness_DriverRegisters :
    State.reset.invalBusy = false ∧
    (let s := { State.reset with regs := { Regs.init with invalCtl := 0x8000000000000000 } };
     s.invalBusy = true ∧ s.oldWork = false) ∧ plain.grids ≠ [] ∧ State.reset.grids = [] ∧
    (let s := rest (fun p => bundled (fun b => { b with phase := .held (.event 1 0 0) }) p) (fun s => { s with evOpen := [opened (.page 2 1)] });
     s.evOpen.find? (fun e => decide (e.1 = (field (0x0000000100000001 : DWord) 0 32).toNat)) = some (opened (.page 2 1)) ∧
     (field (0x0000000100000001 : DWord) 32 8).toNat = 1 ∧ finds s (fun _ b => decide (b.phase = .held (.event 1 0 0))) = true) ∧
    (let s := { State.reset with tickets := [(5, { Ticket.init with st := .expired })] };
     (s.ticket (0 * 4096 + 5)).st = .expired ∧ (s.ticket (0 * 4096 + 5)).gen = Ticket.init.gen) ∧
    (plain.grids.all (fun e => e.2.undo.isEmpty && !e.2.prot)) = true ∧ (State.reset.link 7).st = .down ∧ State.reset.evWait = [] ∧
    Map.sorted State.reset.ports = true ∧ Map.sorted State.reset.stks = true ∧
    (State.reset.stackCores 0).filter State.reset.queueFull = [] := by
  decide +kernel

/-- DriverRegisters: ENLARGE of a stack whose core 0 has a full queue, with a record at the head of an outbox and all 16 slots
reserved. -/
theorem test_witness_Enlarge :
    (let s := rest waiting (fun s => { s with
       keys := 20, evOpen := [opened (.queue 0)],
       net := [letter (.context 2), { letter (.slots 16) with id := 8, sent := true }] });
     s.evOpen.find? (fun e => decide (e.1 = (field (0x0000000300000001 : DWord) 0 32).toNat)) = some (opened (.queue 0)) ∧
     (field (0x0000000300000001 : DWord) 32 8).toNat = 3 ∧ (s.stk 0).poolUsed < 1024 ∧
     leastBy s.queueSize ((s.stackCores 0).filter s.queueFull) = some 0 ∧ Map.sorted s.cores = true ∧ Map.sorted s.stks = true) := by
  decide +kernel

/-- The bytes of a seed at 0x10000 under ASID 0. -/
def seedBytes : List Byte := leBytes 128 (seedHeader (0x10000 * 2 ^ 320)) ++ List.replicate 193 0

/-- DriverRegisters, seeds: an empty slot, a submitted one with bytes that are refused and with a good record. -/
theorem test_witness_Seeds :
    (State.reset.seedAt 5).state = 0 ∧ seedOk [1] = false ∧ seedOk seedBytes = true ∧
    (let s := rest waiting (fun s => { s with seeds := [(0, { Seed.init with state := 1, copy := seedBytes })] });
     (s.seedAt 0).state = 1 ∧ s.asidValid (BitVec.ofNat 16 (leNat (seedBytes.take 128) / 2 ^ 48 % 2 ^ 16)) = true ∧
     leNat (seedBytes.take 128) / 2 ^ 320 % 4 = 0 ∧ (s.core 0).dead = false ∧
     (s.slotsFor 0 (seedParty s.devId 0 0 (s.clk 0) (s.keys + 1) (BitVec.ofNat 32 s.keys) seedBytes).queueSlots).isSome = true) := by
  decide +kernel

/-- DriverRegisters, preemption and the debug port: a launch that is resident and one that is not, a halted party, a
core to be stopped and one that has drained, an address that may be read and one that may not. -/
theorem test_witness_PreemptAndDebug :
    plain.preBusy = false ∧ plain.launchHeld 1 0 = true ∧ plain.launchHeld 2 0 = false ∧
    (let s := rest (fun p => { bundled (fun b => { b with phase := .held .halted }) p with place := .slot 0 .blocked, haltBy := true })
       (fun s => { s with halts := [(2, 1)] });
     finds s (fun p b =>
       (({ s with halts := [], parties := Map.insert s.parties 2 (Party.ready { (p.setBundle { b with phase := .running }) with haltBy := false }
         (s.clk p.core)), actor := .bundle 2 1 } : State).ctx?).isSome) = true) ∧
    (let s := rest waiting (fun s => { s with regs := { s.regs with dbgStop := 0x8000000000000200 } });
     (field s.regs.dbgStop 0 9).toNat = 0 ∧ s.regs.dbgStop.getLsbD 63 = true ∧ s.regs.dbgStop.getLsbD 9 = true ∧
     ((s.residents 0).all (fun e => !e.2.midRun)) = true ∧ Map.sorted s.parties = true) ∧
    (let s := rest waiting (fun s => { s with cores := [(0, { s.core 0 with stopped := true })] });
     (s.parties.all (fun e => e.2.resident && (s.core e.2.core).stopped && !e.2.midRun)) = true) ∧
    (plain.parties.all (fun e => e.2.resident && e.2.midRun)) = true ∧
    State.reset.dbgOk 0x20000 = true ∧ State.reset.dbgOk 0x20001 = false ∧ State.reset.layerAt 0x20000 = .on ∧
    (∀ l ∈ [LayerPower.gated, .fused], ({ State.reset with stks := [(0, { Stack.init with layer := l })] } : State).layerAt 0x20000 = l) := by
  decide +kernel

/-- A frame that arrives at a link. -/
def frameOf (n : Nat) (ok : Bool) : LinkFrame :=
  { fseq := n, ack := 0xFFFF, nak := false, train := false, good := 0, speed := 0, credits := [], time := 0, crcOk := ok, flits := [] }

/-- A packet for this module. -/
def packet : Packet :=
  { dstDev := 0, srcDev := 1, dstCore := 0, srcCore := 0, cls := .ack, stage := 0, len := 1, valiant := false, mid := 0, tag := 0,
    hops := 0, body := .ack 3 }

/-- BootAndFabric: a boot that waits for the host, a snapshot, links that are up, in training and disabled, packets, and
the route of a pair. -/
theorem test_witness_BootAndFabric :
    State.reset.boot.ents = [] ∧ State.reset.boot.host = false ∧ State.reset.imageOk 0 = true ∧
    State.reset.boot.peer.version = 0x13 ∧
    ({ State.reset.boot with peer := { version := 0x12, asym := 0, hash := 0 } } : Boot).peer.version ≠ 0x13 ∧
    ({ State.reset with boot := { State.reset.boot with waiting := true, step := 4 } } : State).boot.waiting = true ∧
    stepOptional 5 = false ∧ stepOptional 4 = true ∧ stepAlternates 4 ≤ 0 ∧ 0 < stepAlternates 5 ∧
    (let s := { State.reset with fab := { State.reset.fab with
       links := [(5, { Link.init with st := .up, acc := 0xFFFF, good := 0xFFFF, inq := [packet], resend := 1, replay := [frameOf 0 true] }),
         (6, { Link.init with st := .training, good := 0xFF }), (7, { Link.init with st := .disabled })], egress := [packet] } };
     Map.sorted s.fab.links = true ∧ (s.link 5).st = .up ∧ (frameOf 0 true).fseq = ((s.link 5).acc + 1) % 65536 ∧
     (frameOf 1 true).fseq = ((s.link 5).acc + 2) % 65536 ∧ (s.link 5).inq = [packet] ∧
     (s.link 5).replay[(s.link 5).replay.length - (s.link 5).resend]? = some (frameOf 0 true) ∧ (s.link 5).good.getLsbD 15 = true ∧
     (s.link 6).st = .training ∧ (s.link 6).good &&& 0xFF = 0xFF ∧ (chooseLanes 0xFF).isSome = true ∧ (s.link 6).mism < 2 ∧
     max (s.link 6).speed 0 + 1 ≤ lastSpeed 6 ∧ (s.link 7).st = .disabled ∧ (s.link 7).reported = false ∧ s.fab.egress = [packet] ∧
     packet.dstDev = s.devId) ∧
    devGroup 1 = devGroup State.reset.devId ∧ (State.reset.route 1).open_ = 0 ∧ (State.reset.route 1).valiant = false ∧
    (State.reset.route 1).at_ = 0 := by
  decide +kernel

/-! ## Single words on small values -/

/-- The context after the placed party has executed a word. -/
def after (i : Instr) (s : State) : Option Ctx :=
  match exec i s with
  | .next t => t.ctx?
  | _ => none

/-- Register 3 of lane 0 after a word, with registers 4, 5 and 3 before it. -/
def v3 (i : Instr) (x y z : Word) (r : Run → Run) : Option Word :=
  (after i (stand (holding [(3, z), (4, x), (5, y)] []) r id)).map (fun c => c.v 3 0)

/-- Conditions of lane 0 after such a word. -/
def conds (i : Instr) (x y : Word) (r : Run → Run) : Option (BitVec 16) :=
  (after i (stand (holding [(4, x), (5, y)] []) r id)).map (fun c => Map.getD c.r.ov.fp 0 0)

/-- Predicate of depth 0 of lane 0 after such a word. -/
def p0 (i : Instr) (x y : Word) : Option Bool :=
  (after i (stand (holding [(4, x), (5, y)] []) id id)).map (fun c => (c.preds 0).getLsbD 0)

/-- Values of the long-latency operation that such a word issues. -/
def late (i : Instr) (x y : Word) : Option (List Nat) :=
  (after i (stand (holding [(4, x), (5, y)] []) id id)).bind (fun c => c.p.pend.head?.map (fun o => o.vals))

/-- Wrapping and high halves (R181). -/
theorem test_int_arithmetic :
    v3 (.add 7 3 4 5) 0xFFFFFFFF 1 9 id = some 0 ∧ v3 (.sub 7 3 4 5) 0 1 9 id = some 0xFFFFFFFF ∧
    v3 (.mul 7 3 4 5) 0x10001 0x10001 9 id = some 0x20001 ∧ v3 (.mulh 7 3 4 5) 0xFFFFFFFF 0xFFFFFFFF 9 id = some 0 ∧
    v3 (.mulhu 7 3 4 5) 0xFFFFFFFF 0xFFFFFFFF 9 id = some 0xFFFFFFFE ∧ v3 (.mad 7 3 4 5) 3 4 5 id = some 17 ∧
    v3 (.min 7 3 4 5) 0xFFFFFFFF 1 9 id = some 0xFFFFFFFF ∧ v3 (.minu 7 3 4 5) 0xFFFFFFFF 1 9 id = some 1 := by
  decide +kernel

/-- Shifts by the width and beyond (R182), and the saturating sum with its condition (R183). -/
theorem test_int_shifts :
    v3 (.shl 7 3 4 5) 1 32 9 id = some 0 ∧ v3 (.shr 7 3 4 5) 0x80000000 31 9 id = some 1 ∧
    v3 (.sar 7 3 4 5) 0x80000000 40 9 id = some 0xFFFFFFFF ∧ v3 (.rot 7 3 4 5) 0x80000000 33 9 id = some 1 ∧
    v3 (.add 7 3 4 5) 0x7FFFFFFF 1 9 (modded 4 0 0 1 20) = some 0x7FFFFFFF ∧
    conds (.add 7 3 4 5) 0x7FFFFFFF 1 (modded 4 0 0 1 20) = some fSaturated := by
  decide +kernel

/-- Bit counts and fields (R186, R189), and the carry of `addc` (R188). -/
theorem test_int_bits :
    v3 (.clz 7 3 4) 1 0 9 id = some 31 ∧ v3 (.clz 7 3 4) 0 0 9 id = some 32 ∧ v3 (.popc 7 3 4) 0xF0F 0 9 id = some 8 ∧
    v3 (.brev 7 3 4) 1 0 9 id = some 0x80000000 ∧ v3 (.bfe 7 3 4 5) 0xABCD 0x0804 9 id = some 0xBC ∧
    v3 (.bfi 7 3 4 5) 0xFF 0x0404 0xAAAA id = some 0xAAFA ∧ p0 (.addc 7 3 4 5) 0xFFFFFFFF 1 = some true ∧
    p0 (.subb 7 3 4 5) 0 1 = some true := by
  decide +kernel

/-- Quotients, with a zero divisor (R187), and comparisons of both signednesses (R159). -/
theorem test_int_division :
    late (.divu 7 3 4 5) 7 2 = some [3] ∧ late (.divs 7 3 4 5) 0xFFFFFFF9 2 = some [0xFFFFFFFD] ∧
    late (.divu 7 3 4 5) 7 0 = some [0xFFFFFFFF] ∧ late (.rem 7 3 4 5) 7 0 = some [7] ∧
    p0 (.cmp 7 4 5 2) 0xFFFFFFFF 0 = some true ∧ p0 (.cmp 7 4 5 6) 0xFFFFFFFF 0 = some false := by
  decide +kernel

/-- FP32 words on exact and rounded results: 1 + 2, infinity less infinity, 1 / 3 and the root of 2 (R206, R208). -/
theorem test_float :
    v3 (.fadd 7 3 4 5) 0x3F800000 0x40000000 9 id = some 0x40400000 ∧
    v3 (.fsub 7 3 4 5) 0x7F800000 0x7F800000 9 id = some 0x7FC00000 ∧
    conds (.fsub 7 3 4 5) 0x7F800000 0x7F800000 id = some fInvalid ∧
    v3 (.ffma 7 3 4 5) 0x40000000 0x40400000 0x3F800000 id = some 0x40E00000 ∧
    late (.fdiv 7 3 4 5) 0x3F800000 0x40400000 = some [0x3EAAAAAB] ∧ late (.fsqrt 7 3 4) 0x40000000 0 = some [0x3FB504F3] ∧
    v3 (.fneg 7 3 4) 0 0 9 id = some 0x80000000 := by
  decide +kernel

/-- Conversions: rounding to even, towards zero, and clamping (R125, R212); a tie to BF16; a BF16 sum (R210). -/
theorem test_conversions :
    v3 (.f2i 7 3 4 20) 0x40200000 0 9 id = some 2 ∧ v3 (.f2iz 7 3 4 20) 0xBFC00000 0 9 id = some 0xFFFFFFFF ∧
    v3 (.f2i 7 3 4 20) 0x4F32D05E 0 9 id = some 0x7FFFFFFF ∧ v3 (.i2f 7 3 4 20) 0xFFFFFFFF 0 9 id = some 0xBF800000 ∧
    v3 (.f2bf 7 3 4) 0x3F808000 0 9 id = some 0x3F80 ∧ v3 (.bf2f 7 3 4) 0x3F80 0 9 id = some 0x3F800000 ∧
    v3 (.haddBf16 7 3 4 5) 0x3F803F80 0x3F800000 9 id = some 0x40003F80 := by
  decide +kernel

/-- Scalars and special registers: `s31` discards, MODULE_STATE is BRING-UP (R116, R139, R170, R190). -/
theorem test_scalars :
    ((after (.sadd 7 3 1 2) (stand (holding [] [(1, 0xFFFFFFFFFFFFFFFF), (2, 2)]) id id)).map (fun c => c.sc 3)) = some 1 ∧
    ((after (.smovi 7 31 5) plain).map (fun c => c.sc 31)) = some 0 ∧
    ((after (.mfs 7 3 1 1) plain).map (fun c => c.sc 3)) = some 3 := by
  decide +kernel

/-- A load of the placed word's header, and a store that waits for its commit (R230). -/
theorem test_memory :
    ((after (.ld 7 3 4 31 4 0) (stand (holding [(4, 0x10000)] []) id id)).bind (fun c => c.p.pend.head?.map (fun o => o.vals))) =
      some [0xF82000FF] ∧
    ((after (.st 7 3 4 31 4 0) (stand (holding [(3, 5), (4, 0x20000)] []) id id)).map (fun c =>
      (c.r.eff.length, memNat c.s.mem 0x20000 4))) = some (1, 0) := by
  decide +kernel

/-- `trap` forms a party at the handler with cause, lanes and address (R41, R171). -/
theorem test_trap :
    (match exec (.trap 7 9) (stand (fun p => { p with handler := 0x10000 }) id id) with
     | .next t => t.parties.any (fun e => e.2.trap.any (fun r => decide (r.cause.toNat % 256 = cSoftware) && decide (r.lanes = 1) &&
         decide (r.addr = 9) && decide (r.pc = 0x10004)) && e.2.bundles.any (fun b => decide (b.pc = 0x10000)))
     | _ => false) = true := by
  decide +kernel

/-- A sequencer counts its loop down, and stops at a loop of no turns (R265). -/
theorem test_sequencer :
    (match exec .mnext (standSeq 0xF0400000 (fun q => { q with loops := [(0x10000, 2)] }) id) with
     | .next t => t.teams.any (fun e => e.2.seqr.any (fun q => decide (q.pc = 0x10000) && decide (q.loops = [(0x10000, 1)])))
     | _ => false) = true ∧
    (match exec (.mloop 0) (standSeq 0xF0000000 id id) with
     | .next t => t.teams.any (fun e => e.2.seqr.any (fun q => decide (q.st = .stopped) && decide (q.fault = 6)))
     | _ => false) = true := by
  decide +kernel

/-- An atomic sum and a posted write at their home (R233, R103). -/
theorem test_home :
    (match exec (.postedOpApply 7) (mailed (.atomic ⟨0, 0x10000⟩ .add false 1 0 none) id) with
     | .next t => memNat t.mem 0x10000 4
     | _ => 0) = 0xF8200100 ∧
    (match exec (.postedOpApply 7) (mailed (.write ⟨0, 0x20000⟩ [1, 2] []) id) with
     | .next t => memNat t.mem 0x20000 4
     | _ => 0) = 0x0201 := by
  decide +kernel

/-- The last arrival of a round advances the phase (R176). -/
theorem test_barrier :
    (let h := fun (s : State) => { s with bars := [(5, { Barrier.init with count := 2, arrived := [arrival .barw], expiry := some 90 })] };
     match exec (.barrierArrival 7) (mailed (.arrival (.named 0 0 5) (arrival .arrive)) h) with
     | .next t => (t.bar (.named 0 0 5)).phase
     | _ => 0) = 1 := by
  decide +kernel

/-- The power limit takes 1,500 W and no less (R357). -/
theorem test_power_limit :
    (match exec (.setPowerLimit 1500) State.reset with
     | .next t => t.regs.powerLimit
     | _ => 0) = 1500 ∧
    (match exec (.setPowerLimit 1499) State.reset with
     | .next t => t.regs.powerLimit
     | _ => 0) = 3200 := by
  decide +kernel

/-- A step runs the placed word, and the word after reset has its effect. -/
theorem test_step :
    (match step (State.reset.withFetchWord 32 0x29C31050) with
     | .next t => t.parties.any (fun e => e.2.bundles.any (fun b => b.run.any (fun r => decide (Map.find r.ov.v (regKey 3 0) = some 0))))
     | _ => false) = true := by
  decide +kernel

end Sys2Proof.Tests
end

/-! # Reads and writes at a home, the second tier and the host

First what reads and writes of memory leave: `State.beyond` forgets all that they may change, so that one law for each
operation frames every other field. Then what a page-in and the accesses at a host port come to. -/

namespace Sys2Proof.Machine

open Sys2Proof.Safety

/-- What no read or write at a home changes: the state without memory, its poison, the reference bits and translation buffers,
and the shadows, intervals and watched words that follow memory (R69, R81, R335 to R339). -/
def State.beyond (s : State) : State :=
  { s with mem := [], poison := [], stks := [], cores := [], grids := [], teams := [], parties := [] }

/-- Steps that each leave what lies beyond memory leave it in sequence. -/
theorem beyond_foldl {α : Type} {f : State → α → State} (hf : ∀ s a, (f s a).beyond = s.beyond) (l : List α) (s : State) :
    (l.foldl f s).beyond = s.beyond := by
  induction l generalizing s with
  | nil => rfl
  | cons a l ih => rw [List.foldl_cons, ih, hf]

theorem State.touch_beyond (s : State) (pa : Nat) : (s.touch pa).beyond = s.beyond := by
  unfold State.touch
  split <;> rfl

theorem State.see_beyond (s : State) (who : Who) (pa n : Nat) : (s.see who pa n).beyond = s.beyond := by
  rw [State.see, State.touch_beyond]
  exact beyond_foldl (f := fun s g => State.observe s who g) (fun _ _ => rfl) _ _

theorem State.load_beyond (s : State) (who : Who) (pa n : Nat) : (s.load who pa n).2.beyond = s.beyond :=
  State.see_beyond s who pa n

theorem State.seeWatched_beyond (s : State) (pa n : Nat) : (s.seeWatched pa n).beyond = s.beyond :=
  beyond_foldl (fun s _ => State.see_beyond s _ _ _) _ _

theorem State.publishStore_beyond (s : State) (who : Who) (pa : Nat) : (s.publishStore who pa).beyond = s.beyond := by
  unfold State.publishStore
  split
  · rfl
  · split
    · rfl
    · split <;> rfl

theorem State.setVheld_beyond (s : State) (a : Nat) (l : Leaf) (on : Bool) : (s.setVheld a l on).beyond = s.beyond := by
  unfold State.setVheld
  split <;> rfl

theorem State.shadow_beyond (s : State) (who : Who) (g : Nat) : (s.shadow who g).beyond = s.beyond := by
  unfold State.shadow
  split
  · rfl
  · split
    · rfl
    · split <;> rfl

theorem State.shadows_beyond (s : State) (who : Who) (gs : List Nat) : (s.shadows who gs).beyond = s.beyond := by
  unfold State.shadows
  split
  · rw [State.syncVheld, beyond_foldl (fun s e => State.setVheld_beyond s _ _ _)]
    exact beyond_foldl (fun s g => State.shadow_beyond s who g) _ _
  · rfl

theorem State.putByte_beyond (s : State) (lvl pa : Nat) (x : Byte) : (s.putByte lvl pa x).beyond = s.beyond := by
  unfold State.putByte
  split
  · rfl
  · split <;> rfl

theorem State.putOne_beyond (s : State) (who : Who) (pa : Nat) (x : Byte) : (s.putOne who pa x).beyond = s.beyond := by
  unfold State.putOne
  rw [State.putByte_beyond]
  split
  · rfl
  · split
    · rfl
    · split <;> rfl

theorem State.putAll_beyond (s : State) (who : Who) (pa : Nat) (l : List Byte) : (s.putAll who pa l).beyond = s.beyond := by
  induction l generalizing s pa with
  | nil => rfl
  | cons x l ih => rw [State.putAll, ih, State.putOne_beyond]

theorem State.putBytes_beyond (s : State) (who : Who) (pa : Nat) (l : List Byte) :
    (s.putBytes who pa l).beyond = s.beyond := by
  unfold State.putBytes
  split
  · rfl
  · exact State.putAll_beyond s who pa l

theorem State.setPoison_beyond (s : State) (lvl g : Nat) (bad : Bool) : (s.setPoison lvl g bad).beyond = s.beyond := by
  unfold State.setPoison
  split
  · rfl
  · split <;> rfl

theorem State.store_beyond (s : State) (who : Who) (pa : Nat) (data : List Byte) :
    (s.store who pa data).beyond = s.beyond := by
  unfold State.store
  dsimp only
  rw [show ∀ t : State, (t.wakeWatchers pa data.length).beyond = t.beyond from fun _ => rfl, State.seeWatched_beyond,
    State.touch_beyond, beyond_foldl (fun s g => State.setPoison_beyond s _ g false), State.putBytes_beyond,
    State.shadows_beyond, beyond_foldl (f := fun s g => State.logGranule s who g) (fun _ _ => rfl),
    State.publishStore_beyond]

@[simp] theorem State.load_bytes (s : State) (who : Who) (pa n : Nat) : (s.load who pa n).1 = memBytes s.mem pa n := rfl

@[simp] theorem State.load_out (s : State) (who : Who) (pa n : Nat) : (s.load who pa n).2.out = s.out :=
  (congrArg State.out (State.load_beyond s who pa n) :)

@[simp] theorem State.store_out (s : State) (who : Who) (pa : Nat) (data : List Byte) : (s.store who pa data).out = s.out :=
  (congrArg State.out (State.store_beyond s who pa data) :)

@[simp] theorem State.store_net (s : State) (who : Who) (pa : Nat) (data : List Byte) : (s.store who pa data).net = s.net :=
  (congrArg State.net (State.store_beyond s who pa data) :)

@[simp] theorem State.recheck_mem (s : State) : s.recheck.mem = s.mem := rfl
@[simp] theorem State.recheck_out (s : State) : s.recheck.out = s.out := rfl
@[simp] theorem State.recheck_net (s : State) : s.recheck.net = s.net := rfl

/-! ## Stores where no unit has shadows -/

theorem Map.mem_of_find {α : Type} {m : Map α} {a : Nat} {x : α} (h : Map.find m a = some x) : (a, x) ∈ m := by
  induction m with
  | nil => cases h
  | cons e m ih =>
    obtain ⟨k, v⟩ := e
    simp only [Map.find] at h
    split at h
    · cases h
    · split at h
      · cases h
        subst_vars
        exact List.mem_cons_self
      · exact List.mem_cons_of_mem _ (ih h)

/-- No writer's unit is protected (R339). -/
theorem State.shadowing_of_unshadowed {s : State} (hu : Unshadowed s) (who : Who) : s.shadowing who = false := by
  unfold State.shadowing
  split
  · next x hx =>
    obtain ⟨u, -, hg⟩ := Option.bind_eq_some_iff.mp hx
    exact (hu _ (Map.mem_of_find hg)).2
  · rfl

theorem State.publishStore_grids (s : State) (who : Who) (pa : Nat) : (s.publishStore who pa).grids = s.grids := by
  unfold State.publishStore
  split
  · rfl
  · split
    · rfl
    · split <;> rfl

/-- The logs of a store change no grid. -/
theorem State.logs_grids (s : State) (who : Who) (pa : Nat) (gs : List Nat) :
    (gs.foldl (fun s g => State.logGranule s who g) (s.publishStore who pa)).grids = s.grids := by
  rw [← State.publishStore_grids s who pa]
  generalize s.publishStore who pa = t
  induction gs generalizing t with
  | nil => rfl
  | cons g gs ih => exact (ih _).trans rfl

theorem unshadowed_of_grids {s t : State} (h : t.grids = s.grids) (hu : Unshadowed s) : Unshadowed t := by
  unfold Unshadowed
  rwa [h]

/-- Where no unit has shadows, a store writes its bytes into memory and nothing else of it. -/
theorem State.store_mem_of_unshadowed {s : State} (hu : Unshadowed s) (who : Who) (pa : Nat) (data : List Byte) :
    (s.store who pa data).mem = memPuts s.mem pa data := by
  have hlogs := s.logs_grids who pa (granules pa data.length)
  have hbase : s.storeBase who pa data.length =
      (granules pa data.length).foldl (fun s g => s.logGranule who g) (s.publishStore who pa) := by
    rw [State.storeBase, State.shadows, State.shadowing_of_unshadowed (unshadowed_of_grids hlogs hu) who]
    rfl
  have hundo : s.grids.all (fun e => e.2.undo.isEmpty) = true :=
    List.all_eq_true.mpr (fun e he => by simp [(hu e he).1])
  rw [State.store_mem, hbase, State.putBytes, hlogs, if_pos hundo, State.logs_mem]

/-- Bytes written into memory are stored there, and no others. -/
theorem stored_of_mem {s t : State} {pa : Nat} {data : List Byte} (hm : MemOk s) (h : t.mem = memPuts s.mem pa data) :
    Stored s t pa data := by
  intro a
  rw [h]
  constructor
  · rintro ⟨hlo, hhi⟩
    obtain ⟨i, rfl⟩ := Nat.exists_eq_add_of_le hlo
    rw [memByte_memPuts_in _ _ _ _ hm (by omega), Nat.add_sub_cancel_left]
  · intro hout
    exact memByte_memPuts_out _ _ _ _ hm (by omega)

/-! ## Page-in (R68, R69) -/

/-- A page that has been released is wanted no more. -/
theorem State.releasePage_wanted (s : State) (asid : BitVec 16) (va : Nat) : (asid, va) ∉ (s.releasePage asid va).wanted := by
  intro h
  have hne := (List.mem_filter.mp h).2
  simp at hne

theorem Bundle.waitsPage_iff (b : Bundle) (asid : BitVec 16) (va : Nat) :
    b.waitsPage asid va = true ↔ b.phase = .held (.pageIn asid va) := by
  unfold Bundle.waitsPage
  split
  · next h => simp [h]
  · next h => exact ⟨nofun, fun e => absurd e (h _ _)⟩

/-- Becoming READY leaves a party's bundles. -/
theorem Party.ready_bundles (p : Party) (clk : Nat) : (p.ready clk).bundles = p.bundles := by
  unfold Party.ready
  split
  · split <;> rfl
  · rfl

/-- The bundles of a state are those from before `recheck`: it changes the places of parties alone. -/
theorem State.bundles_of_recheck {s : State} {e : Nat × Party} (he : e ∈ s.recheck.parties) :
    ∃ x ∈ s.parties, e.2.bundles = x.2.bundles := by
  obtain ⟨x, hx, rfl⟩ := List.mem_map.mp he
  refine ⟨x, hx, ?_⟩
  split
  · exact Party.ready_bundles _ _
  · rfl

/-- No bundle waits for a page that has been released (R68). -/
theorem State.releasePage_phase (s : State) (asid : BitVec 16) (va : Nat) :
    ∀ e ∈ (s.releasePage asid va).parties, ∀ b ∈ e.2.bundles, b.phase ≠ .held (.pageIn asid va) := by
  intro e he b hb
  obtain ⟨x, hx, hbs⟩ := State.bundles_of_recheck he
  obtain ⟨y, -, rfl⟩ := List.mem_map.mp hx
  rw [hbs] at hb
  obtain ⟨c, -, rfl⟩ := List.mem_map.mp hb
  by_cases hc : c.waitsPage asid va = true
  · rw [if_pos hc]
    dsimp only
    split <;> nofun
  · rw [if_neg hc]
    exact fun h => hc ((Bundle.waitsPage_iff c asid va).mpr h)

theorem exec_pageIn (asid : BitVec 16) (va frame : Nat) (s : State) :
    exec (.pageIn asid va frame) s = execPageIn asid va frame s := rfl

/-- A page that is waited for comes into a free frame (R68). -/
theorem exec_pageIn_free {s : State} {asid : BitVec 16} {va frame k entry home : Nat} {l : Leaf}
    (hw : s.pageWanted asid (va / 65536 * 65536) = true) (hx : s.xlate none asid (va / 65536 * 65536) = .tier k l entry)
    (hl : l.target = .tier k home) (hf : s.frameFreeFor k frame = true) :
    exec (.pageIn asid va frame) s = .next (s.bringIn asid (va / 65536 * 65536) k home frame none) := by
  rw [exec_pageIn]
  simp [execPageIn, hw, hx, hl, hf]

/-- A page that is waited for comes into the victim's frame where none is free (R69). -/
theorem exec_pageIn_victim {s : State} {asid : BitVec 16} {va k entry home : Nat} {l : Leaf} {v : Resident}
    (hw : s.pageWanted asid (va / 65536 * 65536) = true) (hx : s.xlate none asid (va / 65536 * 65536) = .tier k l entry)
    (hl : l.target = .tier k home) (hf : s.frameFreeFor k v.frame = false) (hn : s.noFrame k = true)
    (hv : s.victim k = some v) (hb : s.frameBusy v.frame = false) :
    exec (.pageIn asid va v.frame) s = .next (s.bringIn asid (va / 65536 * 65536) k home v.frame (some v)) := by
  rw [exec_pageIn]
  simp [execPageIn, hw, hx, hl, hf, hn, hv, hb]

/-! ## Host accesses (R304) -/

/-- With nothing held at its port, a host access is made or held at once. -/
theorem State.hostMem_of_done {s t : State} {port : Nat} {a : HostAcc} (hp : port < 2) (hm : s.mode ≠ 3)
    (hq : (s.port port).pending = []) (h : s.hostAccess port a = .done t) : s.hostMem port a = t := by
  rw [State.hostMem, if_neg (not_or.mpr ⟨Nat.not_le.mpr hp, hm⟩)]
  simp [hq, h]

/-- A permitted access in an enabled window is made at the bytes its page gives. -/
theorem State.hostAccess_eq_hostAt {s : State} {port va : Nat} {asid : BitVec 16} {l : Leaf} {x : Loc} {a : HostAcc}
    (hwin : (s.port port).window (a.hpa / 64 * 64) = some (va, asid)) (hx : s.xlate none asid va = .ok l)
    (hloc : s.locOn l va = some x) (hperm : (a.data.isNone && !l.r || a.data.isSome && !l.w) = false) :
    s.hostAccess port a = s.hostAt port a x := by
  simp only [State.hostAccess, hwin, hx, hperm, hloc]
  rfl

theorem State.hostAt_read {s : State} {port tag hpa : Nat} {x : Loc} (hd : x.dev = s.devId) (hh : x.isHost = false)
    (hk : s.locked x 64 false = false) (hp : s.poisoned x.pa 64 = false) :
    s.hostAt port ⟨tag, hpa, none⟩ x =
      .done { (s.load Who.ofHost x.pa 64).2 with
        out := s.out ++ [.readData port tag (memBytes s.mem x.pa 64) false] } := by
  simp [State.hostAt, hd, hh, hk, hp]

theorem State.hostAt_write {s : State} {port tag hpa : Nat} {x : Loc} {data : List Byte} (hd : x.dev = s.devId)
    (hh : x.isHost = false) (hk : s.locked x 64 true = false) (hlen : data.length = 64) :
    s.hostAt port ⟨tag, hpa, some data⟩ x =
      .done { s.store Who.ofHost x.pa data with out := s.out ++ [.writeDone port tag] } := by
  have htake : data.take 64 = data := List.take_of_length_le (by omega)
  simp [State.hostAt, hd, hh, hk, htake]

theorem exec_hostMemRead_of_done {s t : State} {port tag hpa : Nat} (hp : port < 2) (hm : s.mode ≠ 3)
    (hq : (s.port port).pending = []) (h : s.hostAccess port ⟨tag, hpa % 2 ^ 64, none⟩ = .done t) :
    exec (.hostMemRead port tag hpa) s = .next t.recheck :=
  congrArg (fun t => Host.Outcome.next (State.recheck t)) (State.hostMem_of_done hp hm hq h)

/-- A line of 64 bytes is written as given. -/
theorem exec_hostMemWrite_of_done {s t : State} {port tag hpa : Nat} {data : List Byte} (hp : port < 2) (hm : s.mode ≠ 3)
    (hq : (s.port port).pending = []) (hlen : data.length = 64)
    (h : s.hostAccess port ⟨tag, hpa % 2 ^ 64, some data⟩ = .done t) :
    exec (.hostMemWrite port tag hpa data) s = .next t.recheck := by
  have hline : (data ++ List.replicate 64 0).take 64 = data := by rw [← hlen, List.take_left]
  rw [← hline] at h
  exact congrArg (fun t => Host.Outcome.next (State.recheck t)) (State.hostMem_of_done hp hm hq h)

/-! ## Host windows (R15) -/

theorem exec_hostWindowResponse (msg : Nat) (fresh : List Byte) (s : State) :
    exec (.hostWindowResponse msg fresh) s = execHostWindowResponse msg fresh s := rfl

/-- The host's bytes at the moment of a read are the read's data (R15; log 18). -/
theorem exec_hostWindowResponse_read {s : State} {msg p n : Nat} {m : Msg} {fresh : List Byte} {x : Loc} {who : Asker}
    (ha : s.arriving msg = some m) (hdst : m.dst = .port p) (hsrc : m.srcDev = s.devId) (hm : MemOk s)
    (hb : m.body = .hostRead x n who) (hn : n ≤ fresh.length) :
    exec (.hostWindowResponse msg fresh) s = .next
      (((({ s with mem := memPuts s.mem x.pa (fresh.take n) } : State).load m.who x.pa n).2.dropMsg msg).answerRead who
        (fresh.take n) false) := by
  have hfresh : s.hostFresh m fresh = { s with mem := memPuts s.mem x.pa (fresh.take n) } := by
    simp [State.hostFresh, hb, MsgBody.target]
  have hread : memBytes (memPuts s.mem x.pa (fresh.take n)) x.pa n = fresh.take n := by
    have h := memBytes_memPuts s.mem x.pa (fresh.take n) hm
    rwa [List.length_take, Nat.min_eq_left hn] at h
  rw [exec_hostWindowResponse]
  simp [execHostWindowResponse, ha, hdst, hb, hfresh, hsrc, hread]

/-- A write to a host window is applied at its port. -/
theorem exec_hostWindowResponse_write {s : State} {msg p : Nat} {m : Msg} {fresh data : List Byte} {x : Loc}
    (ha : s.arriving msg = some m) (hdst : m.dst = .port p) (hb : m.body = .write x data [])
    (hk : s.locked x data.length true = false) :
    exec (.hostWindowResponse msg fresh) s = .next (((s.store m.who x.pa data).markApplied msg).recheck) := by
  have hfresh : s.hostFresh m fresh = s := by simp [State.hostFresh, hb]
  have happly : s.applyBody m = some (s.store m.who x.pa data) := by
    simp [State.applyBody, State.msgLocked, State.applyWrite, hb, hk, MsgBody.target]
  rw [exec_hostWindowResponse]
  simp [execHostWindowResponse, ha, hdst, hb, hfresh, State.elemReady, happly]

end Sys2Proof.Machine

namespace Sys2Proof.Proofs

open Sys2Proof Sys2Proof.Machine Sys2Proof.Safety

/-- Settles O54, a case for each of its five parts: both ways of a page-in release the page, a host access with nothing
held before it is made at once, and an access to a host window finds the bytes that the host holds. -/
theorem pagesAndHost : Obligations.PagesAndHost := by
  intro s
  refine ⟨?pageIn, ?sweep, ?hostAccess, ?hostWindow, ?cxlCache⟩
  case pageIn =>
    intro asid va frame k entry home l page hw hx hl into
    have released (out : Option Resident)
        (h : exec (.pageIn asid va frame) s = .next (s.bringIn asid page k home frame out)) : into out :=
      ⟨h, State.releasePage_wanted _ _ _, State.releasePage_phase _ _ _⟩
    refine ⟨fun hf => released none (exec_pageIn_free hw hx hl hf), ?_⟩
    rintro v hf hn hv rfl hb
    exact released (some v) (exec_pageIn_victim hw hx hl hf hn hv hb)
  case sweep =>
    intro stack hs ht
    exact if_neg (by omega)
  case hostAccess =>
    intro port tag hpa va asid l x hp hmode hq hwin hx hloc hd hh
    constructor
    · intro hr hk hpo
      have hdone := (State.hostAccess_eq_hostAt (a := ⟨tag, hpa % 2 ^ 64, none⟩) hwin hx hloc (by simp [hr])).trans
        (State.hostAt_read hd hh hk hpo)
      exact ⟨_, exec_hostMemRead_of_done hp hmode hq hdone, State.load_mem _ _ _ _, rfl⟩
    · intro data hw hk hlen hm hu
      have hdone := (State.hostAccess_eq_hostAt (a := ⟨tag, hpa % 2 ^ 64, some data⟩) hwin hx hloc (by simp [hw])).trans
        (State.hostAt_write hd hh hk hlen)
      exact ⟨_, exec_hostMemWrite_of_done hp hmode hq hlen hdone,
        stored_of_mem hm (State.store_mem_of_unshadowed hu _ _ _), rfl⟩
  case hostWindow =>
    intro msg p m fresh x ha hdst hsrc hm
    refine ⟨fun n who hb hn => exec_hostWindowResponse_read ha hdst hsrc hm hb hn, fun data hb hk hu => ?_⟩
    refine ⟨_, exec_hostWindowResponse_write ha hdst hb hk, ?_, stored_of_mem hm (State.store_mem_of_unshadowed hu _ _ _)⟩
    simp [State.markApplied]
  case cxlCache =>
    intro port hp
    exact if_neg (by omega)

end Sys2Proof.Proofs

/-! # The matrix stream

First the shapes in which a word of the party stream leaves one effect or one operation, and with them `mput` and `mget`. Then
the sequencer's words: each executes in the context that `State.seqCtx?` gives, and comes down to the sequencer put back, to a
word put to work, or to an arrival. -/

namespace Sys2Proof.Machine

open Host Sys2Proof.Safety

/-! ## Effects and operations of a run -/

/-- A word that goes ahead and leaves one effect of its active lanes (R28). -/
theorem issue_effect {s : State} {g : BitVec 4} {args : List Arg} {c : Ctx} (h : Issues s g args c) {pre : Ctx → Pre}
    {eff : Ctx → Res} {i : EffItem} (hp : pre c = .go) (he : ∀ m, eff (c.withMarks m) = .done ((c.withMarks m).effect i)) :
    ∃ c', issue s g args pre eff = .next c'.advance ∧ Executed s c'.advance c c' ∧ EffResult c c' [⟨maskOf c.act, i⟩] :=
  ⟨_, issue_done h hp ((congrArg eff (markLast_eq c args)).trans (he _)), executed_of h.1 rfl (.inl rfl), ⟨rfl⟩⟩

/-- An operation that joins those of its party takes their late results for its destinations from the run's own (R104, R229). -/
theorem Ctx.addOp_pend (c : Ctx) (o : PendOp) : (c.addOp o).p.pend = joined c c.p.pend o := by
  refine congrArg (· ++ [o]) (List.map_congr_left fun x _ => ?_)
  have hcut : (x.late && !x.committed && decide (x.bundle = c.b.id)) = !c.opBlocks x := by simp [Ctx.opBlocks]
  rw [hcut]
  cases c.opBlocks x <;> rfl

/-- Beside the operation, issuing it takes one number and clears marks of `last` (R148). -/
theorem Ctx.addOp_eq (c : Ctx) (o : PendOp) :
    c.addOp o = { c with
      s := c.s.bump, p := { c.p with pend := joined c c.p.pend o },
      r := { c.r with ov := { c.r.ov with marks := (c.addOp o).r.ov.marks } } } := by
  rw [← Ctx.addOp_pend]
  rfl

theorem Flags.of_fp_eq {c c' : Ctx} (h : c'.r.ov.fp = c.r.ov.fp) : Flags c c' noFlags := fun k => by
  simp [h, noFlags]

/-- A word that goes ahead and issues one operation of the execution class (R26). -/
theorem issue_long {s : State} {g : BitVec 4} {args : List Arg} {c : Ctx} (h : Issues s g args c) {pre : Ctx → Pre}
    {eff : Ctx → Res} {dests : List Dest} {vals : List Nat} (hp : pre c = .go)
    (he : ∀ m, eff (c.withMarks m) = .done ((c.withMarks m).long dests vals)) :
    ∃ c', issue s g args pre eff = .next c'.advance ∧ Executed s c'.advance c c' ∧
      LongResult c c' true dests vals c.preds noFlags := by
  refine ⟨_, issue_done h hp ((congrArg eff (markLast_eq c args)).trans (he _)), executed_of h.1 rfl (.inr rfl), ?_⟩
  generalize (c.markLast args).r.ov.marks = m
  have hpend := Ctx.addOp_pend (c.withMarks m) (PendOp.mk' (c.withMarks m) true dests vals)
  exact ⟨hpend, fun l => (ite_self _).symm, Flags.of_fp_eq rfl, rfl⟩

/-! ## `mput` and `mget` (R259, R260) -/

theorem exec_mput (g : BitVec 4) (a : BitVec 6) (s : State) : exec (.mput g a) s = execMput g a s := rfl

theorem exec_mget (g : BitVec 4) (d a : BitVec 6) (s : State) : exec (.mget g d a) s = execMget g d a s := rfl

/-- A place, or no stop, granted by the team's module leaves a visiting party its other traps (R17). -/
theorem Ctx.askTeam_granted {c : Ctx} {x : DWord} (h : Map.find c.b.ans 73 = some (.val x)) (slot : Nat) (ts : List Trap) :
    c.askTeam slot (Pre.ofTraps (c.teamTraps ++ ts)) = Pre.ofTraps ts := by
  simp [Ctx.askTeam, Ctx.teamTraps, Ctx.ansTraps, h]

theorem Ctx.visits_of_home {c : Ctx} (h : c.p.originDev = c.s.devId) : c.visits = false := by
  simp [Ctx.visits, h]

theorem Ctx.visits_of_away {c : Ctx} (hseed : c.p.seed = none) (h : c.p.originDev ≠ c.s.devId) : c.visits = true := by
  simp [Ctx.visits, hseed, h]

/-- The formats of matrix operands are 1 to 9 (R258). -/
theorem matrixFmt_of_range {f : Nat} (h1 : 1 ≤ f) (h9 : f ≤ 9) : matrixFmt f = true := by
  simp [matrixFmt, h1, h9]

/-- Registers of a tile image, plane by plane (R259). -/
theorem tileRegs_eq (f : Nat) : tileRegs f = 8 + (if f = 5 ∨ f = 6 then 4 else 0) + (if 3 ≤ f ∧ f ≤ 8 then 1 else 0) := by
  simp [tileRegs, hasComp, isScaled]

/-- In the context in which `mput` issues, its first active lane reads for the bundle (R218, R259). -/
theorem mputArgs_eq {s : State} {g : BitVec 4} {c : Ctx} (h : issueCtx s g = some c) (a : Nat) :
    mputArgs g a c = .need (decide (a + tileRegs (c.fmtOr 2) ≤ 56)) :: (List.range (tileRegs (c.fmtOr 2))).map (fun i =>
      .xr (a + i) ((lanesOf c.b.mask).map (fun l => (c.act.headD 64, l)))) := by
  obtain ⟨c0, -, -, -, -, rfl⟩ := issueCtx_eq h
  rfl

/-- A visiting party of the first eight may push (R17, R259). -/
theorem Ctx.mayPush_of_visits {c : Ctx} (hslot : c.p.partyId.toNat < 8) (hv : c.visits = true) : c.mayPush = true := by
  simp [Ctx.mayPush, hslot, hv]

/-- One of this module may push where its team has a sequencer (R259). -/
theorem Ctx.mayPush_of_team {c : Ctx} {t : Team} (hslot : c.p.partyId.toNat < 8) (hseed : c.p.seed = none)
    (ht : Map.find c.s.teams c.p.teamKey = some t) (hseqr : t.seqr.isSome = true) : c.mayPush = true := by
  simp [Ctx.mayPush, Ctx.team?, hslot, hseed, ht, hseqr]

/-- `mput` goes ahead with a format of R258, a party of the first eight, its codebook at hand, and a place in its queue: granted by
the team's module to a visiting party, or free at this one (R17, R259). -/
theorem exec_mput_go {s : State} {g : BitVec 4} {a : BitVec 6} {c : Ctx} (hi : Issues s g (mputArgs g a.toNat c) c)
    (hseed : c.p.seed = none) (h1 : 1 ≤ c.fmtOr 2) (h9 : c.fmtOr 2 ≤ 9)
    (hcb : c.fmtOr 2 = 9 → c.book.isSome = true ∧ c.widePending .cb = false) (hslot : c.p.partyId.toNat < 8)
    (hteam : (c.p.originDev ≠ s.devId ∧ ∃ x, Map.find c.b.ans 73 = some (.val x)) ∨
      ∃ t, (c.p.originDev = s.devId ∧ Map.find s.teams c.p.teamKey = some t ∧ c.stoppedAt = none) ∧ t.seqr.isSome = true ∧
        s.queueLen c.p.teamKey c.p.partyId.toNat < 8) :
    EffOutcome (.mput g a) s c [⟨maskOf c.act, .tile c.p.partyId.toNat
      { fmt := c.fmtOr 2,
        regs := (List.range (tileRegs (c.fmtOr 2))).flatMap (fun i => (List.range 64).map (fun l =>
          if c.b.mask.getLsbD l then c.v (a.toNat + i) l else 0)),
        book := if c.fmtOr 2 = 9 then c.book else none }⟩] := by
  obtain ⟨c0, h0, -, -, -, hc⟩ := issueCtx_eq hi.1
  obtain rfl : c.s = s := issueCtx_s hi.1
  have hargs : mputArgs g a.toNat c0 = mputArgs g a.toNat c := by rw [hc]; rfl
  have hwait : (if c.fmtOr 2 = 9 then c.cbWait else .go) = Pre.go := by
    split
    · next hf => simp [Ctx.cbWait, (hcb hf).2]
    · rfl
  have hfmt : (!matrixFmt (c.fmtOr 2) || (decide (c.fmtOr 2 = 9) && c.book.isNone)) = false := by
    rw [matrixFmt_of_range h1 h9]
    by_cases hf : c.fmtOr 2 = 9
    · simp [Option.isNone_eq_false_iff.mpr (hcb hf).1]
    · simp [hf]
  rw [EffOutcome, exec_mput, execMput, issueBy_eq h0, hargs]
  refine issue_effect hi ?_ (fun m => rfl)
  dsimp only
  rw [hwait, hfmt]
  rcases hteam with ⟨haway, x, hx⟩ | ⟨t, ⟨hhome, ht, hstop⟩, hseqr, hlen⟩
  · have hv : c.visits = true := Ctx.visits_of_away hseed haway
    simp only [Ctx.mayPush_of_visits hslot hv, hv]
    exact Ctx.askTeam_granted hx _ []
  · simp [Ctx.mayPush_of_team hslot hseed ht hseqr, Ctx.visits_of_home hhome, hstop, Pre.then, Nat.not_le.mpr hlen]

/-- The accumulators of a party of this module are those of its team (R260). -/
theorem Ctx.accum_of_home {c : Ctx} {t : Team} (hseed : c.p.seed = none) (hhome : c.p.originDev = c.s.devId)
    (ht : Map.find c.s.teams c.p.teamKey = some t) : c.accum = t.tiles.length := by
  simp [Ctx.accum, Ctx.visits_of_home hhome, Ctx.team?, hseed, ht]

/-- Those of a visiting party are as many as its launch has (R260, R308). -/
theorem Ctx.accum_of_away {c : Ctx} {v : Visit} (hseed : c.p.seed = none) (haway : c.p.originDev ≠ c.s.devId)
    (hv : c.s.launchOf c.p = some v) : c.accum = v.rcd.accum := by
  simp [Ctx.accum, Ctx.visits_of_away hseed haway, hv]

/-- Operands of `mget`. -/
abbrev mgetArgs (d a : BitVec 6) : List Arg :=
  .need (decide (d.toNat ≤ 40)) :: .sr a.toNat :: (List.range 16).map (fun i => .vw (d.toNat + i))

/-- Registers of the active lanes that `mget` writes. -/
abbrev mgetDests (c : Ctx) (d : BitVec 6) : List Dest :=
  c.act.flatMap (fun l => (List.range 16).map (fun r => c.dest d.toNat r l))

/-- A party of this module reads the elements of an accumulator of its team (R260). -/
theorem exec_mget_home {s : State} {g : BitVec 4} {d a : BitVec 6} {c : Ctx} {t : Team} (hi : Issues s g (mgetArgs d a) c)
    (hseed : c.p.seed = none) (hhome : c.p.originDev = s.devId) (ht : Map.find s.teams c.p.teamKey = some t)
    (hstop : c.stoppedAt = none) (hacc : (c.sc a.toNat).toNat < t.tiles.length) :
    LongOutcome (.mget g d a) s c true (mgetDests c d) (s.tileVals c.p.teamKey (c.sc a.toNat).toNat c.act) c.preds noFlags := by
  obtain rfl : c.s = s := issueCtx_s hi.1
  have hv : c.visits = false := Ctx.visits_of_home hhome
  have haccum : c.accum = t.tiles.length := Ctx.accum_of_home hseed hhome ht
  rw [LongOutcome, exec_mget, execMget]
  refine issue_long hi ?_ (fun m => if_neg (ne_true_of_eq_false hv))
  simp [hv, hstop, haccum, hacc, Pre.ofTraps]

/-- A visiting party asks its team's module for the elements (R17, R260). -/
theorem exec_mget_away {s : State} {g : BitVec 4} {d a : BitVec 6} {c : Ctx} {v : Visit} {x : DWord}
    (hi : Issues s g (mgetArgs d a) c) (hseed : c.p.seed = none) (haway : c.p.originDev ≠ s.devId)
    (hx : Map.find c.b.ans 73 = some (.val x)) (hl : s.launchOf c.p = some v) (hacc : (c.sc a.toNat).toNat < v.rcd.accum) :
    PostOutcome (.mget g d a) s c s [{ PendOp.mk' c true (mgetDests c d) [] with ready := false }]
      [msgOf c (s.keys + 1) (maskOf c.act) (.core c.p.originDev c.p.originCore.toNat)
        (.tileRead c.p.teamKey (c.sc a.toNat).toNat s.keys)] := by
  obtain rfl : c.s = s := issueCtx_s hi.1
  have hv : c.visits = true := Ctx.visits_of_away hseed haway
  have haccum : c.accum = v.rcd.accum := Ctx.accum_of_away hseed haway hl
  rw [PostOutcome, exec_mget, execMget]
  have hmark := markLast_eq c (mgetArgs d a)
  refine ⟨_, issue_done hi ?checks (if_pos ((congrArg Ctx.visits hmark).trans hv)), ?effect⟩
  case checks =>
    simp only [hv, haccum, hacc]
    exact Ctx.askTeam_granted hx 64 []
  case effect =>
    generalize (c.markLast (mgetArgs d a)).r.ov.marks = m at hmark
    rw [hmark, Ctx.addOp_eq]
    rfl

/-! ## The sequencer at a word (R256) -/

/-- What a matrix word sees is the state it was taken from. -/
theorem State.seqCtx?_s {s : State} {c : SeqCtx} (h : s.seqCtx? = some c) : c.s = s := by
  unfold State.seqCtx? at h
  split at h
  · split at h
    · cases h
    · split at h
      · cases h
      · split at h
        · cases h
        · cases h
          rfl
  · cases h

/-- A sequencer that runs executes its word. -/
theorem matrixOp_runs {s : State} {c : SeqCtx} (hc : s.seqCtx? = some c) (hr : c.runs = true) (f : SeqCtx → State) :
    matrixOp s f = .next (f c) := by
  simp [matrixOp, hc, hr]

theorem SeqCtx.next_eq (c : SeqCtx) : c.next = seqNext c := rfl

/-- The sequencer's arrival, whose count 0 stands for every party and the sequencer (R263). -/
theorem SeqCtx.arrival_eq (c : SeqCtx) (kind : ArrKind) (n : BitVec 16) :
    HeldArr.arr (c.arrival kind n.toNat) = seqArrival c kind n := by
  have hzero : n.toNat = 0 ↔ n = 0 := by simp [BitVec.toNat_eq]
  simp only [SeqCtx.arrival, seqArrival, hzero]

/-! ## Reads of the parameter block (R264) -/

/-- Bytes within one granule are one part. -/
theorem piecesBy_within {g k va n : Nat} (h0 : 0 < n) (h : va % g + n ≤ g) : piecesBy g (k + 2) va n = [(va, n)] := by
  have hmin : min n (g - va % g) = n := by omega
  simp [piecesBy, Nat.ne_of_gt h0, hmin]

/-- A read by the part of unlocked bytes of this module within one granule. -/
theorem State.readVa_within {s : State} {who : Reader} {core va n : Nat} {asid : BitVec 16} {l : Leaf} {x : Loc} (h0 : 0 < n)
    (h : va % 4096 + n ≤ 4096) (hacc : s.access core asid va 1 true false = .ok l x) (hhost : x.isHost = false)
    (hdev : x.dev = s.devId) (hlock : s.locked x n false = false) :
    s.readVa who core asid va n = .ok (memBytes s.mem x.pa n) := by
  rw [State.readVa, piecesOf, piecesBy_within h0 h]
  simp [hacc, hhost, hdev, hlock]

/-- What a read of `n` bytes of the parameter block from an offset on finds. -/
abbrev SeqCtx.paramRead (c : SeqCtx) (off n : Nat) : VRead :=
  c.s.readVa (.stream c.key) (4 * c.t.cluster) c.g.asid ((c.g.rcd.param.toNat + off) % 2 ^ 64) n

/-- The state that this read leaves (R69, R337). -/
abbrev SeqCtx.paramSeen (c : SeqCtx) (off n : Nat) : State :=
  c.s.seeVa ⟨c.t.grid, c.key + 1, false⟩ (4 * c.t.cluster) c.g.asid ((c.g.rcd.param.toNat + off) % 2 ^ 64) n

/-- A word goes on with bytes of the parameter block that can be read. -/
theorem SeqCtx.param_ok {c : SeqCtx} {off n : Nat} {y : List Byte} (h : c.paramRead off n = .ok y)
    (f : SeqCtx → List Byte → State) :
    c.param off n f =
      f { c with s := c.paramSeen off n, t := (Map.find (c.paramSeen off n).teams c.key).getD c.t } y := by
  rw [SeqCtx.param]
  simp only [h]

/-- A parameter block that does not translate stops the sequencer with code 3 (R264, R266). -/
theorem SeqCtx.param_bad {c : SeqCtx} {off n : Nat} (h : c.paramRead off n = .bad) (f : SeqCtx → List Byte → State) :
    c.param off n f = c.stop 3 := by
  rw [SeqCtx.param]
  simp only [h]

/-! ## Elements of operands -/

/-- The NaNs of FP32 are the codes of exponent 255 with a fraction (R119). -/
theorem isNan_val32 (x : Word) : (val32 x).isNan = true ↔ field x 23 8 = 0xFF ∧ field x 0 23 ≠ 0 := by
  have hexp : field x 23 8 = 0xFF ↔ x.toNat / 8388608 % 256 = 255 := by
    simp [BitVec.toNat_eq, Nat.shiftRight_eq_div_pow]
  have hfrac : field x 0 23 = 0 ↔ x.toNat % 8388608 = 0 := by simp [BitVec.toNat_eq]
  rw [ne_eq, hexp, hfrac]
  by_cases he : x.toNat / 8388608 % 256 = 255
  · by_cases hf : x.toNat % 8388608 = 0 <;> simp [val32, decodeFp, fmtFP32, Val.isNan, he, hf]
  · by_cases h0 : x.toNat / 8388608 % 256 = 0 <;> simp [val32, decodeFp, fmtFP32, Val.isNan, he, h0]

theorem canonNan_eq (x : Word) : canonNan x = if field x 23 8 = 0xFF ∧ field x 0 23 ≠ 0 then 0x7FC00000 else x := by
  simp only [← isNan_val32, canonNan]
  cases val32 x <;> rfl

/-- Without poison in the module no element is poisoned (R335). -/
theorem SeqCtx.readCode_unpoisoned {c : SeqCtx} (h : c.s.poison = []) (f : Nat) (m : MElem) : (c.readCode f m).2.2 = false := by
  have hnone (o : Option Nat) : (match o with
      | some _ => false
      | none => false) = false := by cases o <;> rfl
  simp only [SeqCtx.readCode, h, NatSet.mem, Bool.or_eq_false_iff, Bool.and_eq_false_imp, List.any_eq_false, Bool.not_eq_true]
  exact ⟨⟨fun _ _ => hnone _, fun _ => hnone _⟩, fun _ => hnone _⟩

theorem SeqCtx.poisonedIn_unpoisoned {c : SeqCtx} (h : c.s.poison = []) (f : Nat) (rows : List (List MElem)) :
    c.poisonedIn f rows = [] := by
  simp [SeqCtx.poisonedIn, h]

/-- The base of a pair at a step is a register of the sequencer, not of the machine (R261). -/
theorem SeqCtx.foldl_atStep_s (c : SeqCtx) (k : Nat) (l : List Nat) : (l.foldl (fun d p => d.atStep p k) c).s = c.s := by
  induction l generalizing c with
  | nil => rfl
  | cons p l ih => exact ih (c.atStep p k)

/-! ## Words put to work (R267) -/

theorem SeqCtx.work_eq (c : SeqCtx) (ls : List Lock) (fin : Bool) (acc : Nat) (tile : List Word) (mem : List (Nat × List Byte)) :
    c.work ls fin (fun op => { op := op, ends := [], acc := acc, tile := tile, mem := mem }) = putToWork c fin acc ls tile mem := by
  cases tile <;> rfl

theorem SeqCtx.onTile_of_lt {c : SeqCtx} {acc : Nat} (h : acc < c.t.tiles.length) (f : State) : c.onTile acc f = f :=
  if_neg (Nat.not_le.mpr h)

/-- A step of `mma` with operands in order, without poison and with locks to be had is put to work, and takes the tiles it has
used (R261). -/
theorem SeqCtx.mmaStep_go {c d : SeqCtx} {acc krep n : Nat} {x y : Opnd} {z fa fb : Bool} {ls : List Lock} (hpoison : c.s.poison = [])
    (hd : d = (pairsOf x y).foldl (fun e p => e.atStep p c.q.step) c) (hn : n = min (stepK (d.opndFmt x)) (stepK (d.opndFmt y)))
    (hls : ls = d.locksFor false ((if (stepRows d x fa n).isEmpty then [] else planesOf (d.opndFmt x) (stepRows d x fa n)) ++
      (if (stepRows d y fb n).isEmpty then [] else planesOf (d.opndFmt y) (stepRows d y fb n))))
    (hlx : c.lacks x = false) (hly : c.lacks y = false) (hfx : d.opndFault x fa n = none) (hfy : d.opndFault y fb n = none)
    (hlock : c.lockable ls = true) :
    let w := putToWork c (decide (krep ≤ c.q.step)) acc ls
      (stepTile (if c.q.step = 0 ∧ z = true then List.replicate 1024 0 else c.tile acc) (d.lines x fa n) (d.lines y fb n)) []
    let e := if x = y then w.take x else (w.take x).take y
    c.mmaStep acc x y z krep fa fb =
      if c.q.step < krep then e.put { e.q with st := .running, step := c.q.step + 1, last := e.q.pc }
      else seqNext ((pairsOf x y).foldl (fun u p => u.post p ((krep : Int) + 1)) e) := by
  have hclean (f : Nat) (rows : List (List MElem)) : d.poisonedIn f rows = [] :=
    SeqCtx.poisonedIn_unpoisoned (by rw [hd, SeqCtx.foldl_atStep_s, hpoison]) f rows
  subst hls
  intro w e
  rw [SeqCtx.mmaStep, hlx, hly]
  simp only [← hd, ← hn, hfx, hfy, lowFault]
  refine (if_neg (by decide)).trans ((if_neg (ne_true_of_eq_false (congrArg not hlock))).trans ?_)
  simp only [hclean, List.append_nil, SeqCtx.consumed, SeqCtx.work_eq]
  rfl

/-! ## The words of a sequencer that runs (R261 to R265) -/

section
variable {s : State} {c : SeqCtx} (hc : s.seqCtx? = some c) (hr : c.runs = true)
include hc hr

theorem exec_msetSet (k : BitVec 4) (v : BitVec 20) :
    exec (.msetSet k v) s = .next (seqNext { c with q := { c.q with m := Map.put c.q.m k.toNat (v.setWidth 64) 0 } }) :=
  matrixOp_runs hc hr _

theorem exec_msetAdd (k : BitVec 4) (v : BitVec 20) :
    exec (.msetAdd k v) s = .next (seqNext { c with
      q := { c.q with m := Map.put c.q.m k.toNat (Map.getD c.q.m k.toNat 0 + v.signExtend 64) 0 } }) :=
  matrixOp_runs hc hr _

theorem exec_mloop_enters {n : BitVec 20} (hn : n ≠ 0) (hl : c.q.loops.length < 4) :
    exec (.mloop n) s = .next (seqNext { c with q := { c.q with loops := (c.q.pc + 4, n.toNat) :: c.q.loops } }) :=
  (matrixOp_runs hc hr _).trans (congrArg Outcome.next (if_neg (not_or.mpr ⟨hn, Nat.not_le.mpr hl⟩)))

theorem exec_mloop_stops {n : BitVec 20} (h : n = 0 ∨ 4 ≤ c.q.loops.length) : exec (.mloop n) s = .next (c.stop 6) :=
  (matrixOp_runs hc hr _).trans (congrArg Outcome.next (if_pos h))

theorem exec_mnext_loops {pc : DWord} {n : Nat} {rest : List (DWord × Nat)} (hl : c.q.loops = (pc, n) :: rest) :
    exec .mnext s = .next (if 1 < n then c.put (seqAt { c.q with loops := (pc, n - 1) :: rest } c.q.pc pc)
      else seqNext { c with q := { c.q with loops := rest } }) := by
  refine (matrixOp_runs hc hr _).trans ?_
  rw [hl]
  rfl

theorem exec_mnext_stops (hl : c.q.loops = []) : exec .mnext s = .next (c.stop 6) := by
  refine (matrixOp_runs hc hr _).trans ?_
  rw [hl]

theorem exec_mend : exec .mend s = .next (c.put { c.q with st := .ended, last := c.q.pc }) := matrixOp_runs hc hr _

/-- `mset` takes 8 bytes of the parameter block (R264). -/
theorem exec_mset_ok (k : BitVec 4) {v : BitVec 20} {y : List Byte} (h : c.paramRead (8 * v.toNat) 8 = .ok y) :
    exec (.mset k v) s = .next (seqIn (c.paramSeen (8 * v.toNat) 8) c
      (seqAt { c.q with m := Map.put c.q.m k.toNat (BitVec.ofNat 64 (leNat y)) 0 } c.q.pc (c.q.pc + 4))) :=
  (matrixOp_runs hc hr _).trans (congrArg Outcome.next (SeqCtx.param_ok h _))

theorem exec_mset_bad (k : BitVec 4) {v : BitVec 20} (h : c.paramRead (8 * v.toNat) 8 = .bad) :
    exec (.mset k v) s = .next (c.stop 3) :=
  (matrixOp_runs hc hr _).trans (congrArg Outcome.next (SeqCtx.param_bad h _))

/-- `mset.cb` takes the 32 bytes of a codebook (R264). -/
theorem exec_msetCb_ok {v : BitVec 20} {y : List Byte} (hv : v.toNat % 4 = 0)
    (h : c.paramRead (8 * v.toNat) 32 = .ok y) :
    exec (.msetCb v) s = .next (seqIn (c.paramSeen (8 * v.toNat) 32) c
      (seqAt { c.q with book := some (BitVec.ofNat 256 (leNat y)) } c.q.pc (c.q.pc + 4))) :=
  (matrixOp_runs hc hr _).trans (congrArg Outcome.next ((if_neg (not_not.mpr hv)).trans (SeqCtx.param_ok h _)))

theorem exec_msetCb_bad {v : BitVec 20} (hv : v.toNat % 4 = 0) (h : c.paramRead (8 * v.toNat) 32 = .bad) :
    exec (.msetCb v) s = .next (c.stop 3) :=
  (matrixOp_runs hc hr _).trans (congrArg Outcome.next ((if_neg (not_not.mpr hv)).trans (SeqCtx.param_bad h _)))

theorem exec_msetCb_misplaced {v : BitVec 20} (hv : v.toNat % 4 ≠ 0) : exec (.msetCb v) s = .next (c.stop 1) :=
  (matrixOp_runs hc hr _).trans (congrArg Outcome.next (if_pos hv))

theorem exec_mzero {acc : BitVec 10} (hacc : acc.toNat < c.t.tiles.length) :
    exec (.mzero acc) s = .next (seqNext (putToWork c true acc.toNat [] (List.replicate 1024 0) [])) := by
  refine (matrixOp_runs hc hr _).trans ?_
  rw [SeqCtx.onTile_of_lt hacc, SeqCtx.work_eq, SeqCtx.next_eq]

theorem exec_mzero_stops {acc : BitVec 10} (hacc : c.t.tiles.length ≤ acc.toNat) : exec (.mzero acc) s = .next (c.stop 2) :=
  (matrixOp_runs hc hr _).trans (congrArg Outcome.next (if_pos hacc))

/-- `mlda` puts the decoded elements of its pair to work on the accumulator (R262). -/
theorem exec_mlda_go {acc : BitVec 10} {p : BitVec 3} (hacc : acc.toNat < c.t.tiles.length) (hpoison : c.s.poison = [])
    (hsrc : c.srcFault p.toNat true false 32 32 = none)
    (hlock : c.lockable (c.locksFor false (planesOf (field c.entry 0 6).toNat (c.pairRows p.toNat 32 32))) = true) :
    let f := (field c.entry 0 6).toNat
    let rows := c.pairRows p.toNat 32 32
    exec (.mlda acc p) s = .next (seqNext ((putToWork c true acc.toNat (c.locksFor false (planesOf f rows))
      (rows.flatten.map (fun m =>
        if f = 0 then canonNan (BitVec.ofNat 32 (c.readCode f m).1)
        else (decodeElem f (c.readCode f m).1 (c.q.book.getD 0) (c.readCode f m).2.1).1)) []).post p.toNat 1)) := by
  intro f rows
  refine (matrixOp_runs hc hr _).trans (congrArg Outcome.next ?_)
  rw [SeqCtx.onTile_of_lt hacc, hsrc]
  refine (if_neg (ne_true_of_eq_false (congrArg not hlock))).trans ?_
  simp only [SeqCtx.poisonedIn_unpoisoned hpoison, SeqCtx.readCode_unpoisoned hpoison, SeqCtx.consumed, SeqCtx.work_eq,
    Bool.false_eq_true, if_false]
  rfl

/-- `msta` puts the encoded elements of the accumulator to work as bytes of its pair (R262). -/
theorem exec_msta_go {acc : BitVec 10} {p : BitVec 3} (sat : BitVec 1) (hacc : acc.toNat < c.t.tiles.length)
    (hsrc : c.srcFault p.toNat true false 32 32 = none)
    (hlock : c.lockable (c.locksFor true (planesOf (field c.entry 0 6).toNat (c.pairRows p.toNat 32 32))) = true) :
    let f := (field c.entry 0 6).toNat
    let rows := c.pairRows p.toNat 32 32
    let cells := rows.zipIdx.flatMap (fun r =>
      c.rowBytes f (decide (sat = 1)) r.1 (((c.tile acc.toNat).drop (32 * r.2)).take 32))
    exec (.msta acc p sat) s = .next (seqNext ((putToWork c true acc.toNat (c.locksFor true (planesOf f rows)) []
      (joinBytes (cells.filterMap (fun e => (c.byteAt e.1).map (fun pa => (pa, e.2)))))).post p.toNat 1)) := by
  intro f rows cells
  refine (matrixOp_runs hc hr _).trans (congrArg Outcome.next ?_)
  rw [SeqCtx.onTile_of_lt hacc, hsrc]
  refine (if_neg (ne_true_of_eq_false (congrArg not hlock))).trans ?_
  simp only [SeqCtx.work_eq]
  rfl

/-- `mma` on an accumulator of the team, with slots of parties of the team, executes a step (R261, R266). -/
theorem exec_mma {acc : BitVec 10} {a b : BitVec 4} (z : BitVec 1) (k : BitVec 3) (ta tb : BitVec 1)
    (hacc : acc.toNat < c.t.tiles.length) (ha : c.noParty (opndOf a) = false) (hb : c.noParty (opndOf b) = false) :
    exec (.mma acc a b z k ta tb) s = .next (c.mmaStep acc.toNat (opndOf a) (opndOf b) (decide (z = 1)) k.toNat
      (decide (ta = 1)) (decide (tb = 1))) := by
  refine (matrixOp_runs hc hr _).trans (congrArg Outcome.next ?_)
  rw [if_neg (Nat.not_le.mpr hacc), ha, hb]
  rfl

theorem exec_msig (b : BitVec 4) (n : BitVec 16) (h : c.q.work = []) :
    exec (.msig b n) s = .next ((seqNext c).arriveAt (.team c.key b.toNat) (seqArrival c .msig n)) := by
  refine (matrixOp_runs hc hr _).trans ?_
  rw [h, ← SeqCtx.arrival_eq]
  rfl

theorem exec_msync_arrives (b : BitVec 4) (n : BitVec 16) (h : c.q.st ≠ .waitBar) :
    exec (.msync b n) s = .next
      ((c.put { c.q with st := .waitBar, last := c.q.pc }).arriveAt (.team c.key b.toNat) (seqArrival c .msync n)) := by
  refine (matrixOp_runs hc hr _).trans (congrArg Outcome.next ?_)
  rw [if_neg h, SeqCtx.arrival_eq]

theorem exec_msync_goes_on (b : BitVec 4) (n : BitVec 16) (h : c.q.st = .waitBar) (hf : c.q.freed = true) :
    exec (.msync b n) s = .next (seqNext c) :=
  (matrixOp_runs hc hr _).trans (congrArg Outcome.next ((if_pos h).trans (if_pos hf)))

end

end Sys2Proof.Machine

namespace Sys2Proof.Proofs

open Sys2Proof Sys2Proof.Machine Sys2Proof.Safety

/-- Settles O49: each word goes ahead as its own rule says, those of the party stream from its operands and its team, those of
the sequencer from the context in which it runs. -/
theorem matrixWords : Obligations.MatrixWords := by
  refine ⟨?party, ?registers, ?tiles⟩
  case party =>
    intro s g d a c hseed home visits
    refine ⟨?mput, fun hi => ⟨fun v hv haway hacc => ?mgetAway, fun t hhome hacc => ?mgetHome⟩⟩
    case mput =>
      intro f n h1 h9 hcb hslot hteam hi
      have hn : n = tileRegs f := (tileRegs_eq f).symm
      rw [hn] at hi ⊢
      rw [← mputArgs_eq hi.1] at hi
      exact exec_mput_go hi hseed h1 h9 hcb hslot hteam
    case mgetAway =>
      obtain ⟨hdev, x, hx⟩ := haway
      exact exec_mget_away hi hseed hdev hx (Option.mem_toList.mp hv) hacc
    case mgetHome =>
      obtain ⟨hdev, ht, hstop⟩ := hhome
      have h := exec_mget_home hi hseed hdev ht hstop hacc
      rw [State.tileVals, ht] at h
      exact h
  case registers =>
    intro s c hc hr step m
    obtain rfl : c.s = s := State.seqCtx?_s hc
    refine ⟨fun k v => ⟨exec_msetSet hc hr k v, exec_msetAdd hc hr k v⟩, fun n hn hl => exec_mloop_enters hc hr hn hl,
      fun n h => exec_mloop_stops hc hr h, fun pc n rest hl => exec_mnext_loops hc hr hl, exec_mnext_stops hc hr,
      exec_mend hc hr, fun k v => ?param⟩
    intro core va got done
    exact ⟨fun y h => exec_mset_ok hc hr k h, exec_mset_bad hc hr k, fun hv y h => exec_msetCb_ok hc hr hv h,
      exec_msetCb_bad hc hr, exec_msetCb_misplaced hc hr,
      fun n l x h0 _ hn hacc hhost hdev hlock => State.readVa_within h0 hn hacc hhost hdev hlock⟩
  case tiles =>
    intro s c acc hc hr f
    obtain rfl : c.s = s := State.seqCtx?_s hc
    refine ⟨fun hacc hpoison => ⟨exec_mzero hc hr hacc, ?pair, ?mma⟩, exec_mzero_stops hc hr,
      fun b n => ⟨exec_msig hc hr b n, exec_msync_arrives hc hr b n, exec_msync_goes_on hc hr b n⟩⟩
    case pair =>
      intro p hsrc rows
      constructor
      · rintro ls rfl hlock
        have h := exec_mlda_go hc hr hacc hpoison hsrc hlock
        simp only [canonNan_eq] at h
        exact h
      · rintro ls sat rfl hlock
        exact exec_msta_go hc hr sat hacc hsrc hlock
    case mma =>
      rintro a b z k ta tb ls d e x y n rfl rfl hd hn fa fb ra rb hls ha hb hla hlb hfa hfb hlock w rfl
      have h := SeqCtx.mmaStep_go (acc := acc.toNat) (krep := k.toNat) (z := decide (z = 1)) hpoison hd hn hls hla hlb hfa hfb
        hlock
      simp only [decide_eq_true_eq] at h
      exact (exec_mma hc hr z k ta tb hacc ha hb).trans (congrArg Host.Outcome.next h)

end Sys2Proof.Proofs

namespace Sys2Proof.Machine

open Host Sys2Proof.Safety

/-! # What every step leaves (R23) -/

/-- A BLOCKED party that nobody has stopped has no bundle that may go on (R23). -/
def Party.Waits (p : Party) : Prop :=
  p.isBlocked = true → p.stopBy = false → p.haltBy = false → p.bundles.any p.able = false

theorem noneBlocked_iff (s : State) : NoneBlocked s ↔ ∀ e ∈ s.parties, e.2.Waits := Iff.rfl

theorem Party.waits_of_not_blocked {p : Party} (h : p.isBlocked = false) : p.Waits := by
  intro hb
  rw [h] at hb
  exact absurd hb (by decide)

/-- While a bundle waits for its lineage's slot no bundle of its party may go on (R42). -/
theorem Party.able_of_slotHeld {p : Party} (h : p.slotHeld = true) (b : Bundle) : p.able b = false := by
  simp [Party.able, h]

/-- Becoming READY, where nothing stands against it, leaves no party BLOCKED for nothing. -/
theorem Party.ready_waits (p : Party) (clk : Nat) : (p.ready clk).Waits := by
  unfold Party.ready
  split
  · split
    · next hstay =>
      intro _ hs hh
      have hslot : p.slotHeld = true := by simpa [hs, hh] using hstay
      simp [Party.able_of_slotHeld hslot]
    · exact Party.waits_of_not_blocked rfl
  · next hplace =>
    refine Party.waits_of_not_blocked ?_
    unfold Party.isBlocked
    split
    · next c hc => exact absurd hc (hplace c)
    · rfl

theorem State.recheck_noneBlocked (s : State) : NoneBlocked s.recheck := by
  intro e he
  obtain ⟨x, -, rfl⟩ := List.mem_map.mp he
  split
  · exact Party.ready_waits _ _
  · next h => exact fun hb _ _ => by simpa [hb] using h

theorem State.wake_noneBlocked {s : State} (h : NoneBlocked s) : NoneBlocked s.wake := by
  intro e he
  obtain ⟨x, hx, rfl⟩ := List.mem_map.mp he
  split
  · exact Party.ready_waits _ _
  · exact h x hx

/-- The places of records in a queue have no say in what a party may do. -/
theorem State.packQueue_noneBlocked {s : State} (h : NoneBlocked s) (core : Nat) : NoneBlocked (s.packQueue core) := by
  intro e he
  obtain ⟨x, hx, rfl⟩ := List.mem_map.mp he
  split
  · exact h x hx
  · exact h x hx

theorem State.shrinkQueue_noneBlocked {s : State} (h : NoneBlocked s) (core : Nat) : NoneBlocked (s.shrinkQueue core) := by
  unfold State.shrinkQueue
  dsimp only
  split
  · exact State.packQueue_noneBlocked (by exact h) core
  · exact h

theorem State.returnBlocks_noneBlocked {s : State} (h : NoneBlocked s) (old : State) : NoneBlocked (s.returnBlocks old) := by
  unfold State.returnBlocks
  generalize s.cores.filter _ = l
  induction l generalizing s with
  | nil => exact h
  | cons e l ih => exact ih (State.shrinkQueue_noneBlocked h e.1)

theorem State.preDone_parties (s : State) : s.preDone.parties = s.parties := by
  unfold State.preDone
  split <;> rfl

/-- What follows from a state at once leaves nobody BLOCKED for nothing (R23). -/
theorem State.follow_noneBlocked (s old : State) : NoneBlocked (s.follow old) := by
  have hwake : NoneBlocked (s.giveSlots.stopIdle.recheck.wake.trimQueues) :=
    State.wake_noneBlocked (State.recheck_noneBlocked _)
  have hblocks : NoneBlocked (s.giveSlots.stopIdle.recheck.wake.trimQueues.returnBlocks old).noteHeads :=
    State.returnBlocks_noneBlocked hwake old
  rw [noneBlocked_iff, State.follow, State.preDone_parties]
  exact hblocks

/-- A step ends with what follows from the state that its move has left. -/
theorem settle_eq_next {old t : State} {o : Outcome State Fault Refusal} (h : settle old o = .next t) :
    ∃ u, o = .next u ∧ t = { u.follow old with actor := .none } := by
  cases o with
  | next u => exact ⟨u, rfl, (Outcome.next.inj h).symm⟩
  | fault r => cases h
  | refused r => cases h

/-- Every step is a move, settled. -/
theorem step_eq_settle (s : State) : ∃ o, step s = settle s o := by
  unfold step
  dsimp only
  split <;> exact ⟨_, rfl⟩

end Sys2Proof.Machine

namespace Sys2Proof.Proofs

open Sys2Proof Sys2Proof.Machine Sys2Proof.Safety

/-- Settles O26: whatever the move has left, `settle` ends it with the evaluation of R23, after which no party is BLOCKED for
nothing, and clears the actor. -/
theorem stepSettled : Obligations.StepSettled := by
  intro s t h
  obtain ⟨o, ho⟩ := step_eq_settle s
  obtain ⟨u, -, rfl⟩ := settle_eq_next (ho ▸ h)
  exact ⟨rfl, State.follow_noneBlocked u s⟩

end Sys2Proof.Proofs

namespace Sys2Proof.Machine

open Host

/-! # A step that stops

`Bundle.run` may be absent whatever phase the bundle is in, and the issue of a word looks for it (`State.ctx?`). -/

/-- The state after reset with a party in the active set of core 0, whose bundle is within a run that it does not hold, and the
issue of core 0 as the next move. -/
def strayBundle : State :=
  let b : Bundle := { Bundle.at 0 1 0 0 0 with phase := .running }
  let p : Party := { placeParty State.reset none with bundles := [b] }
  { State.reset with schedule := [.issue 0], parties := [(1, p)] }

/-- The core issues the bundle's word, and no bundle with a run stands there. -/
theorem step_strayBundle : step strayBundle = .fault .noActor := rfl

end Sys2Proof.Machine

namespace Sys2Proof.Proofs

open Sys2Proof Sys2Proof.Machine Sys2Proof.Safety

/-- Refutes O28: no reachable state is asked for, and the step of `strayBundle` faults, because a bundle in phase `running`
without a run is issued. -/
theorem not_stepGoesOn : ¬ Obligations.StepGoesOn := by
  intro h
  obtain ⟨t, ht⟩ := h strayBundle
  rw [step_strayBundle] at ht
  cases ht

end Sys2Proof.Proofs

namespace Sys2Proof.Machine

open Host Sys2Proof.Safety

/-! # What a step executes (R36, R256) -/

/-- A bundle that may execute a word stands within its run. -/
theorem Ctx.phase_of_canIssue {c : Ctx} (h : c.canIssue = true) : c.b.phase = .running := by
  simp only [Ctx.canIssue, Bool.and_eq_true, decide_eq_true_eq] at h
  exact h.1.1.1.2

/-- The word of the party stream that a body word holds. -/
theorem FWord.instr_of_decode {f : FWord} {i : Instr} (hb : f.bad = false) (hd : decodeWord f.w = some i)
    (hm : matrixWord i = false) : f.instr = some i := by
  simp [FWord.instr, hb, hd, hm]

/-- A bundle within its run executes the word at which it stands (R25). -/
theorem issueBundle_word {s : State} {pid bid : Nat} {c : Ctx} {i : Instr} {t : State}
    (hc : ({ s with actor := .bundle pid bid } : State).ctx? = some c) (hi : c.canIssue = true) (hw : c.word.instr = some i)
    (hroom : State.noRoom { s with actor := .bundle pid bid } pid c.b.mask = false)
    (hclaims : State.raiseClaims { s with actor := .bundle pid bid } pid bid = none)
    (ht : exec i { s with actor := .bundle pid bid } = .next t) :
    issueBundle s pid bid = .next (t.noteWalks { s with actor := .bundle pid bid } i) := by
  obtain ⟨-, ha, hp, hb, -⟩ := ctx?_eq hc
  obtain ⟨rfl, rfl⟩ := Actor.bundle.inj ha
  simp [issueBundle, issueWord, hp, hb, Ctx.phase_of_canIssue hi, hroom, hclaims, hc, hi, hw, ht]

/-- A bundle at a header reads the run (R143). -/
theorem issueBundle_header {s : State} {pid bid : Nat} {p : Party} {b : Bundle} {w : Word} {n : BitVec 5} {cd : BitVec 1}
    {wt : BitVec 12} {fa fb : BitVec 4} {t : State} (hp : ({ s with actor := .bundle pid bid } : State).party? pid = some p)
    (hb : p.bundle? bid = some b) (hphase : b.phase = .waiting) (hasked : b.asked = [])
    (hf : State.fetchFor { s with actor := .bundle pid bid } b p.core p.asid b.pc.toNat = .word w)
    (hd : decodeWord w = some (.runHeader n cd wt fa fb))
    (ht : exec (.runHeader n cd wt fa fb) { s with actor := .bundle pid bid } = .next t) :
    issueBundle s pid bid = .next (t.noteWalk { s with actor := .bundle pid bid } p.core p.asid b.pc.toNat) := by
  simp [issueBundle, issueHeader, hp, hb, hphase, hasked, hf, hd, ht]

/-- The first bundle in the order of R36 goes on, if it is the only one or what it does changes something. -/
theorem issueFirst_cons {s t : State} {pid bid : Nat} {l : List (Nat × Nat)} (h : issueBundle s pid bid = .next t)
    (hl : l = [] ∨ { t with actor := s.actor } ≠ s) : issueFirst s ((pid, bid) :: l) = .next t := by
  cases l with
  | nil => exact h
  | cons e l =>
    have hne : { t with actor := s.actor } ≠ s := hl.resolve_left (by simp)
    simp [issueFirst, h, hne]

/-- Where no trap of another core comes first, a core's issue is that of its first bundle (R42). -/
theorem issueCore_eq {s t : State} {core : Nat} (h : issueFirst s (s.candidates core) = .next t)
    (hr : (s.delivered t core).bind (s.rival core) = none) : issueCore s core = .next t := by
  simp [issueCore, h, hr]

theorem step_issue {s t : State} {core : Nat} {rest : List Move} (hs : s.schedule = .issue core :: rest)
    (h : issueCore { s with steps := s.steps + 1, schedule := rest } core = .next t) :
    step s = settle s (.next t) := by
  simp [step, hs, perform, h]

/-- The word at the sequencer's pc is executed (R256). -/
theorem sequenceTeam_word {s t : State} {key : Nat} {c : SeqCtx} {w : Word} {i : Instr}
    (hc : ({ s with actor := .sequencer key } : State).seqCtx? = some c) (hr : c.runs = true) (hst : c.q.st ≠ .waitBar)
    (hover : State.teamOver { s with actor := .sequencer key } c.key = false) (hf : c.fetch = .word w)
    (hd : decodeWord w = some i) (hm : matrixWord i = true) (ht : exec i { s with actor := .sequencer key } = .next t) :
    sequenceTeam s key = .next (c.fetched t) := by
  simp [sequenceTeam, sequenceAt, hc, hr, hst, hover, hf, hd, hm, ht]

theorem step_sequence {s t : State} {key : Nat} {rest : List Move} (hs : s.schedule = .sequence key :: rest)
    (h : sequenceTeam { s with steps := s.steps + 1, schedule := rest } key = .next t) :
    step s = settle s (.next t) := by
  simp [step, hs, perform, h]

theorem step_event {s : State} {i : Instr} {rest : List Move} (hs : s.schedule = .event i :: rest) (hi : isEvent i = true) :
    step s = settle s (exec i { s with steps := s.steps + 1, schedule := rest }) := by
  simp [step, hs, perform, hi]

end Sys2Proof.Machine

namespace Sys2Proof.Proofs

open Sys2Proof Sys2Proof.Machine Sys2Proof.Safety

/-- Settles O25: the schedule's move is followed through the choice of R36 to the word, the header, the matrix word or the
event that it names. -/
theorem stepRunsDecoded : Obligations.StepRunsDecoded := by
  intro s rest
  refine ⟨?core, ?sequencer, fun i hs hi => step_event hs hi⟩
  case core =>
    intro k pid bid l hs hcand s1
    constructor
    · intro c i hc hi hbad hd hm hroom hclaims t ht hl hrival
      have hb : issueBundle { s with steps := s.steps + 1, schedule := rest } pid bid = .next (t.noteWalks s1 i) :=
        issueBundle_word hc hi (FWord.instr_of_decode hbad hd hm) hroom hclaims ht
      exact step_issue hs (issueCore_eq (hcand ▸ issueFirst_cons hb hl) hrival)
    · intro p b w n cd wt fa fb hp hb hphase hasked hf hd hl t ht hrival
      have hread : issueBundle { s with steps := s.steps + 1, schedule := rest } pid bid =
          .next (t.noteWalk s1 p.core p.asid b.pc.toNat) :=
        issueBundle_header hp hb hphase hasked hf hd ht
      exact step_issue hs (issueCore_eq (hcand ▸ issueFirst_cons hread (.inl hl)) hrival)
  case sequencer =>
    intro key c w i hs s1 hc hr hst hover hf hd hm t ht
    exact step_sequence hs (sequenceTeam_word hc hr hst hover hf hd hm ht)

end Sys2Proof.Proofs

namespace Sys2Proof.Machine

open Host Sys2Proof.Safety

/-! # Events of a core's parties (R20, R22, R23, R25, R35, R37, R169) -/

/-! ## Maps -/

/-- A map over the values of a table that keeps its keys. -/
theorem Map.find_map_keys {α β : Type} {F : Nat × α → Nat × β} (hF : ∀ e, (F e).1 = e.1) (m : Map α) (a : Nat) :
    Map.find (m.map F) a = (Map.find m a).map (fun x => (F (a, x)).2) := by
  induction m with
  | nil => rfl
  | cons e m ih =>
    obtain ⟨k, v⟩ := e
    rw [List.map_cons, show F (k, v) = (k, (F (k, v)).2) from Prod.ext (hF _) rfl]
    simp only [Map.find]
    split
    · rfl
    · split
      · subst_vars; rfl
      · exact ih

theorem Map.sorted_put {α : Type} [DecidableEq α] {m : Map α} (hm : Map.sorted m = true) (a : Nat) (x d : α) :
    Map.sorted (Map.put m a x d) = true := by
  simp only [Map.put]
  split
  · exact Map.sortedFrom_erase m 0 a hm
  · exact Map.sortedFrom_insert m 0 a x hm (Nat.zero_le a)

/-- The first element that passes a test is the first that passes a stronger one, if it does. -/
theorem find?_and_of_find? {α : Type} {f g : α → Bool} {l : List α} {x : α} (h : l.find? f = some x) (hg : g x = true) :
    l.find? (fun y => f y && g y) = some x := by
  induction l with
  | nil => cases h
  | cons y l ih =>
    rw [List.find?_cons] at h ⊢
    cases hy : f y with
    | true => rw [hy] at h; cases h; simp [hg]
    | false => rw [hy] at h; simpa using ih h

/-! ## A party that becomes READY again -/

/-- `ready` writes the place and its times only. -/
theorem Party.ready_fields (p : Party) (clk : Nat) :
    ∃ pl r b, p.ready clk = { p with place := pl, readyAt := r, beganAt := b } := by
  unfold Party.ready
  split
  · split
    · exact ⟨_, _, _, rfl⟩
    · exact ⟨_, _, _, rfl⟩
  · exact ⟨_, _, _, rfl⟩

/-- `recheck` keeps every party, but for the place and its times. -/
theorem State.party?_recheck {s : State} {pid : Nat} {p : Party} (h : s.party? pid = some p) :
    ∃ pl r b, s.recheck.party? pid = some { p with place := pl, readyAt := r, beganAt := b } := by
  have hkeys := Map.find_map_keys (F := fun e : Nat × Party =>
    if e.2.isBlocked && e.2.bundles.any e.2.able then (e.1, e.2.ready (s.clk e.2.core)) else e)
    (fun e => by split <;> rfl) s.parties pid
  rw [show Map.find s.parties pid = some p from h] at hkeys
  rw [show s.recheck.party? pid = _ from hkeys]
  rw [Option.map_some]
  split
  · obtain ⟨pl, r, b, hq⟩ := p.ready_fields (s.clk p.core)
    exact ⟨pl, r, b, by rw [hq]⟩
  · exact ⟨_, _, _, rfl⟩

/-! ## A long-latency result is written (R25) -/

/-- What one result of a committed operation writes. -/
def Party.landed (o : PendOp) (p : Party) (d : Dest × Nat) : Party :=
  match d.1 with
  | .v r l => if r < tempBase then p.putReg (regKey r l) (BitVec.ofNat 32 d.2) else p
  | .fill r l =>
    { p with vregs := Map.put p.vregs (regKey r l) (BitVec.ofNat 32 d.2) 0, dirty := NatSet.del p.dirty (regKey r l) }
  | .s n => p.putWide (o.id, .s n (BitVec.ofNat 64 d.2))
  | .h n => p.putWide (o.id, .h n (BitVec.ofNat 64 d.2))
  | .push l => p.putPreds l (pushBit (p.lane l).preds (decide (d.2 ≠ 0)))
  | .cb => p.putWide (o.id, .cb (some (BitVec.ofNat 256 d.2)))
  | .fp _ => { p with fpflags := p.fpflags ||| BitVec.ofNat 16 d.2 }
  | .drop => p

/-- A destination that names the register of a key. -/
def Dest.atKey (d : Dest) (key : Nat) : Prop := ∃ r l, (d = .v r l ∧ r < tempBase ∨ d = .fill r l) ∧ regKey r l = key

theorem Party.putWide_fields (p : Party) (e : Nat × PItem) :
    (p.putWide e).pend = p.pend ∧ (p.putWide e).vregs = p.vregs ∧ (p.putWide e).lanes = p.lanes ∧
      (p.putWide e).bundles = p.bundles := by
  have hitem (i : PItem) : (p.putItem i).pend = p.pend ∧ (p.putItem i).vregs = p.vregs ∧ (p.putItem i).lanes = p.lanes ∧
      (p.putItem i).bundles = p.bundles := by
    cases i <;> exact ⟨rfl, rfl, rfl, rfl⟩
  unfold Party.putWide
  split
  · exact hitem _
  · split
    · exact ⟨rfl, rfl, rfl, rfl⟩
    · exact hitem _

theorem Party.landed_pend (o : PendOp) (p : Party) (d : Dest × Nat) : (p.landed o d).pend = p.pend := by
  obtain ⟨d, x⟩ := d
  cases d with
  | v r l => dsimp only [Party.landed]; split <;> rfl
  | s n => exact (p.putWide_fields _).1
  | h n => exact (p.putWide_fields _).1
  | cb => exact (p.putWide_fields _).1
  | _ => rfl

theorem Party.landed_sorted {o : PendOp} {p : Party} {d : Dest × Nat} (h : Map.sorted p.vregs = true ∧ Map.sorted p.lanes = true) :
    Map.sorted (p.landed o d).vregs = true ∧ Map.sorted (p.landed o d).lanes = true := by
  obtain ⟨hv, hl⟩ := h
  obtain ⟨d, x⟩ := d
  have hwide (e : Nat × PItem) : Map.sorted (p.putWide e).vregs = true ∧ Map.sorted (p.putWide e).lanes = true := by
    rw [(p.putWide_fields e).2.1, (p.putWide_fields e).2.2.1]; exact ⟨hv, hl⟩
  cases d with
  | v r l =>
    dsimp only [Party.landed]
    split
    · exact ⟨Map.sorted_put hv _ _ _, hl⟩
    · exact ⟨hv, hl⟩
  | fill r l => exact ⟨Map.sorted_put hv _ _ _, hl⟩
  | s n => exact hwide _
  | h n => exact hwide _
  | cb => exact hwide _
  | push l => exact ⟨hv, Map.sorted_put hl _ _ _⟩
  | fp l => exact ⟨hv, hl⟩
  | drop => exact ⟨hv, hl⟩

/-- A register after one result: the result where the destination names it, as it was elsewhere. -/
theorem Party.landed_vregs {o : PendOp} {p : Party} {d : Dest × Nat} (hv : Map.sorted p.vregs = true) (key : Nat) :
    (d.1.atKey key ∧ Map.getD (p.landed o d).vregs key 0 = BitVec.ofNat 32 d.2) ∨
      (¬ d.1.atKey key ∧ Map.getD (p.landed o d).vregs key 0 = Map.getD p.vregs key 0) := by
  obtain ⟨d, x⟩ := d
  have hnot {d : Dest} (h1 : ∀ r l, d ≠ .v r l) (h2 : ∀ r l, d ≠ .fill r l) : ¬ d.atKey key := by
    rintro ⟨r, l, ⟨h, -⟩ | h, -⟩
    · exact h1 r l h
    · exact h2 r l h
  have hwide (e : Nat × PItem) : Map.getD (p.putWide e).vregs key 0 = Map.getD p.vregs key 0 := by
    rw [(p.putWide_fields e).2.1]
  have hput (r l : Nat) : Map.getD (Map.put p.vregs (regKey r l) (BitVec.ofNat 32 x) 0) key 0 =
      if key = regKey r l then BitVec.ofNat 32 x else Map.getD p.vregs key 0 := Map.getD_put _ _ _ _ _ hv
  cases d with
  | v r l =>
    dsimp only [Party.landed]
    by_cases hr : r < tempBase
    · rw [if_pos hr]
      simp only [Party.putReg, hput]
      by_cases hk : key = regKey r l
      · exact .inl ⟨⟨r, l, .inl ⟨rfl, hr⟩, hk.symm⟩, if_pos hk⟩
      · refine .inr ⟨?_, if_neg hk⟩
        rintro ⟨r', l', ⟨h, -⟩ | h, hkey⟩
        · cases h; exact hk hkey.symm
        · cases h
    · rw [if_neg hr]
      refine .inr ⟨?_, rfl⟩
      rintro ⟨r', l', ⟨h, hlt⟩ | h, -⟩
      · cases h; exact hr hlt
      · cases h
  | fill r l =>
    dsimp only [Party.landed]
    rw [hput]
    by_cases hk : key = regKey r l
    · exact .inl ⟨⟨r, l, .inr rfl, hk.symm⟩, if_pos hk⟩
    · refine .inr ⟨?_, if_neg hk⟩
      rintro ⟨r', l', ⟨h, -⟩ | h, hkey⟩
      · cases h
      · cases h; exact hk hkey.symm
  | s n => exact .inr ⟨hnot nofun nofun, hwide _⟩
  | h n => exact .inr ⟨hnot nofun nofun, hwide _⟩
  | cb => exact .inr ⟨hnot nofun nofun, hwide _⟩
  | push l => exact .inr ⟨hnot nofun nofun, rfl⟩
  | fp l => exact .inr ⟨hnot nofun nofun, rfl⟩
  | drop => exact .inr ⟨hnot nofun nofun, rfl⟩

/-- A lane's predicates change with a push to it only. -/
theorem Party.landed_preds {o : PendOp} {p : Party} {d : Dest × Nat} (hl : Map.sorted p.lanes = true) {l : Nat}
    (hd : d.1 ≠ .push l) : ((p.landed o d).lane l).preds = (p.lane l).preds := by
  obtain ⟨d, x⟩ := d
  have hwide (e : Nat × PItem) : ((p.putWide e).lane l).preds = (p.lane l).preds := by
    simp only [Party.lane, (p.putWide_fields e).2.2.1]
  cases d with
  | v r k => dsimp only [Party.landed]; split <;> rfl
  | s n => exact hwide _
  | h n => exact hwide _
  | cb => exact hwide _
  | push k =>
    have hk : l ≠ k := fun e => hd (by rw [e])
    simp only [Party.landed, Party.putPreds, Party.lane]
    rw [Map.getD_put _ _ _ _ _ hl, if_neg hk]
  | _ => rfl

/-- The results of an operation leave in a register the value that all of them which name it give it. -/
theorem Party.foldl_landed_vregs {o : PendOp} {key : Nat} {v : Word} (ds : List (Dest × Nat)) (p : Party)
    (hs : Map.sorted p.vregs = true ∧ Map.sorted p.lanes = true) (hall : ∀ e ∈ ds, e.1.atKey key → BitVec.ofNat 32 e.2 = v)
    (hone : Map.getD p.vregs key 0 = v ∨ ∃ e ∈ ds, e.1.atKey key) :
    Map.getD (ds.foldl (Party.landed o) p).vregs key 0 = v := by
  induction ds generalizing p with
  | nil =>
    obtain h | ⟨e, he, -⟩ := hone
    · exact h
    · cases he
  | cons d ds ih =>
    refine ih _ (Party.landed_sorted hs) (fun e he => hall e (List.mem_cons_of_mem _ he)) ?_
    obtain ⟨hat, hval⟩ | ⟨hat, hval⟩ := Party.landed_vregs (o := o) (d := d) hs.1 key
    · exact .inl (hval.trans (hall d (List.mem_cons_self ..) hat))
    · obtain h | ⟨e, he, hk⟩ := hone
      · exact .inl (hval.trans h)
      · obtain rfl | he := List.mem_cons.mp he
        · exact absurd hk hat
        · exact .inr ⟨e, he, hk⟩

theorem Party.foldl_landed_preds {o : PendOp} {l : Nat} (ds : List (Dest × Nat)) (p : Party)
    (hs : Map.sorted p.vregs = true ∧ Map.sorted p.lanes = true) (hd : ∀ e ∈ ds, e.1 ≠ .push l) :
    ((ds.foldl (Party.landed o) p).lane l).preds = (p.lane l).preds := by
  induction ds generalizing p with
  | nil => rfl
  | cons d ds ih =>
    rw [List.foldl_cons, ih _ (Party.landed_sorted hs) (fun e he => hd e (List.mem_cons_of_mem _ he)),
      Party.landed_preds hs.2 (hd d (List.mem_cons_self ..))]

theorem Party.foldl_landed_pend (o : PendOp) (ds : List (Dest × Nat)) (p : Party) :
    (ds.foldl (Party.landed o) p).pend = p.pend := by
  induction ds generalizing p with
  | nil => rfl
  | cons d ds ih => rw [List.foldl_cons, ih, Party.landed_pend]

/-- LONG_OP_COMPLETE of a committed result without poison writes what `landed` says and removes the operation. -/
theorem exec_longOpComplete {s : State} {pid : Nat} {p : Party} {o : PendOp} (hp : s.party? pid = some p)
    (ho : p.pend.find? (fun x => decide (x.id = o.id)) = some o) (hready : o.ready = true) (hpoison : o.poison = false)
    (hcom : o.committed = true) :
    ∃ t q, exec (.longOpComplete pid o.id) s = .next t ∧ t.party? pid = some q ∧ { t with parties := s.parties } = s ∧
      q.pend = p.pend.filter (fun x => decide (x ≠ o)) ∧
      q.vregs = ((o.dests.zip o.vals).foldl (Party.landed o) p).vregs ∧
      q.lanes = ((o.dests.zip o.vals).foldl (Party.landed o) p).lanes := by
  have hfind : p.pend.find? (fun x => decide (x.id = o.id) && x.ready && (!x.late || x.committed)) = some o := by
    simp only [Bool.and_assoc]
    exact find?_and_of_find? ho (by simp [hready, hcom])
  have hexec : ∃ q, exec (.longOpComplete pid o.id) s = .next (s.setParty pid q).recheck ∧
      q.pend = p.pend.filter (fun x => decide (x ≠ o)) ∧
      q.vregs = ((o.dests.zip o.vals).foldl (Party.landed o) p).vregs ∧
      q.lanes = ((o.dests.zip o.vals).foldl (Party.landed o) p).lanes := by
    generalize hout : exec (.longOpComplete pid o.id) s = out
    change execLongOpComplete pid o.id s = out at hout
    unfold execLongOpComplete at hout
    rw [hp] at hout
    dsimp -zeta only at hout
    rw [hfind] at hout
    dsimp -zeta only at hout
    extract_lets run ov0 step r pfold p1 clk cleared held p2 p3 s1 at hout
    have hstep (a : Party × Overlay) (d : Dest × Nat) : (a.1.landed o d) = (step a d).1 := by
      obtain ⟨d, x⟩ := d
      cases d with
      | v r l => by_cases hr : r < tempBase <;> simp [step, Party.landed, hcom, hpoison, hr]
      | _ => simp [step, Party.landed, hcom, hpoison, Party.poisonWide]
    have hfst : r.1 = (o.dests.zip o.vals).foldl (Party.landed o) p :=
      (List.foldl_hom Prod.fst (g₁ := step) hstep (l := o.dests.zip o.vals) (init := (p, ov0))).symm
    have hp2 : p2.pend = p1.pend ∧ p2.vregs = p1.vregs ∧ p2.lanes = p1.lanes := by
      dsimp only [p2]
      split
      · split
        · exact ⟨rfl, rfl, rfl⟩
        · exact ⟨rfl, rfl, rfl⟩
      · exact ⟨rfl, rfl, rfl⟩
    rw [hpoison, if_neg Bool.false_ne_true] at hout
    refine ⟨p3, hout.symm, hp2.1.trans ?_, hp2.2.1.trans ?_, hp2.2.2.trans ?_⟩
    · show r.1.pend.filter _ = _
      rw [hfst, Party.foldl_landed_pend]
    · show r.1.vregs = _
      rw [hfst]
    · show r.1.lanes = _
      rw [hfst]
  obtain ⟨q, hq, hpend, hregs, hlanes⟩ := hexec
  obtain ⟨pl, r, b, ht⟩ := State.party?_recheck (State.party?_setParty_self s pid q)
  exact ⟨_, _, hq, ht, rfl, hpend, hregs, hlanes⟩

/-! ## Regrouping (R20) -/

/-- Two bundles that regrouping makes one. -/
def Bundle.Joins (x y : Bundle) : Prop := x.mergeable = true ∧ y.mergeable = true ∧ x.pc = y.pc ∧ x.wb = y.wb

/-- A bundle holds the lanes of another, at its PC and window base. -/
def Bundle.Covers (x b : Bundle) : Prop := x.pc = b.pc ∧ x.wb = b.wb ∧ b.mask &&& ~~~x.mask = 0

/-- Two bundles that regrouping treats alike. -/
def Bundle.Kin (x y : Bundle) : Prop := x.mergeable = y.mergeable ∧ x.pc = y.pc ∧ x.wb = y.wb

/-- The lanes of a list of bundles. -/
def lanesUnion (l : List Bundle) : DWord := l.foldl (fun m b => m ||| b.mask) 0

theorem lanesUnion_foldl (l : List Bundle) (m : DWord) : l.foldl (fun m b => m ||| b.mask) m = m ||| lanesUnion l := by
  unfold lanesUnion
  induction l generalizing m with
  | nil => simp
  | cons b l ih => rw [List.foldl_cons, List.foldl_cons, ih, ih (0 ||| b.mask)]; simp [BitVec.or_assoc]

theorem lanesUnion_cons (b : Bundle) (l : List Bundle) : lanesUnion (b :: l) = b.mask ||| lanesUnion l := by
  rw [show lanesUnion (b :: l) = l.foldl (fun m b => m ||| b.mask) (0 ||| b.mask) from rfl, lanesUnion_foldl]; simp

theorem Bundle.Covers.refl (b : Bundle) : b.Covers b := ⟨rfl, rfl, by simp⟩

theorem Bundle.Covers.trans {x y b : Bundle} (h : x.Covers y) (h' : y.Covers b) : x.Covers b := by
  obtain ⟨hpc, hwb, hm⟩ := h
  obtain ⟨hpc', hwb', hm'⟩ := h'
  refine ⟨hpc.trans hpc', hwb.trans hwb', ?_⟩
  ext i hi
  have h1 := congrArg (·.getLsbD i) hm
  have h2 := congrArg (·.getLsbD i) hm'
  simp [hi] at h1 h2 ⊢
  exact fun h => h1 (h2 h)

/-- The first bundle that another joins, with the other's lanes. -/
def Bundle.withLanes (x b : Bundle) : Bundle :=
  { x with mask := x.mask ||| b.mask, gates := x.gates ++ b.gates, since := min x.since b.since, jump := x.jump ||| b.jump }

theorem Bundle.withLanes_covers (x b : Bundle) : (x.withLanes b).Covers x :=
  ⟨rfl, rfl, by ext i hi; simp [Bundle.withLanes]; exact fun h h' => absurd h (by simp [h'])⟩

theorem Bundle.withLanes_covers_of_joins {x b : Bundle} (h : x.Joins b) : (x.withLanes b).Covers b :=
  ⟨h.2.2.1, h.2.2.2, by ext i hi; simp [Bundle.withLanes]; exact fun h _ => h⟩

theorem mergeInto_cons_of_joins {x b : Bundle} (h : x.Joins b) (l : List Bundle) :
    mergeInto b (x :: l) = x.withLanes b :: l := by
  obtain ⟨hx, hb, hpc, hwb⟩ := h
  simp [mergeInto, Bundle.withLanes, hx, hb, hpc, hwb]

theorem mergeInto_cons_of_not_joins {x b : Bundle} (h : ¬ x.Joins b) (l : List Bundle) :
    mergeInto b (x :: l) = x :: mergeInto b l := by
  rw [mergeInto, if_neg]
  simpa [Bundle.Joins, and_assoc] using h

theorem lanesUnion_mergeInto (b : Bundle) (l : List Bundle) : lanesUnion (mergeInto b l) = lanesUnion l ||| b.mask := by
  induction l with
  | nil => rfl
  | cons x l ih =>
    by_cases h : x.Joins b
    · rw [mergeInto_cons_of_joins h, lanesUnion_cons, lanesUnion_cons, Bundle.withLanes]
      simp only [BitVec.or_assoc, BitVec.or_comm b.mask]
    · rw [mergeInto_cons_of_not_joins h, lanesUnion_cons, lanesUnion_cons, ih, BitVec.or_assoc]

theorem mergeInto_covers_new (b : Bundle) (l : List Bundle) : ∃ x ∈ mergeInto b l, x.Covers b := by
  induction l with
  | nil => exact ⟨b, List.mem_singleton_self b, Bundle.Covers.refl b⟩
  | cons x l ih =>
    by_cases h : x.Joins b
    · rw [mergeInto_cons_of_joins h]
      exact ⟨_, List.mem_cons_self .., Bundle.withLanes_covers_of_joins h⟩
    · rw [mergeInto_cons_of_not_joins h]
      obtain ⟨y, hy, hc⟩ := ih
      exact ⟨y, List.mem_cons_of_mem _ hy, hc⟩

theorem mergeInto_covers_old (b : Bundle) {l : List Bundle} {y : Bundle} (hy : y ∈ l) : ∃ x ∈ mergeInto b l, x.Covers y := by
  induction l with
  | nil => cases hy
  | cons x l ih =>
    by_cases h : x.Joins b
    · rw [mergeInto_cons_of_joins h]
      obtain rfl | hy := List.mem_cons.mp hy
      · exact ⟨_, List.mem_cons_self .., Bundle.withLanes_covers y b⟩
      · exact ⟨y, List.mem_cons_of_mem _ hy, Bundle.Covers.refl y⟩
    · rw [mergeInto_cons_of_not_joins h]
      obtain rfl | hy := List.mem_cons.mp hy
      · exact ⟨y, List.mem_cons_self .., Bundle.Covers.refl y⟩
      · obtain ⟨z, hz, hc⟩ := ih hy
        exact ⟨z, List.mem_cons_of_mem _ hz, hc⟩

theorem Bundle.Kin.refl (x : Bundle) : x.Kin x := ⟨rfl, rfl, rfl⟩

theorem Bundle.withLanes_kin (x b : Bundle) : (x.withLanes b).Kin x := ⟨rfl, rfl, rfl⟩

/-- What stands in the list after a merge is kin to what stood in it, or to a new bundle that nothing joins. -/
theorem mem_mergeInto {b : Bundle} {l : List Bundle} {y : Bundle} (hy : y ∈ mergeInto b l) :
    (∃ x ∈ l, y.Kin x) ∨ y = b ∧ ∀ x ∈ l, ¬ x.Joins b := by
  induction l with
  | nil => exact .inr ⟨List.mem_singleton.mp hy, fun _ hx => absurd hx List.not_mem_nil⟩
  | cons x l ih =>
    by_cases h : x.Joins b
    · rw [mergeInto_cons_of_joins h] at hy
      obtain rfl | hy := List.mem_cons.mp hy
      · exact .inl ⟨x, List.mem_cons_self .., Bundle.withLanes_kin x b⟩
      · exact .inl ⟨y, List.mem_cons_of_mem _ hy, .refl y⟩
    · rw [mergeInto_cons_of_not_joins h] at hy
      obtain rfl | hy := List.mem_cons.mp hy
      · exact .inl ⟨y, List.mem_cons_self .., .refl y⟩
      · obtain ⟨z, hz, hk⟩ | ⟨rfl, hall⟩ := ih hy
        · exact .inl ⟨z, List.mem_cons_of_mem _ hz, hk⟩
        · exact .inr ⟨rfl, List.forall_mem_cons.mpr ⟨h, hall⟩⟩

theorem Bundle.Kin.joins_iff {x y : Bundle} (h : x.Kin y) (z : Bundle) : z.Joins x ↔ z.Joins y := by
  obtain ⟨hm, hpc, hwb⟩ := h
  simp only [Bundle.Joins, hm, hpc, hwb]

/-- Bundles apart stay apart after a merge. -/
theorem mergeInto_apart {b : Bundle} {l : List Bundle} (hl : l.Pairwise (fun x y => ¬ x.Joins y)) :
    (mergeInto b l).Pairwise (fun x y => ¬ x.Joins y) := by
  induction l with
  | nil => exact List.pairwise_singleton _ _
  | cons x l ih =>
    obtain ⟨hx, hl⟩ := List.pairwise_cons.mp hl
    by_cases h : x.Joins b
    · rw [mergeInto_cons_of_joins h]
      exact List.pairwise_cons.mpr ⟨hx, hl⟩
    · rw [mergeInto_cons_of_not_joins h]
      refine List.pairwise_cons.mpr ⟨fun y hy => ?_, ih hl⟩
      obtain ⟨z, hz, hk⟩ | ⟨rfl, -⟩ := mem_mergeInto hy
      · exact fun hj => hx z hz ((hk.joins_iff x).mp hj)
      · exact h

/-- Regrouping a list onto another: its lanes, what covers each bundle, and that nothing left may be merged. -/
theorem foldl_mergeInto (l acc : List Bundle) (hacc : acc.Pairwise (fun x y => ¬ x.Joins y)) :
    let q := l.foldl (fun l b => mergeInto b l) acc
    lanesUnion q = lanesUnion acc ||| lanesUnion l ∧ (∀ b, b ∈ acc ∨ b ∈ l → ∃ x ∈ q, x.Covers b) ∧
      q.Pairwise (fun x y => ¬ x.Joins y) := by
  induction l generalizing acc with
  | nil => exact ⟨by simp [lanesUnion], fun b hb => ⟨b, hb.resolve_right List.not_mem_nil, .refl b⟩, hacc⟩
  | cons b l ih =>
    obtain ⟨hlanes, hcov, hap⟩ := ih (mergeInto b acc) (mergeInto_apart hacc)
    refine ⟨?_, fun y hy => ?_, hap⟩
    · rw [List.foldl_cons, hlanes, lanesUnion_mergeInto, lanesUnion_cons, BitVec.or_assoc]
    · have hmid : (∃ z ∈ mergeInto b acc, z.Covers y) ∨ y ∈ l := by
        obtain hy | hy := hy
        · exact .inl (mergeInto_covers_old b hy)
        · obtain rfl | hy := List.mem_cons.mp hy
          · exact .inl (mergeInto_covers_new y acc)
          · exact .inr hy
      obtain ⟨z, hz, hzy⟩ | hy := hmid
      · obtain ⟨x, hx, hxz⟩ := hcov z (.inl hz)
        exact ⟨x, hx, hxz.trans hzy⟩
      · exact hcov y (.inr hy)

/-- REGROUPING_PASS for a party of the core. -/
theorem exec_regroupingPass {s : State} {pid : Nat} {p : Party} (hp : s.party? pid = some p) (hres : p.resident = true)
    (hcount : p.counted = false) :
    ∃ t, exec (.regroupingPass p.core) s = .next t ∧ { t with parties := s.parties } = s ∧
      t.party? pid = some { p with bundles := p.bundles.foldl (fun l b => mergeInto b l) [] } := by
  refine ⟨_, rfl, rfl, ?_⟩
  refine (Map.find_map_keys (fun e => by split <;> rfl) s.parties pid).trans ?_
  rw [show Map.find s.parties pid = some p from hp, Option.map_some, if_pos (by simp [hres, hcount])]

/-! ## The active set, ageing, blocking (R22, R23, R35, R37) -/

theorem Party.aged_of_unblocked {p : Party} (hres : p.resident = true) (hb : p.isBlocked = false) (clk : Nat) :
    p.aged clk = { p with level := min 3 ((clk - p.beganAt) / 4096),
                          starving := p.starving || decide (61440 ≤ clk - p.beganAt) } := by
  rw [Party.aged, if_pos (by simp [hres, hb])]

theorem exec_activeSetFill_free {s : State} {core pid : Nat} {a : Party} (hn : s.nextReady core = some (pid, a))
    (hlen : ((s.residents core).filter (fun e => e.2.isActive)).length < 8) :
    exec (.activeSetFill core) s = .next (s.setParty pid { a with place := .slot core .active }) := by
  unfold exec execActiveSetFill
  simp only [hn, List.length_map, if_pos hlen]

theorem exec_activeSetFill_displaces {s : State} {core pid q : Nat} {a x : Party} (hn : s.nextReady core = some (pid, a))
    (hlen : 8 ≤ ((s.residents core).filter (fun e => e.2.isActive)).length)
    (hx : leastBy (fun e => e.2.rank) ((((s.residents core).filter (fun e => e.2.isActive)).map
      (fun e => (e.1, e.2.aged (s.clk core)))).filter (fun e => decide (e.2.rank < a.rank) && !e.2.midRun)) = some (q, x)) :
    exec (.activeSetFill core) s = .next ((s.setParty q { x with place := .slot core .ready, readyAt := s.clk core }).setParty pid
      { a with place := .slot core .active }) := by
  unfold exec execActiveSetFill
  simp only [hn, List.length_map, if_neg (Nat.not_lt.mpr hlen), hx]

theorem exec_priorityAging {s : State} {pid : Nat} {p : Party} (hp : s.party? pid = some p) :
    exec (.priorityAging pid) s = .next (s.setParty pid { p with level := (p.aged (s.clk p.core)).level }) := by
  unfold exec execPriorityAging
  simp only [hp]

theorem exec_starvationMark {s : State} {pid : Nat} {p : Party} (hp : s.party? pid = some p) :
    exec (.starvationMark pid) s = .next (s.setParty pid { p with starving := (p.aged (s.clk p.core)).starving }) := by
  unfold exec execStarvationMark
  simp only [hp]

/-- A bundle cannot go on: outside a stall inside a run it is not able to, in one the clk have passed (R23). -/
theorem Party.stuck_of {p : Party} {b : Bundle} {clk : Nat}
    (h : ¬((b.stalled = true ∨ b.asked ≠ []) ∧ (b.phase = .running ∨ b.phase = .executed)) ∧ p.able b = false ∨
      (b.stalled = true ∨ b.asked ≠ []) ∧ (b.phase = .running ∨ b.phase = .executed) ∧ 256 < clk - b.stallAt) :
    p.stuck b clk = true := by
  unfold Party.stuck
  obtain ⟨hno, hable⟩ | ⟨hwaits, hruns, hlate⟩ := h
  · rw [if_neg (by simpa using hno), hable]; rfl
  · rw [if_pos (by simpa using And.intro hwaits hruns)]; exact decide_eq_true hlate

theorem exec_stallBlock {s : State} {pid core : Nat} {p : Party} (hp : s.party? pid = some p) (hplace : p.place = .slot core .active)
    (hall : ∀ b ∈ p.bundles, b.departs = false ∧ p.stuck b (s.clk p.core) = true) :
    exec (.stallBlock pid) s = .next (s.setParty pid { p with place := .slot core .blocked, blockedAt := s.clk p.core }) := by
  have hgo : (p.isActive && p.bundles.all (fun b => !b.departs && p.stuck b (s.clk p.core))) = true := by
    simp only [Party.isActive, hplace, Bool.true_and, List.all_eq_true]
    exact fun b hb => by simp [hall b hb]
  have hblock : p.block (s.clk p.core) = { p with place := .slot core .blocked, blockedAt := s.clk p.core } := by
    unfold Party.block; rw [hplace]
  unfold exec execStallBlock
  simp only [hp, if_pos hgo, hblock]

theorem exec_yieldExpiry {s : State} {pid n : Nat} {p : Party} {b : Bundle} (hp : s.party? pid = some p)
    (hb : p.bundle? b.id = some b) (hy : b.yieldTo = some n) (hn : n ≤ s.clk p.core) :
    exec (.yieldExpiry pid b.id) s =
      .next (s.setParty pid (p.setBundle { b with yieldTo := none, yieldOn := [], since := s.clk p.core })) := by
  unfold exec execYieldExpiry
  simp only [hp, hb, hy, if_pos hn]

end Sys2Proof.Machine

namespace Sys2Proof.Proofs

open Sys2Proof Sys2Proof.Machine Sys2Proof.Safety

/-- Settles O50, an event at a time: regrouping by the fold of `mergeInto`, a long-latency result by that of `landed`. -/
theorem scheduling : Obligations.Scheduling := by
  intro s pid p hp clk becomes
  refine ⟨fun hres hcount => ?regroup, fun core a hn => ⟨fun hlen => ?fill, fun x q hlen hx hne => ?displace⟩,
    fun hres hb => ⟨?age, fun hlate => ?starve⟩, fun core hplace hall => ?block,
    fun b n hb hy hn => exec_yieldExpiry hp hb hy hn, fun o ho hready hpoison hcom hv hl => ?result⟩
  case regroup =>
    obtain ⟨t, ht, hrest, hq⟩ := exec_regroupingPass hp hres hcount
    obtain ⟨hmask, hcov, hap⟩ := foldl_mergeInto p.bundles [] List.Pairwise.nil
    exact ⟨t, _, ht, hq, hrest, rfl, hmask.trans (by simp [lanesUnion, Party.mask]), fun b hb => hcov b (.inr hb), hap⟩
  case fill => exact exec_activeSetFill_free hn (by simpa using hlen)
  case displace =>
    refine ⟨_, exec_activeSetFill_displaces hn (by simpa using hlen) hx, State.party?_setParty_self _ _ _, ?_, rfl⟩
    rw [State.party?_setParty_ne _ _ _ _ hne, State.party?_setParty_self]
  case age =>
    show exec _ _ = _
    rw [exec_priorityAging hp, Party.aged_of_unblocked hres hb]
  case starve =>
    show exec _ _ = _
    rw [exec_starvationMark hp, Party.aged_of_unblocked hres hb, decide_eq_true hlate, Bool.or_true]
  case block => exact exec_stallBlock hp hplace fun b hb => ⟨(hall b hb).1, Party.stuck_of (hall b hb).2⟩
  case result =>
    obtain ⟨t, q, ht, hq, hrest, hpend, hregs, hlanes⟩ := exec_longOpComplete hp ho hready hpoison hcom
    have hset (key : Nat) {v : Word} := Party.foldl_landed_vregs (o := o) (key := key) (v := v) (o.dests.zip o.vals) p ⟨hv, hl⟩
    refine ⟨t, q, ht, hq, hrest, hpend, fun reg l x hreg hmem hone => ?_, fun key hno => ?_, fun l hno => ?_⟩
    · rw [hregs]
      refine hset _ (fun e he hat => ?_) (.inr ⟨_, hmem, reg, l, .inl ⟨rfl, hreg⟩, rfl⟩)
      obtain rfl | hother := hone e he
      · rfl
      · obtain ⟨r, k, hd, hk⟩ := hat
        exact absurd hk (hother r k (hd.imp And.left id))
    · rw [hregs]
      refine hset key (fun e he hat => ?_) (.inl rfl)
      obtain ⟨r, k, hd, hk⟩ := hat
      exact absurd hk (hno e he r k (hd.imp And.left id))
    · simp only [Party.lane, hlanes]
      exact Party.foldl_landed_preds (o.dests.zip o.vals) p ⟨hv, hl⟩ hno

end Sys2Proof.Proofs

namespace Sys2Proof.Machine

open Host Sys2Proof.Safety

/-! # Barriers and lineage counts at their homes (R42, R54, R60, R61, R176, R177) -/

/-! ## What removing a message and releasing an arrival leave unchanged -/

/-- Removing a message writes the messages, the packets, the engines and the parties only. -/
theorem State.dropMsg_fields (s : State) (id : Nat) :
    ∃ fab net engines parties,
      s.dropMsg id = { s with fab := fab, net := net, engines := engines, parties := parties } := by
  unfold State.dropMsg
  split
  · exact ⟨_, _, _, _, rfl⟩
  · split
    · exact ⟨_, _, _, _, rfl⟩
    · exact ⟨_, _, _, _, rfl⟩

@[simp] theorem State.dropMsg_bars (s : State) (id : Nat) : (s.dropMsg id).bars = s.bars := by
  obtain ⟨_, _, _, _, h⟩ := s.dropMsg_fields id; rw [h]
@[simp] theorem State.dropMsg_ns (s : State) (id : Nat) : (s.dropMsg id).ns = s.ns := by
  obtain ⟨_, _, _, _, h⟩ := s.dropMsg_fields id; rw [h]
@[simp] theorem State.dropMsg_lineages (s : State) (id : Nat) : (s.dropMsg id).lineages = s.lineages := by
  obtain ⟨_, _, _, _, h⟩ := s.dropMsg_fields id; rw [h]
@[simp] theorem State.dropMsg_seeds (s : State) (id : Nat) : (s.dropMsg id).seeds = s.seeds := by
  obtain ⟨_, _, _, _, h⟩ := s.dropMsg_fields id; rw [h]
@[simp] theorem State.dropMsg_clkPast (s : State) (id core t : Nat) : (s.dropMsg id).clkPast core t = s.clkPast core t := by
  obtain ⟨_, _, _, _, h⟩ := s.dropMsg_fields id; rw [h]; rfl

theorem State.releaseArr_bars_mem (s : State) (core : Nat) (x : Answer) (a : Arrival) :
    (s.releaseArr core x a).bars = s.bars ∧ (s.releaseArr core x a).mem = s.mem := by
  have hbundle (who : Asker) : (s.releaseBundle core who x).bars = s.bars ∧ (s.releaseBundle core who x).mem = s.mem := by
    unfold State.releaseBundle
    split
    · exact ⟨rfl, rfl⟩
    · exact ⟨rfl, rfl⟩
  have hseqr (t : Nat) : (s.freeSeqr t).bars = s.bars ∧ (s.freeSeqr t).mem = s.mem := by
    unfold State.freeSeqr
    split
    · exact ⟨rfl, rfl⟩
    · split
      · exact ⟨rfl, rfl⟩
      · exact ⟨rfl, rfl⟩
  unfold State.releaseArr
  split
  · exact hbundle _
  · exact hbundle _
  · exact hseqr _
  · exact ⟨rfl, rfl⟩

theorem State.foldl_releaseArr_bars_mem (core : Nat) (x : Answer) (l : List Arrival) (s : State) :
    (l.foldl (fun s a => s.releaseArr core x a) s).bars = s.bars ∧
      (l.foldl (fun s a => s.releaseArr core x a) s).mem = s.mem := by
  induction l generalizing s with
  | nil => exact ⟨rfl, rfl⟩
  | cons a l ih =>
    obtain ⟨hb, hm⟩ := ih (s.releaseArr core x a)
    obtain ⟨hb', hm'⟩ := s.releaseArr_bars_mem core x a
    exact ⟨hb.trans hb', hm.trans hm'⟩

/-! ## Named barriers -/

theorem State.bar_of_bars {s t : State} (h : t.bars = s.bars) (dev : BitVec 20) (core n : Nat) :
    t.bar (.named dev core n) = s.bar (.named dev core n) := by
  simp only [State.bar, h]

theorem State.bar_setBar {s : State} (hs : Map.sorted s.bars = true) (dev : BitVec 20) (core n : Nat) (x : Barrier) :
    (s.setBar (.named dev core n) x).bar (.named dev core n) = x :=
  (Map.getD_put _ _ _ _ _ hs).trans (if_pos rfl)

theorem State.setBar_sorted {s : State} (hs : Map.sorted s.bars = true) (dev : BitVec 20) (core n : Nat) (x : Barrier) :
    Map.sorted (s.setBar (.named dev core n) x).bars = true := Map.sorted_put hs _ _ _

/-- No expiry of the barrier lies in the past, and no rejoin round is open: an arrival finds it as it stands. -/
theorem State.lapseBar_eq {s : State} {dev : BitVec 20} {core n : Nat} (hr : (s.bar (.named dev core n)).rejoin = none)
    (he : ∀ t ∈ (s.bar (.named dev core n)).expiry.toList, s.clkPast core t = false) : s.lapseBar (.named dev core n) = s := by
  cases hexp : (s.bar (.named dev core n)).expiry with
  | none => simp only [State.lapseBar, hexp, hr, Option.bind_none]
  | some t =>
    have ht : ¬ s.clkPast (s.barCore (.named dev core n)) t = true := by
      rw [show s.barCore (.named dev core n) = core from rfl, he t (by rw [hexp]; exact List.mem_singleton_self t)]
      exact Bool.false_ne_true
    simp only [State.lapseBar, hexp, if_neg ht, hr, Option.bind_none]

/-- Completing a round of a named barrier (R176). -/
theorem State.completeRound_bar {s : State} (hs : Map.sorted s.bars = true) (dev : BitVec 20) (core n : Nat) :
    let x := s.bar (.named dev core n)
    (s.completeRound (.named dev core n)).bar (.named dev core n) =
      { x with phase := x.phase + 1, count := 0, arrived := [], expiry := none } := by
  intro x
  have hbars := (State.foldl_releaseArr_bars_mem (s.barCore (.named dev core n)) .go x.arrived (s.setBar (.named dev core n)
    { x with phase := x.phase + 1, count := 0, arrived := [], expiry := none })).1
  exact (State.bar_of_bars hbars dev core n).trans (State.bar_setBar hs dev core n _)

/-- A barrier after an arrival that it has counted: the arrival waits there, or is the last of its round (R176). -/
def Barrier.counted (x : Barrier) (a : Arrival) (ns : Nat) : Barrier :=
  if (if x.count = 0 then a.count else x.count) ≤ x.arrived.length + 1 then
    { x with phase := x.phase + 1, count := 0, arrived := [], expiry := none }
  else
    { x with count := if x.count = 0 then a.count else x.count, arrived := x.arrived ++ [a],
             expiry := if a.kind = .barw ∧ x.expiry.isNone then some (ns + a.timeout.toNat) else x.expiry }

/-- An arrival of `bar` or `barw` is counted at a named barrier. -/
theorem State.countArrival_bar {s : State} (hs : Map.sorted s.bars = true) (dev : BitVec 20) (core n : Nat) {a : Arrival}
    (hk : a.kind = .bar ∨ a.kind = .barw) :
    (s.countArrival (.named dev core n) (.arr a)).bar (.named dev core n) = (s.bar (.named dev core n)).counted a s.ns := by
  have hka : ¬ a.kind = .arrive := by obtain h | h := hk <;> rw [h] <;> exact nofun
  unfold State.countArrival Barrier.counted
  dsimp only
  rw [if_neg hka]
  by_cases hfull : (if (s.bar (.named dev core n)).count = 0 then a.count else (s.bar (.named dev core n)).count) ≤
      (s.bar (.named dev core n)).arrived.length + 1
  · rw [if_pos hfull, if_pos hfull, State.completeRound_bar (State.setBar_sorted hs dev core n _), State.bar_setBar hs]
  · rw [if_neg hfull, if_neg hfull, State.bar_setBar hs]

/-- An arrival that finds a named barrier with nothing held is counted at once. -/
theorem State.arriveAt_bar {s : State} {dev : BitVec 20} {core n : Nat} {a : Arrival} (hs : Map.sorted s.bars = true)
    (hheld : (s.bar (.named dev core n)).held = []) (hr : (s.bar (.named dev core n)).rejoin = none)
    (he : ∀ t ∈ (s.bar (.named dev core n)).expiry.toList, s.clkPast core t = false) (hk : a.kind = .bar ∨ a.kind = .barw) :
    (s.arriveAt (.named dev core n) (.arr a)).bar (.named dev core n) = (s.bar (.named dev core n)).counted a s.ns := by
  have hheldbar := State.bar_setBar hs dev core n { s.bar (.named dev core n) with held := [.arr a] }
  have hfits : (s.setBar (.named dev core n) { s.bar (.named dev core n) with held := [.arr a] }).fits (.named dev core n)
      (.arr a) = true := by
    simp only [State.fits]
    rw [hheldbar]
    exact congrArg Option.isNone hr
  have hsorted := State.setBar_sorted hs dev core n { s.bar (.named dev core n) with held := [.arr a] }
  have hback : { s.bar (.named dev core n) with held := [] } = s.bar (.named dev core n) := by
    rw [← hheld]
  unfold State.arriveAt
  rw [State.lapseBar_eq hr he]
  simp only [hheld, List.nil_append, List.length_nil, settleBar, hheldbar, List.findIdx?_cons, hfits, if_true,
    List.getElem?_cons_zero, List.eraseIdx_cons_zero]
  rw [State.countArrival_bar (State.setBar_sorted hsorted dev core n _) dev core n hk, State.bar_setBar hsorted, hback]
  rfl

/-- An arrival that a message brings to a named barrier with nothing held and no rejoin round is counted at once. -/
theorem State.arriveAt_dropMsg_bar {s : State} (msg : Nat) {dev : BitVec 20} {core n : Nat} {a : Arrival}
    (hs : Map.sorted s.bars = true) (hheld : (s.bar (.named dev core n)).held = [])
    (hr : (s.bar (.named dev core n)).rejoin = none)
    (he : ∀ t ∈ (s.bar (.named dev core n)).expiry.toList, s.clkPast core t = false) (hk : a.kind = .bar ∨ a.kind = .barw) :
    ((s.dropMsg msg).arriveAt (.named dev core n) (.arr a)).bar (.named dev core n) =
      (s.bar (.named dev core n)).counted a s.ns := by
  have hbar := State.bar_of_bars (s.dropMsg_bars msg) dev core n
  rw [State.arriveAt_bar (by rwa [s.dropMsg_bars]) (by rwa [hbar]) (by rwa [hbar]) (by simpa only [hbar, State.dropMsg_clkPast] using he)
    hk, hbar, s.dropMsg_ns]

/-- BARRIER_ARRIVAL of an arrival at a barrier whose sequencer has not stopped. -/
theorem exec_barrierArrival {s : State} {msg : Nat} {m : Msg} {b : BarRef} {a : Arrival} (hm : s.arriving msg = some m)
    (hb : m.body = .arrival b a) (hstop : s.barStopped b = none) :
    exec (.barrierArrival msg) s = .next ((s.dropMsg msg).arriveAt b (.arr a)) := by
  have hnone : (if a.kind = .bar ∨ a.kind = .barw then s.barStopped b else none) = none := by rw [hstop, ite_self]
  unfold exec execBarrierArrival
  simp only [hm, hb, hnone]

/-! ## Expiries -/

theorem exec_barwExpiry {s : State} {b : BarRef} {d : Nat} (he : (s.bar b).expiry = some d)
    (hd : s.clkPast (s.barCore b) d = true ∨ s.clkCome (s.barCore b) d = true ∧ s.arrivalsDue b = false) :
    exec (.barwExpiry b) s = .next (s.expireBar b) := by
  unfold exec execBarwExpiry
  simp only [he]
  rw [if_pos (by simpa using hd)]

theorem State.expireBar_bar_mem {s : State} (hs : Map.sorted s.bars = true) (dev : BitVec 20) (core n : Nat) :
    let b := BarRef.named dev core n
    (s.expireBar b).bar b =
      { s.bar b with arrived := (s.bar b).arrived.filter (fun a => decide (a.kind ≠ .barw)), expiry := none } ∧
    (s.expireBar b).mem = s.mem := by
  intro b
  obtain ⟨hbars, hmem⟩ := State.foldl_releaseArr_bars_mem core .expired ((s.bar b).arrived.filter (fun a => decide (a.kind = .barw)))
    (s.setBar b { s.bar b with arrived := (s.bar b).arrived.filter (fun a => decide (a.kind ≠ .barw)), expiry := none })
  exact ⟨(State.bar_of_bars hbars dev core n).trans (State.bar_setBar hs dev core n _), hmem⟩

theorem exec_rejoinExpiry {s : State} {core n d : Nat} {r : RejoinRound} (hr : (s.bar (.named s.devId core n)).rejoin = some r)
    (he : r.expiry = some d)
    (hd : s.clkPast core d = true ∨ s.clkCome core d = true ∧ s.arrivalsDue (.named s.devId core n) = false) :
    exec (.rejoinExpiry core n) s = .next (s.expireRejoin (.named s.devId core n)) := by
  unfold exec execRejoinExpiry
  simp only [hr, he]
  rw [if_pos (by simpa using hd)]

/-- Closing a rejoin round leaves the barrier without one, and every party as it was. -/
theorem State.closeRejoin_named {s : State} (hs : Map.sorted s.bars = true) (dev : BitVec 20) (core n : Nat) (r : RejoinRound) :
    ((s.closeRejoin (.named dev core n) r).bar (.named dev core n)).rejoin = none ∧
      (s.closeRejoin (.named dev core n) r).parties = s.parties := by
  have hbar : ∀ t : State, t.bars = (s.setBar (.named dev core n) { s.bar (.named dev core n) with rejoin := none }).bars →
      (t.bar (.named dev core n)).rejoin = none := fun t ht => by
    rw [State.bar_of_bars ht, State.bar_setBar hs]
  unfold State.closeRejoin
  dsimp only
  split
  · split
    · exact ⟨hbar _ rfl, rfl⟩
    · exact ⟨hbar _ rfl, rfl⟩
  · exact ⟨hbar _ rfl, rfl⟩

theorem State.checkRejoin_of_none {s : State} {b : BarRef} (h : (s.bar b).rejoin = none) : s.checkRejoin b = s := by
  simp only [State.checkRejoin, h]

/-- A bundle that stands at a rejoin goes on with false. -/
def Bundle.pastRejoin (b : Bundle) : Bundle :=
  match b.phase with
  | .held (.rejoin _ _) => { b with phase := .running, stalled := false, ans := Map.insert b.ans 64 .expired }
  | _ => b

theorem State.releaseRejoin_eq {s : State} {pid : Nat} {p : Party} (hp : s.party? pid = some p) :
    s.releaseRejoin pid =
      s.setParty pid (Party.ready { p with rejoin := none, bundles := p.bundles.map Bundle.pastRejoin } (s.clk p.core)) := by
  unfold State.releaseRejoin
  rw [hp]
  rfl

/-- The expiry of a rejoin round at which one party waits with a timeout and nothing is held (R61). -/
theorem State.expireRejoin_one {s : State} {dev : BitVec 20} {core n pid : Nat} {r : RejoinRound} (hs : Map.sorted s.bars = true)
    (hr : (s.bar (.named dev core n)).rejoin = some r) (hone : r.parties = [(pid, true)])
    (hheld : (s.bar (.named dev core n)).held = []) :
    let b := BarRef.named dev core n
    s.expireRejoin b = (s.closeRejoin b r).releaseRejoin pid ∧
      (((s.closeRejoin b r).releaseRejoin pid).bar b).rejoin = none := by
  intro b
  obtain ⟨hclosed, -⟩ := State.closeRejoin_named hs dev core n r
  have hbars : ((s.closeRejoin b r).releaseRejoin pid).bars = (s.closeRejoin b r).bars := by
    unfold State.releaseRejoin
    split
    · rfl
    · rfl
  have hnone : (((s.closeRejoin b r).releaseRejoin pid).bar b).rejoin = none := by
    rw [State.bar_of_bars hbars]; exact hclosed
  refine ⟨?_, hnone⟩
  unfold State.expireRejoin
  simp [b, hr, hone, hheld, settleBar, State.checkRejoin_of_none hnone]

/-! ## Lineage counts -/

theorem exec_lineageCountMsg {s : State} {msg key : Nat} {m : Msg} {d : Int} (hm : s.arriving msg = some m)
    (hb : m.body = .lineage key d) :
    exec (.lineageCountMsg msg) s = .next ((s.dropMsg msg).countChanged m.core key d).recheck := by
  unfold exec execLineageCountMsg
  simp only [hm, hb]

theorem State.countChanged_zero {s : State} {core key : Nat} {d : Int} (h : (((s.lineage key).count : Int) + d).toNat = 0) :
    s.countChanged core key d = { s with
      lineages := Map.erase s.lineages key,
      seeds := s.seeds.map (fun e => if e.2.party = some key then (e.1, { e.2 with state := 5, party := none }) else e) } := by
  simp only [State.countChanged, if_pos h]

theorem State.countChanged_alone {s : State} {core key : Nat} {d : Int} (h : (((s.lineage key).count : Int) + d).toNat ≠ 0)
    (hfar : (s.lineage key).far = []) (hrounds : (s.lineage key).rounds = []) :
    s.countChanged core key d = s.setLineage key { s.lineage key with count := (((s.lineage key).count : Int) + d).toNat } := by
  simp only [State.countChanged, if_neg h, hfar, hrounds, List.foldl_nil]

end Sys2Proof.Machine

namespace Sys2Proof.Proofs

open Sys2Proof Sys2Proof.Machine Sys2Proof.Safety

/-- Settles O53, a kind of message or expiry at a time. -/
theorem barrierRounds : Obligations.BarrierRounds := by
  intro s hs
  refine ⟨fun msg m b hm => ⟨fun a hb hstop => ⟨exec_barrierArrival hm hb hstop, ?arrival⟩, fun who req hb => ?withdrawal,
    fun phase op hb hsrc => ?query⟩, ?expiry, ?rejoinExpiry, ?count⟩
  case arrival =>
    rintro dev core n rfl hheld hr he hk count
    have hbar := State.arriveAt_dropMsg_bar msg hs hheld hr he hk
    have hempty : (s.bar (.named dev core n)).held = [] := hheld
    refine ⟨fun hlt => ⟨_, exec_barrierArrival hm hb hstop, hbar.trans ?_⟩,
      fun hle => ⟨_, exec_barrierArrival hm hb hstop, hbar.trans ?_⟩⟩
    · exact (if_neg (Nat.not_le.mpr hlt)).trans (by rw [hempty])
    · exact (if_pos hle).trans (by rw [hempty])
  case withdrawal =>
    unfold exec execBarrierArrival
    simp only [hm, hb]
  case query =>
    unfold exec execBarrierArrival
    simp only [hm, hb, if_pos hsrc, apply_ite BitVec.toNat]
    rfl
  case expiry =>
    intro dev core n d b he hd
    exact ⟨_, exec_barwExpiry he hd, State.expireBar_bar_mem hs dev core n⟩
  case rejoinExpiry =>
    intro core n pid d r p b hr he hd hone hheld hp
    obtain ⟨heq, hnone⟩ := State.expireRejoin_one hs hr hone hheld
    obtain ⟨-, hparties⟩ := State.closeRejoin_named hs s.devId core n r
    have hp' : (s.closeRejoin b r).party? pid = some p := by unfold State.party?; rw [hparties]; exact hp
    rw [State.releaseRejoin_eq hp'] at heq hnone
    obtain ⟨pl, rd, bg, hq⟩ := Party.ready_fields
      { p with rejoin := none, bundles := p.bundles.map Bundle.pastRejoin } ((s.closeRejoin b r).clk p.core)
    rw [hq] at heq hnone
    refine ⟨_, _, (exec_rejoinExpiry hr he hd).trans (congrArg _ heq), State.party?_setParty_self _ _ _, rfl, rfl, rfl, hnone,
      fun j hj => ?_⟩
    rw [State.party?_setParty_ne _ _ _ _ hj]
    unfold State.party?
    rw [hparties]
  case count =>
    intro msg key m d hm hb x
    have hx : (s.dropMsg msg).lineage key = x := by unfold State.lineage; rw [s.dropMsg_lineages]; rfl
    rw [exec_lineageCountMsg hm hb]
    refine ⟨fun h0 => ?_, fun h0 hfar hrounds => ?_⟩
    · rw [State.countChanged_zero (by rw [hx]; exact h0), s.dropMsg_lineages, s.dropMsg_seeds]
    · rw [State.countChanged_alone (by rw [hx]; exact h0) (by rw [hx]; exact hfar) (by rw [hx]; exact hrounds), hx]

end Sys2Proof.Proofs

namespace Sys2Proof.Machine

open Host Sys2Proof.Safety

/-! # The SPEC family (R272 to R278) -/

/-! ## Checks that pass -/

theorem Ctx.acqWait_of_clear {c : Ctx} (h : c.acqPending = false) : c.acqWait = .go := by
  rw [Ctx.acqWait, h]; exact if_neg Bool.false_ne_true

theorem Ctx.frameBad_of_fits {c : Ctx} {f : DWord}
    (h : f.getLsbD 63 = false ∧ field f 40 16 = 0 ∧ field f 56 7 = c.p.launchId.setWidth 7) : c.frameBad f = false := by
  obtain ⟨htop, hmid, hlaunch⟩ := h
  simp only [Ctx.frameBad, htop, hmid, hlaunch, Bool.false_or, ne_eq, not_true_eq_false, decide_false]

/-- Where an access lies, its checks have found (R227). -/
theorem access_of_placed {c : Ctx} {n va : Nat} {rd wr : Bool} {x : Loc} (h : placeOf c n rd wr va = some x) :
    ∃ lf, c.s.access c.core c.p.asid va n rd wr = .ok lf x ∧ c.walkDue va = false ∧ c.queuedTeam x = none := by
  unfold placeOf at h
  split at h
  next lf y hok =>
    split at h
    next hgo => cases h; exact ⟨lf, hok, hgo.1, hgo.2⟩
    next => cases h
  next => cases h

/-- Lanes whose accesses all have a place pass the checks; the targets are those places, in order (R227). -/
theorem Ctx.check_of_placed {c : Ctx} {n : Nat} {rd wr : Bool} {vas : List (Nat × Nat)}
    (h : ∀ e ∈ vas, (placeOf c n rd wr e.2).isSome = true) :
    ∃ ts, c.check n rd wr vas = .ok ts ∧ ts.map (fun t => (t.lane, t.va, t.loc)) =
      vas.map (fun e => (e.1, e.2, placeOf c n rd wr e.2)) := by
  unfold Ctx.check
  extract_lets rs ts bare
  have hrs : ∀ r ∈ rs, ∃ lf x, r.2.2 = .ok lf x ∧ c.walkDue r.2.1 = false ∧ c.queuedTeam x = none := by
    intro r hr
    obtain ⟨e, he, rfl⟩ := List.mem_map.mp hr
    obtain ⟨x, hx⟩ := Option.isSome_iff_exists.mp (h e he)
    obtain ⟨lf, hok, hwalk, hteam⟩ := access_of_placed hx
    exact ⟨lf, x, hok, hwalk, hteam⟩
  have hnot {q : Acc} (hq : ¬ ∃ lf x, q = .ok lf x) (r : Nat × Nat × Acc) :
      ¬ rs.find? (fun e => decide (e.2.2 = q)) = some r := fun hr => by
    obtain ⟨lf, x, hok, -⟩ := hrs r (List.mem_of_find?_eq_some hr)
    have hrq : r.2.2 = q := by simpa using List.find?_some hr
    exact hq ⟨lf, x, hrq.symm.trans hok⟩
  split
  next r hr => exact absurd hr (hnot (by simp) r)
  split
  next r hr => exact absurd hr (hnot (by simp) r)
  split
  next hw =>
    obtain ⟨e, he, hwalk⟩ := List.any_eq_true.mp hw
    obtain ⟨-, -, -, hno, -⟩ := hrs _ (List.mem_map_of_mem he)
    exact absurd hwalk (ne_true_of_eq_false hno)
  split
  next t ht =>
    obtain ⟨r, hr, hf⟩ := List.exists_of_findSome?_eq_some ht
    obtain ⟨lf, x, hok, -, hteam⟩ := hrs r hr
    rw [hok] at hf
    exact absurd (hteam.symm.trans hf) nofun
  have hts : ts = [] := List.filterMap_eq_nil_iff.mpr fun r hr => by
    obtain ⟨lf, x, hok, -⟩ := hrs r hr
    rw [hok]
  have hbare : bare = [] := List.filter_eq_nil_iff.mpr fun r hr => by
    obtain ⟨lf, x, hok, -⟩ := hrs r hr
    rw [hok]; exact Bool.false_ne_true
  rw [hts, hbare]
  refine ⟨_, rfl, ?_⟩
  rw [List.filterMap_map, List.map_filterMap, ← List.filterMap_eq_map]
  refine List.filterMap_congr fun e he => ?_
  obtain ⟨x, hx⟩ := Option.isSome_iff_exists.mp (h e he)
  obtain ⟨lf, hok, -⟩ := access_of_placed hx
  simp only [Function.comp, hok, hx, Option.map_some]

/-! ## Claims (R274) -/

/-- The operation that a claim of the SPEC family awaits. -/
def Ctx.frameOp (c : Ctx) (dests : List Dest) : PendOp :=
  { PendOp.mk' c false dests [] with flag := none, ready := false, role := .frame ⟨c.s.devId, c.core, c.pid, c.b.id, 64, c.s.keys⟩ }

/-- The request of a claim. -/
def Ctx.frameMsg (c : Ctx) (h : Home) (kind : Nat) (id arg : DWord) : Msg :=
  msgOf c (c.s.keys + 1) (maskOf c.act) h
    (.frameReq kind id arg ⟨c.s.devId, c.core, c.pid, c.b.id, 64, c.s.keys⟩ c.p.launchId c.p.asid c.p.gridId)

/-- A claim leaves its operation and its request, and clears marks of `last`. -/
theorem Ctx.frameClaim_eq (c : Ctx) (kind : Nat) (id arg : DWord) (dests : List Dest) :
    c.frameClaim kind id arg dests = { c with
      s := { c.s with
        keys := c.s.keys + 2,
        net := c.s.net ++ [c.frameMsg (if kind = 0 then .core c.s.devId 0 else frameHome id) kind id arg] },
      p := { c.p with pend := joined c c.p.pend (c.frameOp dests) },
      r := { c.r with ov := { c.r.ov with marks := (c.frameClaim kind id arg dests).r.ov.marks } } } := by
  rw [Ctx.frameOp, ← Ctx.addOp_pend]
  rfl

/-- An operation without destinations takes nothing from the others. -/
theorem joined_nodests (c : Ctx) (l : List PendOp) {o : PendOp} (ho : o.dests = []) : joined c l o = l ++ [o] := by
  unfold joined
  refine congrArg (· ++ [o]) ?_
  conv_rhs => rw [← List.map_id l]
  refine List.map_congr_left fun x _ => ?_
  simp [ho]

theorem exec_spopen_eq (g : BitVec 4) (d a : BitVec 6) (s : State) : exec (.spopen g d a) s = execSpopen g d a s := rfl

theorem exec_spacc_eq (g : BitVec 4) (d a b : BitVec 6) (s : State) : exec (.spacc g d a b) s = execSpacc g d a b s := rfl

theorem exec_spdrop_eq (g : BitVec 4) (d a : BitVec 6) (s : State) : exec (.spdrop g d a) s = execSpdrop g d a s := rfl

theorem exec_spbind_eq (g : BitVec 4) (a : BitVec 6) (s : State) : exec (.spbind g a) s = execSpbind g a s := rfl

theorem exec_stx_eq (g : BitVec 4) (d a b : BitVec 6) (s : State) : exec (.stx g d a b) s = execStx g d a b s := rfl

/-- `spopen` claims a frame at the core 0 of the module (R274). -/
theorem exec_spopen {s : State} {g : BitVec 4} {d a : BitVec 6} {c : Ctx} (hi : Issues s g [.hw d.toNat, .sr a.toNat] c)
    (hacq : c.acqPending = false) :
    PostOutcome (.spopen g d a) s c s [c.frameOp [.h d.toNat]] [c.frameMsg (.core s.devId 0) 0 0 (c.sc a.toNat)] := by
  obtain rfl : c.s = s := issueCtx_s hi.1
  rw [PostOutcome, exec_spopen_eq, execSpopen]
  have hmark := markLast_eq c [.hw d.toNat, .sr a.toNat]
  refine ⟨_, issue_done hi (Ctx.acqWait_of_clear hacq) rfl, ?_⟩
  generalize (c.markLast [.hw d.toNat, .sr a.toNat]).r.ov.marks = m at hmark
  rw [hmark, Ctx.frameClaim_eq]
  rfl

/-- A completion handle: the frame's table, number and generation, whether it was dropped, and its launch (R272). -/
theorem frameHandle_eq (f : DWord) (isDrop : Bool) :
    frameHandle f isDrop = BitVec.ofNat 64 ((field f 12 20).toNat * 2 ^ 8 + 2 ^ 28 + (field f 0 12).toNat * 2 ^ 32 +
      (field f 32 8).toNat * 2 ^ 44 + isDrop.toNat * 2 ^ 55 + (field f 56 7).toNat * 2 ^ 56 + 2 ^ 63) := by
  cases isDrop
  · simp only [frameHandle, Bool.toNat_false, Nat.zero_mul, Bool.false_eq_true, if_false]
  · simp only [frameHandle, Bool.toNat_true, Nat.one_mul, if_true]

/-- What `spacc` and `spdrop` leave: the claim, and the completion handle as a party-wide write (R272, R274). -/
theorem closeFrame_goes {s : State} {g : BitVec 4} {d a : BitVec 6} {args : List Arg} {isDrop : Bool} {n : Ctx → DWord}
    {c : Ctx} (hi : Issues s g ([.hw d.toNat, .hr a.toNat] ++ args) c) (hacq : c.acqPending = false)
    (hfits : c.frameBad (c.hd a.toNat) = false) (hn : ∀ m, n (c.withMarks m) = n c) :
    ∃ c' : Ctx, closeFrame s g d a args isDrop n = .next c'.advance ∧
      opShape c c'.p.pend = opShape c (c.p.pend ++ [c.frameOp []]) ∧
      c' = { c with
        s := { s with
          keys := s.keys + 3,
          net := s.net ++ [c.frameMsg (frameHome (c.hd a.toNat)) (if isDrop then 2 else 1) (c.hd a.toNat) (n c)] },
        p := { c.p with pend := c'.p.pend },
        r := { c.r with ov := { c.r.ov with
          marks := c'.r.ov.marks,
          pw := c.r.ov.pw ++ [(maskOf c.act, s.keys + 2, .h d.toNat (frameHandle (c.hd a.toNat) isDrop))] } } } := by
  obtain rfl : c.s = s := issueCtx_s hi.1
  have hmark := markLast_eq c ([.hw d.toNat, .hr a.toNat] ++ args)
  have hpre : (if c.frameBad (c.hd a.toNat) then Pre.traps (allTrap c.act cFrame 0) else c.acqWait) = .go := by
    rw [hfits, if_neg Bool.false_ne_true, Ctx.acqWait_of_clear hacq]
  refine ⟨_, issue_done hi hpre rfl, ?_⟩
  generalize (c.markLast ([.hw d.toNat, .hr a.toNat] ++ args)).r.ov.marks = m at hmark
  have hkind : ¬ (if isDrop then 2 else 1) = 0 := by cases isDrop <;> decide
  have hclaim := (c.withMarks m).frameClaim_eq (if isDrop then 2 else 1) (c.hd a.toNat) (n c) []
  rw [if_neg hkind, joined_nodests _ _ rfl] at hclaim
  have hshape := cutLate_shape ((c.withMarks m).frameClaim (if isDrop then 2 else 1) (c.hd a.toNat) (n c) [])
    (fun x => decide (x = .h d.toNat))
  rw [hclaim] at hshape
  rw [hmark, hn m, Ctx.frameClaim_eq, if_neg hkind, joined_nodests _ _ rfl]
  exact ⟨hshape, rfl⟩

/-! ## `spbind` and `stx` (R275, R276) -/

theorem exec_spbind {s : State} {g : BitVec 4} {a : BitVec 6} {c : Ctx} (hi : Issues s g [.hr a.toNat] c)
    (hfits : c.hd a.toNat = 0 ∨ c.frameBad (c.hd a.toNat) = false) :
    WideOutcome (.spbind g a) s c (.frame (c.hd a.toNat)) noFlags := by
  obtain rfl : c.s = s := issueCtx_s hi.1
  have hmark := markLast_eq c [.hr a.toNat]
  have hpre : (if c.hd a.toNat ≠ 0 ∧ c.frameBad (c.hd a.toNat) then Pre.traps (allTrap c.act cFrame 0) else .go) = .go := by
    refine if_neg fun h => ?_
    obtain ⟨hne, hbad⟩ := h
    exact hfits.elim hne (fun hok => absurd hbad (ne_true_of_eq_false hok))
  rw [WideOutcome, exec_spbind_eq, execSpbind]
  refine ⟨_, issue_done hi hpre rfl, executed_of hi.1 ?_ (.inr ?_), ?_⟩
  · rw [hmark]; rfl
  · rw [hmark]; rfl
  · generalize (c.markLast [.hr a.toNat]).r.ov.marks = m at hmark
    rw [hmark]
    exact ⟨Flags.of_fp_eq rfl, rfl, rfl⟩

theorem leBytes_eq_lowBytes (n x : Nat) : leBytes n x = lowBytes n x := by
  induction n generalizing x with
  | zero => rfl
  | succ n ih =>
    rw [leBytes, ih, lowBytes, lowBytes, List.range_succ_eq_map, List.map_cons, List.map_map]
    refine congrArg₂ _ (by simp) (List.map_congr_left fun i _ => ?_)
    simp only [Function.comp, Nat.mul_succ, Nat.add_comm (8 * i), Nat.pow_add, ← Nat.div_div_eq_div_mul]

/-- A run of effects, each of one lane or none. -/
theorem Ctx.foldl_effects {α : Type} {f : Ctx → α → Ctx} {e : α → Option Eff}
    (hf : ∀ d a, f d a = { d with r := { d.r with eff := d.r.eff ++ (e a).toList } }) (l : List α) (c : Ctx) :
    l.foldl f c = { c with r := { c.r with eff := c.r.eff ++ l.filterMap e } } := by
  induction l generalizing c with
  | nil => simp
  | cons a l ih =>
    rw [List.foldl_cons, ih, hf, List.filterMap_cons]
    cases e a <;> simp

/-- The version that `stx` posts for a lane (R275). -/
def Ctx.versionOf (c : Ctx) (d a b : BitVec 6) (w l : Nat) (x : Loc) : Eff :=
  ⟨maskOf [l], sending (c.s.homeOf x) (.version x (c.v64 a.toNat l).toNat c.frame (c.v b.toNat l).toNat
    (lowBytes (w / 8) (c.op w d.toNat l))) none false true false⟩

theorem fmtWidth_of_intFmt {f : Nat} (h : intFmt f) : fmtWidth f = intWidth f := by
  obtain ⟨hlo, hhi⟩ := h
  unfold fmtWidth intWidth
  split <;> split <;> omega

theorem Ctx.stxBytes_eq {c : Ctx} (h : intFmt (c.fmtOr 20)) : c.stxBytes = intWidth (c.fmtOr 20) / 8 := by
  rw [Ctx.stxBytes, fmtWidth_of_intFmt h]
  unfold intWidth
  split <;> simp

/-- The bytes of a version, of the width in force (R275). -/
theorem stxValue_eq {c : Ctx} (h : intFmt (c.fmtOr 20)) (d l : Nat) :
    leBytes c.stxBytes (if c.stxBytes = 8 then (c.v64 d l).toNat else (c.v d l).toNat) =
      lowBytes (intWidth (c.fmtOr 20) / 8) (c.op (intWidth (c.fmtOr 20)) d l) := by
  rw [leBytes_eq_lowBytes, Ctx.stxBytes_eq h]
  unfold intWidth Ctx.op
  split <;> simp

/-- The effect of one such version, from its lane, address and place. -/
def Ctx.versionAt (c : Ctx) (d b : BitVec 6) (r : Nat × Nat × Option Loc) : Option Eff :=
  r.2.2.map (fun x => ⟨maskOf [r.1], sending (c.s.homeOf x) (.version x r.2.1 c.frame (c.v b.toNat r.1).toNat
    (lowBytes (intWidth (c.fmtOr 20) / 8) (c.op (intWidth (c.fmtOr 20)) d.toNat r.1))) none false true false⟩)

/-- Where the versions of `stx` go, a lane at a time: its lane, address and place. -/
def Ctx.stxPlaces (c : Ctx) (a : BitVec 6) : List (Nat × Nat × Option Loc) :=
  c.act.map (fun l => (l, (c.v64 a.toNat l).toNat,
    placeOf c (intWidth (c.fmtOr 20) / 8) false true (c.v64 a.toNat l).toNat))

theorem Ctx.stxPlaces_check {c : Ctx} {a : BitVec 6} (hf : intFmt (c.fmtOr 20))
    (hplace : ∀ r ∈ c.stxPlaces a, r.2.2.isSome = true) :
    ∃ ts, c.check c.stxBytes false true (c.pairAddrs a.toNat) = .ok ts ∧
      ts.map (fun t => (t.lane, t.va, t.loc)) = c.stxPlaces a := by
  rw [Ctx.stxBytes_eq hf]
  have hmem : ∀ e ∈ c.pairAddrs a.toNat, (placeOf c (intWidth (c.fmtOr 20) / 8) false true e.2).isSome = true := by
    intro e he
    obtain ⟨l, hl, rfl⟩ := List.mem_map.mp he
    exact hplace _ (List.mem_map_of_mem hl)
  obtain ⟨ts, hts, hmap⟩ := Ctx.check_of_placed hmem
  exact ⟨ts, hts, hmap.trans (List.map_map ..)⟩

/-- A place of the module's own memory lets the frame go ahead (R278). -/
theorem Ctx.stxFrame_go {c : Ctx} {ts : List Tgt} (hframe : c.frame ≠ 0) (hdev : field c.frame 12 20 = c.s.devId)
    (hts : ∀ t ∈ ts, t.loc.any (fun x => !x.isHost && !x.isScratch && decide (x.dev = c.s.devId)) = true) :
    c.stxFrame ts = .go := by
  unfold Ctx.stxFrame
  rw [if_neg]
  simp only [hframe, hdev, Bool.or_eq_true, decide_eq_true_eq, false_or, ne_eq, not_true_eq_false, List.any_eq_true, not_exists,
    not_and]
  intro t ht hbad
  obtain ⟨x, hx, hown⟩ := (Option.any_eq_true _ _).mp (hts t ht)
  rw [hx] at hbad
  simp_all

/-- What `stx` leaves: a version for each active lane, where its address lies (R275). -/
theorem exec_stx_go {s : State} {g : BitVec 4} {d a b : BitVec 6} {c : Ctx} (hf : intFmt (c.fmtOr 20))
    (hi : Issues s g [.src (intWidth (c.fmtOr 20)) d.toNat, .pr a.toNat, .vr b.toNat] c) (hacq : c.acqPending = false)
    (hframe : c.frame ≠ 0) (hdev : field c.frame 12 20 = s.devId)
    (hplace : ∀ l ∈ c.act, (placeOf c (intWidth (c.fmtOr 20) / 8) false true (c.v64 a.toNat l).toNat).any
      (fun x => !x.isHost && !x.isScratch && decide (x.dev = s.devId)) = true) :
    EffOutcome (.stx g d a b) s c (c.act.filterMap (fun l =>
      (placeOf c (intWidth (c.fmtOr 20) / 8) false true (c.v64 a.toNat l).toNat).map
        (c.versionOf d a b (intWidth (c.fmtOr 20)) l))) := by
  obtain ⟨c0, h0, -, -, -, hc0⟩ := issueCtx_eq hi.1
  have hargs : [if fmtWidth (c0.fmtOr 20) = 64 then Arg.pr d.toNat else .vr d.toNat, .pr a.toNat, .vr b.toNat] =
      [.src (intWidth (c.fmtOr 20)) d.toNat, .pr a.toNat, .vr b.toNat] := by
    rw [← fmtWidth_of_intFmt hf, hc0]; rfl
  obtain rfl : c.s = s := issueCtx_s hi.1
  have hown : ∀ r ∈ c.stxPlaces a, r.2.2.any (fun x => !x.isHost && !x.isScratch && decide (x.dev = c.s.devId)) = true := by
    intro r hr
    obtain ⟨l, hl, rfl⟩ := List.mem_map.mp hr
    exact hplace l hl
  have hsome : ∀ r ∈ c.stxPlaces a, r.2.2.isSome = true := fun r hr => by
    obtain ⟨x, hx, -⟩ := (Option.any_eq_true _ _).mp (hown r hr)
    exact Option.isSome_of_eq_some hx
  obtain ⟨ts, hts, hmap⟩ := Ctx.stxPlaces_check hf hsome
  have hpre : (c.needFmt (isIntFmt (c.fmtOr 20))).then (c.acqWait.then
      ((c.check c.stxBytes false true (c.pairAddrs a.toNat)).bind c.stxFrame)) = .go := by
    have hgo : c.stxFrame ts = .go := Ctx.stxFrame_go hframe hdev fun t ht =>
      hown (t.lane, t.va, t.loc) (hmap ▸ List.mem_map_of_mem ht)
    have hfmt : isIntFmt (c.fmtOr 20) = true := by simpa [isIntFmt] using hf
    rw [Ctx.needFmt, if_pos hfmt, Ctx.acqWait_of_clear hacq, hts]
    exact hgo
  rw [EffOutcome, exec_stx_eq, execStx, issueBy_eq h0, hargs]
  have hmark := markLast_eq c [.src (intWidth (c.fmtOr 20)) d.toNat, .pr a.toNat, .vr b.toNat]
  generalize hm : (c.markLast [.src (intWidth (c.fmtOr 20)) d.toNat, .pr a.toNat, .vr b.toNat]).r.ov.marks = m at hmark
  obtain ⟨tm, htm, hmapm⟩ := Ctx.stxPlaces_check (c := c.withMarks m) (a := a) hf hsome
  refine ⟨{ c.withMarks m with r := { (c.withMarks m).r with
    eff := c.r.eff ++ tm.filterMap (fun t => c.versionAt d b (t.lane, t.va, t.loc)) } }, issue_done hi hpre ?effect,
    executed_of hi.1 rfl (.inl rfl), ⟨?result⟩⟩
  case effect =>
    rw [hmark]
    dsimp only
    rw [htm]
    refine congrArg Res.done (Ctx.foldl_effects (fun x t => ?_) tm (c.withMarks m))
    cases ht : t.loc with
    | none => simp [Ctx.versionAt]
    | some y =>
      have hv := stxValue_eq hf d.toNat t.lane
      simp only [Ctx.versionAt, ← hv]
      rfl
  case result =>
    have heff : tm.filterMap (fun t => c.versionAt d b (t.lane, t.va, t.loc)) = (c.stxPlaces a).filterMap (c.versionAt d b) := by
      rw [← show _ = c.stxPlaces a from hmapm, List.filterMap_map]; rfl
    rw [heff, Ctx.stxPlaces, List.filterMap_map]
    rfl

end Sys2Proof.Machine

namespace Sys2Proof.Proofs

open Sys2Proof Sys2Proof.Machine Sys2Proof.Safety

/-- Settles O48: the claims by what `frameClaim` leaves, `spbind` by its write, `stx` by the places that its checks find. -/
theorem frameWords : Obligations.FrameWords := by
  intro s g d a b c f fits who claim ask closes handle
  have hs : ∀ {args}, Issues s g args c → c.s = s := fun h => issueCtx_s h.1
  refine ⟨fun hi hacq => ?spopen, fun hi hacq hfits => ?spacc, fun hi hacq hfits => ?spdrop, fun hi hfits => ?spbind,
    fun hf hi hacq hframe hdev hplace => ?stx⟩
  case spopen =>
    obtain rfl := hs hi
    exact exec_spopen hi hacq
  case spacc =>
    obtain rfl := hs hi
    obtain ⟨c', hexec, hops, hc'⟩ := closeFrame_goes (args := [.sr b.toNat]) (n := fun c => c.sc b.toNat) (isDrop := false)
      hi hacq (Ctx.frameBad_of_fits hfits) (fun _ => rfl)
    rw [frameHandle_eq] at hc'
    exact ⟨c', (exec_spacc_eq ..).trans hexec, hops, hc'⟩
  case spdrop =>
    obtain rfl := hs hi
    obtain ⟨c', hexec, hops, hc'⟩ := closeFrame_goes (args := []) (n := fun _ => 0) (isDrop := true)
      hi hacq (Ctx.frameBad_of_fits hfits) (fun _ => rfl)
    rw [frameHandle_eq] at hc'
    exact ⟨c', (exec_spdrop_eq ..).trans hexec, hops, hc'⟩
  case spbind => exact exec_spbind hi (hfits.imp id Ctx.frameBad_of_fits)
  case stx =>
    obtain rfl := hs hi
    exact exec_stx_go hf hi hacq hframe hdev hplace

end Sys2Proof.Proofs

namespace Sys2Proof.Machine

open Host Sys2Proof.Safety

/-! # Launches, placement and retirement (R29, R32, R33, R309, R310) -/

/-- What every step of a sequence leaves, the sequence leaves. -/
theorem foldl_keeps {α β : Type} (π : State → β) {f : State → α → State} (hf : ∀ s a, π (f s a) = π s) (l : List α) (s : State) :
    π (l.foldl f s) = π s := by
  induction l generalizing s with
  | nil => rfl
  | cons a l ih => rw [List.foldl_cons, ih, hf]

/-! ## The keys of the teams -/

/-- The keys of the teams, in order. -/
def State.teamKeys (s : State) : List Nat := s.teams.map Prod.fst

theorem teamKeys_of_map {s t : State} {F : Nat × Team → Nat × Team} (hF : ∀ e, (F e).1 = e.1) (ht : t.teams = s.teams.map F) :
    t.teamKeys = s.teamKeys := by
  unfold State.teamKeys
  rw [ht, List.map_map]
  exact List.map_congr_left fun e _ => hF e

theorem teamKeys_of_teams {s t : State} (ht : t.teams = s.teams) : t.teamKeys = s.teamKeys := congrArg (List.map Prod.fst) ht

/-- Whether the keys of a table rise depends on the keys alone. -/
theorem Map.sortedFrom_of_keys {α β : Type} {m : Map α} {n : Map β} (h : m.map Prod.fst = n.map Prod.fst) (b : Nat) :
    Map.sortedFrom b m = Map.sortedFrom b n := by
  induction m generalizing n b with
  | nil => cases n with
    | nil => rfl
    | cons e n => cases h
  | cons e m ih => cases n with
    | nil => cases h
    | cons e' n =>
      obtain ⟨hk, ht⟩ := List.cons.inj h
      obtain ⟨k, v⟩ := e
      obtain ⟨k', v'⟩ := e'
      obtain rfl : k = k' := hk
      simp only [Map.sortedFrom, ih ht]

theorem State.publish_teamKeys (s : State) (k : Nat) : (s.publish k).teamKeys = s.teamKeys :=
  teamKeys_of_map (s := s) (fun e => by split <;> rfl) rfl

theorem State.publishStore_teamKeys (s : State) (who : Who) (pa : Nat) : (s.publishStore who pa).teamKeys = s.teamKeys := by
  unfold State.publishStore
  split
  · rfl
  · split
    · rfl
    · split
      · rfl
      · exact s.publish_teamKeys _

theorem State.logGranule_teamKeys (s : State) (who : Who) (g : Nat) : (s.logGranule who g).teamKeys = s.teamKeys :=
  teamKeys_of_map (s := s) (fun e => by
    split
    · split <;> rfl
    · rfl) rfl

theorem State.observe_teamKeys (s : State) (who : Who) (g : Nat) : (s.observe who g).teamKeys = s.teamKeys :=
  teamKeys_of_map (s := s) (fun e => by
    split
    · split <;> rfl
    · rfl) rfl

theorem State.touch_teams (s : State) (pa : Nat) : (s.touch pa).teams = s.teams := by
  unfold State.touch
  split <;> rfl

theorem State.setVheld_grids_teams (s : State) (a : Nat) (l : Leaf) (on : Bool) :
    (s.setVheld a l on).grids = s.grids ∧ (s.setVheld a l on).teams = s.teams := by
  unfold State.setVheld
  split
  · exact ⟨rfl, rfl⟩
  · exact ⟨rfl, rfl⟩

theorem State.syncVheld_grids (s : State) (pas : List Nat) : (s.syncVheld pas).grids = s.grids :=
  foldl_keeps State.grids (fun s _ => (s.setVheld_grids_teams _ _ _).1) _ _

theorem State.syncVheld_teams (s : State) (pas : List Nat) : (s.syncVheld pas).teams = s.teams :=
  foldl_keeps State.teams (fun s _ => (s.setVheld_grids_teams _ _ _).2) _ _

theorem State.shadow_teams (s : State) (who : Who) (g : Nat) : (s.shadow who g).teams = s.teams := by
  unfold State.shadow
  split
  · rfl
  · split
    · rfl
    · split <;> rfl

theorem State.shadows_teams (s : State) (who : Who) (gs : List Nat) : (s.shadows who gs).teams = s.teams := by
  unfold State.shadows
  split
  · rw [State.syncVheld_teams]
    exact foldl_keeps State.teams (fun s g => s.shadow_teams who g) _ _
  · rfl

theorem State.setPoison_teams (s : State) (lvl g : Nat) (bad : Bool) : (s.setPoison lvl g bad).teams = s.teams := by
  unfold State.setPoison
  split
  · rfl
  · split <;> rfl

theorem State.putByte_teams (s : State) (lvl pa : Nat) (x : Byte) : (s.putByte lvl pa x).teams = s.teams := by
  unfold State.putByte
  split
  · rfl
  · split <;> rfl

theorem State.putOne_teams (s : State) (who : Who) (pa : Nat) (x : Byte) : (s.putOne who pa x).teams = s.teams := by
  unfold State.putOne
  rw [State.putByte_teams]
  split
  · rfl
  · split
    · rfl
    · split <;> rfl

theorem State.putAll_teams (s : State) (who : Who) (pa : Nat) (l : List Byte) : (s.putAll who pa l).teams = s.teams := by
  induction l generalizing s pa with
  | nil => rfl
  | cons x l ih => rw [State.putAll, ih, State.putOne_teams]

theorem State.putBytes_teams (s : State) (who : Who) (pa : Nat) (l : List Byte) : (s.putBytes who pa l).teams = s.teams := by
  unfold State.putBytes
  split
  · rfl
  · exact State.putAll_teams s who pa l

theorem State.see_teamKeys (s : State) (who : Who) (pa n : Nat) : (s.see who pa n).teamKeys = s.teamKeys :=
  (teamKeys_of_teams (State.touch_teams _ _)).trans (foldl_keeps State.teamKeys (fun s g => s.observe_teamKeys who g) _ _)

/-- A store brings no team into being and ends none. -/
theorem State.store_teamKeys (s : State) (who : Who) (pa : Nat) (data : List Byte) :
    (s.store who pa data).teamKeys = s.teamKeys := by
  unfold State.store
  dsimp only
  rw [show ∀ t : State, (t.wakeWatchers pa data.length).teamKeys = t.teamKeys from fun _ => rfl, State.seeWatched,
    foldl_keeps State.teamKeys (fun s x => State.see_teamKeys s _ _ _), teamKeys_of_teams (State.touch_teams _ _),
    foldl_keeps State.teamKeys (fun s g => teamKeys_of_teams (State.setPoison_teams s _ g false)),
    teamKeys_of_teams (State.putBytes_teams _ _ _ _), teamKeys_of_teams (State.shadows_teams _ _ _),
    foldl_keeps State.teamKeys (fun s g => State.logGranule_teamKeys s who g), State.publishStore_teamKeys]

theorem State.freeSave_teamKeys (s : State) (t : Team) : (s.freeSave t).teamKeys = s.teamKeys := by
  unfold State.freeSave
  split
  · rfl
  · exact foldl_keeps State.teamKeys (fun s i => State.store_teamKeys s _ _ _) _ _

/-! ## Validation (R309) -/

/-- The first of some counter values that is neither 0 nor held. -/
theorem freeId_free {held : BitVec 32 → Bool} {n : Nat} {x : BitVec 32}
    (h : ∃ i, i < n ∧ ¬ (x + BitVec.ofNat 32 i = 0 ∨ held (x + BitVec.ofNat 32 i) = true)) : held (freeId held n x) = false := by
  induction n generalizing x with
  | zero => obtain ⟨i, hi, -⟩ := h; omega
  | succ n ih =>
    rw [freeId]
    obtain ⟨i, hi, hfree⟩ := h
    by_cases hx : x = 0 ∨ held x = true
    · rw [if_pos hx]
      cases i with
      | zero => exact absurd hx (by simpa using hfree)
      | succ j =>
        refine ih ⟨j, by omega, ?_⟩
        have hj : x + BitVec.ofNat 32 (j + 1) = x + 1 + BitVec.ofNat 32 j := by
          rw [BitVec.ofNat_add, BitVec.add_comm (BitVec.ofNat 32 j), BitVec.add_assoc]
          rfl
        rwa [hj] at hfree
    · rw [if_neg hx]
      exact Bool.eq_false_iff.mpr fun hh => hx (.inr hh)

/-- Of more counter values than there are keys, one is neither 0 nor a key. -/
theorem exists_free {α : Type} (m : Map α) (x : BitVec 32) (hn : m.length + 2 < 2 ^ 32) :
    ∃ i, i < m.length + 2 ∧
      ¬ (x + BitVec.ofNat 32 i = 0 ∨ (Map.find m (x + BitVec.ofNat 32 i).toNat).isSome = true) := by
  by_contra hall
  simp only [not_exists, not_and, not_not] at hall
  have hmaps : ∀ i ∈ Finset.range (m.length + 2), (x + BitVec.ofNat 32 i).toNat ∈ (0 :: m.map Prod.fst).toFinset := by
    intro i hi
    rw [List.mem_toFinset]
    obtain h | h := hall i (Finset.mem_range.mp hi)
    · rw [h]; exact List.mem_cons_self ..
    · obtain ⟨v, hv⟩ := Option.isSome_iff_exists.mp h
      exact List.mem_cons_of_mem _ (List.mem_map_of_mem (Map.mem_of_find hv))
  have hinj : Set.InjOn (fun i => (x + BitVec.ofNat 32 i).toNat) (Finset.range (m.length + 2)) := by
    intro i hi j hj hij
    have hi' := Finset.mem_range.mp hi
    have hj' := Finset.mem_range.mp hj
    simp only [BitVec.toNat_add, BitVec.toNat_ofNat] at hij
    omega
  have hcard := Finset.card_le_card_of_injOn _ hmaps hinj
  have hle := List.toFinset_card_le (0 :: m.map Prod.fst)
  simp only [Finset.card_range, List.length_cons, List.length_map] at hcard hle
  omega

theorem State.grid?_insert (s : State) (a : BitVec 32) (g : Grid) (b : BitVec 32) :
    (({ s with grids := Map.insert s.grids a.toNat g } : State).grid? b) = if b = a then some g else s.grid? b := by
  unfold State.grid?
  rw [Map.find_insert]
  by_cases h : b = a
  · rw [if_pos h, if_pos (congrArg BitVec.toNat h)]
  · rw [if_neg h, if_neg (fun hh => h (BitVec.eq_of_toNat_eq hh))]

/-- The end of a launch writes no grid, no register of the module and no memory. -/
theorem State.endLaunch_fields (s : State) (msg : Nat) : (s.endLaunch msg).grids = s.grids ∧ (s.endLaunch msg).regs = s.regs ∧
    (s.endLaunch msg).mem = s.mem ∧ (s.endLaunch msg).devId = s.devId := by
  obtain ⟨_, _, _, _, h⟩ := s.dropMsg_fields msg
  unfold State.endLaunch State.dropReads
  rw [h]
  exact ⟨rfl, rfl, rfl, rfl⟩

/-- An accepted launch becomes a grid under a number that is free (R309). -/
theorem State.acceptGrid_new (s : State) (r : LaunchRec) (lin : Nat) (seed : Bool) (asid : BitVec 16) (depth party : Nat)
    (dict : List Word) (entry : DWord) (hn : s.grids.length + 2 < 2 ^ 32) :
    ∃ g, (s.acceptGrid r lin seed asid depth party dict entry).grid? g.id = some g ∧ s.grid? g.id = none ∧ g.rcd = r ∧
      g.asid = r.asid ∧ g.dict = dict ∧ g.entry = entry ∧ g.depth = (if seed then 0 else depth + 1) ∧
      g.parent = (if seed = true ∨ (launchedFrom s.devId lin).isSome = true then none else some (gridFor lin s.devId)) ∧
      g.byLin = (if seed then 0 else lin) ∧ g.nextTeam = 0 ∧ g.outcome = 0 ∧ g.replays = 0 ∧ g.prot = r.replay ∧ g.byAsid = asid ∧
      (r.launch ≠ 0 → g.launch = r.launch) ∧
      ∀ k, k ≠ g.id → (s.acceptGrid r lin seed asid depth party dict entry).grid? k = s.grid? k := by
  have hfree := freeId_free (held := fun x => (s.grid? x).isSome) (exists_free s.grids s.regs.gridNext hn)
  unfold State.acceptGrid
  extract_lets n tag id g
  refine ⟨g, (State.grid?_insert s id g id).trans (if_pos rfl), by simpa using hfree, rfl, rfl, rfl, rfl, rfl, rfl, rfl, rfl, rfl,
    rfl, rfl, rfl, fun h => if_neg h, fun k hk => (State.grid?_insert s id g k).trans (if_neg hk)⟩

section

variable {s : State} {msg party h depth prio : Nat} {m : Msg} {va : DWord} {grid : BitVec 32} {seed : Bool} {asid : BitVec 16}
  {b : List Byte} {l : Leaf} {x : Loc}

/-- A launch whose record can be read and whose completion word can be written is rejected with the status of its checks
(R309). -/
theorem exec_launchValidate_rejects (hm : s.arriving msg = some m) (hb : m.body = .launch va party h grid seed asid depth prio)
    (hrec : s.recordOf msg m.src asid va.toNat = .ok b) (hcompl : s.complAt m.src asid (parseRecord b).compl = .ok l x)
    {lin k : Nat} (hlin : lin = if seed then 0 else m.lin)
    (hk : s.limitStatus (parseRecord b) (s.launchCap lin (gridFor lin s.devId)) seed asid depth prio = k) (hne : k ≠ 0) :
    exec (.launchValidate msg) s =
      .next (((s.endLaunch msg).writeCompl m.src asid (parseRecord b).compl (complWord k 0 0)).launchOver lin) := by
  subst hlin
  unfold exec execLaunchValidate
  simp only [hm, hb, hrec, hcompl]
  split
  next h0 => exact absurd (hk.symm.trans h0) hne
  next => rw [hk]

/-- It is accepted where the checks pass and its image stands (R301, R309). -/
theorem exec_launchValidate_accepts (hm : s.arriving msg = some m) (hb : m.body = .launch va party h grid seed asid depth prio)
    (hrec : s.recordOf msg m.src asid va.toNat = .ok b) (hcompl : s.complAt m.src asid (parseRecord b).compl = .ok l x)
    {lin : Nat} (hlin : lin = if seed then 0 else m.lin)
    (hk : s.limitStatus (parseRecord b) (s.launchCap lin (gridFor lin s.devId)) seed asid depth prio = 0)
    {dict : List Word} {entry : DWord} (him : s.imageOf (.launch msg) m.src (parseRecord b) = .ok dict entry) :
    exec (.launchValidate msg) s = .next ((s.endLaunch msg).acceptGrid (parseRecord b) lin seed asid depth party dict entry) := by
  subst hlin
  unfold exec execLaunchValidate
  simp only [hm, hb, hrec, hcompl, hk, him]

end

/-! ## Placement (R19, R29, R33) -/

theorem State.form_grids_teams (s : State) (core : Nat) (p : Party) :
    (s.form core p).grids = s.grids ∧ (s.form core p).teams = s.teams := by
  unfold State.form
  dsimp only
  split
  · exact ⟨rfl, rfl⟩
  · split
    · exact ⟨rfl, rfl⟩
    · exact ⟨rfl, rfl⟩

/-- A team begins its interval, and stays what it is otherwise. -/
theorem State.beginInterval_team {s : State} {key : Nat} {t : Team} (ht : Map.find s.teams key = some t) :
    ∃ iv, Map.find (s.beginInterval key).teams key = some { t with interval := iv } ∧ (s.beginInterval key).grids = s.grids := by
  unfold State.beginInterval
  rw [ht]
  dsimp -zeta only
  extract_lets off ms iv
  split
  · exact ⟨t.interval, ht, rfl⟩
  · exact ⟨_, Map.find_insert_self _ _ _, rfl⟩

/-- A new team as it is placed on a cluster: the lowest free blocks and tiles are its own (R29). -/
def State.newTeam (s : State) (g : Grid) (cl : Nat) : Team :=
  { grid := g.id, id := BitVec.ofNat 32 g.nextTeam, stack := cl / 8, cluster := cl,
    blocks := (s.freeBlocks cl).take (ceilDiv g.rcd.scratch 65536), tiles := (s.freeTiles cl).take g.rcd.accum, frames := [],
    bars := [], seqr := if g.rcd.matrix = 0 then none else some (Seqr.start g.rcd.matrix), interval := none, saved := none,
    movedAt := none, moving := none, wantSave := false, wantPlace := false, queue := [] }

theorem State.placeNew_team (s : State) (g : Grid) (cl : Nat) :
    ∃ iv, Map.find (s.placeNew g cl).teams (teamKey s.devId g.id g.nextTeam) = some { s.newTeam g cl with interval := iv } ∧
      (s.placeNew g cl).grid? g.id = some { g with nextTeam := g.nextTeam + 1, lineages := g.lineages + g.rcd.parties } := by
  generalize hout : s.placeNew g cl = out
  unfold State.placeNew at hout
  extract_lets -underBinder id key t cores c0 s1 s2 at hout
  have hgrids : s2.grids = s1.grids := foldl_keeps State.grids (fun s p => by exact (State.form_grids_teams s.bump _ _).1) _ _
  have hteams : s2.teams = s1.teams := foldl_keeps State.teams (fun s p => by exact (State.form_grids_teams s.bump _ _).2) _ _
  have ht : Map.find s2.teams key = some t := by rw [hteams]; exact Map.find_insert_self _ _ _
  obtain ⟨iv, hiv, hg⟩ := State.beginInterval_team ht
  rw [hout] at hiv hg
  refine ⟨iv, hiv, ?_⟩
  unfold State.grid?
  rw [hg, hgrids]
  exact Map.find_insert_self _ _ _

theorem exec_teamPlace {s : State} {w : Waiting} {cl : Nat} (hw : s.placeHead = some w) (hnamed : s.namedCluster w = none)
    (hmode : s.regs.funcMode.getLsbD 4 = false) (hnew : w.old = none)
    (hcl : s.chooseCluster w.g.rcd w.g.rcd.parties (s.mayGo w) = some cl) :
    exec .teamPlace s = .next (s.placeNew w.g cl) := by
  have hslots : w.slots s = w.g.rcd.parties := by unfold Waiting.slots; rw [hnew]
  unfold exec execTeamPlace
  simp only [hw, hnamed, hmode, hslots, hcl, Bool.false_eq_true, if_false, State.place, hnew]

/-! ## Retirement (R32, R256, R310) -/

/-- A grid whose shadows follow their bytes. -/
def Grid.follow (here : Nat → Nat) (g : Grid) : Grid :=
  { g with undo := g.undo.foldl (fun (m : Map Shadow) u => Map.insert m (here (64 * u.1) / 64) u.2) [] }

/-- What names bytes that have moved follows them: of a grid, its shadows alone. -/
theorem State.settle_grid? (s : State) (grid : BitVec 32) :
    s.settle.grid? grid = (s.grid? grid).map (Grid.follow fun pa => (s.settled ⟨s.devId, pa⟩).pa) :=
  Map.find_map_keys (F := fun e => (e.1, Grid.follow (fun pa => (s.settled ⟨s.devId, pa⟩).pa) e.2)) (fun _ => rfl) s.grids
    grid.toNat

/-- The state once a team has retired, before what names its bytes follows. -/
def State.retired (s : State) (team : Nat) (t : Team) : State :=
  { s with
    teams := Map.erase s.teams team,
    grids := match s.grid? t.grid with
      | some g => Map.insert s.grids t.grid.toNat { g with spent := t.frames.foldl (fun m e => Map.insert m e.1 e.2) g.spent }
      | none => s.grids,
    regs := { s.regs with placeHold := false } }

theorem exec_teamRetire {s : State} {team : Nat} {x : Team} (hx : Map.find s.teams team = some x) (hm : s.membersOf team = [])
    (hl : ∀ e ∈ s.lineages, e.2.team ≠ team + 1) (hseq : x.seqIdle = true) (heng : s.enginesOff x = true) :
    exec (.teamRetire team) s = .next ((s.freeSave x).retired team x).settle := by
  have hlin : s.lineages.any (fun e => decide (e.2.team = team + 1)) = false := by
    simpa using hl
  unfold exec execTeamRetire
  simp only [hx, hm, hlin, hseq, heng, List.isEmpty_nil, Bool.not_true, Bool.false_or, Bool.false_eq_true, if_false, State.retired] <;> rfl

theorem State.retired_grid? {s : State} (team : Nat) {t : Team} {g : Grid} (hg : s.grid? t.grid = some g) :
    (s.retired team t).grid? t.grid = some { g with spent := t.frames.foldl (fun m e => Map.insert m e.1 e.2) g.spent } := by
  unfold State.retired
  rw [hg]
  exact Map.find_insert_self _ _ _

theorem Map.find_erase_of_sorted {α : Type} {m : Map α} (hm : Map.sorted m = true) (a b : Nat) :
    Map.find (Map.erase m a) b = if b = a then none else Map.find m b := Map.find_erase m a b 0 hm

theorem State.freeSave_sorted {s : State} (h : Map.sorted s.teams = true) (t : Team) : Map.sorted (s.freeSave t).teams = true :=
  (Map.sortedFrom_of_keys (s.freeSave_teamKeys t) 0).trans h

theorem State.freeSave_of_placed (s : State) {t : Team} (h : t.saved = none) : s.freeSave t = s := by
  unfold State.freeSave
  rw [h]

/-- A unit that is launched again stands as given among the grids (R340, R341). -/
theorem State.afterUnit_grid? (s : State) (g h : Grid) (grid : BitVec 32) :
    (s.afterUnit g (fun s => { s with grids := Map.insert s.grids grid.toNat h })).grid? grid = some h := by
  unfold State.afterUnit
  split
  · exact Map.find_insert_self _ _ _
  · unfold State.grid?
    rw [State.syncVheld_grids]
    exact Map.find_insert_self _ _ _

/-- The state once a grid has retired, its completion word on its way. -/
def State.gridOver (s : State) (g : Grid) : State :=
  (((if g.discard then s.restoreGranules g else s.settleShadows g).afterUnit g (fun s => s.removeGrid g)).writeCompl 0 g.byAsid
    g.rcd.compl (2 ^ 63 + g.replays * 2 ^ 16 + g.outcome * 2 ^ 8)).launchOver g.byLin

/-- GRID_RETIRE of a grid whose work is done and that is not launched again, where the page of its completion word is here. -/
theorem exec_gridRetire_over {s : State} {grid : BitVec 32} {g : Grid} (hg : s.grid? grid = some g) (hdone : s.gridDone g = true)
    (hre : g.relaunch = false) (hwait : s.access 0 g.byAsid g.rcd.compl 8 false true ≠ .wait)
    (hpage : s.access 0 g.byAsid g.rcd.compl 8 false true ≠ .page) :
    exec (.gridRetire grid) s = .next (s.gridOver g) := by
  unfold exec execGridRetire
  simp only [hg, hdone, hre, Bool.not_true, Bool.false_eq_true, if_false]
  cases hacc : s.access 0 g.byAsid g.rcd.compl 8 false true with
  | page => exact absurd hacc hpage
  | wait => exact absurd hacc hwait
  | _ => rw [State.gridOver, complWord, Nat.add_zero]

theorem exec_gridRetire_page {s : State} {grid : BitVec 32} {g : Grid} (hg : s.grid? grid = some g) (hdone : s.gridDone g = true)
    (hre : g.relaunch = false) (hpage : s.access 0 g.byAsid g.rcd.compl 8 false true = .page) :
    exec (.gridRetire grid) s = .next (s.askPage g.byAsid g.rcd.compl 0) := by
  unfold exec execGridRetire
  simp only [hg, hdone, hre, hpage, Bool.not_true, Bool.false_eq_true, if_false]

theorem exec_gridRetire_again {s : State} {grid : BitVec 32} {g : Grid} (hg : s.grid? grid = some g) (hdone : s.gridDone g = true)
    (hre : g.relaunch = true) :
    ∃ t, exec (.gridRetire grid) s = .next t ∧ t.grid? grid = some { g with
      nextTeam := 0, ending := false, relaunch := false, discard := false, undo := [], foreign := false, prot := true,
      replays := g.replays + 1, spent := [], framesTold := false } := by
  unfold exec execGridRetire
  simp only [hg, hdone, hre, Bool.not_true, Bool.false_eq_true, if_false, if_true]
  exact ⟨_, rfl, State.afterUnit_grid? _ _ _ _⟩

theorem exec_gridRetire_waits {s : State} {grid : BitVec 32} {g : Grid} (hg : s.grid? grid = some g)
    (hdone : s.gridDone g = false) :
    exec (.gridRetire grid) s = if s.gridIdle g then .next (s.closeFrames g) else .next s := by
  unfold exec execGridRetire
  simp only [hg, hdone, Bool.not_false, if_true]

end Sys2Proof.Machine

namespace Sys2Proof.Proofs

open Sys2Proof Sys2Proof.Machine Sys2Proof.Safety

/-- Settles O57: the launch by its status, the placed team by `newTeam`, the retired team by `retired`, the grid by whether its work
is done and whether it is launched again. -/
theorem launchesAndTeams : Obligations.LaunchesAndTeams := by
  intro s
  refine ⟨?launch, ?place, ?retire, ?grid⟩
  case launch =>
    intro msg party h depth prio m va grid seed asid b l x hm hb hrec r lin status hcompl hlen
    obtain ⟨hgrids, -, hmem, hdev⟩ := s.endLaunch_fields msg
    refine ⟨fun hst => ?_, fun dict entry hst him => ?_⟩
    · refine (exec_launchValidate_rejects hm hb hrec hcompl (lin := lin) rfl rfl hst).trans ?_
      simp only [complWord, Nat.zero_mul, Nat.add_zero]
      rfl
    · obtain ⟨g, hg, hnew, hrcd, hasid, hdict, hentry, hdepth, hparent, hlin, hteam, hout, hrep, hprot, hby, hlaunch, hothers⟩ :=
        (s.endLaunch msg).acceptGrid_new r lin seed asid depth party dict entry (by rw [hgrids]; exact hlen)
      have hsame : ∀ k, (s.endLaunch msg).grid? k = s.grid? k := fun k => by unfold State.grid?; rw [hgrids]
      rw [hdev] at hparent
      refine ⟨_, g, exec_launchValidate_accepts hm hb hrec hcompl (lin := lin) rfl hst him, hg, (hsame _).symm.trans hnew,
        hrcd, hasid, hdict, hentry, hdepth, hparent, hlin.trans ?_,
        hteam, hout, hrep, hprot, hby, hlaunch, hmem, fun k hk => (hothers k hk).trans (hsame k)⟩
      cases seed <;> rfl
  case place =>
    intro w cl hw hnamed hmode hnew hcl
    obtain ⟨iv, hteam, hgrid⟩ := s.placeNew_team w.g cl
    exact ⟨_, _, exec_teamPlace hw hnamed hmode hnew hcl, hteam, rfl, rfl, rfl, rfl, rfl, rfl, rfl, rfl, _, hgrid, rfl⟩
  case retire =>
    intro team x hx hsorted hm hl hseq heng
    refine ⟨_, exec_teamRetire hx hm hl hseq heng, ?_, rfl, fun hsaved => ?_⟩
    · exact (Map.find_erase_of_sorted (State.freeSave_sorted hsorted x) team team).trans (if_pos rfl)
    · rw [s.freeSave_of_placed hsaved]
      refine ⟨fun k hk => (Map.find_erase_of_sorted hsorted team k).trans (if_neg hk), fun g hg => ?_, rfl, rfl, rfl⟩
      refine ⟨_, ((s.retired team x).settle_grid? x.grid).trans (congrArg _ (State.retired_grid? team hg)), rfl, rfl, rfl, rfl⟩
  case grid =>
    intro grid g hg s1
    refine ⟨fun hdone hre hwait hpage => exec_gridRetire_over hg hdone hre hwait hpage,
      fun hdone hre hpage => exec_gridRetire_page hg hdone hre hpage, exec_gridRetire_again hg, fun hdone hidle => ?_,
      fun hdone hidle => ?_⟩
    · rw [exec_gridRetire_waits hg hdone, if_pos hidle]
    · rw [exec_gridRetire_waits hg hdone, if_neg (ne_true_of_eq_false hidle)]

end Sys2Proof.Proofs

namespace Sys2Proof.Machine

open Host Sys2Proof.Safety

/-! # A run that maps the page of its next write

RUN_COMMIT makes the writes of a run one after another, and each finds the range locks as memory then stands. A lock without a page
covers what its interval has been mapped to since (`State.lockHits`, R82), so a write to a table may bring a later one under it. -/

/-- The lock of an operation on the first bytes of ASID 1, none of which was mapped when it was taken. -/
def earlyLock : Lock :=
  { dev := 0, owner := 0, wr := true, lo := 0, hi := 16384,
    leaf := { asid := 1, base := 0, bits := 30, span := 0, r := true, w := true, x := false, fmt := 0, fent := 0, target := .none } }

/-- The writes of the run: the leaf entry that maps the first 2^30 bytes of ASID 1 to the core's own slice, and a byte of that
page. -/
def mapWrites : List (DWord × Loc × List Byte) := [(1, ⟨0, 8192⟩, [3]), (1, ⟨0, 16384⟩, [7])]

/-- A run that has executed its last word and makes `mapWrites` when it commits. -/
def mapRun : Run :=
  { header := 0, start := 0, cont := false, coded := false, wait := 0, seta := none, setb := none, words := [], next := 0, idx := 0,
    imm := none, modh := none, imm0 := none, modh0 := none, live0 := none, last0 := [], live := none, last := [], ov := Overlay.empty,
    eff := mapWrites.map (fun e => ⟨e.1, sending (.core 0 0) (.write e.2.1 e.2.2 []) none false false false⟩),
    taken := [], wb0 := [], skip := none, snap := [] }

/-- Its bundle. -/
def mapBundle : Bundle := { Bundle.at 0 1 0 0 0 with phase := .executed, run := some mapRun }

/-- Its party, in the active set of core 0. -/
def mapParty : Party := { placeParty State.reset none with bundles := [mapBundle] }

/-- The state after reset with that party and that lock. The context of ASID 1 stands at 32, its root table at 4096 and the table
below it at 8192, empty as yet. -/
def mapState : State :=
  { State.reset with
    parties := [(1, mapParty)], locks := [earlyLock], mem := [(33, 0x10), (48, 1), (4096, 1), (4097, 0x20)] }

/-- The messages that an outcome leaves outstanding. -/
def outstanding (o : Outcome State Fault Refusal) : Option Nat :=
  match o with
  | .next t => some t.net.length
  | _ => none

theorem outstanding_next (t : State) : outstanding (.next t) = some t.net.length := rfl

/-- Neither write is under the lock before the run commits. -/
theorem mapState_unlocked : ∀ e ∈ mapWrites, mapState.locked e.2.1 e.2.2.length true = false := by decide

/-- The second write has gone out as a message: the first has brought it under the lock. -/
theorem outstanding_mapState : outstanding (exec (.runCommit 1 0) mapState) = some 1 := rfl

theorem mapState_local : ∀ e ∈ mapWrites, mapState.isLocal mapParty.core e.2.1 = true := by decide

theorem mapRun_eff : mapRun.eff = mapWrites.map (fun e =>
    ⟨e.1, sending (mapState.homeOf e.2.1) (.write e.2.1 e.2.2 []) none false false false⟩) := rfl

theorem mapState_commits : Commits mapState 1 0 mapParty mapBundle mapRun where
  party := rfl
  bundle := rfl
  run := rfl
  active := rfl
  phase := rfl
  asked := rfl
  clean := rfl
  ready := rfl
  lanes := by decide
  ids := by decide
  maps := by decide

end Sys2Proof.Machine

namespace Sys2Proof.Proofs

open Sys2Proof Sys2Proof.Machine Sys2Proof.Safety

/-- Refutes O31, in its clause on writes to the core's own memory: the hypothesis looks for range locks before the run commits,
and the first write of `mapRun` maps a page under `earlyLock`, so that the second goes out as a message and waits for the lock. -/
theorem not_runsAndReturns : ¬ Obligations.RunsAndReturns := by
  rintro ⟨-, -, hsends, -⟩
  have hnet : ∀ e ∈ mapState.net, e.id < mapState.keys := fun e he => absurd he List.not_mem_nil
  have hshadow : Unshadowed mapState := fun e he => absurd he List.not_mem_nil
  obtain ⟨-, -, hwrites, -⟩ := hsends mapState 1 0 mapParty mapBundle mapRun mapState_commits hnet
  obtain ⟨t, ht, hsame, -⟩ := hwrites mapWrites hshadow rfl mapRun_eff
    (fun e he => ⟨mapState_local e he, mapState_unlocked e he, rfl, rfl⟩)
  have hsent := outstanding_mapState
  rw [ht, outstanding_next, hsame] at hsent
  exact absurd (Option.some.inj hsent) Nat.zero_ne_one

end Sys2Proof.Proofs

namespace Sys2Proof.Machine

open Host Sys2Proof.Safety

/-! # Memory-side words (R76 to R79, R242, R243) -/

/-! ## Words that send effects and await results -/

/-- A condition on the fields of a word that issues is met (R139, R140). -/
theorem need_of_issues {s : State} {g : BitVec 4} {args : List Arg} {c : Ctx} {b : Bool} (hi : Issues s g args c)
    (hb : Arg.need b ∈ args) : b = true := by
  have hclear := hi.2
  simp only [clear, Bool.and_eq_true] at hclear
  obtain ⟨⟨⟨⟨-, hargs⟩, -⟩, -⟩, -⟩ := hclear
  exact List.all_eq_true.mp hargs _ hb

/-- The context with its number counter, operations and effects as given. -/
abbrev Ctx.sent (c : Ctx) (k : Nat) (pend : List PendOp) (es : List Eff) : Ctx :=
  { c with s := { c.s with keys := k }, p := { c.p with pend := pend }, r := { c.r with eff := es } }

/-- A word that gives out numbers, and changes its party alone besides, has executed. -/
theorem executed_of_keys {s : State} {g : BitVec 4} {c c' : Ctx} {k : Nat} (h : issueCtx s g = some c) (hp : c'.pid = c.pid)
    (hs : c'.s = { c.s with keys := k }) : Executed s c'.advance c c' := by
  have hcs := issueCtx_s h
  refine ⟨rfl, ?_, fun q hq => ?_⟩
  · unfold Ctx.advance Ctx.save
    simp only [hs, hcs]
    rfl
  · unfold Ctx.advance Ctx.save
    dsimp only
    rw [State.party?_setParty_ne _ _ _ _ (by rw [hp]; exact hq), hs, hcs]
    rfl

/-- A late operation leaves the marks of `last` as they are (R148, R229). -/
theorem Ctx.addOp_late {c : Ctx} {o : PendOp} (ho : o.late = true) :
    c.addOp o = { c with s := c.s.bump, p := { c.p with pend := joined c c.p.pend o } } := by
  have hmarks : (c.addOp o).r.ov.marks = c.r.ov.marks := if_pos ho
  rw [Ctx.addOp_eq, hmarks]

/-- A late operation of one lane, in a run that has sent. -/
theorem Ctx.lateOp_sent (c : Ctx) (k : Nat) (pend : List PendOp) (es : List Eff) (l : Nat) (dests : List Dest) (acq : Bool) :
    (c.sent k pend es).lateOp [l] dests acq = c.sent (k + 1) (joined c pend (lateFor c l k dests acq)) es :=
  Ctx.addOp_late rfl

/-- A word that goes ahead, sends effects and awaits results (R26, R28). -/
theorem issue_sends {s : State} {g : BitVec 4} {args : List Arg} {c : Ctx} (hi : Issues s g args c) {pre : Ctx → Pre}
    {eff : Ctx → Res} {es : List Eff} {ops : List PendOp} (hp : pre c = .go)
    (he : ∀ m, eff (c.withMarks m) = .done ((c.withMarks m).sent (c.s.keys + ops.length) (ops.foldl (joined c) c.p.pend)
      (c.r.eff ++ es))) :
    ∃ c', issue s g args pre eff = .next c'.advance ∧ Executed s c'.advance c c' ∧ SendResult c c' es ops :=
  ⟨_, issue_done hi hp ((congrArg eff (markLast_eq c args)).trans (he _)), executed_of_keys hi.1 rfl rfl, ⟨rfl⟩⟩

/-- Effects alone, with no results awaited. -/
theorem effOutcome_of_send {i : Instr} {s : State} {c : Ctx} {es : List Eff} (h : SendOutcome i s c es []) :
    EffOutcome i s c es := by
  obtain ⟨c', hexec, hdone, ⟨hrest⟩⟩ := h
  exact ⟨c', hexec, hdone, ⟨hrest⟩⟩

/-- Steps that each give out `n` numbers, issue the operations `ops` and leave the effect `e` of their place in the sequence. -/
theorem Ctx.foldl_sent {α : Type} {c : Ctx} {f : Ctx → α → Ctx} {n : Nat} {ops : α × Nat → List PendOp}
    {e : α × Nat → Option Eff} (l : List α)
    (hf : ∀ a ∈ l, ∀ i pend es, f (c.sent (c.s.keys + n * i) pend es) a =
      c.sent (c.s.keys + n * (i + 1)) ((ops (a, i)).foldl (joined c) pend) (es ++ (e (a, i)).toList))
    (i : Nat) (pend : List PendOp) (es : List Eff) :
    l.foldl f (c.sent (c.s.keys + n * i) pend es) =
      c.sent (c.s.keys + n * (i + l.length)) (((l.zipIdx i).flatMap ops).foldl (joined c) pend)
        (es ++ (l.zipIdx i).filterMap e) := by
  induction l generalizing i pend es with
  | nil => simp
  | cons a l ih =>
    rw [List.foldl_cons, hf a List.mem_cons_self, ih (fun b hb => hf b (List.mem_cons_of_mem _ hb)), List.zipIdx_cons,
      List.flatMap_cons, List.foldl_append, List.filterMap_cons, List.length_cons, Nat.add_right_comm, Nat.add_assoc i]
    cases e (a, i) <;> simp

/-! ## Addresses outside host windows -/

/-- The translation of an access does not depend on what it is to do (R227). -/
theorem State.access_probe {s : State} {core : Nat} {asid : BitVec 16} {va n : Nat} {rd wr : Bool} {lf : Leaf} {x : Loc}
    (h : s.access core asid va n rd wr = .ok lf x) : s.access core asid va 1 false false = .ok lf x := by
  unfold State.access at h ⊢
  split at h
  case h_5 l _ =>
    split at h
    · cases h
    split at h
    · cases h
    simpa [Nat.mod_one] using h
  case h_4 => split at h <;> cases h
  all_goals cases h

/-- No lane whose access lies outside host windows is one of `hostLanes` (R239). -/
theorem Ctx.hostLanes_of_placed {c : Ctx} {n : Nat} {rd wr : Bool} {vas : List (Nat × Nat)}
    (h : ∀ e ∈ vas, (placeOf c n rd wr e.2).any (fun x => !x.isHost) = true) : c.hostLanes vas = [] := by
  refine List.filterMap_eq_nil_iff.mpr fun e he => ?_
  obtain ⟨x, hx, hhost⟩ := (Option.any_eq_true _ _).mp (h e he)
  obtain ⟨lf, hok, -⟩ := access_of_placed hx
  rw [State.access_probe hok]
  exact if_neg (by simpa using hhost)

/-- Checks of accesses outside host windows that pass, and their targets (R239). -/
theorem Ctx.checkMem_of_placed {c : Ctx} {n : Nat} {rd wr : Bool} {vas : List (Nat × Nat)}
    (h : ∀ e ∈ vas, (placeOf c n rd wr e.2).any (fun x => !x.isHost) = true) :
    ∃ ts, c.checkMem n rd wr vas = .ok ts ∧ c.check n rd wr vas = .ok ts ∧ ts.map (fun t => (t.lane, t.va, t.loc)) =
      vas.map (fun e => (e.1, e.2, placeOf c n rd wr e.2)) := by
  have hsome : ∀ e ∈ vas, (placeOf c n rd wr e.2).isSome = true := fun e he => by
    obtain ⟨x, hx, -⟩ := (Option.any_eq_true _ _).mp (h e he)
    exact Option.isSome_of_eq_some hx
  obtain ⟨ts, hts, hmap⟩ := Ctx.check_of_placed hsome
  refine ⟨ts, ?_, hts, hmap⟩
  rw [Ctx.checkMem, hts, Ctx.hostLanes_of_placed h]
  rfl

/-- A word that works at each target that has a location works at each lane that has a place. -/
theorem foldl_tgts {ts : List Tgt} {ls : List Nat} {va : Nat → Nat} {place : Nat → Option Loc}
    (h : ts.map (fun t => (t.lane, t.va, t.loc)) = ls.map (fun l => (l, va l, place l))) (f : Ctx → Nat → Loc → Ctx) (c : Ctx) :
    ts.foldl (fun x t => t.loc.elim x (f x t.lane)) c = ls.foldl (fun x l => (place l).elim x (f x l)) c := by
  have hfold := congrArg (List.foldl (fun x (r : Nat × Nat × Option Loc) => r.2.2.elim x (f x r.1)) c) h
  rwa [List.foldl_map, List.foldl_map] at hfold

/-! ## Operations of the lanes -/

/-- The 64-bit value at place `i` of a lane's operand group (R242). -/
abbrev Ctx.groupV (c : Ctx) (a l i : Nat) : DWord := c.v (a + i + 1) l ++ c.v (a + i) l

theorem Ctx.groupD_eq {c : Ctx} {a : Nat} (ha : a < 60) (i l : Nat) : c.groupD a i l = c.groupV a l i := by
  simp only [Ctx.groupD, Ctx.vAt, ha, if_true]
  rfl

theorem Ctx.vAt_eq {c : Ctx} {a : Nat} (ha : a < 60) (i l : Nat) : c.vAt a i l = c.v (a + i) l := if_pos ha

/-- Where a lane's operation goes: the pointer at the head of its group, with the displacement (R227, R242). -/
abbrev Ctx.pointer (c : Ctx) (a l : Nat) : Nat := (c.groupV a l 0 + c.disp).toNat

theorem Ctx.addr_group {c : Ctx} {a : Nat} (ha : a < 60) (l : Nat) : c.addr 31 a l = c.pointer a l := by
  simp only [Ctx.addr, Ctx.v64, ha, if_true]
  rfl

theorem Ctx.msoAddrs_eq {c : Ctx} {a : Nat} (ha : a < 60) : c.msoAddrs a = c.act.map (fun l => (l, c.pointer a l)) :=
  List.map_congr_left fun l _ => by rw [Ctx.addr_group ha]

/-- The ticket that a memory-side operation is sent with (R76 to R78). -/
abbrev Ctx.msoTicket (c : Ctx) (x : Loc) (len op : Nat) : Fetch := fetchOf c x len (if len = 8 then 5 else 6) false 0 op

/-- The memory-side operation of a lane (R243). -/
abbrev Ctx.msoEff (c : Ctx) (l : Nat) (x : Loc) (k : MsoKind) (f f2 : Option Fetch) (posted : Bool) : Eff :=
  ⟨maskOf [l], sending (c.s.homeOf x) (.mso x k f f2) (if c.mods.order = 2 ∨ c.mods.order = 3 then some c.mods.scope else none)
    false posted false⟩

/-- With D = 60 the operation is posted (R243). -/
theorem Ctx.sendMso_posted (c : Ctx) (k : Nat) (pend : List PendOp) (es : List Eff) (l : Nat) (x : Loc) (kind : MsoKind)
    (len results : Nat) :
    (c.sent k pend es).sendMso 60 l x kind len results = c.sent k pend (es ++ [c.msoEff l x kind none none true]) := by
  rw [Ctx.sendMso, if_pos rfl]
  rfl

/-- An operation with one result has one ticket, and a late operation awaits it (R243). -/
theorem Ctx.sendMso_one {d : Nat} (hd : d ≠ 60) (c : Ctx) (k : Nat) (pend : List PendOp) (es : List Eff) (l : Nat) (x : Loc)
    (kind : MsoKind) (len : Nat) :
    (c.sent k pend es).sendMso d l x kind len 1 =
      c.sent (k + 1) (joined c pend (lateFor c l k [c.dest d 0 l, c.dest d 1 l] false))
        (es ++ [c.msoEff l x kind (some (c.msoTicket x len k)) none false]) := by
  rw [Ctx.sendMso, if_neg hd, if_neg (by decide)]
  dsimp only
  rw [Ctx.lateOp_sent, decide_eq_false hd]
  rfl

/-- An operation with two results has two tickets (R243). -/
theorem Ctx.sendMso_two {d : Nat} (hd : d ≠ 60) (c : Ctx) (k : Nat) (pend : List PendOp) (es : List Eff) (l : Nat) (x : Loc)
    (kind : MsoKind) (len : Nat) :
    (c.sent k pend es).sendMso d l x kind len 2 =
      c.sent (k + 2) (joined c (joined c pend (lateFor c l k [c.dest d 0 l, c.dest d 1 l] false))
          (lateFor c l (k + 1) [c.dest d 2 l, c.dest d 3 l] false))
        (es ++ [c.msoEff l x kind (some (c.msoTicket x len k)) (some (c.msoTicket x len (k + 1))) false]) := by
  rw [Ctx.sendMso, if_neg hd, if_pos rfl]
  dsimp only
  rw [Ctx.lateOp_sent, Ctx.lateOp_sent, decide_eq_false hd]
  rfl

/-- Lanes that all have places post their operations in order. -/
theorem Ctx.foldl_sendMso_posted {c : Ctx} {ls : List Nat} {pl : Nat → Option Loc} {kind : Nat → MsoKind} {len results : Nat}
    (hpl : ∀ l ∈ ls, (pl l).isSome = true) :
    ls.foldl (fun x l => (pl l).elim x (fun y => x.sendMso 60 l y (kind l) len results)) c =
      c.sent c.s.keys c.p.pend (c.r.eff ++ ls.filterMap (fun l => (pl l).map (fun y => c.msoEff l y (kind l) none none true))) := by
  have hfold := Ctx.foldl_sent (c := c) (n := 0) (ops := fun _ => [])
    (e := fun r => (pl r.1).map (fun y => c.msoEff r.1 y (kind r.1) none none true))
    (f := fun x l => (pl l).elim x (fun y => x.sendMso 60 l y (kind l) len results)) ls
    (fun l hl i pend es => by
      obtain ⟨y, hy⟩ := Option.isSome_iff_exists.mp (hpl l hl)
      simp only [hy, Option.elim_some, Option.map_some, Ctx.sendMso_posted]
      simp)
    0 c.p.pend c.r.eff
  have hfst : ls.zipIdx.filterMap (fun r => (pl r.1).map (fun y => c.msoEff r.1 y (kind r.1) none none true)) =
      ls.filterMap (fun l => (pl l).map (fun y => c.msoEff l y (kind l) none none true)) := by
    conv_rhs => rw [← List.zipIdx_map_fst 0 ls, List.filterMap_map]
    rfl
  rw [hfst, List.flatMap_eq_nil_iff.mpr fun _ _ => rfl] at hfold
  simpa using hfold

/-- Lanes that all have places send their operations in order, with one ticket each. -/
theorem Ctx.foldl_sendMso_one {c : Ctx} {ls : List Nat} {pl : Nat → Option Loc} {kind : Nat → MsoKind} {d len : Nat} (hd : d ≠ 60)
    (hpl : ∀ l ∈ ls, (pl l).isSome = true) :
    ls.foldl (fun x l => (pl l).elim x (fun y => x.sendMso d l y (kind l) len 1)) c =
      c.sent (c.s.keys + ls.length)
        ((ls.zipIdx.map (fun e => lateFor c e.1 (c.s.keys + e.2) [c.dest d 0 e.1, c.dest d 1 e.1] false)).foldl (joined c) c.p.pend)
        (c.r.eff ++ ls.zipIdx.filterMap (fun e => (pl e.1).map (fun y =>
          c.msoEff e.1 y (kind e.1) (some (c.msoTicket y len (c.s.keys + e.2))) none false))) := by
  have hfold := Ctx.foldl_sent (c := c) (n := 1)
    (ops := fun e => [lateFor c e.1 (c.s.keys + e.2) [c.dest d 0 e.1, c.dest d 1 e.1] false])
    (e := fun e => (pl e.1).map (fun y => c.msoEff e.1 y (kind e.1) (some (c.msoTicket y len (c.s.keys + e.2))) none false))
    (f := fun x l => (pl l).elim x (fun y => x.sendMso d l y (kind l) len 1)) ls
    (fun l hl i pend es => by
      obtain ⟨y, hy⟩ := Option.isSome_iff_exists.mp (hpl l hl)
      simp only [hy, Option.elim_some, Option.map_some, Ctx.sendMso_one hd, Nat.one_mul]
      rfl)
    0 c.p.pend c.r.eff
  simpa [← List.map_eq_flatMap] using hfold

/-- Lanes that all have places send their operations in order, with two tickets each. -/
theorem Ctx.foldl_sendMso_two {c : Ctx} {ls : List Nat} {pl : Nat → Option Loc} {kind : Nat → MsoKind} {d len : Nat} (hd : d ≠ 60)
    (hpl : ∀ l ∈ ls, (pl l).isSome = true) :
    ls.foldl (fun x l => (pl l).elim x (fun y => x.sendMso d l y (kind l) len 2)) c =
      c.sent (c.s.keys + 2 * ls.length)
        ((ls.zipIdx.flatMap (fun e => [lateFor c e.1 (c.s.keys + 2 * e.2) [c.dest d 0 e.1, c.dest d 1 e.1] false,
          lateFor c e.1 (c.s.keys + 2 * e.2 + 1) [c.dest d 2 e.1, c.dest d 3 e.1] false])).foldl (joined c) c.p.pend)
        (c.r.eff ++ ls.zipIdx.filterMap (fun e => (pl e.1).map (fun y =>
          c.msoEff e.1 y (kind e.1) (some (c.msoTicket y len (c.s.keys + 2 * e.2)))
            (some (c.msoTicket y len (c.s.keys + 2 * e.2 + 1))) false))) := by
  have hfold := Ctx.foldl_sent (c := c) (n := 2)
    (ops := fun e => [lateFor c e.1 (c.s.keys + 2 * e.2) [c.dest d 0 e.1, c.dest d 1 e.1] false,
      lateFor c e.1 (c.s.keys + 2 * e.2 + 1) [c.dest d 2 e.1, c.dest d 3 e.1] false])
    (e := fun e => (pl e.1).map (fun y => c.msoEff e.1 y (kind e.1) (some (c.msoTicket y len (c.s.keys + 2 * e.2)))
      (some (c.msoTicket y len (c.s.keys + 2 * e.2 + 1))) false))
    (f := fun x l => (pl l).elim x (fun y => x.sendMso d l y (kind l) len 2)) ls
    (fun l hl i pend es => by
      obtain ⟨y, hy⟩ := Option.isSome_iff_exists.mp (hpl l hl)
      simp only [hy, Option.elim_some, Option.map_some, Ctx.sendMso_two hd]
      rfl)
    0 c.p.pend c.r.eff
  simpa using hfold

/-! ## What the words leave (R242, R243) -/

section
variable {i : Instr} {s : State} {g : BitVec 4} {args : List Arg} {c : Ctx} {pre : Ctx → Pre} {eff : Ctx → Res} {d : Nat}
  {pl : Nat → Option Loc} {kind : Nat → MsoKind} {len : Nat}

/-- Posted operations await nothing. -/
theorem issue_mso_posted {results : Nat} (hexec : exec i s = issue s g args pre eff) (hi : Issues s g args c) (hp : pre c = .go)
    (hpl : ∀ l ∈ c.act, (pl l).isSome = true)
    (he : ∀ m, eff (c.withMarks m) =
      .done (c.act.foldl (fun x l => (pl l).elim x (fun y => x.sendMso 60 l y (kind l) len results)) (c.withMarks m))) :
    EffOutcome i s c (c.act.filterMap (fun l => (pl l).map (fun y => c.msoEff l y (kind l) none none true))) := by
  refine effOutcome_of_send ?_
  rw [SendOutcome, hexec]
  exact issue_sends hi hp fun m => (he m).trans (congrArg Res.done (Ctx.foldl_sendMso_posted hpl))

/-- Operations with one ticket await one result each. -/
theorem issue_mso_one (hexec : exec i s = issue s g args pre eff) (hi : Issues s g args c) (hp : pre c = .go) (hd : d ≠ 60)
    (hpl : ∀ l ∈ c.act, (pl l).isSome = true)
    (he : ∀ m, eff (c.withMarks m) =
      .done (c.act.foldl (fun x l => (pl l).elim x (fun y => x.sendMso d l y (kind l) len 1)) (c.withMarks m))) :
    SendOutcome i s c
      (c.act.zipIdx.filterMap (fun e => (pl e.1).map (fun y =>
        c.msoEff e.1 y (kind e.1) (some (c.msoTicket y len (s.keys + e.2))) none false)))
      (c.act.zipIdx.map (fun e => lateFor c e.1 (s.keys + e.2) [c.dest d 0 e.1, c.dest d 1 e.1] false)) := by
  obtain rfl : c.s = s := issueCtx_s hi.1
  rw [SendOutcome, hexec]
  refine issue_sends hi hp fun m => (he m).trans (congrArg Res.done ?_)
  rw [List.length_map, List.length_zipIdx]
  exact Ctx.foldl_sendMso_one (c := c.withMarks m) hd hpl

/-- Operations with two tickets await two results each. -/
theorem issue_mso_two (hexec : exec i s = issue s g args pre eff) (hi : Issues s g args c) (hp : pre c = .go) (hd : d ≠ 60)
    (hpl : ∀ l ∈ c.act, (pl l).isSome = true)
    (he : ∀ m, eff (c.withMarks m) =
      .done (c.act.foldl (fun x l => (pl l).elim x (fun y => x.sendMso d l y (kind l) len 2)) (c.withMarks m))) :
    SendOutcome i s c
      (c.act.zipIdx.filterMap (fun e => (pl e.1).map (fun y =>
        c.msoEff e.1 y (kind e.1) (some (c.msoTicket y len (s.keys + 2 * e.2))) (some (c.msoTicket y len (s.keys + 2 * e.2 + 1)))
          false)))
      (c.act.zipIdx.flatMap (fun e => [lateFor c e.1 (s.keys + 2 * e.2) [c.dest d 0 e.1, c.dest d 1 e.1] false,
        lateFor c e.1 (s.keys + 2 * e.2 + 1) [c.dest d 2 e.1, c.dest d 3 e.1] false])) := by
  obtain rfl : c.s = s := issueCtx_s hi.1
  rw [SendOutcome, hexec]
  refine issue_sends hi hp fun m => (he m).trans (congrArg Res.done ?_)
  simp only [List.length_flatMap, List.length_cons, List.length_nil, List.map_const', List.sum_replicate, List.length_zipIdx,
    smul_eq_mul, Nat.mul_comm c.act.length]
  exact Ctx.foldl_sendMso_two (c := c.withMarks m) hd hpl

end

/-- Lanes all of whose operations lie outside host windows have places. -/
theorem isSome_of_notHost {ls : List Nat} {pl : Nat → Option Loc} (h : ∀ l ∈ ls, (pl l).any (fun x => !x.isHost) = true) :
    ∀ l ∈ ls, (pl l).isSome = true := fun l hl => by
  obtain ⟨x, hx, -⟩ := (Option.any_eq_true _ _).mp (h l hl)
  exact Option.isSome_of_eq_some hx

/-- Operands, checks and effect of `cas2`, `cas4` and `enq` whose addresses lie outside host windows: the checks pass, and each
active lane sends its operation to the place of its pointer. -/
theorem msoOp_goes {s : State} {g : BitVec 4} {a : BitVec 6} {args : List Arg} {n k len results d : Nat}
    {kind : Ctx → Nat → MsoKind} {c : Ctx}
    (hi : Issues s g (args ++ [.gr a.toNat k, .need (decide (a.toNat + k ≤ 56))]) c) (hacq : c.acqPending = false)
    (hpl : ∀ l ∈ c.act, (placeOf c n true true (c.pointer a.toNat l)).any (fun x => !x.isHost) = true) :
    c.acqWait.then ((c.checkMem n true true (c.msoAddrs a.toNat)).bind (fun _ => .go)) = .go ∧
    ∀ m, ((c.withMarks m).check n true true ((c.withMarks m).msoAddrs a.toNat)).tgts.foldl (fun x t => match t.loc with
        | some y => x.sendMso d t.lane y (kind (c.withMarks m) t.lane) len results
        | none => x) (c.withMarks m) =
      c.act.foldl (fun x l => (placeOf c n true true (c.pointer a.toNat l)).elim x
        (fun y => x.sendMso d l y (kind (c.withMarks m) l) len results)) (c.withMarks m) := by
  have ha : a.toNat < 60 := by
    have hfield := of_decide_eq_true (need_of_issues (b := decide (a.toNat + k ≤ 56)) hi (by simp))
    omega
  have haddr := Ctx.msoAddrs_eq (c := c) ha
  have hplaced : ∀ e ∈ c.msoAddrs a.toNat, (placeOf c n true true e.2).any (fun x => !x.isHost) = true := by
    rw [haddr]
    intro e he
    obtain ⟨l, hl, rfl⟩ := List.mem_map.mp he
    exact hpl l hl
  obtain ⟨ts, hmem, hcheck, hmap⟩ := Ctx.checkMem_of_placed hplaced
  refine ⟨by rw [Ctx.acqWait_of_clear hacq, hmem]; rfl, fun m => ?_⟩
  rw [haddr, List.map_map] at hmap
  have hcm : (c.withMarks m).check n true true ((c.withMarks m).msoAddrs a.toNat) = .ok ts := hcheck
  rw [hcm, ← foldl_tgts hmap (fun x l y => x.sendMso d l y (kind (c.withMarks m) l) len results)]
  refine List.foldl_ext _ _ _ fun x t _ => ?_
  cases t.loc <;> rfl

/-- `cas2` and `enq`: one result for each lane, by a ticket of its own. -/
theorem msoOp_one {i : Instr} {s : State} {g : BitVec 4} {d a : BitVec 6} {args : List Arg} {n k len : Nat}
    {kind : Ctx → Nat → MsoKind} {kinds : Nat → MsoKind} {c : Ctx} (hexec : exec i s = msoOp s g d a args n k len 1 kind)
    (hi : Issues s g (args ++ [.gr a.toNat k, .need (decide (a.toNat + k ≤ 56))]) c) (hacq : c.acqPending = false)
    (hpl : ∀ l ∈ c.act, (placeOf c n true true (c.pointer a.toNat l)).any (fun x => !x.isHost) = true)
    (hkind : ∀ m, kind (c.withMarks m) = kinds) :
    (d = 60 → EffOutcome i s c (c.act.filterMap (fun l =>
      (placeOf c n true true (c.pointer a.toNat l)).map (fun y => c.msoEff l y (kinds l) none none true)))) ∧
    (d ≠ 60 → SendOutcome i s c
      (c.act.zipIdx.filterMap (fun e => (placeOf c n true true (c.pointer a.toNat e.1)).map (fun y =>
        c.msoEff e.1 y (kinds e.1) (some (c.msoTicket y len (s.keys + e.2))) none false)))
      (c.act.zipIdx.map (fun e =>
        lateFor c e.1 (s.keys + e.2) [c.dest d.toNat 0 e.1, c.dest d.toNat 1 e.1] false))) := by
  obtain ⟨hp, heff⟩ := msoOp_goes (len := len) (results := 1) (d := d.toNat) (kind := kind) hi hacq hpl
  refine ⟨fun hd => ?_, fun hd => ?_⟩
  · subst hd
    exact issue_mso_posted hexec hi hp (isSome_of_notHost hpl) fun m =>
      congrArg Res.done ((heff m).trans (by rw [hkind]; rfl))
  · exact issue_mso_one hexec hi hp (fun h => hd (BitVec.eq_of_toNat_eq h)) (isSome_of_notHost hpl)
      fun m => congrArg Res.done ((heff m).trans (by rw [hkind]))

/-- `cas4`: two results for each lane. -/
theorem msoOp_two {i : Instr} {s : State} {g : BitVec 4} {d a : BitVec 6} {args : List Arg} {n k len : Nat}
    {kind : Ctx → Nat → MsoKind} {kinds : Nat → MsoKind} {c : Ctx} (hexec : exec i s = msoOp s g d a args n k len 2 kind)
    (hi : Issues s g (args ++ [.gr a.toNat k, .need (decide (a.toNat + k ≤ 56))]) c) (hacq : c.acqPending = false)
    (hpl : ∀ l ∈ c.act, (placeOf c n true true (c.pointer a.toNat l)).any (fun x => !x.isHost) = true)
    (hkind : ∀ m, kind (c.withMarks m) = kinds) :
    (d = 60 → EffOutcome i s c (c.act.filterMap (fun l =>
      (placeOf c n true true (c.pointer a.toNat l)).map (fun y => c.msoEff l y (kinds l) none none true)))) ∧
    (d ≠ 60 → SendOutcome i s c
      (c.act.zipIdx.filterMap (fun e => (placeOf c n true true (c.pointer a.toNat e.1)).map (fun y =>
        c.msoEff e.1 y (kinds e.1) (some (c.msoTicket y len (s.keys + 2 * e.2)))
          (some (c.msoTicket y len (s.keys + 2 * e.2 + 1))) false)))
      (c.act.zipIdx.flatMap (fun e => [lateFor c e.1 (s.keys + 2 * e.2) [c.dest d.toNat 0 e.1, c.dest d.toNat 1 e.1] false,
        lateFor c e.1 (s.keys + 2 * e.2 + 1) [c.dest d.toNat 2 e.1, c.dest d.toNat 3 e.1] false]))) := by
  obtain ⟨hp, heff⟩ := msoOp_goes (len := len) (results := 2) (d := d.toNat) (kind := kind) hi hacq hpl
  refine ⟨fun hd => ?_, fun hd => ?_⟩
  · subst hd
    exact issue_mso_posted hexec hi hp (isSome_of_notHost hpl) fun m =>
      congrArg Res.done ((heff m).trans (by rw [hkind]; rfl))
  · exact issue_mso_two hexec hi hp (fun h => hd (BitVec.eq_of_toNat_eq h)) (isSome_of_notHost hpl)
      fun m => congrArg Res.done ((heff m).trans (by rw [hkind]))

theorem exec_msoCas2 (g : BitVec 4) (d a : BitVec 6) (s : State) : exec (.msoCas2 g d a) s = execMsoCas2 g d a s := rfl

theorem exec_msoCas4 (g : BitVec 4) (d a : BitVec 6) (s : State) : exec (.msoCas4 g d a) s = execMsoCas4 g d a s := rfl

theorem exec_msoEnq (g : BitVec 4) (d a : BitVec 6) (s : State) : exec (.msoEnq g d a) s = execMsoEnq g d a s := rfl

theorem exec_msoChase (g : BitVec 4) (d a : BitVec 6) (s : State) : exec (.msoChase g d a) s = execMsoChase g d a s := rfl

theorem exec_msoRowput (g : BitVec 4) (a : BitVec 6) (s : State) : exec (.msoRowput g a) s = execMsoRowput g a s := rfl

/-! ## Chases (R78) -/

/-- The operands of `mso.chase`. -/
abbrev chaseArgs (d a : BitVec 6) : List Arg :=
  [.pw d.toNat, .gr a.toNat 3, .need (decide (a.toNat % 2 = 0)), .need (decide (a.toNat ≤ 52))]

/-- A lane's link offset. -/
abbrev Ctx.chaseOff (c : Ctx) (a l : Nat) : Nat := (c.v (a + 2) l).toNat

/-- Offsets of 0 to 4,088 that are multiples of 8 raise no ALIGN (R242). -/
theorem Ctx.badOffsets_nil {c : Ctx} {a : Nat} (ha : a < 60) (h : ∀ l ∈ c.act, c.chaseOff a l ≤ 4088 ∧ c.chaseOff a l % 8 = 0) :
    c.badOffsets a = [] := by
  rw [Ctx.badOffsets, Ctx.msoAddrs_eq ha, List.filterMap_eq_nil_iff]
  intro e he
  obtain ⟨l, hl, rfl⟩ := List.mem_map.mp he
  obtain ⟨hle, hmod⟩ : (c.v (a + 2) l).toNat ≤ 4088 ∧ (c.v (a + 2) l).toNat % 8 = 0 := h l hl
  exact if_neg (by dsimp only; rw [Ctx.vAt_eq ha]; omega)

/-- Lanes with pointers read their first links. -/
theorem Ctx.links_eq {c : Ctx} {a : Nat} (ha : a < 60) (h : ∀ l ∈ c.act, c.pointer a l ≠ 0) :
    c.links a = c.act.map (fun l => (l, (c.pointer a l + c.chaseOff a l) % 2 ^ 64)) := by
  rw [Ctx.links, Ctx.msoAddrs_eq ha, List.filter_eq_self.mpr, List.map_map]
  · exact List.map_congr_left fun l _ => by rw [Function.comp, Ctx.vAt_eq ha]
  · intro e he
    obtain ⟨l, hl, rfl⟩ := List.mem_map.mp he
    exact decide_eq_true (h l hl)

/-- Lanes whose pointers are null read none. -/
theorem Ctx.links_nil {c : Ctx} {a : Nat} (ha : a < 60) (h : ∀ l ∈ c.act, c.pointer a l = 0) : c.links a = [] := by
  rw [Ctx.links, Ctx.msoAddrs_eq ha, List.filter_eq_nil_iff.mpr]
  · rfl
  · intro e he
    obtain ⟨l, hl, rfl⟩ := List.mem_map.mp he
    simpa using h l hl

/-- Targets that all have locations pass the checks of a fetch. -/
theorem Ctx.fetchChecks_go {c : Ctx} {ts : List Tgt} (h : ∀ t ∈ ts, t.loc.isSome = true) :
    c.fetchChecks (.ok ts) (fun _ => .go) = .go := by
  have hnone : ts.find? (fun t => t.loc.isNone) = none := List.find?_eq_none.mpr fun t ht => by
    simp [Option.isSome_iff_ne_none.mp (h t ht)]
  rw [Ctx.fetchChecks, Chk.bind, hnone]

/-- Each target has a lane of the list, and that lane's place. -/
theorem mem_tgts {ts : List Tgt} {ls : List Nat} {va : Nat → Nat} {place : Nat → Option Loc}
    (h : ts.map (fun t => (t.lane, t.va, t.loc)) = ls.map (fun l => (l, va l, place l))) {t : Tgt} (ht : t ∈ ts) :
    t.lane ∈ ls ∧ t.loc = place t.lane := by
  obtain ⟨l, hl, heq⟩ := List.mem_map.mp (h ▸ List.mem_map_of_mem (f := fun t : Tgt => (t.lane, t.va, t.loc)) ht)
  simp only [Prod.mk.injEq] at heq
  obtain ⟨rfl, -, hloc⟩ := heq
  exact ⟨hl, hloc.symm⟩

/-- The place of a lane's first link. -/
abbrev Ctx.linkPlace (c : Ctx) (a l : Nat) : Option Loc := placeOf c 8 true false ((c.pointer a l + c.chaseOff a l) % 2 ^ 64)

/-- The chase of a lane. -/
abbrev Ctx.chaseOf (c : Ctx) (a l : Nat) : MsoKind := .chase (c.pointer a l) (c.chaseOff a l)

theorem Ctx.nulls_nil {c : Ctx} {a : Nat} (ha : a < 60) (h : ∀ l ∈ c.act, c.pointer a l ≠ 0) :
    (c.msoAddrs a).filter (fun e => decide (e.2 = 0)) = [] := by
  rw [Ctx.msoAddrs_eq ha, List.filter_eq_nil_iff]
  intro e he
  obtain ⟨l, hl, rfl⟩ := List.mem_map.mp he
  simpa using h l hl

theorem Ctx.nulls_all {c : Ctx} {a : Nat} (ha : a < 60) (h : ∀ l ∈ c.act, c.pointer a l = 0) :
    (c.msoAddrs a).filter (fun e => decide (e.2 = 0)) = c.act.map (fun l => (l, c.pointer a l)) := by
  rw [Ctx.msoAddrs_eq ha, List.filter_eq_self]
  intro e he
  obtain ⟨l, hl, rfl⟩ := List.mem_map.mp he
  exact decide_eq_true (h l hl)

section
variable {s : State} {g : BitVec 4} {d a : BitVec 6} {c : Ctx}

theorem lt_of_chaseArgs (hi : Issues s g (chaseArgs d a) c) : a.toNat < 60 := by
  have hfield := of_decide_eq_true (need_of_issues (b := decide (a.toNat ≤ 52)) hi (by simp))
  omega

/-- Chases from pointers whose first links lie outside host windows go ahead: the targets are those links. -/
theorem chase_checks (hi : Issues s g (chaseArgs d a) c) (hacq : c.acqPending = false)
    (hoff : ∀ l ∈ c.act, c.chaseOff a.toNat l ≤ 4088 ∧ c.chaseOff a.toNat l % 8 = 0) {vas : List (Nat × Nat)}
    (hlinks : c.links a.toNat = vas) (hpl : ∀ e ∈ vas, (placeOf c 8 true false e.2).any (fun x => !x.isHost) = true) :
    ∃ ts, c.check 8 true false (c.links a.toNat) = .ok ts ∧
      ts.map (fun t => (t.lane, t.va, t.loc)) = vas.map (fun e => (e.1, e.2, placeOf c 8 true false e.2)) ∧
      c.acqWait.then (match c.checkMem 8 true false (c.links a.toNat) with
        | .stop (.traps ts) => .traps (ts ++ c.badOffsets a.toNat)
        | .stop p => p
        | .ok ts => (Pre.ofTraps (c.badOffsets a.toNat)).then (c.fetchChecks (.ok ts) (fun _ => .go))) = .go := by
  obtain ⟨ts, hmem, hcheck, hmap⟩ := Ctx.checkMem_of_placed hpl
  refine ⟨ts, hlinks ▸ hcheck, hmap, ?_⟩
  have hsome : ∀ t ∈ ts, t.loc.isSome = true := fun t ht => by
    obtain ⟨e, he, heq⟩ := List.mem_map.mp (hmap ▸ List.mem_map_of_mem (f := fun t : Tgt => (t.lane, t.va, t.loc)) ht)
    simp only [Prod.mk.injEq] at heq
    obtain ⟨-, -, hloc⟩ := heq
    obtain ⟨x, hx, -⟩ := (Option.any_eq_true _ _).mp (hpl e he)
    exact hloc ▸ Option.isSome_of_eq_some hx
  rw [Ctx.acqWait_of_clear hacq, hlinks, hmem, Ctx.badOffsets_nil (lt_of_chaseArgs hi) hoff]
  exact Ctx.fetchChecks_go hsome

/-- Each lane with a pointer sends its chase to the home of its first link (R78, R242). -/
theorem exec_msoChase_sends (hi : Issues s g (chaseArgs d a) c) (hacq : c.acqPending = false)
    (hoff : ∀ l ∈ c.act, c.chaseOff a.toNat l ≤ 4088 ∧ c.chaseOff a.toNat l % 8 = 0)
    (hpl : ∀ l ∈ c.act, c.pointer a.toNat l ≠ 0 ∧ (c.linkPlace a.toNat l).any (fun x => !x.isHost) = true) :
    (d = 60 → EffOutcome (.msoChase g d a) s c (c.act.filterMap (fun l =>
      (c.linkPlace a.toNat l).map (fun y => c.msoEff l y (c.chaseOf a.toNat l) none none true)))) ∧
    (d ≠ 60 → SendOutcome (.msoChase g d a) s c
      (c.act.zipIdx.filterMap (fun e => (c.linkPlace a.toNat e.1).map (fun y =>
        c.msoEff e.1 y (c.chaseOf a.toNat e.1) (some (c.msoTicket y 16 (s.keys + e.2))) none false)))
      (c.act.zipIdx.map (fun e => lateFor c e.1 (s.keys + e.2) [c.dest d.toNat 0 e.1, c.dest d.toNat 1 e.1] false))) := by
  have ha := lt_of_chaseArgs hi
  have hptr : ∀ l ∈ c.act, c.pointer a.toNat l ≠ 0 := fun l hl => (hpl l hl).1
  have hlink : ∀ l ∈ c.act, (c.linkPlace a.toNat l).any (fun x => !x.isHost) = true := fun l hl => (hpl l hl).2
  obtain ⟨ts, hcheck, hmap, hp⟩ := chase_checks hi hacq hoff (Ctx.links_eq ha hptr) (fun e he => by
    obtain ⟨l, hl, rfl⟩ := List.mem_map.mp he
    exact hlink l hl)
  rw [List.map_map] at hmap
  have hfold : ∀ m, ((c.withMarks m).check 8 true false ((c.withMarks m).links a.toNat)).tgts.foldl (fun x t => match t.loc with
        | some y => x.sendMso d.toNat t.lane y
            (.chase ((c.withMarks m).addr 31 a.toNat t.lane) ((c.withMarks m).vAt a.toNat 2 t.lane).toNat) 16 1
        | none => x) (c.withMarks m) =
      c.act.foldl (fun x l => (c.linkPlace a.toNat l).elim x (fun y => x.sendMso d.toNat l y (c.chaseOf a.toNat l) 16 1))
        (c.withMarks m) := fun m => by
    have hcm : (c.withMarks m).check 8 true false ((c.withMarks m).links a.toNat) = .ok ts := hcheck
    rw [hcm, ← foldl_tgts hmap (fun x l y => x.sendMso d.toNat l y (c.chaseOf a.toNat l) 16 1)]
    refine List.foldl_ext _ _ _ fun x t _ => ?_
    rw [Ctx.addr_group ha, Ctx.vAt_eq ha]
    cases t.loc <;> rfl
  refine ⟨fun hd => ?_, fun hd => ?_⟩
  · subst hd
    exact issue_mso_posted (exec_msoChase ..) hi hp (isSome_of_notHost hlink) fun m =>
      congrArg Res.done ((if_pos rfl).trans (hfold m))
  · refine issue_mso_one (exec_msoChase ..) hi hp (fun h => hd (BitVec.eq_of_toNat_eq h)) (isSome_of_notHost hlink) fun m =>
      congrArg Res.done ((if_neg hd).trans ?_)
    rw [Ctx.nulls_nil (c := c.withMarks m) ha hptr]
    exact hfold m

/-- A null pointer's lane receives the null ticket, as a late result (R78). -/
abbrev Ctx.nullTicket (c : Ctx) (d l k : Nat) : PendOp :=
  { PendOp.mk' c false [c.dest d 0 l, c.dest d 1 l] [0, 0] with id := k, lanes := maskOf [l], late := true }

/-- Lanes whose pointers are null send nothing (R78). -/
theorem exec_msoChase_null (hi : Issues s g (chaseArgs d a) c) (hacq : c.acqPending = false)
    (hoff : ∀ l ∈ c.act, c.chaseOff a.toNat l ≤ 4088 ∧ c.chaseOff a.toNat l % 8 = 0)
    (hnull : ∀ l ∈ c.act, c.pointer a.toNat l = 0) :
    (d = 60 → PlainOutcome (.msoChase g d a) s c) ∧
    (d ≠ 60 → SendOutcome (.msoChase g d a) s c []
      (c.act.zipIdx.map (fun e => c.nullTicket d.toNat e.1 (s.keys + e.2)))) := by
  have ha := lt_of_chaseArgs hi
  obtain rfl : c.s = s := issueCtx_s hi.1
  obtain ⟨ts, hcheck, hmap, hp⟩ := chase_checks hi hacq hoff (Ctx.links_nil ha hnull) (fun e he => absurd he List.not_mem_nil)
  obtain rfl : ts = [] := List.map_eq_nil_iff.mp hmap
  refine ⟨fun hd => ?_, fun hd => ?_⟩
  · subst hd
    refine effOutcome_of_send ?_
    rw [SendOutcome, exec_msoChase]
    refine issue_sends hi hp fun m => congrArg Res.done ((if_pos rfl).trans ?_)
    have hcm : (c.withMarks m).check 8 true false ((c.withMarks m).links a.toNat) = .ok [] := hcheck
    rw [hcm, List.append_nil]
    rfl
  · rw [SendOutcome, exec_msoChase]
    refine issue_sends hi hp fun m => congrArg Res.done ((if_neg hd).trans ?_)
    have hcm : (c.withMarks m).check 8 true false ((c.withMarks m).links a.toNat) = .ok [] := hcheck
    rw [hcm, Ctx.nulls_all (c := c.withMarks m) ha hnull, List.foldl_map]
    have hfold := Ctx.foldl_sent (c := c.withMarks m) (n := 1) (ops := fun e => [c.nullTicket d.toNat e.1 (c.s.keys + e.2)])
      (e := fun _ => none)
      (f := fun x l => x.addOp { PendOp.mk' x false [(c.withMarks m).dest d.toNat 0 l, (c.withMarks m).dest d.toNat 1 l] [0, 0] with
        lanes := maskOf [l], late := true })
      c.act (fun l _ i pend es => by
        rw [Ctx.addOp_late rfl, Nat.one_mul, Nat.one_mul, Option.toList_none, List.append_nil]
        rfl)
      0 c.p.pend c.r.eff
    rw [List.length_map, List.length_zipIdx]
    simp only [Nat.mul_zero, Nat.add_zero, Nat.zero_add, Nat.one_mul, ← List.map_eq_flatMap,
      List.filterMap_eq_nil_iff.mpr fun _ _ => rfl] at hfold
    exact hfold

end

/-! ## Rows put (R79) -/

/-- The operands of `mso.rowput`. -/
abbrev rowputArgs (a : BitVec 6) : List Arg :=
  [.gr a.toNat 5, .need (decide (a.toNat % 2 = 0)), .need (decide (a.toNat ≤ 50))]

theorem blockLenOk_of {n : Nat} (h : n % 16 = 0 ∧ 16 ≤ n ∧ n ≤ 4096) : blockLenOk n = true := by
  obtain ⟨hmod, hmin, hmax⟩ := h
  rw [blockLenOk, decide_eq_true hmod, decide_eq_true hmin, decide_eq_true hmax]
  rfl

/-- The length of a lane's row. -/
abbrev Ctx.rowLen (c : Ctx) (a l : Nat) : Nat := (c.v (a + 4) l).toNat

/-- Lengths, granules and sources as R79 asks raise no ALIGN. -/
theorem Ctx.rowTraps_nil {c : Ctx} {a : Nat} (ha : a < 60)
    (h : ∀ l ∈ c.act, c.rowLen a l % 16 = 0 ∧ 16 ≤ c.rowLen a l ∧ c.rowLen a l ≤ 4096 ∧
      c.pointer a l / 4096 = (c.pointer a l + c.rowLen a l - 1) / 4096 ∧ (c.groupV a l 2).toNat % 16 = 0 ∧
      (c.rowSource (c.groupV a l 2).toNat (c.rowLen a l)).isSome = true) : c.rowTraps a = [] := by
  rw [Ctx.rowTraps, Ctx.msoAddrs_eq ha, List.filterMap_eq_nil_iff]
  intro e he
  obtain ⟨l, hl, rfl⟩ := List.mem_map.mp he
  obtain ⟨hmod, hmin, hmax, hgran, hsrc, hsome⟩ := h l hl
  have hone : oneGranule (c.pointer a l) (c.rowLen a l) = true := by
    rw [oneGranule, decide_eq_true hgran, Bool.or_true]
  dsimp only [Ctx.rowOps]
  rw [Ctx.groupD_eq ha, Ctx.vAt_eq ha, blockLenOk_of ⟨hmod, hmin, hmax⟩, hone, hsrc, Option.isNone_eq_false_iff.mpr hsome]
  rfl

/-- Each lane posts its row to the place of its pointer (R79, R242). -/
theorem exec_msoRowput_sends {s : State} {g : BitVec 4} {a : BitVec 6} {c : Ctx} (hi : Issues s g (rowputArgs a) c)
    (hacq : c.acqPending = false)
    (hpl : ∀ l ∈ c.act, (placeOf c 16 false true (c.pointer a.toNat l)).any (fun x => !x.isHost) = true)
    (hrow : ∀ l ∈ c.act, c.rowLen a.toNat l % 16 = 0 ∧ 16 ≤ c.rowLen a.toNat l ∧ c.rowLen a.toNat l ≤ 4096 ∧
      c.pointer a.toNat l / 4096 = (c.pointer a.toNat l + c.rowLen a.toNat l - 1) / 4096 ∧
      (c.groupV a.toNat l 2).toNat % 16 = 0 ∧ (c.rowSource (c.groupV a.toNat l 2).toNat (c.rowLen a.toNat l)).isSome = true) :
    EffOutcome (.msoRowput g a) s c (c.act.filterMap (fun l => (placeOf c 16 false true (c.pointer a.toNat l)).map (fun y =>
      c.msoEff l y (.rowputFrom ((c.rowSource (c.groupV a.toNat l 2).toNat (c.rowLen a.toNat l)).getD [])) none none true))) := by
  have ha : a.toNat < 60 := by
    have hfield := of_decide_eq_true (need_of_issues (b := decide (a.toNat ≤ 50)) hi (by simp))
    omega
  have haddr := Ctx.msoAddrs_eq (c := c) ha
  have hplaced : ∀ e ∈ c.msoAddrs a.toNat, (placeOf c 16 false true e.2).any (fun x => !x.isHost) = true := by
    rw [haddr]
    intro e he
    obtain ⟨l, hl, rfl⟩ := List.mem_map.mp he
    exact hpl l hl
  obtain ⟨ts, hmem, hcheck, hmap⟩ := Ctx.checkMem_of_placed hplaced
  rw [haddr, List.map_map] at hmap
  refine issue_mso_posted (len := 0) (results := 0) (exec_msoRowput ..) hi ?checks (isSome_of_notHost hpl)
    fun m => congrArg Res.done ?effect
  case checks =>
    rw [Ctx.acqWait_of_clear hacq, hmem, Ctx.rowTraps_nil ha hrow]
    rfl
  case effect =>
    have hcm : (c.withMarks m).check 16 false true ((c.withMarks m).msoAddrs a.toNat) = .ok ts := hcheck
    rw [hcm, ← foldl_tgts hmap (fun x l y => x.sendMso 60 l y
      (.rowputFrom ((c.rowSource (c.groupV a.toNat l 2).toNat (c.rowLen a.toNat l)).getD [])) 0 0)]
    refine List.foldl_ext _ _ _ fun x t ht => ?_
    obtain ⟨hlane, -⟩ := mem_tgts hmap ht
    obtain ⟨-, -, -, -, -, hsome⟩ := hrow t.lane hlane
    obtain ⟨src, hsrc⟩ := Option.isSome_iff_exists.mp hsome
    dsimp only [Ctx.rowOps]
    rw [Ctx.groupD_eq ha, Ctx.vAt_eq ha]
    have hsm : (c.withMarks m).rowSource ((c.withMarks m).groupV a.toNat t.lane 2).toNat
        ((c.withMarks m).v (a.toNat + 4) t.lane).toNat = some src := hsrc
    rw [hsm, hsrc]
    cases t.loc <;> rfl

end Sys2Proof.Machine

namespace Sys2Proof.Proofs

open Sys2Proof Sys2Proof.Machine Sys2Proof.Safety

/-- Settles O46: `cas2`, `cas4` and `enq` by the shape that they share, `chase` by whether its pointers are null, and `rowput`. -/
theorem memorySide : Obligations.MemorySide := by
  intro s g d a c hacq rel q at_ place free ticket one group
  have hs : ∀ {args}, Issues s g args c → c.s = s := fun h => issueCtx_s h.1
  have hq : ∀ {k}, a.toNat + k ≤ 56 → ∀ i l, c.groupD a.toNat i l = q l i := fun h => Ctx.groupD_eq (by omega)
  refine ⟨fun hi hpl => ?cas2, fun hi hpl => ?enq, fun hi hpl => ?cas4, fun hi => ?chase, fun hi hpl => ?rowput⟩
  case cas2 =>
    have hfield := of_decide_eq_true (need_of_issues (b := decide (a.toNat + 12 ≤ 56)) hi (by simp [group]))
    obtain rfl := hs hi
    refine msoOp_one (len := 16) (kinds := fun l => .cas2 (q l 4) (q l 6) (q l 8) (q l 10)) (exec_msoCas2 ..) hi hacq hpl
      fun m => ?_
    simp only [← hq hfield]
    rfl
  case enq =>
    have hfield := of_decide_eq_true (need_of_issues (b := decide (a.toNat + 4 ≤ 56)) hi (by simp [group]))
    obtain rfl := hs hi
    refine msoOp_one (len := 8) (kinds := fun l => .enq (q l 2)) (exec_msoEnq ..) hi hacq hpl fun m => ?_
    simp only [← hq hfield]
    rfl
  case cas4 =>
    have hfield := of_decide_eq_true (need_of_issues (b := decide (a.toNat + 20 ≤ 56)) hi (by simp [group]))
    obtain rfl := hs hi
    refine msoOp_two (len := 16) (kinds := fun l => .cas4 (q l 4) (q l 6) (q l 8) (q l 10) (q l 12) (q l 14) (q l 16) (q l 18))
      (exec_msoCas4 ..) hi hacq hpl fun m => ?_
    simp only [← hq hfield]
    rfl
  case chase =>
    obtain rfl := hs hi
    exact fun hoff => ⟨exec_msoChase_sends hi hacq hoff, exec_msoChase_null hi hacq hoff⟩
  case rowput =>
    obtain rfl := hs hi
    exact exec_msoRowput_sends hi hacq hpl

end Sys2Proof.Proofs

namespace Sys2Proof.Machine

open Host Sys2Proof.Safety

/-! # Copy words and handle words (R82, R246 to R253) -/

/-! ## Reads of descriptors (R248) -/

theorem eq_go_of_goesAhead {p : Pre} (h : goesAhead p) : p = .go := by
  cases p with
  | go => rfl
  | traps l => exact h.elim
  | hold t => exact h.elim

/-- Ranges that translate give their pages to whatever comes next. -/
theorem Ctx.ranges_go {c : Ctx} {src dst : List (Nat × Nat)} {rmw : Bool} {f : List Leaf → Pre}
    (h : c.ranges src dst rmw f = .go) : ∃ ls, f ls = .go ∧ ∀ f', c.ranges src dst rmw f' = f' ls := by
  unfold Ctx.ranges at h ⊢
  extract_lets at h ⊢
  split at h
  · cases h
  next hpage =>
    split at h
    · cases h
    next hwait =>
      split at h
      · cases h
      next hwalk =>
        split at h
        · cases h
        next htrap =>
          split at h
          · split at h <;> cases h
          next hbare => exact ⟨_, h, fun f' => by rw [if_neg hwait, if_neg hwalk]⟩

theorem Ctx.commitTo_ne_go (c : Ctx) : c.commitTo ≠ .go := by
  unfold Ctx.commitTo
  split <;> nofun

/-- A range that can be read gives its bytes to whatever comes next. -/
theorem Ctx.readRange_go {c : Ctx} {va n : Nat} (h : goesAhead (c.readRange va n (fun _ => .go))) (f : List Byte → Pre) :
    c.readRange va n f = f (c.rangeBytes va n) := by
  have hgo := eq_go_of_goesAhead h
  rw [Ctx.readRange] at hgo ⊢
  obtain ⟨ls, hread, hranges⟩ := Ctx.ranges_go hgo
  refine (hranges _).trans ?_
  extract_lets at hread ⊢
  split at hread
  · exact absurd hread c.commitTo_ne_go
  next hheld =>
    split at hread
    next hall =>
      split at hread
      · cases hread
      next hpoison =>
        rw [if_neg hheld, if_pos hall, if_neg hpoison]
        refine congrArg f ?_
        rw [List.flatMap_map]
        rfl
    next => split at hread <;> cases hread

/-- What the read of one piece of a range leaves. -/
def Ctx.sawPiece (c : Ctx) (s : State) (e : Nat × Nat) : State :=
  match s.access c.core c.p.asid e.1 1 true false with
  | .ok _ x => if x.isHost || decide (x.dev ≠ s.devId) then s else (s.load (c.p.who s.devId) x.pa e.2).2
  | _ => s

theorem Ctx.sawPiece_beyond (c : Ctx) (s : State) (e : Nat × Nat) : (c.sawPiece s e).beyond = s.beyond := by
  unfold Ctx.sawPiece
  split
  · split
    · rfl
    · exact State.load_beyond _ _ _ _
  · rfl

/-- Reading a range changes the state alone. -/
theorem Ctx.seenRange_eq (c : Ctx) (va n : Nat) :
    c.seenRange va n = { c with s := (piecesOf (n / 4096 + 2) va n).foldl c.sawPiece c.s } := by
  refine List.foldl_hom (fun t => ({ c with s := t } : Ctx)) fun t e => ?_
  dsimp only [Ctx.sawPiece, Ctx.farLoc]
  cases t.access c.core c.p.asid e.1 1 true false with
  | ok lf x =>
    dsimp only
    split
    next hfar => exact if_pos hfar
    next hnear => exact if_neg hnear
  | _ => rfl

theorem Ctx.seenRange_beyond (c : Ctx) (va n : Nat) : (c.seenRange va n).s.beyond = c.s.beyond := by
  rw [Ctx.seenRange_eq]
  exact beyond_foldl c.sawPiece_beyond _ _

/-! ## Issue of an operation (R248) -/

/-- A context with another state around its party. -/
abbrev Ctx.inState (c : Ctx) (t : State) : Ctx := { c with s := t }

/-- The operation that an engine takes. -/
def Ctx.taken (c : Ctx) (q : CopyReq) (seq : Nat) : EngOp :=
  { op := c.s.keys, seq := seq, kind := q.kind, bf16 := q.bf16, dst := q.dst, src := q.src, len := q.len, rows := q.rows,
    dstStep := q.dstStep, srcStep := q.srcStep, list := q.list, leaves := c.opLeaves q, party := c.pid,
    lin := c.p.lineageKey + 1, grid := c.p.gridAt c.s.devId, team := (c.p.who c.s.devId).team,
    lcheck := c.p.launchId.setWidth 7, committed := false, after := [], started := false, limit := none, sent := false }

/-- The locks that an operation registers (R82). -/
def Ctx.copyLocks (c : Ctx) (q : CopyReq) : List Lock :=
  c.s.rangeLocks c.core c.p.asid c.s.keys false (boundsOf q.srcs).1 (boundsOf q.srcs).2 ++
    c.s.rangeLocks c.core c.p.asid c.s.keys true (boundsOf q.dsts).1 (boundsOf q.dsts).2

/-- What issuing an operation leaves: the engine with the operation and its next SEQ, the locks, the handle, the start to come. -/
theorem Ctx.issueCopy_eq {c : Ctx} {q : CopyReq} {eng : Nat} (h : c.s.pickEngine (c.engineStack q) = some eng) (d : Nat) :
    c.issueCopy d q = { c with
      s := { c.s with
        keys := c.s.keys + 2, locks := c.s.locks ++ c.copyLocks q,
        engines := Map.insert c.s.engines eng { Map.getD c.s.engines eng Engine.init with
          next := ((Map.getD c.s.engines eng Engine.init).next + 1) % 2 ^ 24,
          ops := (Map.getD c.s.engines eng Engine.init).ops ++ [c.taken q (Map.getD c.s.engines eng Engine.init).next] } },
      p := (c.cutLate (fun x => decide (x = .h d))).p,
      r := { c.r with
        eff := c.r.eff ++ [⟨maskOf c.act, .engine eng (Map.getD c.s.engines eng Engine.init).next⟩],
        ov := { c.r.ov with pw := c.r.ov.pw ++ [(maskOf c.act, c.s.keys + 1,
          .h d (mkHandle c.s.devId eng (Map.getD c.s.engines eng Engine.init).next c.p.launchId))] } } } := by
  unfold Ctx.issueCopy
  simp only [h, Ctx.setH, Ctx.pwrite, Ctx.pwriteBy, Ctx.effect, Ctx.cutLate, Ctx.taken, Ctx.copyLocks, State.bump]

/-- What the issue of a copy leaves, where the word has read `u` and its engine is `eng` (R82, R246, R248). -/
def CopyLeaves (s : State) (c u : Ctx) (q : CopyReq) (d eng : Nat) (c' : Ctx) (x : EngOp) : Prop :=
  let e := Map.getD s.engines eng Engine.init
  Map.find c'.s.engines eng = some { e with next := (e.next + 1) % 2 ^ 24, ops := e.ops ++ [x] } ∧
  (∀ k, k ≠ eng → Map.find c'.s.engines k = Map.find s.engines k) ∧
  x.op = s.keys ∧ x.seq = e.next ∧ x.req = q ∧ x.party = c.pid ∧ x.committed = false ∧ x.started = false ∧
  c'.s = { u.s with
    keys := s.keys + 2, engines := c'.s.engines,
    locks := s.locks ++ u.s.rangeLocks c.core c.p.asid s.keys false (boundsOf q.srcs).1 (boundsOf q.srcs).2 ++
      u.s.rangeLocks c.core c.p.asid s.keys true (boundsOf q.dsts).1 (boundsOf q.dsts).2 } ∧
  c'.r.eff = c.r.eff ++ [⟨maskOf c.act, .engine eng e.next⟩] ∧
  c'.r.ov.pw = c.r.ov.pw ++ [(maskOf c.act, s.keys + 1, .h d (mkHandle s.devId eng e.next c.p.launchId))] ∧
  c'.r.ov.v = c.r.ov.v ∧ c'.r.ov.preds = c.r.ov.preds

/-- A copy word that goes ahead issues its operation to the engine that the checks have found. -/
theorem issue_copy {i : Instr} {s : State} {g : BitVec 4} {args : List Arg} {c : Ctx} {pre : Ctx → Pre} {eff : Ctx → Res}
    {d : Nat} {q : CopyReq} {t : State} (hexec : exec i s = issue s g args pre eff) (hi : Issues s g args c)
    (hp : pre c = .go) (ht : t.beyond = s.beyond)
    (he : ∀ m, eff (c.withMarks m) = .done (((c.inState t).withMarks m).issueCopy d q)) :
    ∀ eng ∈ (t.pickEngine ((c.inState t).engineStack q)).toList,
      ∃ (c' : Ctx) (x : EngOp), exec i s = .next c'.advance ∧ CopyLeaves s c (c.inState t) q d eng c' x := by
  intro eng heng
  have hkeys : t.keys = s.keys := (congrArg State.keys ht :)
  have hengines : t.engines = s.engines := (congrArg State.engines ht :)
  have hlocks : t.locks = s.locks := (congrArg State.locks ht :)
  have hdev : t.devId = s.devId := (congrArg State.devId ht :)
  have hpick : t.pickEngine ((c.inState t).engineStack q) = some eng := Option.mem_toList.mp heng
  refine ⟨_, (c.inState t).taken q (Map.getD s.engines eng Engine.init).next,
    hexec.trans (issue_done hi hp ((congrArg eff (markLast_eq c args)).trans (he _))), ?_⟩
  generalize (c.markLast args).r.ov.marks = m
  rw [Ctx.issueCopy_eq (c := (c.inState t).withMarks m) hpick]
  unfold CopyLeaves
  dsimp only
  rw [hkeys, hengines, hlocks, hdev]
  refine ⟨Map.find_insert_self _ _ _, fun k hk => Map.find_insert_ne _ _ _ _ hk, hkeys, rfl, rfl, rfl, rfl, rfl, ?_, rfl, rfl,
    rfl, rfl⟩
  rw [Ctx.copyLocks, ← List.append_assoc]
  dsimp only
  rw [hkeys]

theorem exec_cpy (g : BitVec 4) (d a : BitVec 6) (s : State) : exec (.cpy g d a) s = execCpy g d a s := rfl

theorem exec_cpyr (g : BitVec 4) (d a : BitVec 6) (s : State) : exec (.cpyr g d a) s = execCpyr g d a s := rfl

theorem exec_cpys (g : BitVec 4) (d a : BitVec 6) (s : State) : exec (.cpys g d a) s = execCpys g d a s := rfl

theorem exec_cpyg (g : BitVec 4) (d a : BitVec 6) (s : State) : exec (.cpyg g d a) s = execCpyg g d a s := rfl

/-- Limits that hold let a word go on (R248). -/
theorem Ctx.limits_go {c : Ctx} {ok : Bool} (h : ok = true) : c.limits ok = .go := if_pos h

theorem Ctx.readWait_of_clear {c : Ctx} (hacq : c.acqPending = false) (hfence : c.p.fenceR = []) : c.readWait = .go := by
  rw [Ctx.readWait, hacq, hfence]
  exact if_neg Bool.false_ne_true

theorem CopyReq.linearOk_of {q : CopyReq}
    (h : q.len % 16 = 0 ∧ 16 ≤ q.len ∧ q.len ≤ 2 ^ 40 ∧ q.dst % 16 = 0 ∧ q.src % 16 = 0) : q.linearOk = true := by
  obtain ⟨hmod, hmin, hmax, hdst, hsrc⟩ := h
  rw [CopyReq.linearOk, copyLenOk, decide_eq_true hmod, decide_eq_true hmin, decide_eq_true hmax, decide_eq_true hdst,
    decide_eq_true hsrc]
  rfl

/-- The low 32 bits of a number as a signed one (R118). -/
theorem signedOf_field (x : Nat) : signedOf 32 (x % 2 ^ 32) = (BitVec.ofNat 32 x).toInt := by
  rw [BitVec.toInt_eq_toNat_cond, BitVec.toNat_ofNat, signedOf]
  split <;> split <;> omega

/-- The parameter block of `cpys`: the operation whose fields it holds (R249). -/
abbrev stridedReq (b : List Byte) : CopyReq :=
  { kind := .cpys, bf16 := false, dst := leNat b % 2 ^ 64, src := leNat b / 2 ^ 64 % 2 ^ 64, len := leNat b / 2 ^ 192 % 2 ^ 16,
    rows := leNat b / 2 ^ 208 % 2 ^ 24, dstStep := (BitVec.ofNat 32 (leNat b / 2 ^ 160)).toInt,
    srcStep := (BitVec.ofNat 32 (leNat b / 2 ^ 128)).toInt, list := [] }

/-- A parameter block within the limits of R249. -/
theorem stridedOf_eq {b : List Byte} (hzero : leNat b / 2 ^ 232 = 0)
    (hlen : (stridedReq b).len % 16 = 0 ∧ 16 ≤ (stridedReq b).len ∧ (stridedReq b).len ≤ 4096) (hrows : (stridedReq b).rows ≠ 0)
    (hdst : (stridedReq b).dst % 16 = 0) (hsrc : (stridedReq b).src % 16 = 0) (hdstStep : (stridedReq b).dstStep % 16 = 0)
    (hsrcStep : (stridedReq b).srcStep % 16 = 0) : stridedOf b = some (stridedReq b) := by
  unfold stridedOf
  simp only [signedOf_field]
  refine if_neg ?_
  rw [blockLenOk_of hlen]
  simp only [hzero, hrows, hdst, hsrc, hdstStep, hsrcStep, ne_eq, not_true_eq_false, Bool.not_true, Bool.false_eq_true, or_self,
    not_false_eq_true]

section
variable {s : State} {g : BitVec 4} {d a : BitVec 6} {c : Ctx}

/-- The operands of `cpy`, `cpyr` and `cpyg`. -/
abbrev copyArgs (d a : BitVec 6) : List Arg :=
  [.hw d.toNat, .sr a.toNat, .need (decide (a.toNat ≤ 28)), .sr (a.toNat + 1), .sr (a.toNat + 2)]

/-- `cpy` (R247, R248). -/
theorem exec_cpy_go (hi : Issues s g (copyArgs d a) c) (hok : (c.linear a.toNat .cpy false).linearOk = true)
    (hchecks : c.engineChecks (c.linear a.toNat .cpy false) = .go) :
    ∀ eng ∈ (c.s.pickEngine (c.engineStack (c.linear a.toNat .cpy false))).toList,
      ∃ (c' : Ctx) (x : EngOp), exec (.cpy g d a) s = .next c'.advance ∧
        CopyLeaves s c c (c.linear a.toNat .cpy false) d.toNat eng c' x := by
  obtain rfl : c.s = s := issueCtx_s hi.1
  refine issue_copy (t := c.s) (exec_cpy ..) hi ?_ rfl fun m => rfl
  rw [Ctx.limits_go hok, hchecks]
  rfl

/-- `cpyr` on FP32 or BF16 (R247, R248, R250). -/
theorem exec_cpyr_go (hi : Issues s g (copyArgs d a) c) (hfmt : c.fmtOr 0 = 0 ∨ c.fmtOr 0 = 2)
    (hok : (c.linear a.toNat .cpyr (decide (c.fmtOr 0 = 2))).linearOk = true)
    (hchecks : c.engineChecks (c.linear a.toNat .cpyr (decide (c.fmtOr 0 = 2))) = .go) :
    ∀ eng ∈ (c.s.pickEngine (c.engineStack (c.linear a.toNat .cpyr (decide (c.fmtOr 0 = 2))))).toList,
      ∃ (c' : Ctx) (x : EngOp), exec (.cpyr g d a) s = .next c'.advance ∧
        CopyLeaves s c c (c.linear a.toNat .cpyr (decide (c.fmtOr 0 = 2))) d.toNat eng c' x := by
  obtain rfl : c.s = s := issueCtx_s hi.1
  refine issue_copy (t := c.s) (exec_cpyr ..) hi ?_ rfl fun m => rfl
  have hneed : c.needFmt (decide (c.fmtOr 0 = 0) || decide (c.fmtOr 0 = 2)) = .go := if_pos (by simpa using hfmt)
  dsimp only
  rw [Ctx.limits_go hok, hneed, hchecks]
  rfl

/-- `cpys` with a parameter block of one operation (R249). -/
theorem exec_cpys_go (hi : Issues s g [.hw d.toNat, .sr a.toNat] c) (hacq : c.acqPending = false) (hfence : c.p.fenceR = [])
    {q : CopyReq} (hva : (c.sc a.toNat).toNat % 32 = 0)
    (hread : goesAhead (c.readRange (c.sc a.toNat).toNat 32 (fun _ => .go)))
    (hq : stridedOf (c.rangeBytes (c.sc a.toNat).toNat 32) = some q) (hchecks : c.engineChecks q = .go) :
    ∀ eng ∈ ((c.seenRange (c.sc a.toNat).toNat 32).s.pickEngine
        ((c.seenRange (c.sc a.toNat).toNat 32).engineStack q)).toList,
      ∃ (c' : Ctx) (x : EngOp), exec (.cpys g d a) s = .next c'.advance ∧
        CopyLeaves s c (c.seenRange (c.sc a.toNat).toNat 32) q d.toNat eng c' x := by
  obtain rfl : c.s = s := issueCtx_s hi.1
  have hseen := c.seenRange_beyond (c.sc a.toNat).toNat 32
  rw [Ctx.seenRange_eq] at hseen ⊢
  refine issue_copy (exec_cpys ..) hi ?checks hseen fun m => ?effect
  case checks =>
    dsimp only
    rw [Ctx.limits_go (decide_eq_true hva), Ctx.readWait_of_clear hacq hfence, Ctx.readRange_go hread, hq]
    exact hchecks
  case effect =>
    have hqm : stridedOf ((c.withMarks m).rangeBytes ((c.withMarks m).sc a.toNat).toNat 32) = some q := hq
    dsimp only
    rw [hqm, Ctx.seenRange_eq]
    rfl

/-- `cpyg` with a list of row addresses (R247). -/
theorem exec_cpyg_go (hi : Issues s g (copyArgs d a) c) (hacq : c.acqPending = false) (hfence : c.p.fenceR = [])
    {dst va n len z : Nat} (hgather : c.gather a.toNat = (dst, va, n, len, z))
    (hok : dst % 16 = 0 ∧ va % 8 = 0 ∧ 1 ≤ n ∧ n ≤ 65536 ∧ z = 0) (hlen : len % 16 = 0 ∧ 16 ≤ len ∧ len ≤ 4096)
    {q : CopyReq} (hq : c.gathered a.toNat (c.rangeBytes va (8 * n)) = q) (hlist : ∀ y ∈ q.list, y % 16 = 0)
    (hread : goesAhead (c.readRange va (8 * n) (fun _ => .go))) (hchecks : c.engineChecks q = .go) :
    ∀ eng ∈ ((c.seenRange va (8 * n)).s.pickEngine ((c.seenRange va (8 * n)).engineStack q)).toList,
      ∃ (c' : Ctx) (x : EngOp), exec (.cpyg g d a) s = .next c'.advance ∧
        CopyLeaves s c (c.seenRange va (8 * n)) q d.toNat eng c' x := by
  obtain rfl : c.s = s := issueCtx_s hi.1
  obtain ⟨hdst, hva, hmin, hmax, hz⟩ := hok
  have hseen := c.seenRange_beyond va (8 * n)
  rw [Ctx.seenRange_eq] at hseen ⊢
  refine issue_copy (exec_cpyg ..) hi ?checks hseen fun m => ?effect
  case checks =>
    have hall : q.list.all (fun x => decide (x % 16 = 0)) = true := List.all_eq_true.mpr fun y hy => decide_eq_true (hlist y hy)
    dsimp only
    rw [hgather]
    dsimp only
    rw [Ctx.limits_go (by rw [decide_eq_true hdst, decide_eq_true hva, decide_eq_true hmin, decide_eq_true hmax,
      blockLenOk_of hlen, decide_eq_true hz]; rfl), Ctx.readWait_of_clear hacq hfence, Ctx.readRange_go hread, hq,
      Ctx.limits_go hall]
    exact hchecks
  case effect =>
    have hgm : (c.withMarks m).gather a.toNat = (dst, va, n, len, z) := hgather
    have hqm : (c.withMarks m).gathered a.toNat ((c.withMarks m).rangeBytes va (8 * n)) = q := hq
    dsimp only
    rw [hgm]
    dsimp only
    rw [hqm, Ctx.seenRange_eq]
    rfl

end

/-! ## Handles (R251 to R253) -/

/-- The null handle is complete with value 0 (R253). -/
theorem Ctx.handleRes_eq {c : Ctx} {h : DWord} (hmine : h = 0 ∨ field h 8 20 = c.s.devId) :
    c.handleRes h = if h = 0 then .done 0 else c.s.readHandle h := by
  unfold Ctx.handleRes
  split
  · rfl
  next hne => exact if_pos (hmine.resolve_left hne)

/-- The null handle, and one of this module that its checks accept, read as they stand (R251, R253). -/
theorem Ctx.onHandle_eq {c : Ctx} {h : DWord} (hmine : h = 0 ∨ handleBits h c.p.launchId = true ∧ field h 8 20 = c.s.devId)
    (hbad : c.handleRes h ≠ .bad) (wait : Bool) (f : HandleRes → Pre) : c.onHandle h wait f = f (c.handleRes h) := by
  have hres := Ctx.handleRes_eq (hmine.imp_right And.right)
  unfold Ctx.onHandle
  split
  next hnull => rw [hres, if_pos hnull]
  next hne =>
    obtain ⟨hbits, hdev⟩ := hmine.resolve_left hne
    rw [if_neg hne] at hres
    rw [hres] at hbad ⊢
    simp only [hbits, Bool.not_true, Bool.false_eq_true, if_false, hdev, if_true]

theorem exec_wait (g : BitVec 4) (d a : BitVec 6) (s : State) : exec (.wait g d a) s = execWait g d a s := rfl

theorem exec_test (g : BitVec 4) (a : BitVec 6) (s : State) : exec (.test g a) s = execTest g a s := rfl

theorem exec_cancel (g : BitVec 4) (a : BitVec 6) (s : State) : exec (.cancel g a) s = execCancel g a s := rfl

theorem pushBit_eq (x : BitVec 16) (v : Bool) : pushBit x v = (x <<< 1) ||| (if v then 1 else 0) := by
  cases v <;> rfl

/-- A write of a scalar other than `s31` is the party-wide write, and discards late results for it (R139, R157). -/
theorem Ctx.setS_eq {c : Ctx} {n : Nat} (hn : n ≠ 31) (x : DWord) :
    c.setS n x = { c with
      s := c.s.bump, p := { c.p with pend := (c.cutLate (fun y => decide (y = .s n))).p.pend },
      r := { c.r with ov := { c.r.ov with pw := c.r.ov.pw ++ [(maskOf c.act, c.s.keys, .s n x)] } } } := by
  rw [Ctx.setS, if_neg hn]
  rfl

section
variable {s : State} {g : BitVec 4} {d a : BitVec 6} {c : Ctx}
  (hmine : c.hd a.toNat = 0 ∨ handleBits (c.hd a.toNat) c.p.launchId = true ∧ field (c.hd a.toNat) 8 20 = c.s.devId)
include hmine

/-- `wait` completes with the value of a complete operation (R251). -/
theorem exec_wait_done (hi : Issues s g [.sw d.toNat, .hr a.toNat] c) {x : DWord} (hres : c.handleRes (c.hd a.toNat) = .done x)
    (hd : d.toNat < 31) : WideOutcome (.wait g d a) s c (.s d.toNat x) noFlags := by
  have hmark := markLast_eq c [.sw d.toNat, .hr a.toNat]
  rw [WideOutcome, exec_wait, execWait]
  generalize hm : (c.markLast [.sw d.toNat, .hr a.toNat]).r.ov.marks = m at hmark
  have hresm : (c.withMarks m).handleRes ((c.withMarks m).hd a.toNat) = .done x := hres
  refine ⟨(c.withMarks m).setS d.toNat x, issue_done hi ?checks ?effect, ?_⟩
  case checks =>
    dsimp only
    rw [Ctx.onHandle_eq hmine (by rw [hres]; nofun), hres]
  case effect =>
    rw [hmark]
    dsimp only
    rw [hresm]
  rw [Ctx.setS_eq hd.ne]
  exact ⟨executed_of hi.1 rfl (.inr rfl), Flags.of_fp_eq rfl, cutLate_shape (c.withMarks m) _, rfl⟩

/-- Into `s31` it writes nothing (R139). -/
theorem exec_wait_discards (hi : Issues s g [.sw d.toNat, .hr a.toNat] c) {x : DWord}
    (hres : c.handleRes (c.hd a.toNat) = .done x) (hd : d.toNat = 31) : PlainOutcome (.wait g d a) s c := by
  refine effOutcome_of_send ?_
  rw [SendOutcome, exec_wait, execWait]
  refine issue_sends hi ?checks fun m => ?effect
  case checks =>
    dsimp only
    rw [Ctx.onHandle_eq hmine (by rw [hres]; nofun), hres]
  case effect =>
    have hresm : (c.withMarks m).handleRes ((c.withMarks m).hd a.toNat) = .done x := hres
    rw [hresm, List.append_nil]
    exact congrArg Res.done (if_pos hd)

/-- At an incomplete operation it leaves the bundle waiting (R251). -/
theorem exec_wait_holds (hi : Issues s g [.sw d.toNat, .hr a.toNat] c) (hres : c.handleRes (c.hd a.toNat) = .pending) :
    exec (.wait g d a) s = .next (c.s.setParty c.pid (c.p.setBundle
      { c.b with phase := .held (.handle (c.hd a.toNat)), stalled := false })) := by
  rw [exec_wait, execWait, issue_clear hi, Ctx.onHandle_eq hmine (by rw [hres]; nofun), hres]

/-- At a frame dropped by refusal it traps (R277). -/
theorem exec_wait_traps (hi : Issues s g [.sw d.toNat, .hr a.toNat] c) {f : DWord}
    (hres : c.handleRes (c.hd a.toNat) = .refused f) :
    exec (.wait g d a) s = .next (s.raise c.pid c.b.id (allTrap c.act cFrame f) c.here false) := by
  rw [exec_wait, execWait, issue_clear hi, Ctx.onHandle_eq hmine (by rw [hres]; nofun), hres]

/-- `test` pushes whether the operation is complete (R251). -/
theorem exec_test_pushes (hi : Issues s g [.hr a.toNat] c) (hbad : c.handleRes (c.hd a.toNat) ≠ .bad) :
    LaneOutcome (.test g a) s c noWrites (pushed c (fun _ => decide (c.handleRes (c.hd a.toNat) ≠ .pending))) noFlags := by
  rw [LaneOutcome, exec_test, execTest]
  refine issue_lanes hi (Ctx.onHandle_eq hmine hbad false _)
    (f := fun x y l => y.push l (decide (x.handleRes (x.hd a.toNat) ≠ .pending))) fun m y l _ _ hag => ?_
  have hpush := LaneStep.push y l (decide (c.handleRes (c.hd a.toNat) ≠ .pending))
  rw [hag.preds, pushBit_eq] at hpush
  exact hpush

/-- `cancel` posts its request to the engine's stack, and for the null handle does nothing (R252). -/
theorem exec_cancel_posts (hi : Issues s g [.hr a.toNat] c) (hbad : c.handleRes (c.hd a.toNat) ≠ .bad)
    (hacq : c.acqPending = false) (hkind : field (c.hd a.toNat) 28 2 ≠ 1) :
    EffOutcome (.cancel g a) s c (if c.hd a.toNat = 0 then [] else
      [⟨maskOf c.act, sending (handleHome (c.hd a.toNat)) (.engCancel (c.hd a.toNat)) none false true false⟩]) := by
  refine effOutcome_of_send ?_
  rw [SendOutcome, exec_cancel, execCancel]
  refine issue_sends hi ?checks fun m => congrArg Res.done ?effect
  case checks =>
    dsimp only
    rw [if_neg (fun h => hkind h.2), Ctx.acqWait_of_clear hacq, Ctx.onHandle_eq hmine hbad]
    rfl
  case effect =>
    by_cases hnull : c.hd a.toNat = 0
    · rw [if_pos hnull, List.append_nil]
      exact if_pos hnull
    · rw [if_neg hnull]
      exact if_neg hnull

end

theorem handleHome_engine {h : DWord} (hkind : field h 28 2 ≠ 1) :
    handleHome h = .core (field h 8 20) (32 * (field h 4 4).toNat) := if_neg hkind

end Sys2Proof.Machine

namespace Sys2Proof.Proofs

open Sys2Proof Sys2Proof.Machine Sys2Proof.Safety

/-- Settles O47: each copy word by what the issue of its operation leaves, each handle word by what the handle reads as. -/
theorem copyAndHandles : Obligations.CopyAndHandles := by
  refine ⟨fun s g d a c => ?copies, fun s g d a c => ?handles⟩
  case copies =>
    intro issued three line lineOk
    refine ⟨fun hi hok hchecks => ?cpy, fun hi hfmt => ?cpyr, fun hi hacq hfence => ?cpys,
      fun hi hacq hfence => ?cpyg⟩
    case cpy =>
      obtain rfl : c.s = s := issueCtx_s hi.1
      exact exec_cpy_go hi (CopyReq.linearOk_of hok) (eq_go_of_goesAhead hchecks)
    case cpyr =>
      intro q hok hchecks
      obtain rfl : c.s = s := issueCtx_s hi.1
      exact exec_cpyr_go hi hfmt (CopyReq.linearOk_of hok) (eq_go_of_goesAhead hchecks)
    case cpys =>
      intro va x q hva hread hzero hlen hrows hdst hsrc hdstStep hsrcStep hchecks
      exact exec_cpys_go hi hacq hfence hva hread (stridedOf_eq hzero hlen hrows hdst hsrc hdstStep hsrcStep)
        (eq_go_of_goesAhead hchecks)
    case cpyg =>
      intro x va n bytes q hdst hva hmin hmax hlen hzero hlist hread hchecks
      exact exec_cpyg_go hi hacq hfence (dst := (c.sc a.toNat).toNat) (va := va) (n := n) rfl ⟨hdst, hva, hmin, hmax, hzero⟩ hlen
        (q := q) rfl hlist hread (eq_go_of_goesAhead hchecks)
  case handles =>
    intro h mine result hmine hbad
    have hown (hs : c.s = s) : h = 0 ∨ handleBits h c.p.launchId = true ∧ field h 8 20 = c.s.devId :=
      hmine.imp_right fun hm => hs ▸ hm
    have hres (hs : c.s = s) : c.handleRes h = result := by
      rw [Ctx.handleRes_eq ((hown hs).imp_right And.right), hs]
    refine ⟨fun hi => ?wait, fun hi => ?rest⟩
    case wait =>
      have hs := issueCtx_s hi.1
      refine ⟨fun x hx => exec_wait_done (hown hs) hi ((hres hs).trans hx), fun x hx hd => ?discards, fun hx => ?holds,
        fun f hf => exec_wait_traps (hown hs) hi ((hres hs).trans hf)⟩
      case discards => exact exec_wait_discards (hown hs) hi ((hres hs).trans hx) (congrArg BitVec.toNat hd)
      case holds =>
        obtain rfl := hs
        exact exec_wait_holds (hown rfl) hi ((hres rfl).trans hx)
    case rest =>
      have hs := issueCtx_s hi.1
      have hok : c.handleRes h ≠ .bad := hres hs ▸ hbad
      refine ⟨?test, fun hacq hkind => ?cancel⟩
      case test =>
        rw [← hres hs]
        exact exec_test_pushes (hown hs) hi hok
      case cancel =>
        rw [← handleHome_engine hkind]
        exact exec_cancel_posts (hown hs) hi hok hacq hkind

end Sys2Proof.Proofs

namespace Sys2Proof.Machine

open Host Sys2Proof.Safety

/-! # Element words (R70 to R74, R227, R269) -/

/-! ## Targets of elements -/

/-- The element that an access has found. -/
def EAcc.tgt? : EAcc → Option ETgt
  | .ok t => some t
  | _ => none

theorem EAcc.tgt?_eq_some {x : EAcc} {t : ETgt} : x.tgt? = some t ↔ x = .ok t := by
  cases x <;> simp [EAcc.tgt?]

/-- The element of a lane, where its checks pass (R72). -/
abbrev Ctx.elemAt (c : Ctx) (sb a : Nat) (rd wr : Bool) (l : Nat) : Option ETgt :=
  (c.elemAcc l (c.elemBase sb a l).1 (c.elemBase sb a l).2 rd wr).tgt?

/-- A byte that lets an element pass has a location, and what comes next passes. -/
theorem Acc.elem_ok {x : Acc} {va : Nat} {more : List (Nat × Nat)} {f : Leaf → Loc → EAcc} {t : ETgt}
    (h : x.elem va more f = .ok t) : ∃ l y, f l y = .ok t := by
  unfold Acc.elem at h
  split at h
  case h_5 l y => exact ⟨l, y, h⟩
  case h_4 => split at h <;> cases h
  all_goals cases h

/-- A check that stops nothing is passed. -/
theorem EAcc.ok_of_ite {p : Prop} [Decidable p] {x y : EAcc} {t : ETgt} (h : (if p then x else y) = .ok t) (hx : x ≠ .ok t) :
    y = .ok t := by
  by_cases hp : p
  · exact absurd ((if_pos hp).symm.trans h) hx
  · exact (if_neg hp).symm.trans h

/-- The target of an element is its lane's, at its data byte (R72). -/
theorem Ctx.elemAcc_tgt {c : Ctx} {l sb : Nat} {v : Int} {rd wr : Bool} {t : ETgt} (h : c.elemAcc l sb v rd wr = .ok t) :
    t.tgt.lane = l ∧ t.tgt.loc = some t.ref.data := by
  unfold Ctx.elemAcc at h
  replace h := EAcc.ok_of_ite h nofun
  split at h
  case h_5 =>
    dsimp only at h
    replace h := EAcc.ok_of_ite (EAcc.ok_of_ite (EAcc.ok_of_ite h nofun) nofun) nofun
    obtain ⟨lf, x, h⟩ := Acc.elem_ok h
    obtain ⟨-, sy, h⟩ := Acc.elem_ok h
    obtain ⟨-, cy, h⟩ := Acc.elem_ok h
    cases EAcc.ok_of_ite h nofun
    exact ⟨rfl, rfl⟩
  all_goals cases h

/-- Elements whose checks pass, and whose teams hold no earlier access, go on to what comes next. -/
theorem Ctx.elemPre_go {c : Ctx} {rs : List (Nat × EAcc)}
    (h : ∀ e ∈ rs, ∃ t, e.2 = .ok t ∧ c.queuedTeam t.ref.data = none) (f : List ETgt → Pre) :
    c.elemPre rs f = f (rs.filterMap (fun e => e.2.tgt?)) := by
  have hnone {α : Type} {k : Nat × EAcc → Option α} (hk : ∀ l t, c.queuedTeam t.ref.data = none → k (l, .ok t) = none) :
      rs.findSome? k = none := List.findSome?_eq_none_iff.mpr fun e he => by
    obtain ⟨t, ht, hteam⟩ := h e he
    rw [← hk e.1 t hteam, ← ht]
  have hnil {α : Type} {k : Nat × EAcc → List α} (hk : ∀ l t, k (l, .ok t) = []) : rs.flatMap k = [] :=
    List.flatMap_eq_nil_iff.mpr fun e he => by
      obtain ⟨t, ht, -⟩ := h e he
      rw [← hk e.1 t, ← ht]
  have hdue : ¬ rs.any (fun e => decide (e.2 = .due)) = true := fun hany => by
    obtain ⟨e, he, hd⟩ := List.any_eq_true.mp hany
    obtain ⟨t, ht, -⟩ := h e he
    exact absurd (ht.symm.trans (of_decide_eq_true hd)) nofun
  unfold Ctx.elemPre
  rw [hnone (fun _ _ _ => rfl), hnone (fun _ _ _ => rfl), if_neg hdue, hnone (fun _ _ hteam => hteam)]
  dsimp only
  rw [hnil (fun _ _ => rfl), hnone (fun _ _ _ => rfl)]
  rfl

/-- What keeps nothing from an element access of its lane (R72): it has an element, and no earlier access to its team's scratchpad
is held. -/
def Ctx.Reaches (c : Ctx) (sb a : Nat) (rd wr : Bool) (P : Nat → ETgt → Prop) : Prop :=
  ∀ l ∈ c.act, ∃ t, c.elemAt sb a rd wr l = some t ∧ c.queuedTeam t.ref.data = none ∧ P l t

theorem Ctx.elemCheck_go {c : Ctx} {sb a : Nat} {rd wr : Bool} {P : Nat → ETgt → Prop} (h : c.Reaches sb a rd wr P)
    (f : List ETgt → Pre) :
    c.elemPre (c.act.zip (c.elemCheck sb a rd wr)) f = f (c.act.filterMap (c.elemAt sb a rd wr)) := by
  rw [Ctx.elemCheck, ← List.map_prod_left_eq_zip, Ctx.elemPre_go, List.filterMap_map]
  · rfl
  · intro e he
    obtain ⟨l, hl, rfl⟩ := List.mem_map.mp he
    obtain ⟨t, ht, hteam, -⟩ := h l hl
    exact ⟨t, EAcc.tgt?_eq_some.mp ht, hteam⟩

/-- The targets of the lanes, each with what is known of it. -/
theorem Ctx.Reaches.mem {c : Ctx} {sb a : Nat} {rd wr : Bool} {P : Nat → ETgt → Prop} (h : c.Reaches sb a rd wr P) {t : ETgt}
    (ht : t ∈ c.act.filterMap (c.elemAt sb a rd wr)) : t.tgt.loc = some t.ref.data ∧ P t.tgt.lane t := by
  obtain ⟨l, hl, hlt⟩ := List.mem_filterMap.mp ht
  obtain ⟨u, hu, -, hP⟩ := h l hl
  obtain rfl : u = t := Option.some.inj (hu.symm.trans hlt)
  obtain ⟨hlane, hloc⟩ := Ctx.elemAcc_tgt (EAcc.tgt?_eq_some.mp hu)
  exact ⟨hloc, hlane ▸ hP⟩

/-! ## Checks at the home (R45, R74, R83, R104) -/

/-- Targets that are not away stay (R45). -/
theorem Ctx.departFor_go {c : Ctx} {ts : List Tgt} (h : ∀ t ∈ ts, c.away t = none) : c.departFor ts = .go := by
  have hstay : ∀ l, (tgtOf ts l).bind c.away = none := fun l => by
    cases hl : tgtOf ts l with
    | none => rfl
    | some t => exact h t (List.mem_of_find?_eq_some hl)
  have hdepart : c.depart (fun l => (tgtOf ts l).bind c.away) = .go := by
    unfold Ctx.depart
    refine if_pos ?_
    rw [List.isEmpty_iff, List.filter_eq_nil_iff]
    exact fun l _ hl => absurd (hl.symm.trans (congrArg Option.isSome (hstay l))) nofun
  rw [Ctx.departFor, hdepart]

/-- A location at the core, or of a host window, is not away. -/
theorem Ctx.away_of_here {c : Ctx} {t : Tgt} {x : Loc} (hloc : t.loc = some x) (h : (x.isHost || c.s.isLocal c.core x) = true) :
    c.away t = none := by
  rw [Ctx.away, hloc]
  exact if_pos h

/-- No lock over the data bytes, nor over the companion byte of a store, raises RANGELOCK (R74, R83). -/
theorem Ctx.elemLocks_go {c : Ctx} {wr : Bool} {ts : List ETgt}
    (h : ∀ t ∈ ts, (t.ref.data.isHost || !c.s.locked t.ref.data t.ref.bytes wr) = true ∧
      (wr = true → t.ref.comp.any (fun y => c.s.locked y.1 1 true) = false)) : c.elemLocks wr ts = .go := by
  unfold Ctx.elemLocks
  rw [List.filterMap_eq_nil_iff.mpr]
  · rfl
  intro t ht
  obtain ⟨hdata, hcomp⟩ := h t ht
  refine if_neg ?_
  have hone : (wr && t.ref.comp.any (fun y => decide (c.s.homeOf y.1 = c.s.homeOf t.ref.data) && c.s.locked y.1 1 true)) = false := by
    cases wr with
    | false => rfl
    | true =>
      have hfree := hcomp rfl
      cases hy : t.ref.comp with
      | none => rfl
      | some y =>
        rw [hy, Option.any_some] at hfree
        rw [Option.any_some, hfree, Bool.and_false]
        rfl
  rw [hone, Bool.or_false]
  revert hdata
  cases t.ref.data.isHost <;> cases c.s.locked t.ref.data t.ref.bytes wr <;> decide

/-- A lane's planes keep no read waiting: each is of the module's homes, and at the data byte's home or at one where no event of the
lane stands before it (R74, R104). -/
def Ctx.PlanesHere (c : Ctx) (l : Nat) (t : ETgt) : Prop :=
  ∀ y ∈ t.ref.planes, c.s.elsewhere y = false ∧ (c.s.homeOf y ≠ c.s.homeOf t.ref.data →
    c.isHeld l (c.s.homeOf y) = false ∧ c.unsent l (c.s.homeOf y) = false)

theorem Ctx.PlanesHere.home {c : Ctx} {l : Nat} {t : ETgt} (h : c.PlanesHere l t) {k : Home} (hk : k ∈ c.planeHomes t.ref) :
    c.isHeld l k = false ∧ c.unsent l k = false := by
  obtain ⟨hmem, hne⟩ := List.mem_filter.mp hk
  obtain ⟨y, hy, rfl⟩ := List.mem_map.mp hmem
  exact (h y hy).2 (of_decide_eq_true hne)

theorem Ctx.planeOrder_go {c : Ctx} {ts : List ETgt} (h : ∀ t ∈ ts, c.PlanesHere t.tgt.lane t) : c.planeOrder ts = .go := by
  unfold Ctx.planeOrder
  rw [if_neg, if_neg]
  · simp only [List.any_eq_true, not_exists, not_and, Bool.not_eq_true]
    exact fun t ht k hk => ((h t ht).home hk).2
  · simp only [List.any_eq_true, not_exists, not_and, Bool.not_eq_true]
    exact fun t ht k hk => ((h t ht).home hk).1

/-- Lanes whose planes are all of the module's homes ask for none. -/
theorem Ctx.farPlanes_nil {c : Ctx} {l : Nat} {t : ETgt} (h : c.PlanesHere l t) : c.farPlanes t = [] := by
  rw [Ctx.farPlanes, List.filter_eq_nil_iff]
  intro e he
  have hmem : e.2 ∈ t.ref.planes := by
    rw [ElemRef.planes, List.mem_append]
    refine (List.mem_append.mp he).imp (fun hs => ?_) (fun hc => ?_)
    · obtain ⟨y, hy, rfl⟩ := List.mem_map.mp hs
      exact hy
    · obtain ⟨y, hy, rfl⟩ := List.mem_map.mp hc
      exact List.mem_map_of_mem hy
  rw [(h e.2 hmem).1]
  exact Bool.false_ne_true

theorem Ctx.askElem_go {c : Ctx} {ts : List ETgt}
    (h : ∀ t ∈ ts, c.PlanesHere t.tgt.lane t ∧ c.s.elemLocked t.ref false = false) : c.askElem ts = .go := by
  have hnow : ∀ t ∈ c.elemNow ts, t ∈ ts := fun t ht => List.mem_of_mem_filter ht
  unfold Ctx.askElem
  rw [if_neg, if_pos]
  · rw [List.isEmpty_iff, List.flatMap_eq_nil_iff]
    intro t ht
    rw [Ctx.farPlanes_nil (h t (hnow t (List.mem_of_mem_filter ht))).1]
    rfl
  · simp only [List.any_eq_true, not_exists, not_and, Bool.not_eq_true]
    exact fun t ht => (h t (hnow t ht)).2

theorem Ctx.orderWait_go {c : Ctx} {ts : List ETgt}
    (h : ∀ t ∈ ts, t.tgt.loc = some t.ref.data ∧ c.unsent t.tgt.lane (c.s.homeOf t.ref.data) = false) :
    c.orderWait (ts.map (fun t => t.tgt)) = .go := by
  unfold Ctx.orderWait
  refine if_neg fun hany => ?_
  obtain ⟨u, hu, hheld⟩ := List.any_eq_true.mp hany
  obtain ⟨t, ht, rfl⟩ := List.mem_map.mp hu
  obtain ⟨hloc, hsent⟩ := h t ht
  rw [hloc] at hheld
  simp only [hsent, Bool.false_and, Bool.false_eq_true] at hheld

theorem Ctx.cbWait_of_clear {c : Ctx} (h : c.widePending .cb = false) : c.cbWait = .go := by
  rw [Ctx.cbWait, h]
  exact if_neg Bool.false_ne_true

end Sys2Proof.Machine

namespace Sys2Proof.Machine

open Host Sys2Proof.Safety

/-! ## What a read leaves (R69, R337, R339) -/

theorem State.unitFrom_of_grids {s t : State} (h : t.grids = s.grids) (n : Nat) (g : BitVec 32) : t.unitFrom n g = s.unitFrom n g := by
  induction n generalizing g with
  | zero => rfl
  | succ n ih =>
    simp only [State.unitFrom, State.grid?, h, ih]

/-- Numbers given out play no part in a read. -/
theorem State.observe_keys (s : State) (k : Nat) (who : Who) (g : Nat) :
    ({ s with keys := k } : State).observe who g = { s.observe who g with keys := k } := by
  have hunit : ({ s with keys := k } : State).unitOf who.grid = s.unitOf who.grid := State.unitFrom_of_grids rfl _ _
  unfold State.observe
  rw [hunit]

theorem State.load_keys (s : State) (k : Nat) (who : Who) (pa n : Nat) :
    (({ s with keys := k } : State).load who pa n).2 = { (s.load who pa n).2 with keys := k } := by
  have hfold : (granules pa n).foldl (fun t g => t.observe who g) ({ s with keys := k } : State) =
      { (granules pa n).foldl (fun t g => t.observe who g) s with keys := k } :=
    List.foldl_hom (fun t : State => ({ t with keys := k } : State)) (fun t g => State.observe_keys t k who g)
  simp only [State.load, State.see, hfold, State.touch]
  split <;> rfl

/-- Reads of bytes, one after another. -/
def State.loads (s : State) (who : Who) (xs : List (Loc × Nat)) : State := xs.foldl (fun t x => (t.load who x.1.pa x.2).2) s

theorem State.loads_keys (s : State) (k : Nat) (who : Who) (xs : List (Loc × Nat)) :
    ({ s with keys := k } : State).loads who xs = { s.loads who xs with keys := k } :=
  List.foldl_hom (fun t : State => ({ t with keys := k } : State)) (fun t x => State.load_keys t k who x.1.pa x.2)

/-- A state that may differ from `s` by the traces of reads alone. -/
def ReadFrom (s t : State) : Prop := ∃ gs ts ks, t = { s with grids := gs, teams := ts, stks := ks }

theorem ReadFrom.refl (s : State) : ReadFrom s s := ⟨_, _, _, rfl⟩

theorem ReadFrom.trans {s t u : State} (h : ReadFrom s t) (h' : ReadFrom t u) : ReadFrom s u := by
  obtain ⟨_, _, _, rfl⟩ := h
  obtain ⟨gs, ts, ks, rfl⟩ := h'
  exact ⟨gs, ts, ks, rfl⟩

theorem ReadFrom.foldl {α : Type} {f : State → α → State} (hf : ∀ s a, ReadFrom s (f s a)) (l : List α) (s : State) :
    ReadFrom s (l.foldl f s) := by
  induction l generalizing s with
  | nil => exact ReadFrom.refl s
  | cons a l ih => exact (hf s a).trans (ih _)

theorem State.touch_readFrom (s : State) (pa : Nat) : ReadFrom s (s.touch pa) := by
  unfold State.touch
  split
  · exact ⟨_, _, _, rfl⟩
  · exact ReadFrom.refl _

theorem State.load_readFrom (s : State) (who : Who) (pa n : Nat) : ReadFrom s (s.load who pa n).2 :=
  (ReadFrom.foldl (f := fun t g => State.observe t who g) (fun t _ => ⟨_, _, t.stks, rfl⟩) (granules pa n) s).trans
    (State.touch_readFrom _ _)

theorem State.loads_readFrom (s : State) (who : Who) (xs : List (Loc × Nat)) : ReadFrom s (s.loads who xs) :=
  ReadFrom.foldl (f := fun t (x : Loc × Nat) => (t.load who x.1.pa x.2).2) (fun t x => State.load_readFrom t who x.1.pa x.2) xs s

/-- Scale and companion bytes of the module's homes are read one after another (R74). -/
theorem State.seePlanes_eq {s : State} {ys : List Loc} (h : ∀ y ∈ ys, s.elsewhere y = false) (who : Who) :
    s.seePlanes who ys = s.loads who (ys.map (fun y => (y, 1))) := by
  rw [State.seePlanes, List.filter_eq_self.mpr fun y hy => by rw [h y hy]; rfl, State.loads, List.foldl_map]
  rfl

/-! ## `ld.e` of a lane (R73) -/

/-- The context of a word that has read: the state `t` around the party, numbers given out up to `k`, operations, conditions and
marks. -/
abbrev Ctx.reads (c : Ctx) (t : State) (k : Nat) (pend : List PendOp) (fp : Map (BitVec 16)) (marks : List Nat) : Ctx :=
  { c with
    s := { t with keys := k }, p := { c.p with pend := pend },
    r := { c.r with ov := { c.r.ov with fp := fp, marks := marks } } }

/-- The bytes that a lane's element reads. -/
def ETgt.bytesRead (t : ETgt) : List (Loc × Nat) := (t.ref.data, t.ref.bytes) :: t.ref.planes.map (fun y => (y, 1))

/-- The value of an element, and the conditions of its decode (R73). -/
def Ctx.elemValue (c : Ctx) (t : ETgt) : Word × BitVec 16 :=
  t.ref.decode (c.s.bound c.frame t.ref.data.pa (memBytes c.s.mem t.ref.data.pa t.ref.bytes))
    (fun y => (c.s.bound c.frame y.pa [memByte c.s.mem y.pa]).headD 0)

/-- The operation that brings it. -/
def Ctx.elemRes (c : Ctx) (d l : Nat) (t : ETgt) (k : Nat) : PendOp :=
  { PendOp.mk' c false [c.dest d 0 l] [(c.elemValue t).1.toNat] with id := k, lanes := maskOf [l] }

/-- The same operation with the address it reads (R344). -/
def Ctx.elemOp (c : Ctx) (d l : Nat) (t : ETgt) (k : Nat) : PendOp :=
  { c.elemRes d l t k with va := t.tgt.va, pa := t.ref.data.pa }

/-- Conditions raised in a lane, with those raised before (R127). -/
def Ctx.fpRaised (c : Ctx) (l : Nat) (fp : Map (BitVec 16)) (f : BitVec 16) : Map (BitVec 16) :=
  if f = 0 then fp else Map.insert fp (c.r.ov.fpEpoch * 64 + l) (Map.getD fp (c.r.ov.fpEpoch * 64 + l) 0 ||| f)

theorem Ctx.addFp_reads (c : Ctx) (t : State) (k : Nat) (pend : List PendOp) (fp : Map (BitVec 16)) (marks : List Nat) (l : Nat)
    (f : BitVec 16) : (c.reads t k pend fp marks).addFp l f = c.reads t k pend (c.fpRaised l fp f) marks := by
  unfold Ctx.addFp Ctx.fpRaised
  split <;> rfl

/-- An operation issued takes one number. -/
theorem Ctx.addOp_reads {c : Ctx} (t : State) (k : Nat) (pend : List PendOp) (fp : Map (BitVec 16)) (marks : List Nat) (o : PendOp) :
    ∃ marks', (c.reads t k pend fp marks).addOp o = c.reads t (k + 1) (joined c pend o) fp marks' :=
  ⟨_, Ctx.addOp_eq _ o⟩

/-- The data byte of an element is read as it stands where no earlier read of the word keeps it (R74). -/
theorem Ctx.elemData_eq {c : Ctx} {t : ETgt} (hloc : t.tgt.loc = some t.ref.data)
    (hans : Map.find c.b.ans (256 + t.tgt.lane) = none) :
    c.elemData t = (c.s.bound c.frame t.ref.data.pa (memBytes c.s.mem t.ref.data.pa t.ref.bytes),
      c.s.poisoned t.ref.data.pa t.ref.bytes) := by
  unfold Ctx.elemData Ctx.bytesAt Ctx.tgtPoisoned
  rw [hans, hloc]

/-- So are its planes, where they are of the module's homes. -/
theorem Ctx.elemPlane_eq {c : Ctx} {t : ETgt} (hfar : c.farPlanes t = []) (y : Loc) :
    c.elemPlane t y = ((c.s.bound c.frame y.pa [memByte c.s.mem y.pa]).headD 0, c.s.poisoned y.pa 1) := by
  unfold Ctx.elemPlane
  rw [hfar]
  rfl

/-- What lets a lane's element be read now (R45, R83, R104, R335). -/
structure Ctx.ReadsNow (c : Ctx) (l : Nat) (t : ETgt) : Prop where
  near   : nearBy c t.ref.bytes l t.ref.data = true
  planes : c.PlanesHere l t
  clean  : t.ref.planes.all (fun y => !c.s.poisoned y.pa 1) = true
  free   : c.s.elemLocked t.ref false = false
  ans    : Map.find c.b.ans (256 + l) = none

/-- Such an element's data byte: of the module and of no host, unlocked, in order, unpoisoned. -/
theorem Ctx.ReadsNow.data {c : Ctx} {l : Nat} {t : ETgt} (h : c.ReadsNow l t) :
    c.s.isLocal c.core t.ref.data = true ∧ t.ref.data.dev = c.s.devId ∧ t.ref.data.isHost = false ∧
      c.s.locked t.ref.data t.ref.bytes false = false ∧ c.unsent l (c.s.homeOf t.ref.data) = false ∧
      c.isHeld l (c.s.homeOf t.ref.data) = false ∧ c.s.poisoned t.ref.data.pa t.ref.bytes = false := by
  have hnear := h.near
  simp only [nearBy, atHand, Bool.and_eq_true, decide_eq_true_eq, Bool.not_eq_true'] at hnear
  obtain ⟨hlocal, ⟨⟨⟨⟨hdev, hhost⟩, hlock⟩, hsent⟩, hheld⟩, hpoison⟩ := hnear
  exact ⟨hlocal, hdev, hhost, hlock, hsent, hheld, hpoison⟩

/-- Reading an element leaves the traces of its bytes (R69, R337). -/
theorem Ctx.seen_reads {c : Ctx} {t : ETgt} (hloc : t.tgt.loc = some t.ref.data) (hdata : c.s.elsewhere t.ref.data = false)
    (hplanes : ∀ y ∈ t.ref.planes, c.s.elsewhere y = false) {u : State} (hu : ReadFrom c.s u) (k : Nat) (pend : List PendOp)
    (fp : Map (BitVec 16)) (marks : List Nat) :
    ((c.reads u k pend fp marks).seen t.tgt t.ref.bytes).seenPlanes t.ref.planes =
      c.reads (u.loads (c.p.who c.s.devId) t.bytesRead) k pend fp marks := by
  have hseen : (c.reads u k pend fp marks).seen t.tgt t.ref.bytes =
      c.reads (u.load (c.p.who c.s.devId) t.ref.data.pa t.ref.bytes).2 k pend fp marks := by
    obtain ⟨gs, ts, ks, rfl⟩ := hu
    unfold Ctx.seen
    rw [hloc]
    refine (if_neg (fun hfar => absurd (hfar.symm.trans hdata) nofun)).trans ?_
    exact congrArg (fun v : State => (c.reads v v.keys pend fp marks)) (State.load_keys _ k _ _ _)
  rw [hseen]
  obtain ⟨gs, ts, ks, hv⟩ := hu.trans (State.load_readFrom u (c.p.who c.s.devId) t.ref.data.pa t.ref.bytes)
  rw [State.loads, ETgt.bytesRead, List.foldl_cons, hv]
  have hsee := State.seePlanes_eq (s := { c.s with grids := gs, teams := ts, stks := ks, keys := k }) hplanes (c.p.who c.s.devId)
  exact congrArg (fun v : State => (c.reads v v.keys pend fp marks))
    (hsee.trans (State.loads_keys { c.s with grids := gs, teams := ts, stks := ks } k _ _))

/-- The address is noted at the operation just issued (R344). -/
theorem Ctx.noteAddr_joined {c : Ctx} {pend : List PendOp} {o : PendOp} (h : ∀ x ∈ pend, x.id ≠ o.id) (va pa : Nat) :
    mapWhere (fun x => decide (x.id = o.id)) (fun x : PendOp => { x with va := va, pa := pa }) (joined c pend o) =
      joined c pend { o with va := va, pa := pa } := by
  unfold joined mapWhere
  rw [List.map_append, List.map_map]
  refine congrArg₂ _ (List.map_congr_left fun x hx => ?_) ?_
  · dsimp only [Function.comp]
    split
    · exact if_neg (by simpa using h x hx)
    · exact if_neg (by simpa using h x hx)
  · simp

/-- `ld.e` of a lane whose element can be read now (R73): its value and its conditions are those of the element as it stands. -/
theorem Ctx.elemRead_reads {c : Ctx} {d l : Nat} {t : ETgt} (hnow : c.ReadsNow l t) (hlane : t.tgt.lane = l)
    (hloc : t.tgt.loc = some t.ref.data) {u : State} (hu : ReadFrom c.s u) {k : Nat} {pend : List PendOp}
    (hpend : ∀ o ∈ pend, o.id < k) (fp : Map (BitVec 16)) (marks : List Nat) :
    ∃ marks', (c.reads u k pend fp marks).elemRead t (c.dest d 0 l) =
      c.reads (u.loads (c.p.who c.s.devId) t.bytesRead) (k + 1) (joined c pend (c.elemOp d l t k))
        (c.fpRaised l fp (c.elemValue t).2) marks' := by
  obtain ⟨-, hdev, hhost, -, -, hheld, hpoison⟩ := hnow.data
  have hdata : c.s.elsewhere t.ref.data = false := by rw [State.elsewhere, hhost, decide_eq_false (not_not_intro hdev)]; rfl
  have hplanes : ∀ y ∈ t.ref.planes, c.s.elsewhere y = false := fun y hy => (hnow.planes y hy).1
  have hseen := Ctx.seen_reads hloc hdata hplanes hu k pend fp marks
  have hfar := Ctx.farPlanes_nil hnow.planes
  subst hlane
  obtain ⟨gs, ts, ks, hu⟩ := hu
  have hplane : (c.reads u k pend fp marks).elemPlane t =
      fun y => ((c.s.bound c.frame y.pa [memByte c.s.mem y.pa]).headD 0, c.s.poisoned y.pa 1) := by
    subst hu
    exact funext fun y => Ctx.elemPlane_eq (c := c.reads _ k pend fp marks) hfar y
  have helem : (c.reads u k pend fp marks).elemData t =
      (c.s.bound c.frame t.ref.data.pa (memBytes c.s.mem t.ref.data.pa t.ref.bytes), false) := by
    subst hu
    exact (Ctx.elemData_eq (c := c.reads _ k pend fp marks) hloc hnow.ans).trans (congrArg (Prod.mk _) hpoison)
  have hbad : t.ref.planes.any (fun y => c.s.poisoned y.pa 1) = false := by
    rw [← Bool.not_eq_true', List.not_any_eq_all_not]
    exact hnow.clean
  have hheld' : (c.reads u k pend fp marks).isHeld t.tgt.lane ((c.reads u k pend fp marks).s.homeOf t.ref.data) = false := by
    subst hu
    exact hheld
  unfold Ctx.elemRead
  dsimp only
  rw [if_neg (by rw [hheld']; exact Bool.false_ne_true), if_neg (by rw [hhost]; exact Bool.false_ne_true), hseen, helem, hplane]
  dsimp only
  rw [hbad]
  unfold Ctx.memOp
  obtain ⟨marks', hadd⟩ := Ctx.addOp_reads (c := c) (u.loads (c.p.who c.s.devId) t.bytesRead) k pend fp marks
    (c.elemRes d t.tgt.lane t k)
  refine ⟨marks', (congrArg (fun x : Ctx => (x.addFp t.tgt.lane (c.elemValue t).2).noteAddr k t.tgt.va t.tgt.loc) hadd).trans ?_⟩
  rw [Ctx.addFp_reads, hloc]
  exact congrArg (fun l => c.reads (u.loads (c.p.who c.s.devId) t.bytesRead) (k + 1) l (c.fpRaised t.tgt.lane fp (c.elemValue t).2)
    marks') (Ctx.noteAddr_joined (o := c.elemRes d t.tgt.lane t k) (fun o ho => (hpend o ho).ne) t.tgt.va t.ref.data.pa)

end Sys2Proof.Machine

namespace Sys2Proof.Machine

open Host Sys2Proof.Safety

/-! ## `ld.e` (R73) -/

/-- An operation that joins those of its party changes no number. -/
theorem id_of_mem_joined {c : Ctx} {l : List PendOp} {o x : PendOp} (h : x ∈ joined c l o) : x = o ∨ ∃ y ∈ l, x.id = y.id := by
  rcases List.mem_append.mp h with hmem | hlast
  · obtain ⟨y, hy, rfl⟩ := List.mem_map.mp hmem
    exact .inr ⟨y, hy, by split <;> rfl⟩
  · exact .inl (List.mem_singleton.mp hlast)

/-- Lanes all of whose elements can be read now read them in order. -/
theorem Ctx.foldl_elemRead {c : Ctx} {d : Nat} {el : Nat → Option ETgt} {ls : List Nat}
    (h : ∀ l ∈ ls, ∃ t, el l = some t ∧ c.ReadsNow l t ∧ t.tgt.lane = l ∧ t.tgt.loc = some t.ref.data) {u : State}
    (hu : ReadFrom c.s u) (i : Nat) {pend : List PendOp} (hpend : ∀ o ∈ pend, o.id < c.s.keys + i) (fp : Map (BitVec 16))
    (marks : List Nat) :
    ∃ marks', (ls.filterMap el).foldl (fun x t => x.elemRead t (c.dest d 0 t.tgt.lane)) (c.reads u (c.s.keys + i) pend fp marks) =
      c.reads (u.loads (c.p.who c.s.devId) (ls.flatMap (fun l => (el l).elim [] ETgt.bytesRead))) (c.s.keys + (i + ls.length))
        (((ls.zipIdx i).filterMap (fun e => (el e.1).map (fun t => c.elemOp d e.1 t (c.s.keys + e.2)))).foldl (joined c) pend)
        (ls.foldl (fun fp l => c.fpRaised l fp ((el l).elim 0 (fun t => (c.elemValue t).2))) fp) marks' := by
  induction ls generalizing u i pend fp marks with
  | nil => exact ⟨marks, rfl⟩
  | cons l ls ih =>
    obtain ⟨t, ht, hnow, hlane, hloc⟩ := h l List.mem_cons_self
    obtain ⟨marks1, hone⟩ := Ctx.elemRead_reads (d := d) hnow hlane hloc hu hpend fp marks
    have hpend' : ∀ o ∈ joined c pend (c.elemOp d l t (c.s.keys + i)), o.id < c.s.keys + (i + 1) := fun o ho => by
      rcases id_of_mem_joined ho with rfl | ⟨y, hy, hid⟩
      · exact Nat.lt_succ_self (c.s.keys + i)
      · exact hid ▸ Nat.lt_succ_of_lt (hpend y hy)
    obtain ⟨marks', hrest⟩ := ih (fun k hk => h k (List.mem_cons_of_mem _ hk)) (hu.trans (State.loads_readFrom u _ t.bytesRead))
      (i + 1) hpend' (c.fpRaised l fp (c.elemValue t).2) marks1
    refine ⟨marks', ?_⟩
    rw [List.filterMap_cons, ht, List.foldl_cons, hlane]
    rw [hone, Nat.add_assoc, hrest, List.zipIdx_cons, List.filterMap_cons, ht, List.flatMap_cons, ht, List.foldl_cons, ht,
      List.length_cons, State.loads, State.loads, State.loads, Option.elim_some, List.foldl_append, Nat.add_assoc i, Nat.add_comm 1]
    rfl

/-- Conditions raised lane after lane are those of a word that works in each lane by itself (R127). -/
theorem Flags.of_raised {c c' : Ctx} {fl : Nat → BitVec 16} (hnd : c.act.Nodup) (hlt : ∀ l ∈ c.act, l < 64)
    (h : c'.r.ov.fp = c.act.foldl (fun fp l => c.fpRaised l fp (fl l)) c.r.ov.fp) : Flags c c' fl := by
  have heach : c.each (fun x l => x.addFp l (fl l)) =
      c.reads c.s c.s.keys c.p.pend (c.act.foldl (fun fp l => c.fpRaised l fp (fl l)) c.r.ov.fp) c.r.ov.marks :=
    List.foldl_hom (fun fp => c.reads c.s c.s.keys c.p.pend fp c.r.ov.marks)
      (fun fp l => Ctx.addFp_reads c c.s c.s.keys c.p.pend fp c.r.ov.marks l (fl l))
  have hflags := (each_lanes (c := c) (f := fun x l => x.addFp l (fl l)) (ws := fun _ => []) (ps := c.preds) (fl := fl) hnd
    (fun x l hl hagree => hagree.preds ▸ LaneStep.addFp x l (fl l) (hlt l hl))).flags
  intro k
  rw [h, ← hflags k, heach]

/-- The target elements of the lanes. -/
theorem Ctx.elemTgts_eq (c : Ctx) (sb a : Nat) (rd wr : Bool) : c.elemTgts sb a rd wr = c.act.filterMap (c.elemAt sb a rd wr) := by
  rw [Ctx.elemTgts, Ctx.elemCheck, List.filterMap_map]
  rfl

/-- The checks of `ld.e`. -/
abbrev Ctx.elemReadChecks (c : Ctx) (sb a : Nat) : Pre :=
  (c.cbWait.then c.readWait).then (c.elemPre (c.act.zip (c.elemCheck sb a true false)) (fun ts =>
    (c.departFor (ts.map (fun t => t.tgt))).then ((c.elemLocks false (c.elemNow ts)).then
      ((c.orderWait (ts.map (fun t => t.tgt))).then ((c.planeOrder ts).then (c.askElem ts))))))

/-- Elements that can all be read now pass them. -/
theorem Ctx.elemReadChecks_go {c : Ctx} {sb a : Nat} (hacq : c.acqPending = false) (hcb : c.widePending .cb = false)
    (hfence : c.p.fenceR = []) (h : c.Reaches sb a true false c.ReadsNow) : c.elemReadChecks sb a = .go := by
  unfold Ctx.elemReadChecks
  rw [Ctx.cbWait_of_clear hcb, Ctx.readWait_of_clear hacq hfence, Ctx.elemCheck_go h]
  generalize hts : c.act.filterMap (c.elemAt sb a true false) = ts
  have hall : ∀ t ∈ ts, t.tgt.loc = some t.ref.data ∧ c.ReadsNow t.tgt.lane t := fun t ht => h.mem (hts ▸ ht)
  rw [Ctx.departFor_go (fun u hu => ?stays), Ctx.elemLocks_go (fun t ht => ?unlocked), Ctx.orderWait_go (fun t ht => ?order),
    Ctx.planeOrder_go (fun t ht => ?planes), Ctx.askElem_go (fun t ht => ?asks)]
  · rfl
  case stays =>
    obtain ⟨t, ht, rfl⟩ := List.mem_map.mp hu
    obtain ⟨hloc, hnow⟩ := hall t ht
    obtain ⟨hlocal, -⟩ := hnow.data
    exact Ctx.away_of_here hloc (by rw [hlocal, Bool.or_true])
  case unlocked =>
    obtain ⟨-, hnow⟩ := hall t (List.mem_of_mem_filter ht)
    obtain ⟨-, -, -, hfree, -⟩ := hnow.data
    exact ⟨by rw [hfree]; exact Bool.or_true _, nofun⟩
  case order =>
    obtain ⟨hloc, hnow⟩ := hall t ht
    obtain ⟨-, -, -, -, hsent, -⟩ := hnow.data
    exact ⟨hloc, hsent⟩
  case planes =>
    obtain ⟨-, hnow⟩ := hall t ht
    exact hnow.planes
  case asks =>
    obtain ⟨-, hnow⟩ := hall t ht
    exact ⟨hnow.planes, hnow.free⟩

/-- The operands of `ld.e`. -/
abbrev elemReadArgs (d a : BitVec 6) (sb : BitVec 5) : List Arg :=
  addrArgs sb.toNat a.toNat ++ [.vw d.toNat, .need true, .need true]

/-- What `ld.e` does once its checks have passed. -/
abbrev Ctx.elemReads (c : Ctx) (d sb a : Nat) : Res :=
  .done ((c.elemTgts sb a true false).foldl (fun x t => x.elemRead t (c.dest d 0 t.tgt.lane)) c).useLive

/-- `ld` under WIDTH code 7 (R227, R230). -/
theorem exec_ld_e (g : BitVec 4) (d a : BitVec 6) (sb : BitVec 5) (s : State) :
    exec (.ld g d a sb 7 0) s = issue s g (elemReadArgs d a sb) (fun x => x.elemReadChecks sb.toNat a.toNat)
      (fun x => x.elemReads d.toNat sb.toNat a.toNat) :=
  rfl

/-- `ld.e` of elements that can all be read now (R73, R104, R127). -/
theorem exec_ld_elem {s : State} {g : BitVec 4} {d a : BitVec 6} {sb : BitVec 5} {c : Ctx} (hacq : c.acqPending = false)
    (hcb : c.widePending .cb = false) (hfence : c.p.fenceR = []) (hids : ∀ o ∈ c.p.pend, o.id < c.s.keys)
    (hi : Issues s g (elemReadArgs d a sb) c) (h : c.Reaches sb.toNat a.toNat true false c.ReadsNow) :
    ∃ c', exec (.ld g d a sb 7 0) s = .next c'.advance ∧
      Flags c c' (fun l => (c.elemAt sb.toNat a.toNat true false l).elim 0 (fun t => (c.elemValue t).2)) ∧
      c' = { c with
        s := { c.s.loads (c.p.who c.s.devId) (c.act.flatMap (fun l =>
            (c.elemAt sb.toNat a.toNat true false l).elim [] ETgt.bytesRead)) with keys := c.s.keys + c.act.length },
        p := { c.p with pend := (c.act.zipIdx.filterMap (fun e => (c.elemAt sb.toNat a.toNat true false e.1).map (fun t =>
          c.elemOp d.toNat e.1 t (c.s.keys + e.2)))).foldl (joined c) c.p.pend },
        r := { c.r with live := c'.r.live, ov := { c.r.ov with fp := c'.r.ov.fp, marks := c'.r.ov.marks } } } := by
  have hmarked := markLast_eq c (elemReadArgs d a sb)
  generalize (c.markLast (elemReadArgs d a sb)).r.ov.marks = m at hmarked
  obtain ⟨marks', hfold⟩ := Ctx.foldl_elemRead (c := c) (d := d.toNat) (el := c.elemAt sb.toNat a.toNat true false) (ls := c.act)
    (fun l hl => by
      obtain ⟨t, ht, -, hnow⟩ := h l hl
      obtain ⟨hlane, hloc⟩ := Ctx.elemAcc_tgt (EAcc.tgt?_eq_some.mp ht)
      exact ⟨t, ht, hnow, hlane, hloc⟩)
    (ReadFrom.refl c.s) 0 hids c.r.ov.fp m
  rw [Nat.zero_add, ← Ctx.elemTgts_eq] at hfold
  have heffect := (congrArg (fun x : Ctx => x.elemReads d.toNat sb.toNat a.toNat) hmarked).trans
    (congrArg (fun x : Ctx => Res.done x.useLive) hfold)
  exact ⟨_, (exec_ld_e g d a sb s).trans (issue_done hi (Ctx.elemReadChecks_go hacq hcb hfence h) heffect),
    Flags.of_raised (act_nodup hi.1) (fun l hl => act_lt hi.1 hl) rfl, rfl⟩

end Sys2Proof.Machine

namespace Sys2Proof.Machine

open Host Sys2Proof.Safety

/-! ## `st.e` (R73, R269) -/

/-- A lane that has not worked yet agrees with the start still, once another has (R19). -/
theorem Agree.step {c x x' : Ctx} {j l : Nat} {ws : List (Nat × Word)} {p fl : BitVec 16} (h : Agree c x j)
    (hs : LaneStep x x' l ws p fl) (hne : j ≠ l) : Agree c x' j where
  regs k hk := (hs.regs k).trans ((if_neg (by rwa [hk])).trans (h.regs k hk))
  preds := (hs.preds j).trans ((if_neg hne).trans h.preds)
  rest := by
    have hrest := hs.rest
    rw [h.rest] at hrest
    exact hrest

/-- The context with other effects. -/
abbrev Ctx.withEff (c : Ctx) (es : List Eff) : Ctx := { c with r := { c.r with eff := es } }

/-- The draw that the store of an element uses up: none under format 9 (R269). -/
def Ctx.elemDraw (c : Ctx) (t : ETgt) : Ctx := if t.ref.fmt = 9 then c else (c.draw t.tgt.lane).1

/-- The word that an element's encoding takes, in lane `l`. -/
def Ctx.elemDrawn (c : Ctx) (l : Nat) (t : ETgt) : Word := if t.ref.fmt = 9 then 0 else drawWord c l 0

/-- The advance of the generator for an element, in lane `l`. -/
def Ctx.elemDraws (c : Ctx) (l : Nat) (t : ETgt) : List (Nat × Word) := if t.ref.fmt = 9 then [] else drawWrites c l 1

/-- The store of a lane's element, sent at the commit (R28, R73). -/
def Ctx.elemEff (c : Ctx) (d l : Nat) (t : ETgt) : Eff :=
  ⟨maskOf [l], sending (c.s.homeOf t.ref.data) (.elem t.ref (c.v d l) c.mods.rnd c.mods.sat (c.elemDrawn l t)) none
    t.ref.data.isHost false false⟩

theorem Ctx.draw_withEff (c : Ctx) (es : List Eff) (l : Nat) :
    (c.withEff es).draw l = ((c.draw l).1.withEff es, (c.draw l).2) := by
  have hmode : (c.withEff es).rmode = c.rmode := rfl
  have hset : (c.withEff es).setV 52 l (c.v 52 l + 1) = (c.setV 52 l (c.v 52 l + 1)).withEff es := by
    rw [Ctx.setV, Ctx.setV, if_pos (by decide), if_pos (by decide)]
    rfl
  unfold Ctx.draw
  rw [hmode]
  split
  · exact congrArg (fun x => (x, c.galWord l (c.v 52 l) (c.v 53 l))) hset
  · rfl

/-- A lane draws the word that it would draw at the start (R269). -/
theorem Agree.draw {c x : Ctx} {l : Nat} (h : Agree c x l) (hl : l < 64) : (x.draw l).2 = drawWord c l 0 := by
  have hmode : x.rmode = c.rmode := by rw [h.rest]; rfl
  have hword : ∀ u v, x.galWord l u v = c.galWord l u v := fun u v => by rw [h.rest]; rfl
  unfold Ctx.draw drawWord
  rw [hmode]
  split
  · dsimp only
    rw [hword, h.v hl, h.v hl, BitVec.add_zero]
  · rfl

/-- A draw advances the lane's counter (R269). -/
theorem Agree.draw_laneStep {c x : Ctx} {l : Nat} (h : Agree c x l) (hl : l < 64) :
    LaneStep x (x.draw l).1 l (drawWrites c l 1) (c.preds l) 0 := by
  have hmode : x.rmode = c.rmode := by rw [h.rest]; rfl
  rw [← h.preds]
  unfold Ctx.draw drawWrites
  rw [hmode]
  split
  · rw [← h.v hl]
    exact LaneStep.setV x 52 l _ hl
  · exact LaneStep.refl x l

theorem Agree.elemDraw_laneStep {c x : Ctx} {t : ETgt} (h : Agree c x t.tgt.lane) (hl : t.tgt.lane < 64) :
    LaneStep x (x.elemDraw t) t.tgt.lane (c.elemDraws t.tgt.lane t) (c.preds t.tgt.lane) 0 := by
  unfold Ctx.elemDraw Ctx.elemDraws
  split
  · exact h.preds ▸ LaneStep.refl x _
  · exact h.draw_laneStep hl

/-- `st.e` of a lane (R73): its draw, and the effect that it would leave at the start. -/
theorem Agree.elemWrite {c x : Ctx} {d : Nat} {t : ETgt} (h : Agree c x t.tgt.lane) (hl : t.tgt.lane < 64) (es : List Eff) :
    (x.withEff es).elemWrite t (c.v d t.tgt.lane) = (x.elemDraw t).withEff (es ++ [c.elemEff d t.tgt.lane t]) := by
  have hdraw := h.draw hl
  have hstate : x.s = c.s := by rw [h.rest]
  have hmods := h.mods
  unfold Ctx.elemWrite Ctx.elemDraw Ctx.elemEff Ctx.elemDrawn
  rw [Ctx.draw_withEff, hdraw, ← hstate, ← hmods]
  split <;> rfl

/-- A draw leaves the predicates and the conditions of the run. -/
theorem Ctx.elemDraw_frame (c : Ctx) (t : ETgt) :
    (c.elemDraw t).r.ov.preds = c.r.ov.preds ∧ (c.elemDraw t).r.ov.fp = c.r.ov.fp := by
  unfold Ctx.elemDraw Ctx.draw
  split
  · exact ⟨rfl, rfl⟩
  · split <;> exact ⟨rfl, rfl⟩

/-- The draw of the lane's element. -/
abbrev Ctx.laneDraw (el : Nat → Option ETgt) (x : Ctx) (l : Nat) : Ctx := (el l).elim x x.elemDraw

theorem Ctx.foldl_laneDraw_frame (el : Nat → Option ETgt) (ls : List Nat) (c : Ctx) :
    (ls.foldl (Ctx.laneDraw el) c).r.ov.preds = c.r.ov.preds ∧ (ls.foldl (Ctx.laneDraw el) c).r.ov.fp = c.r.ov.fp := by
  induction ls generalizing c with
  | nil => exact ⟨rfl, rfl⟩
  | cons l ls ih =>
    obtain ⟨hpreds, hfp⟩ := ih (c.laneDraw el l)
    rw [List.foldl_cons, hpreds, hfp]
    unfold Ctx.laneDraw
    cases el l with
    | none => exact ⟨rfl, rfl⟩
    | some t => exact c.elemDraw_frame t

/-- Lanes that all have elements store them in order. -/
theorem Ctx.foldl_elemWrite {c : Ctx} {d : Nat} {el : Nat → Option ETgt} {ls : List Nat} (hnd : ls.Nodup)
    (hel : ∀ l ∈ ls, ∃ t, el l = some t ∧ t.tgt.lane = l ∧ l < 64) {x : Ctx} (hx : ∀ l ∈ ls, Agree c x l) (es : List Eff) :
    (ls.filterMap el).foldl (fun x t => x.elemWrite t (c.v d t.tgt.lane)) (x.withEff es) =
      (ls.foldl (Ctx.laneDraw el) x).withEff (es ++ ls.filterMap (fun l => (el l).map (c.elemEff d l))) := by
  induction ls generalizing x es with
  | nil => exact congrArg x.withEff (List.append_nil es).symm
  | cons l ls ih =>
    obtain ⟨hout, hnodup⟩ := List.nodup_cons.mp hnd
    obtain ⟨t, ht, hlane, hlt⟩ := hel l List.mem_cons_self
    subst hlane
    have hagree := hx t.tgt.lane List.mem_cons_self
    have hrest : ∀ j ∈ ls, Agree c (x.elemDraw t) j := fun j hj =>
      (hx j (List.mem_cons_of_mem _ hj)).step (hagree.elemDraw_laneStep hlt) (fun heq => hout (heq ▸ hj))
    rw [List.filterMap_cons, ht, List.foldl_cons, hagree.elemWrite hlt,
      ih hnodup (fun j hj => hel j (List.mem_cons_of_mem _ hj)) hrest, List.filterMap_cons, ht, List.foldl_cons, Ctx.laneDraw, ht,
      List.append_assoc]
    rfl

end Sys2Proof.Machine

namespace Sys2Proof.Machine

open Host Sys2Proof.Safety

/-! ## `st.e`, as a word -/

/-- What lets a lane's element be stored from the core (R45, R74, R83, R104). -/
structure Ctx.StoresNow (c : Ctx) (l : Nat) (t : ETgt) : Prop where
  data   : writable c t.ref.bytes t.ref.data = true
  planes : c.PlanesHere l t
  comp   : t.ref.comp.any (fun y => c.s.locked y.1 1 true) = false

/-- The data byte of such an element: of a host window, or of the core and unlocked. -/
theorem Ctx.StoresNow.here {c : Ctx} {l : Nat} {t : ETgt} (h : c.StoresNow l t) :
    (t.ref.data.isHost || c.s.isLocal c.core t.ref.data) = true ∧
      (t.ref.data.isHost || !c.s.locked t.ref.data t.ref.bytes true) = true := by
  have hdata := h.data
  rw [writable, Bool.or_and_distrib_left, Bool.and_eq_true] at hdata
  exact hdata

/-- The checks of `st.e`. -/
abbrev Ctx.elemWriteChecks (c : Ctx) (sb a : Nat) : Pre :=
  (c.cbWait.then c.acqWait).then (c.elemPre (c.act.zip (c.elemCheck sb a false true)) (fun ts =>
    (c.departFor (ts.map (fun t => t.tgt))).then ((c.elemLocks true ts).then (c.planeOrder ts))))

/-- Elements that can all be stored from the core pass them. -/
theorem Ctx.elemWriteChecks_go {c : Ctx} {sb a : Nat} (hacq : c.acqPending = false) (hcb : c.widePending .cb = false)
    (h : c.Reaches sb a false true c.StoresNow) : c.elemWriteChecks sb a = .go := by
  unfold Ctx.elemWriteChecks
  rw [Ctx.cbWait_of_clear hcb, Ctx.acqWait_of_clear hacq, Ctx.elemCheck_go h]
  generalize hts : c.act.filterMap (c.elemAt sb a false true) = ts
  have hall : ∀ t ∈ ts, t.tgt.loc = some t.ref.data ∧ c.StoresNow t.tgt.lane t := fun t ht => h.mem (hts ▸ ht)
  rw [Ctx.departFor_go (fun u hu => ?stays), Ctx.elemLocks_go (fun t ht => ?unlocked), Ctx.planeOrder_go (fun t ht => ?order)]
  · rfl
  case stays =>
    obtain ⟨t, ht, rfl⟩ := List.mem_map.mp hu
    obtain ⟨hloc, hnow⟩ := hall t ht
    obtain ⟨hhere, -⟩ := hnow.here
    exact Ctx.away_of_here hloc hhere
  case unlocked =>
    obtain ⟨-, hnow⟩ := hall t ht
    obtain ⟨-, hfree⟩ := hnow.here
    exact ⟨hfree, fun _ => hnow.comp⟩
  case order =>
    obtain ⟨-, hnow⟩ := hall t ht
    exact hnow.planes

/-- The operands of `st.e`. -/
abbrev elemWriteArgs (d a : BitVec 6) (sb : BitVec 5) : List Arg :=
  addrArgs sb.toNat a.toNat ++ [.vr d.toNat, .need (decide (d ≠ 62)), .need true, .need true, .need true]

/-- What `st.e` does once its checks have passed. -/
abbrev Ctx.elemWrites (c : Ctx) (d sb a : Nat) : Res :=
  .done ((c.elemTgts sb a false true).foldl (fun x t => x.elemWrite t (c.v d t.tgt.lane)) c).useLive

theorem elemWriteArgs_eq (d a : BitVec 6) (sb : BitVec 5) :
    addrArgs sb.toNat a.toNat ++ widthSrc 7 d.toNat ++ [.need true, .need true, .need true] = elemWriteArgs d a sb := by
  have hcode : decide (d.toNat ≠ 62) = decide (d ≠ 62) := by
    rw [decide_eq_decide, ne_eq, ne_eq, ← BitVec.toNat_inj]
    rfl
  rw [List.append_assoc, widthSrc, hcode]
  rfl

/-- `st` under WIDTH code 7 (R227, R230, R269). -/
theorem exec_st_e {s : State} {g : BitVec 4} {c : Ctx} (h : issueCtx s g = some c) (d a : BitVec 6) (sb : BitVec 5) :
    exec (.st g d a sb 7 0) s = issue s g (elemWriteArgs d a sb ++ c.drawArgs) (fun x => x.elemWriteChecks sb.toNat a.toNat)
      (fun x => x.elemWrites d.toNat sb.toNat a.toNat) := by
  obtain ⟨c0, h0, -, -, -, rfl⟩ := issueCtx_eq h
  rw [← elemWriteArgs_eq]
  exact issueBy_eq h0 g (fun x => addrArgs sb.toNat a.toNat ++ widthSrc 7 d.toNat ++ [.need true, .need true, .need true] ++ x.drawArgs)
    (fun x => x.elemWriteChecks sb.toNat a.toNat) (fun x => x.elemWrites d.toNat sb.toNat a.toNat)

/-- `st.e` of elements that can all be stored from the core (R73, R269). -/
theorem exec_st_elem {s : State} {g : BitVec 4} {d a : BitVec 6} {sb : BitVec 5} {c : Ctx} (hacq : c.acqPending = false)
    (hcb : c.widePending .cb = false) (hi : Issues s g (elemWriteArgs d a sb ++ c.drawArgs) c)
    (h : c.Reaches sb.toNat a.toNat false true c.StoresNow) :
    ∃ c', exec (.st g d a sb 7 0) s = .next c'.advance ∧ Executed s c'.advance c c' ∧
      Safety.Regs c c' (fun l => (c.elemAt sb.toNat a.toNat false true l).elim [] (c.elemDraws l)) ∧
      opShape c c'.p.pend = opShape c c.p.pend ∧
      c' = { c with
        p := { c.p with pend := c'.p.pend },
        r := { c.r with
          eff := c.r.eff ++ c.act.filterMap (fun l => (c.elemAt sb.toNat a.toNat false true l).map (c.elemEff d.toNat l)),
          live := c'.r.live, ov := { c.r.ov with v := c'.r.ov.v, marks := c'.r.ov.marks } } } := by
  have hmarked := markLast_eq c (elemWriteArgs d a sb ++ c.drawArgs)
  generalize (c.markLast (elemWriteArgs d a sb ++ c.drawArgs)).r.ov.marks = m at hmarked
  have hlanes : ∀ l ∈ c.act, ∃ t, c.elemAt sb.toNat a.toNat false true l = some t ∧ t.tgt.lane = l ∧ l < 64 := fun l hl => by
    obtain ⟨t, ht, -⟩ := h l hl
    exact ⟨t, ht, (Ctx.elemAcc_tgt (EAcc.tgt?_eq_some.mp ht)).1, act_lt hi.1 hl⟩
  have hfold := Ctx.foldl_elemWrite (c := c) (d := d.toNat) (act_nodup hi.1) hlanes (x := c.withMarks m)
    (fun l _ => ⟨fun _ _ => rfl, rfl, rfl⟩) c.r.eff
  rw [← Ctx.elemTgts_eq] at hfold
  have heffect := (congrArg (fun x : Ctx => x.elemWrites d.toNat sb.toNat a.toNat) hmarked).trans
    (congrArg (fun x : Ctx => Res.done x.useLive) hfold)
  have hres := each_lanes (c := c.withMarks m) (f := Ctx.laneDraw (c.elemAt sb.toNat a.toNat false true))
    (ws := fun l => (c.elemAt sb.toNat a.toNat false true l).elim [] (c.elemDraws l)) (ps := c.preds) (fl := fun _ => 0)
    (show c.act.Nodup from act_nodup hi.1) fun x l hl hagree => by
      obtain ⟨t, ht, rfl, hlt⟩ := hlanes l hl
      rw [Ctx.laneDraw, ht]
      exact Agree.elemDraw_laneStep (c := c) ⟨hagree.regs, hagree.preds, hagree.rest⟩ hlt
  obtain ⟨hpreds, hfp⟩ := Ctx.foldl_laneDraw_frame (c.elemAt sb.toNat a.toNat false true) c.act (c.withMarks m)
  have hrest := hres.rest
  unfold Ctx.each at hrest
  rw [hpreds, hfp] at hrest
  have hgo := issue_done (pre := fun x => x.elemWriteChecks sb.toNat a.toNat)
    (eff := fun x => x.elemWrites d.toNat sb.toNat a.toNat) hi (Ctx.elemWriteChecks_go hacq hcb h) heffect
  refine ⟨_, (exec_st_e hi.1 d a sb).trans hgo, executed_of hi.1 ?_ (.inl ?_), hres.regs, hres.ops, ?_⟩
  · exact (congrArg Ctx.pid hrest :)
  · exact (congrArg Ctx.s hrest :)
  · exact congrArg (fun x : Ctx => (x.withEff _).useLive) hrest

/-! ## What the hypotheses say -/

theorem Ctx.planesHere_of {c : Ctx} {l : Nat} {t : ETgt}
    (h : t.ref.planes.all (fun y => !c.s.elsewhere y && (decide (c.s.homeOf y = c.s.homeOf t.ref.data) ||
      (!c.isHeld l (c.s.homeOf y) && !c.unsent l (c.s.homeOf y)))) = true) : c.PlanesHere l t := fun y hy => by
  have hone := List.all_eq_true.mp h y hy
  simp only [Bool.and_eq_true, Bool.or_eq_true, Bool.not_eq_true', decide_eq_true_eq] at hone
  obtain ⟨hhere, hhome⟩ := hone
  exact ⟨hhere, fun hne => hhome.resolve_left hne⟩

/-- Where a condition holds of a lane's element, there is an element. -/
theorem Ctx.reaches_of {c : Ctx} {sb a : Nat} {rd wr : Bool} {P : Nat → ETgt → Prop} {cond : Nat → ETgt → Bool}
    (h : ∀ l ∈ c.act, (c.elemAt sb a rd wr l).any (cond l) = true)
    (hcond : ∀ l ∈ c.act, ∀ t, cond l t = true → (c.queuedTeam t.ref.data).isNone = true ∧ P l t) : c.Reaches sb a rd wr P :=
  fun l hl => by
    obtain ⟨t, ht, hone⟩ := (Option.any_eq_true _ _).mp (h l hl)
    obtain ⟨hteam, hP⟩ := hcond l hl t hone
    exact ⟨t, ht, Option.isNone_iff_eq_none.mp hteam, hP⟩

end Sys2Proof.Machine

namespace Sys2Proof.Proofs

open Sys2Proof Sys2Proof.Machine Sys2Proof.Safety

/-- Settles O43: the conditions are those under which every lane's element is read, or stored, where the word stands. -/
theorem elementWords : Obligations.ElementWords := by
  intro s g d a sb c hacq hcb elem planes
  refine ⟨fun hfence hids hi hel => ?load, fun hi hel => ?store⟩
  case load =>
    obtain rfl : c.s = s := issueCtx_s hi.1
    refine exec_ld_elem hacq hcb hfence hids hi (Ctx.reaches_of (fun l hl => (hel l hl).1) fun l hl t ht => ?_)
    simp only [planes, Bool.and_eq_true, Bool.not_eq_true'] at ht
    obtain ⟨⟨⟨hnear, hplanes, hteam⟩, hclean⟩, hfree⟩ := ht
    exact ⟨hteam, hnear, Ctx.planesHere_of hplanes, hclean, hfree, (hel l hl).2⟩
  case store =>
    obtain rfl : c.s = s := issueCtx_s hi.1
    refine exec_st_elem hacq hcb hi (Ctx.reaches_of hel fun l _ t ht => ?_)
    simp only [planes, Bool.and_eq_true, Bool.not_eq_true'] at ht
    obtain ⟨⟨hdata, hplanes, hteam⟩, hcomp⟩ := ht
    exact ⟨hteam, hdata, Ctx.planesHere_of hplanes, hcomp⟩

end Sys2Proof.Proofs

namespace Sys2Proof.Machine

open Host Sys2Proof.Safety

/-! # Ticket words at the core that issues them (R80, R86 to R88, R91 to R95, R235 to R240) -/

/-! ## Messages sent before the commit of a run (R28) -/

/-- The context of a word that has sent messages: the state `t` around the party, numbers given out up to `k`, operations,
messages and marks. -/
abbrev Ctx.posted (c : Ctx) (t : State) (k : Nat) (pend : List PendOp) (ms : List Msg) (marks : List Nat) : Ctx :=
  { c with
    s := { t with keys := k, net := c.s.net ++ ms }, p := { c.p with pend := pend },
    r := { c.r with ov := { c.r.ov with marks := marks } } }

/-- A word that has at most read has sent nothing. -/
theorem Ctx.posted_start {c : Ctx} {t : State} (h : ReadFrom c.s t) (m : List Nat) :
    (c.withMarks m).inState t = c.posted t c.s.keys c.p.pend [] m := by
  obtain ⟨gs, ts, ks, rfl⟩ := h
  rw [Ctx.posted, List.append_nil]

/-- An operation issued takes one number. -/
theorem Ctx.addOp_posted (c : Ctx) (t : State) (k : Nat) (pend : List PendOp) (ms : List Msg) (marks : List Nat) (o : PendOp) :
    ∃ marks', (c.posted t k pend ms marks).addOp o = c.posted t (k + 1) (joined c pend o) ms marks' :=
  ⟨_, Ctx.addOp_eq _ o⟩

/-- A message takes the next number. -/
theorem State.post_posted {c : Ctx} {t : State} (h : ReadFrom c.s t) (k : Nat) (pend : List PendOp) (ms : List Msg) (lanes : DWord)
    (dst : Home) (body : MsgBody) :
    ({ t with keys := k, net := c.s.net ++ ms } : State).post { c.p with pend := pend } c.pid c.core lanes [] dst body =
      { t with keys := k + 1, net := c.s.net ++ (ms ++ [msgOf c k lanes dst body]) } := by
  obtain ⟨gs, ts, ks, rfl⟩ := h
  rw [← List.append_assoc]
  rfl

/-- Steps that each issue one operation and send at most one message, under the two numbers of their place. -/
theorem Ctx.foldl_posted {α : Type} {c : Ctx} {t : State} {k : Nat} {f : Ctx → α → Ctx} {op : α × Nat → PendOp}
    {msg : α × Nat → Option Msg} (l : List α)
    (hf : ∀ a ∈ l, ∀ i pend ms marks, ∃ marks', f (c.posted t (k + 2 * i) pend ms marks) a =
      c.posted t (k + 2 * (i + 1)) (joined c pend (op (a, i))) (ms ++ (msg (a, i)).toList) marks')
    (i : Nat) (pend : List PendOp) (ms : List Msg) (marks : List Nat) :
    ∃ marks', l.foldl f (c.posted t (k + 2 * i) pend ms marks) =
      c.posted t (k + 2 * (i + l.length)) (((l.zipIdx i).map op).foldl (joined c) pend) (ms ++ (l.zipIdx i).filterMap msg)
        marks' := by
  induction l generalizing i pend ms marks with
  | nil => exact ⟨marks, by simp⟩
  | cons a l ih =>
    obtain ⟨m1, h1⟩ := hf a List.mem_cons_self i pend ms marks
    obtain ⟨m2, h2⟩ := ih (fun b hb => hf b (List.mem_cons_of_mem _ hb)) (i + 1) (joined c pend (op (a, i)))
      (ms ++ (msg (a, i)).toList) m1
    refine ⟨m2, ?_⟩
    rw [List.foldl_cons, h1, h2, List.zipIdx_cons, List.map_cons, List.foldl_cons, List.filterMap_cons, List.length_cons,
      Nat.add_right_comm, Nat.add_assoc i]
    cases msg (a, i) <;> simp

/-- A word that goes ahead, issues operations and sends messages. -/
theorem issue_posts {i : Instr} {s : State} {g : BitVec 4} {args : List Arg} {c : Ctx} {pre : Ctx → Pre} {eff : Ctx → Res}
    {t : State} {ops : List PendOp} {ms : List Msg} (hexec : exec i s = issue s g args pre eff) (hi : Issues s g args c)
    (hp : pre c = .go) (he : ∀ m, ∃ m', eff (c.withMarks m) =
      .done (c.posted t (c.s.keys + ops.length + ms.length) (ops.foldl (joined c) c.p.pend) ms m')) :
    PostOutcome i s c t ops ms := by
  obtain ⟨m', hm'⟩ := he (c.markLast args).r.ov.marks
  exact ⟨_, hexec.trans (issue_done hi hp ((congrArg eff (markLast_eq c args)).trans hm')), rfl⟩

/-! ## Requests (R87, R88) -/

/-- A read leaves the record and the dictionary of each launch. -/
theorem State.observe_grid? (s : State) (who : Who) (g : Nat) (n : BitVec 32) :
    ((s.observe who g).grid? n).map (fun x => Visit.mk x.rcd x.dict []) =
      (s.grid? n).map (fun x => Visit.mk x.rcd x.dict []) := by
  simp only [State.grid?, State.observe]
  rw [Map.find_map_keys (fun e => by split <;> rfl), Option.map_map]
  refine congrArg (Option.map · _) (funext fun x => ?_)
  dsimp only [Function.comp]
  split <;> rfl

theorem State.load_launchOf (s : State) (who : Who) (pa n : Nat) (p : Party) :
    (s.load who pa n).2.launchOf p = s.launchOf p := by
  have hobserve : ∀ (t : State) (g : Nat), (t.observe who g).launchOf p = t.launchOf p := by
    intro t g
    unfold State.launchOf
    rw [State.observe_grid?]
    rfl
  have htouch : ∀ t : State, (t.touch pa).launchOf p = t.launchOf p := by
    intro t
    unfold State.touch
    split <;> rfl
  exact (htouch _).trans (foldl_keeps (fun t : State => t.launchOf p) hobserve (granules pa n) s)

theorem State.load_leaseOf (s : State) (who : Who) (pa n : Nat) (p : Party) :
    (s.load who pa n).2.leaseOf p = s.leaseOf p := by
  unfold State.leaseOf
  rw [State.load_launchOf]

theorem afterReads_readFrom (c : Ctx) (xs : List (Loc × Nat)) : ReadFrom c.s (afterReads c xs) := State.loads_readFrom _ _ xs

theorem afterReads_leaseOf (c : Ctx) (xs : List (Loc × Nat)) (p : Party) : (afterReads c xs).leaseOf p = c.s.leaseOf p :=
  foldl_keeps (fun t : State => t.leaseOf p) (f := fun t (x : Loc × Nat) => (t.load (c.p.who c.s.devId) x.1.pa x.2).2)
    (fun t x => State.load_leaseOf t _ x.1.pa x.2 p) xs c.s

/-- The operation that awaits a requested ticket. -/
abbrev Ctx.fetchOp (c : Ctx) (k : Nat) (lanes : List Nat) (dests : List Dest) : PendOp :=
  { PendOp.mk' c false dests [] with id := k, lanes := maskOf lanes, ready := false, role := .fetch }

/-- The request of that ticket. -/
abbrev Ctx.fetchMsg (c : Ctx) (k : Nat) (lanes : List Nat) (x : Loc) (len w : Nat) (block : Bool) : Msg :=
  msgOf c (k + 1) (maskOf lanes) (c.s.homeOf x) (.fetch (fetchOf c x len w block c.frame k))

/-- A request with no event of its run before it goes out at once (R88, R104). -/
theorem Ctx.sendFetch_posted {c : Ctx} {t : State} (h : ReadFrom c.s t) (hlease : t.leaseOf c.p = c.s.leaseOf c.p)
    {lanes : List Nat} {x : Loc} (hheld : ∀ l ∈ lanes, c.isHeld l (c.s.homeOf x) = false) (k : Nat) (pend : List PendOp) (ms : List Msg)
    (marks : List Nat) (len w : Nat) (block : Bool) (dests : List Dest) :
    ∃ marks', (c.posted t k pend ms marks).sendFetch lanes x len w block dests =
      c.posted t (k + 2) (joined c pend (c.fetchOp k lanes dests)) (ms ++ [c.fetchMsg k lanes x len w block]) marks' := by
  have hhome : ({ t with keys := k, net := c.s.net ++ ms } : State).homeOf x = c.s.homeOf x := by
    obtain ⟨_, _, _, rfl⟩ := h
    rfl
  have hfree : ¬ lanes.any (fun l => c.isHeld l (c.s.homeOf x)) = true := by simpa using hheld
  have hfetch : (c.posted t k pend ms marks).fetchFor x len w block k = fetchOf c x len w block c.frame k :=
    congrArg (fun n => ({ fetchOf c x len w block c.frame k with lease := n } : Fetch)) hlease
  obtain ⟨marks', hop⟩ : ∃ marks', (c.posted t k pend ms marks).addOp
      { PendOp.mk' (c.posted t k pend ms marks) false dests [] with lanes := maskOf lanes, ready := false, role := .fetch } =
      c.posted t (k + 1) (joined c pend (c.fetchOp k lanes dests)) ms marks' :=
    c.addOp_posted t k pend ms marks (c.fetchOp k lanes dests)
  refine ⟨marks', ?_⟩
  unfold Ctx.sendFetch
  dsimp only
  rw [hhome]
  refine (if_neg hfree).trans ?_
  rw [hfetch, hop, State.post_posted h]

/-- The operations of lanes that each request a ticket. -/
abbrev Ctx.fetchOps (c : Ctx) (ls : List Nat) (dests : Nat → List Dest) : List PendOp :=
  ls.zipIdx.map (fun e => c.fetchOp (c.s.keys + 2 * e.2) [e.1] (dests e.1))

/-- Their requests. -/
abbrev Ctx.fetchMsgs (c : Ctx) (ls : List Nat) (place : Nat → Option Loc) (len w : Nat) (block : Bool) : List Msg :=
  ls.zipIdx.filterMap (fun e => (place e.1).map (fun y => c.fetchMsg (c.s.keys + 2 * e.2) [e.1] y len w block))

/-- Lanes that all have places with no event of their run before them request their tickets in order (R88). -/
theorem Ctx.foldl_sendFetch {c : Ctx} {t : State} (h : ReadFrom c.s t) (hlease : t.leaseOf c.p = c.s.leaseOf c.p) {ls : List Nat}
    {place : Nat → Option Loc} (hpl : ∀ l ∈ ls, (place l).any (fun x => !c.isHeld l (c.s.homeOf x)) = true) (m : List Nat)
    (len w : Nat) (block : Bool) (dests : Nat → List Dest) :
    ∃ m', ls.foldl (fun x l => (place l).elim x (fun y => x.sendFetch [l] y len w block (dests l)))
        ((c.withMarks m).inState t) =
      c.posted t (c.s.keys + (c.fetchOps ls dests).length + (c.fetchMsgs ls place len w block).length)
        ((c.fetchOps ls dests).foldl (joined c) c.p.pend) (c.fetchMsgs ls place len w block) m' := by
  have hfold := Ctx.foldl_posted (c := c) (t := t) (k := c.s.keys)
    (op := fun e => c.fetchOp (c.s.keys + 2 * e.2) [e.1] (dests e.1))
    (msg := fun e => (place e.1).map (fun y => c.fetchMsg (c.s.keys + 2 * e.2) [e.1] y len w block))
    (f := fun x l => (place l).elim x (fun y => x.sendFetch [l] y len w block (dests l))) ls
    (fun l hl i pend ms marks => by
      obtain ⟨y, hy, hheld⟩ := (Option.any_eq_true _ _).mp (hpl l hl)
      rw [hy]
      exact Ctx.sendFetch_posted h hlease (by simpa using hheld) _ pend ms marks len w block (dests l))
    0 c.p.pend [] m
  have hlen : (c.fetchMsgs ls place len w block).length = ls.zipIdx.length :=
    List.filterMap_length_eq_length.mpr fun e hmem => by
      obtain ⟨y, hy, -⟩ := (Option.any_eq_true _ _).mp (hpl e.1 (List.fst_mem_of_mem_zipIdx hmem))
      rw [hy]
      rfl
  rw [hlen, List.length_map, List.length_zipIdx, Nat.add_assoc, ← Nat.two_mul, Ctx.posted_start h]
  simpa using hfold

/-- A word that goes ahead and requests a ticket for each of its lanes (R87, R88). -/
theorem issue_fetches {i : Instr} {s : State} {g : BitVec 4} {args : List Arg} {c : Ctx} {pre : Ctx → Pre} {eff : Ctx → Res}
    (hexec : exec i s = issue s g args pre eff) (hi : Issues s g args c) (hp : pre c = .go) {place : Nat → Option Loc}
    (hpl : ∀ l ∈ c.act, (place l).any (fun x => !c.isHeld l (c.s.homeOf x)) = true) {len w : Nat} {block : Bool}
    {dests : Nat → List Dest} (he : ∀ m, eff (c.withMarks m) = .done (c.act.foldl (fun x l => (place l).elim x (fun y =>
      x.sendFetch [l] y len w block (dests l))) (c.withMarks m))) :
    PostOutcome i s c c.s (c.fetchOps c.act dests) (c.fetchMsgs c.act place len w block) :=
  issue_posts hexec hi hp fun m =>
    (Ctx.foldl_sendFetch (ReadFrom.refl c.s) rfl hpl m len w block dests).imp fun _ hfold => (he m).trans (congrArg Res.done hfold)

/-- A word that issues has an active lane. -/
theorem act_ne_nil {s : State} {g : BitVec 4} {args : List Arg} {c : Ctx} (hi : Issues s g args c) : c.act ≠ [] := by
  have hclear := hi.2
  simp only [clear, Bool.and_eq_true, decide_eq_true_eq] at hclear
  obtain ⟨⟨⟨⟨hact, -⟩, -⟩, -⟩, -⟩ := hclear
  exact hact

/-- Lanes whose accesses all have places pass the checks, and their targets are those places. -/
theorem Ctx.check_lanes {c : Ctx} {ls : List Nat} {n : Nat} {rd wr : Bool} {va : Nat → Nat}
    (h : ∀ l ∈ ls, (placeOf c n rd wr (va l)).isSome = true) :
    ∃ ts, c.check n rd wr (ls.map (fun l => (l, va l))) = .ok ts ∧
      ts.map (fun t => (t.lane, t.va, t.loc)) = ls.map (fun l => (l, va l, placeOf c n rd wr (va l))) := by
  obtain ⟨ts, hts, hmap⟩ := Ctx.check_of_placed (c := c) (n := n) (rd := rd) (wr := wr) (vas := ls.map (fun l => (l, va l)))
    fun e he => by
      obtain ⟨l, hl, rfl⟩ := List.mem_map.mp he
      exact h l hl
  exact ⟨ts, hts, hmap.trans (List.map_map ..)⟩

/-- Such lanes' targets have locations. -/
theorem isSome_of_mem_tgts {ts : List Tgt} {ls : List Nat} {va : Nat → Nat} {place : Nat → Option Loc}
    (hmap : ts.map (fun t => (t.lane, t.va, t.loc)) = ls.map (fun l => (l, va l, place l)))
    (h : ∀ l ∈ ls, (place l).isSome = true) {t : Tgt} (ht : t ∈ ts) : t.loc.isSome = true := by
  obtain ⟨hlane, hloc⟩ := mem_tgts hmap ht
  rw [hloc]
  exact h _ hlane

theorem isSome_of_any {ls : List Nat} {place : Nat → Option Loc} {p : Nat → Loc → Bool}
    (h : ∀ l ∈ ls, (place l).any (p l) = true) : ∀ l ∈ ls, (place l).isSome = true := fun l hl => by
  obtain ⟨x, hx, -⟩ := (Option.any_eq_true _ _).mp (h l hl)
  exact Option.isSome_of_eq_some hx

/-- An access that the active lanes share has one place for all of them. -/
theorem Ctx.check_shared {c : Ctx} {n va : Nat} {rd wr : Bool} {x : Loc} (hact : c.act ≠ [])
    (hx : placeOf c n rd wr va = some x) :
    ∃ t ts, c.check n rd wr (c.act.map (fun l => (l, va))) = .ok (t :: ts) ∧
      ∀ u ∈ t :: ts, u.lane ∈ c.act ∧ u.loc = some x := by
  obtain ⟨ts, hts, hmap⟩ := Ctx.check_lanes (c := c) (ls := c.act) (n := n) (rd := rd) (wr := wr) (va := fun _ => va)
    fun _ _ => Option.isSome_of_eq_some hx
  cases ts with
  | nil => exact absurd (List.map_eq_nil_iff.mp hmap.symm) hact
  | cons t ts =>
    refine ⟨t, ts, hts, fun u hu => ?_⟩
    obtain ⟨hlane, hloc⟩ := mem_tgts hmap hu
    exact ⟨hlane, hloc.trans hx⟩

theorem exec_ldt (g : BitVec 4) (d a : BitVec 6) (sb : BitVec 5) (w : BitVec 3) (o : BitVec 2) (s : State) :
    exec (.ldt g d a sb w o) s = execLdt g d a sb w o s := rfl

theorem exec_ldtb (g : BitVec 4) (d a : BitVec 6) (sb : BitVec 5) (o : BitVec 2) (s : State) :
    exec (.ldtb g d a sb o) s = execLdtb g d a sb o s := rfl

theorem exec_att (g : BitVec 4) (d a : BitVec 6) (sb : BitVec 5) (w : BitVec 3) (s : State) :
    exec (.att g d a sb w) s = execAtt g d a sb w s := rfl

theorem exec_egath (g : BitVec 4) (d a : BitVec 6) (sb : BitVec 5) (s : State) :
    exec (.egath g d a sb) s = execEgath g d a sb s := rfl

/-- The bytes of a WIDTH code (R228). -/
theorem widthBytes_eq (w : Nat) : widthBytes w = accessBytes w := by
  rcases w with _ | _ | _ | _ | _ | _ | w
  case succ.succ.succ.succ.succ.succ => simp [widthBytes, accessBytes]
  all_goals rfl

/-- `ldt`: each lane requests the ticket of its datum (R87, R235). -/
theorem exec_ldt_requests {s : State} {g : BitVec 4} {d a : BitVec 6} {sb : BitVec 5} {w : BitVec 3} {o : BitVec 2} {c : Ctx}
    (hi : Issues s g (addrArgs sb.toNat a.toNat ++ [.pw d.toNat, .need (decide (o ≠ 3)), .need (decide (w ≠ 7))]) c)
    (hacq : c.acqPending = false) (hfence : c.p.fenceR = [])
    (hpl : ∀ l ∈ c.act, (placeOf c (accessBytes w.toNat) true false (c.addr sb.toNat a.toNat l)).any
      (fun x => !c.isHeld l (c.s.homeOf x)) = true) :
    PostOutcome (.ldt g d a sb w o) s c s
      (c.fetchOps c.act (fun l => [c.dest d.toNat 0 l, c.dest d.toNat 1 l]))
      (c.fetchMsgs c.act (fun l => placeOf c (accessBytes w.toNat) true false (c.addr sb.toNat a.toNat l))
        (accessBytes w.toNat) w.toNat false) := by
  obtain rfl : c.s = s := issueCtx_s hi.1
  rw [← widthBytes_eq] at hpl ⊢
  obtain ⟨ts, hcheck, hmap⟩ := Ctx.check_lanes (isSome_of_any hpl)
  have hexec := exec_ldt g d a sb w o c.s
  rw [execLdt] at hexec
  refine issue_fetches hexec hi ?checks hpl fun m => congrArg Res.done ?effect
  case checks =>
    rw [Ctx.readWait_of_clear hacq hfence, Ctx.addrs, hcheck]
    exact Ctx.fetchChecks_go fun t ht => isSome_of_mem_tgts hmap (isSome_of_any hpl) ht
  case effect =>
    have htgts : (c.withMarks m).laneTgts (widthBytes w.toNat) true false sb.toNat a.toNat = ts := congrArg Chk.tgts hcheck
    rw [htgts, ← foldl_tgts hmap (fun x l y =>
      x.sendFetch [l] y (widthBytes w.toNat) w.toNat false [c.dest d.toNat 0 l, c.dest d.toNat 1 l])]
    refine List.foldl_ext _ _ _ fun x t _ => ?_
    cases t.loc <;> rfl

/-- `ldtb`: one request for the block (R87, R236). -/
theorem exec_ldtb_requests {s : State} {g : BitVec 4} {d a : BitVec 6} {sb : BitVec 5} {o : BitVec 2} {c : Ctx}
    (hi : Issues s g [.hw d.toNat, .sr a.toNat, .sr sb.toNat, .need (decide (sb.toNat ≤ 30)), .need (decide (o ≠ 3))] c)
    (hacq : c.acqPending = false) (hfence : c.p.fenceR = []) {va n : Nat} (hva : c.blockAddr sb.toNat = va)
    (hn : (c.sc a.toNat).toNat = n) (hlen : blockLenOk n = true) (hgran : oneGranule va n = true) {x : Loc}
    (hx : placeOf c 16 true false va = some x) (hheld : ∀ l ∈ c.act, c.isHeld l (c.s.homeOf x) = false) :
    PostOutcome (.ldtb g d a sb o) s c s [c.fetchOp s.keys c.act [.h d.toNat]] [c.fetchMsg s.keys c.act x n 7 true] := by
  obtain rfl : c.s = s := issueCtx_s hi.1
  obtain ⟨t, ts, hcheck, hall⟩ := Ctx.check_shared (act_ne_nil hi) hx
  obtain ⟨-, hloc⟩ := hall t List.mem_cons_self
  refine issue_posts (exec_ldtb ..) hi ?checks fun m => ?effect
  case checks =>
    dsimp only
    rw [Ctx.readWait_of_clear hacq hfence, hva, hn, hcheck, hlen, hgran]
    exact Ctx.fetchChecks_go fun u hu => Option.isSome_of_eq_some (hall u hu).2
  case effect =>
    obtain ⟨m', hsent⟩ := Ctx.sendFetch_posted (ReadFrom.refl c.s) rfl hheld c.s.keys c.p.pend [] m n 7 true [.h d.toNat]
    rw [← Ctx.posted_start (ReadFrom.refl _)] at hsent
    refine ⟨m', ?_⟩
    have hva' : (c.withMarks m).blockAddr sb.toNat = va := hva
    have hn' : ((c.withMarks m).sc a.toNat).toNat = n := hn
    have hcheck' : (c.withMarks m).check 16 true false ((c.withMarks m).act.map (fun l => (l, va))) = .ok (t :: ts) := hcheck
    dsimp only
    rw [hva', hn', hcheck']
    dsimp only [Chk.tgts]
    rw [hloc]
    exact congrArg Res.done hsent

/-- The operation of `att` for a lane, with the request of its ticket (R237). -/
abbrev Ctx.attEff (c : Ctx) (sel : AtomOp × Bool) (d l : Nat) (x : Loc) (op : Nat) : Eff :=
  ⟨maskOf [l], sending (c.s.homeOf x) (.att (fetchOf c x (if sel.2 then 8 else 4) (if sel.2 then 5 else 4) false c.frame op)
    sel.1 sel.2 (c.atomVals sel d l).1 (c.atomVals sel d l).2) c.modRelease false false false⟩

/-- Lanes that all have places leave their operations in order, and each awaits its ticket. -/
theorem Ctx.foldl_att {c : Ctx} {ls : List Nat} {place : Nat → Option Loc} (hpl : ∀ l ∈ ls, (place l).isSome = true)
    (sel : AtomOp × Bool) (d : Nat) :
    ls.foldl (fun x l => (place l).elim x (fun y =>
        (x.lateOp [l] [c.dest d 0 l, c.dest d 1 l] false).effectOf l (c.attEff sel d l y x.s.keys).item)) c =
      c.sent (c.s.keys + ls.length)
        ((ls.zipIdx.map (fun e => lateFor c e.1 (c.s.keys + e.2) [c.dest d 0 e.1, c.dest d 1 e.1] false)).foldl (joined c) c.p.pend)
        (c.r.eff ++ ls.zipIdx.filterMap (fun e => (place e.1).map (fun y => c.attEff sel d e.1 y (c.s.keys + e.2)))) := by
  have hfold := Ctx.foldl_sent (c := c) (n := 1)
    (ops := fun e => [lateFor c e.1 (c.s.keys + e.2) [c.dest d 0 e.1, c.dest d 1 e.1] false])
    (e := fun e => (place e.1).map (fun y => c.attEff sel d e.1 y (c.s.keys + e.2)))
    (f := fun x l => (place l).elim x (fun y =>
      (x.lateOp [l] [c.dest d 0 l, c.dest d 1 l] false).effectOf l (c.attEff sel d l y x.s.keys).item)) ls
    (fun l hl i pend es => by
      obtain ⟨y, hy⟩ := Option.isSome_iff_exists.mp (hpl l hl)
      simp only [hy, Option.elim_some, Option.map_some, Ctx.lateOp_sent, Nat.one_mul]
      rfl)
    0 c.p.pend c.r.eff
  simpa [← List.map_eq_flatMap] using hfold

/-- `att`: each lane leaves its operation for the commit, and awaits its ticket (R87, R237). -/
theorem exec_att_requests {s : State} {g : BitVec 4} {d a : BitVec 6} {sb : BitVec 5} {w : BitVec 3} {sel : AtomOp × Bool}
    {c : Ctx} (hsel : atomSel w.toNat (c.fmtOr 20) = some sel)
    (hi : Issues s g (addrArgs sb.toNat a.toNat ++ [.pw d.toNat, atomOperand (some sel) d.toNat]) c)
    (hacq : c.acqPending = false)
    (hpl : ∀ l ∈ c.act, (placeOf c (if sel.2 then 8 else 4) true true (c.addr sb.toNat a.toNat l)).isSome = true) :
    SendOutcome (.att g d a sb w) s c
      (c.act.zipIdx.filterMap (fun e => (placeOf c (if sel.2 then 8 else 4) true true (c.addr sb.toNat a.toNat e.1)).map
        (fun x => c.attEff sel d.toNat e.1 x (s.keys + e.2))))
      (c.act.zipIdx.map (fun e => lateFor c e.1 (s.keys + e.2) [c.dest d.toNat 0 e.1, c.dest d.toNat 1 e.1] false)) := by
  obtain ⟨c0, h0, -, -, -, hc0⟩ := issueCtx_eq hi.1
  obtain rfl : c.s = s := issueCtx_s hi.1
  have hargs : addrArgs sb.toNat a.toNat ++ [.pw d.toNat, atomOperand (c0.atomOf w.toNat) d.toNat] =
      addrArgs sb.toNat a.toNat ++ [.pw d.toNat, atomOperand (some sel) d.toNat] := by
    rw [← hsel, hc0]
    rfl
  have hbytes : atomBytes (some sel) = if sel.2 then 8 else 4 := by
    obtain ⟨op, _ | _⟩ := sel <;> rfl
  obtain ⟨ts, hcheck, hmap⟩ := Ctx.check_lanes hpl
  have hatom : c.atomOf w.toNat = some sel := hsel
  rw [SendOutcome, exec_att, execAtt, issueBy_eq h0, hargs]
  refine issue_sends hi ?checks fun m => ?effect
  case checks =>
    rw [Ctx.atomFmt, hatom, hbytes, Ctx.postChecks, Ctx.acqWait_of_clear hacq, Ctx.addrs, hcheck]
    rfl
  case effect =>
    have hatomm : (c.withMarks m).atomOf w.toNat = some sel := hsel
    have htgts : (c.withMarks m).laneTgts (if sel.2 then 8 else 4) true true sb.toNat a.toNat = ts := congrArg Chk.tgts hcheck
    dsimp only
    rw [hatomm]
    dsimp only
    rw [htgts, List.length_map, List.length_zipIdx]
    refine congrArg Res.done ((?_ : _ = _).trans (Ctx.foldl_att (c := c.withMarks m) hpl sel d.toNat))
    refine (List.foldl_ext _ _ _ fun x t _ => ?_).trans (foldl_tgts hmap (fun x l y =>
      (x.lateOp [l] [c.dest d.toNat 0 l, c.dest d.toNat 1 l] false).effectOf l (c.attEff sel d.toNat l y x.s.keys).item) _)
    cases t.loc <;> rfl

/-! ## Gathers (R80, R238) -/

/-- A descriptor within the limits of R80, without a drop counter, is read as its fields. -/
theorem tableOf_of_limits {b : List Byte} (hzero : leNat b / 2 ^ 192 = 0)
    (hbytes : ∃ k ∈ List.range 11, leNat b / 2 ^ 64 % 2 ^ 32 = 4 * 2 ^ k)
    (hbase : leNat b % 2 ^ 64 % (leNat b / 2 ^ 64 % 2 ^ 32) = 0) (hone : 1 ≤ leNat b / 2 ^ 96 % 2 ^ 32)
    (hrows : leNat b / 2 ^ 96 % 2 ^ 32 ≤ 2 ^ 31) (hdrop : leNat b / 2 ^ 128 % 2 ^ 64 = 0) :
    tableOf b = some ⟨leNat b % 2 ^ 64, leNat b / 2 ^ 64 % 2 ^ 32, leNat b / 2 ^ 96 % 2 ^ 32, 0⟩ := by
  obtain ⟨k, hk, hlen⟩ := hbytes
  have hpow : 4 * 2 ^ k = 2 ^ (k + 2) := by rw [Nat.pow_add, Nat.mul_comm]
  have hmin : 4 ≤ 4 * 2 ^ k := Nat.le_mul_of_pos_right 4 (Nat.two_pow_pos k)
  have hmax : 4 * 2 ^ k ≤ 4096 := by
    rw [hpow]
    exact Nat.pow_le_pow_right (by decide) (by have := List.mem_range.mp hk; omega : k + 2 ≤ 12)
  unfold tableOf
  dsimp only
  rw [hlen] at hbase ⊢
  rw [hdrop, if_neg]
  rintro (h | h | h | h | h | h | h | h)
  case inr.inr.inr.inl => exact h (by rw [hpow, Nat.log2_two_pow])
  all_goals omega

/-- What it is for a read to be at hand (R83, R104, R335). -/
theorem atHand_iff {c : Ctx} {n l : Nat} {x : Loc} : atHand c n l x = true ↔
    x.dev = c.s.devId ∧ x.isHost = false ∧ c.s.locked x n false = false ∧ c.unsent l (c.s.homeOf x) = false ∧
      c.isHeld l (c.s.homeOf x) = false ∧ c.s.poisoned x.pa n = false := by
  simp only [atHand, Bool.and_eq_true, Bool.not_eq_true', decide_eq_true_eq, and_assoc]

/-- A read at hand is made at once (R104, R238). -/
theorem Ctx.readSync_go {c : Ctx} {t : Tgt} {n : Nat} {x : Loc} (hloc : t.loc = some x) {l : Nat} (hl : l ∈ c.act)
    (hx : ∀ l ∈ c.act, atHand c n l x = true) (f : List Byte → Bool → Pre) :
    c.readSync true t n f = f (c.bytesAt t n) false := by
  obtain ⟨hdev, hhost, hlock, -, -, hpoison⟩ := atHand_iff.mp (hx l hl)
  have hunsent : c.act.any (fun l => c.unsent l (c.s.homeOf x)) = false := by
    refine List.any_eq_false.mpr fun j hj => ne_true_of_eq_false ?_
    obtain ⟨-, -, -, hfree, -⟩ := atHand_iff.mp (hx j hj)
    exact hfree
  simp only [Ctx.readSync, Ctx.syncAt, Ctx.tgtPoisoned, hloc, hdev, hhost, hlock, hunsent, hpoison, ne_eq, not_true_eq_false,
    decide_false, Bool.or_false, Bool.false_eq_true, if_false, if_true]

/-- No event of the run stands before such a read (R104). -/
theorem Ctx.notBehind_go {c : Ctx} {ts : List Tgt} {n : Nat} {x : Loc} (hx : ∀ l ∈ c.act, atHand c n l x = true)
    (hts : ∀ u ∈ ts, u.lane ∈ c.act ∧ u.loc = some x) (p : Pre) : c.notBehind ts p = p := by
  refine if_neg (ne_true_of_eq_false (List.any_eq_false.mpr fun u hu => ne_true_of_eq_false ?_))
  obtain ⟨hlane, hloc⟩ := hts u hu
  obtain ⟨-, -, -, -, hfree, -⟩ := atHand_iff.mp (hx u.lane hlane)
  rw [hloc]
  exact hfree

/-- Where the row that a lane's index names lies (R80). -/
abbrev Ctx.rowPlace (c : Ctx) (tb : Table) (a l : Nat) : Option Loc :=
  placeOf c tb.bytes true false ((tb.base + (c.v a l).toNat * tb.bytes) % 2 ^ 64)

/-- The descriptor that a location holds, without its drop counter. -/
abbrev Ctx.tableAt (c : Ctx) (x : Loc) : Table :=
  ⟨readNum c x 64 % 2 ^ 64, readNum c x 64 / 2 ^ 64 % 2 ^ 32, readNum c x 64 / 2 ^ 96 % 2 ^ 32, 0⟩

/-- From context `y`, the lanes whose indices name no row receive the null ticket (R80). -/
def Ctx.nullRows (c : Ctx) (tb : Table) (d a : Nat) (y : Ctx) : Ctx :=
  let out := c.dropped tb a
  if out.isEmpty then y
  else y.memOp out (out.flatMap (fun l => [c.dest d 0 l, c.dest d 1 l])) (List.replicate (2 * out.length) 0) false false

/-- From context `y`, each lane whose index names a row requests its ticket (R80). -/
def Ctx.askRows (c : Ctx) (tb : Table) (d a : Nat) (y : Ctx) : Ctx :=
  let block := decide (16 < tb.bytes)
  (c.act.filter (c.rowValid tb a)).foldl (fun x l => (c.rowPlace tb a l).elim x (fun z =>
    x.sendFetch [l] z tb.bytes (if block then 7 else rowCode tb.bytes) block [c.dest d 0 l, c.dest d 1 l])) y

/-- The operands of `egath`. -/
abbrev egathArgs (d a : BitVec 6) (sb : BitVec 5) : List Arg :=
  [.pw d.toNat, .vr a.toNat, .need (decide (a ≠ 62)), .sr sb.toNat, .need (decide (sb.toNat ≤ 30))]

/-- A read at the module's own homes leaves its traces there (R69, R337, R339). -/
theorem Ctx.seen_of_here {c : Ctx} {t : Tgt} {x : Loc} (hloc : t.loc = some x) (hhere : c.s.elsewhere x = false) (n : Nat) :
    c.seen t n = c.inState (afterReads c [(x, n)]) := by
  rw [Ctx.seen, hloc]
  exact if_neg (ne_true_of_eq_false hhere)

section
variable {s : State} {g : BitVec 4} {d a : BitVec 6} {sb : BitVec 5} {c : Ctx} {x : Loc}

/-- A gather whose descriptor is at hand and whose rows have places goes ahead (R80, R238). -/
theorem exec_egath_goes (hi : Issues s g (egathArgs d a sb) c) (hacq : c.acqPending = false) (hfence : c.p.fenceR = [])
    (hans : Map.find c.b.ans 64 = none) (hx : placeOf c 64 true false (c.blockAddr sb.toNat) = some x)
    (hhand : ∀ l ∈ c.act, atHand c 64 l x = true)
    (htab : tableOf (c.s.bound c.frame x.pa (memBytes c.s.mem x.pa 64)) = some (c.tableAt x))
    (hrows : ∀ l ∈ c.act.filter (c.rowValid (c.tableAt x) a.toNat), (c.rowPlace (c.tableAt x) a.toNat l).isSome = true)
    {ops : List PendOp} {ms : List Msg} (he : ∀ m, ∃ m',
      c.nullRows (c.tableAt x) d.toNat a.toNat (c.askRows (c.tableAt x) d.toNat a.toNat
        ((c.withMarks m).inState (afterReads c [(x, 64)]))) =
        c.posted (afterReads c [(x, 64)]) (c.s.keys + ops.length + ms.length) (ops.foldl (joined c) c.p.pend) ms m') :
    PostOutcome (.egath g d a sb) s c (afterReads c [(x, 64)]) ops ms := by
  obtain ⟨l, hl⟩ := List.exists_mem_of_ne_nil _ (act_ne_nil hi)
  obtain ⟨t, ts, hdesc, hall⟩ := Ctx.check_shared (act_ne_nil hi) hx
  obtain ⟨-, hloc⟩ := hall t List.mem_cons_self
  obtain ⟨us, hcheck, hmap⟩ := Ctx.check_lanes hrows
  have helse : c.s.elsewhere x = false := by
    obtain ⟨hdev, hhost, -⟩ := atHand_iff.mp (hhand l hl)
    simp [State.elsewhere, hdev, hhost]
  have hbytes : c.bytesAt t 64 = c.s.bound c.frame x.pa (memBytes c.s.mem x.pa 64) := by rw [Ctx.bytesAt, hloc]
  have hexec := exec_egath g d a sb s
  rw [execEgath] at hexec
  refine issue_posts hexec hi ?checks fun m => ?effect
  case checks =>
    rw [Ctx.readWait_of_clear hacq hfence, Ctx.descChk, hdesc]
    dsimp only [Chk.bind, Pre.then]
    rw [Ctx.notBehind_go hhand hall, Ctx.readSync_go hloc hl hhand, hbytes]
    rw [if_neg Bool.false_ne_true, htab]
    dsimp only [Ctx.rowChecks, Ctx.dropChk]
    rw [if_pos rfl, Ctx.rowAddrs, hcheck]
    exact Ctx.fetchChecks_go fun u hu => isSome_of_mem_tgts hmap hrows hu
  case effect =>
    obtain ⟨m', hsent⟩ := he m
    refine ⟨m', (?_ : _ = Res.done _).trans (congrArg Res.done hsent)⟩
    have hdescm : (c.withMarks m).descChk sb.toNat = .ok (t :: ts) := hdesc
    have hsync : c.syncBytes true t 64 = c.bytesAt t 64 := by rw [Ctx.syncBytes, hans]; rfl
    have htabm : tableOf ((c.withMarks m).syncBytes true t 64) = some (c.tableAt x) :=
      (congrArg tableOf (hsync.trans hbytes)).trans htab
    have hcheckm : (c.withMarks m).check (c.tableAt x).bytes true false ((c.withMarks m).rowAddrs (c.tableAt x) a.toNat) = .ok us :=
      hcheck
    have hdrop : (c.withMarks m).dropChk (c.tableAt x) a.toNat = .ok [] := rfl
    have hseen : (c.withMarks m).seen t 64 = (c.withMarks m).inState (afterReads c [(x, 64)]) :=
      (Ctx.seen_of_here (c := c.withMarks m) hloc helse 64)
    dsimp only
    rw [hdescm]
    dsimp only [Chk.tgts]
    rw [htabm]
    dsimp only
    rw [hcheckm, hdrop, hseen]
    have hfold := foldl_tgts hmap (fun y l z => y.sendFetch [l] z (c.tableAt x).bytes
      (if decide (16 < (c.tableAt x).bytes) then 7 else rowCode (c.tableAt x).bytes) (decide (16 < (c.tableAt x).bytes))
      [c.dest d.toNat 0 l, c.dest d.toNat 1 l]) ((c.withMarks m).inState (afterReads c [(x, 64)]))
    refine congrArg (fun y => Res.done (c.nullRows (c.tableAt x) d.toNat a.toNat y))
      ((List.foldl_ext _ _ _ fun y u _ => ?_).trans hfold)
    cases u.loc <;> rfl

/-- The WIDTH code with which a row of `n` bytes is requested (R80). -/
theorem rowCode_eq {n : Nat} (h : ∃ k ∈ List.range 11, n = 4 * 2 ^ k) :
    (if decide (16 < n) = true then 7 else rowCode n) = if n = 4 then 4 else if n = 8 then 5 else if n = 16 then 6 else 7 := by
  obtain ⟨k, hk, rfl⟩ := h
  revert k
  decide

/-- Indices that all name rows request a ticket each (R80, R238). -/
theorem exec_egath_rows (hi : Issues s g (egathArgs d a sb) c) (hacq : c.acqPending = false) (hfence : c.p.fenceR = [])
    (hans : Map.find c.b.ans 64 = none) (hx : placeOf c 64 true false (c.blockAddr sb.toNat) = some x)
    (hhand : ∀ l ∈ c.act, atHand c 64 l x = true)
    (htab : tableOf (c.s.bound c.frame x.pa (memBytes c.s.mem x.pa 64)) = some (c.tableAt x))
    (hvalid : ∀ l ∈ c.act, c.rowValid (c.tableAt x) a.toNat l = true)
    (hrows : ∀ l ∈ c.act, (c.rowPlace (c.tableAt x) a.toNat l).any (fun y => !c.isHeld l (c.s.homeOf y)) = true) :
    PostOutcome (.egath g d a sb) s c (afterReads c [(x, 64)])
      (c.fetchOps c.act (fun l => [c.dest d.toNat 0 l, c.dest d.toNat 1 l]))
      (c.fetchMsgs c.act (c.rowPlace (c.tableAt x) a.toNat) (c.tableAt x).bytes
        (if decide (16 < (c.tableAt x).bytes) then 7 else rowCode (c.tableAt x).bytes) (decide (16 < (c.tableAt x).bytes))) := by
  have hall : c.act.filter (c.rowValid (c.tableAt x) a.toNat) = c.act := List.filter_eq_self.mpr hvalid
  have hnone : c.dropped (c.tableAt x) a.toNat = [] :=
    List.filter_eq_nil_iff.mpr fun l hl => by rw [hvalid l hl]; exact Bool.false_ne_true
  refine exec_egath_goes hi hacq hfence hans hx hhand htab (by rw [hall]; exact isSome_of_any hrows) fun m => ?_
  have hask : ∀ y, c.nullRows (c.tableAt x) d.toNat a.toNat y = y := fun y => by rw [Ctx.nullRows, hnone]; rfl
  rw [hask, Ctx.askRows, hall]
  exact Ctx.foldl_sendFetch (afterReads_readFrom c _) (afterReads_leaseOf c _ _) hrows m _ _ _ _

/-- With no index that names a row, every lane receives the null ticket (R80, R238). -/
theorem exec_egath_nulls (hi : Issues s g (egathArgs d a sb) c) (hacq : c.acqPending = false) (hfence : c.p.fenceR = [])
    (hans : Map.find c.b.ans 64 = none) (hx : placeOf c 64 true false (c.blockAddr sb.toNat) = some x)
    (hhand : ∀ l ∈ c.act, atHand c 64 l x = true)
    (htab : tableOf (c.s.bound c.frame x.pa (memBytes c.s.mem x.pa 64)) = some (c.tableAt x))
    (hvalid : ∀ l ∈ c.act, c.rowValid (c.tableAt x) a.toNat l = false) :
    PostOutcome (.egath g d a sb) s c (afterReads c [(x, 64)])
      [PendOp.mk' c false (c.act.flatMap (fun l => [c.dest d.toNat 0 l, c.dest d.toNat 1 l]))
        (List.replicate (2 * c.act.length) 0)] [] := by
  have hnone : c.act.filter (c.rowValid (c.tableAt x) a.toNat) = [] :=
    List.filter_eq_nil_iff.mpr fun l hl => ne_true_of_eq_false (hvalid l hl)
  have hall : c.dropped (c.tableAt x) a.toNat = c.act := List.filter_eq_self.mpr fun l hl => by rw [hvalid l hl]; rfl
  refine exec_egath_goes hi hacq hfence hans hx hhand htab (by rw [hnone]; exact nofun) fun m => ?_
  have hask : ∀ y, c.askRows (c.tableAt x) d.toNat a.toNat y = y := fun y => by rw [Ctx.askRows, hnone]; rfl
  have hnull : c.act.isEmpty = false := by simpa using act_ne_nil hi
  rw [hask, Ctx.nullRows, hall, hnull, Ctx.posted_start (afterReads_readFrom c _)]
  exact Ctx.addOp_posted ..

end

end Sys2Proof.Machine

namespace Sys2Proof.Proofs

open Sys2Proof Sys2Proof.Machine Sys2Proof.Safety

/-- Settles O44: `ldt` and `egath` by the requests that their lanes send in order, `ldtb` by its one request, `att` by the
effects that it leaves for the commit. -/
theorem ticketRequests : Obligations.TicketRequests := by
  refine ⟨fun s g d a sb w o c hacq => ⟨?ldt, ?ldtb, ?att⟩, ?egath⟩
  case ldt =>
    intro hfence hi n place hpl
    obtain rfl : c.s = s := issueCtx_s hi.1
    exact exec_ldt_requests hi hacq hfence hpl
  case ldtb =>
    intro hfence hi va n hmod hmin hmax hgran x hx hheld
    obtain rfl : c.s = s := issueCtx_s hi.1
    have hone : oneGranule va n = true := by rw [oneGranule, decide_eq_true hgran, Bool.or_true]
    exact exec_ldtb_requests hi hacq hfence rfl rfl (blockLenOk_of ⟨hmod, hmin, hmax⟩) hone (Option.mem_toList.mp hx) hheld
  case att =>
    intro sel hsel hi n place hpl
    obtain rfl : c.s = s := issueCtx_s hi.1
    exact exec_att_requests (Option.mem_toList.mp hsel) hi hacq hpl
  case egath =>
    intro s g d a sb c hacq hfence hi hans x hx hhand desc base bytes rows hzero hbytes hbase hone hrows hdrop valid row code
    obtain rfl : c.s = s := issueCtx_s hi.1
    have hx' := Option.mem_toList.mp hx
    have htab := tableOf_of_limits hzero hbytes hbase hone hrows hdrop
    refine ⟨fun hall => ?rows, fun hnone => exec_egath_nulls hi hacq hfence hans hx' hhand htab hnone⟩
    case rows =>
      have h := exec_egath_rows hi hacq hfence hans hx' hhand htab (fun l hl => (hall l hl).1) (fun l hl => (hall l hl).2)
      rw [rowCode_eq hbytes] at h
      exact h

end Sys2Proof.Proofs

namespace Sys2Proof.Machine

open Host Sys2Proof.Safety

/-! ## Claims of lanes (R86, R91, R92) -/

theorem exec_rdm (g : BitVec 4) (d a b : BitVec 6) (s : State) : exec (.rdm g d a b) s = execRdm g d a b s := rfl

theorem exec_rdmb (g : BitVec 4) (d a : BitVec 6) (s : State) : exec (.rdmb g d a) s = execRdmb g d a s := rfl

theorem exec_trel (g : BitVec 4) (a : BitVec 6) (s : State) : exec (.trel g a) s = execTrel g a s := rfl

theorem exec_trelb (g : BitVec 4) (a : BitVec 6) (s : State) : exec (.trelb g a) s = execTrelb g a s := rfl

theorem exec_ttest (g : BitVec 4) (a : BitVec 6) (s : State) : exec (.ttest g a) s = execTtest g a s := rfl

theorem exec_ttestb (g : BitVec 4) (a : BitVec 6) (s : State) : exec (.ttestb g a) s = execTtestb g a s := rfl

/-- Tickets that the core accepts raise no TICKET_FOREIGN (R91). -/
theorem Ctx.foreignLanes_go {c : Ctx} {a : Nat} (h : ownTickets c a) : c.foreignLanes (c.laneTickets a) = .go := by
  have hnone : (c.laneTickets a).filter (fun e => c.foreign e.2 false) = [] := by
    refine List.filter_eq_nil_iff.mpr fun e he => ?_
    obtain ⟨l, hl, rfl⟩ := List.mem_map.mp he
    exact ne_true_of_eq_false (h l hl)
  rw [Ctx.foreignLanes, hnone]
  rfl

/-- Who asks by a lane's claim. -/
abbrev Ctx.claimer (c : Ctx) (l k : Nat) : Asker := ⟨c.s.devId, c.core, c.pid, c.b.id, l, k⟩

/-- The operation that awaits the data of a lane's claim (R91, R99). -/
abbrev Ctx.claimRes (c : Ctx) (k l : Nat) (t : DWord) (dests : List Dest) : PendOp :=
  { PendOp.mk' c false dests [] with
    id := k, lanes := maskOf [l], flag := none, ready := false, acquire := true, role := .claim t (c.claimer l k) }

/-- The claim itself. -/
abbrev Ctx.claimMsg (c : Ctx) (k l : Nat) (t : DWord) : Msg :=
  msgOf c (k + 1) (maskOf [l]) (ticketHome t) (.claim t (c.claimer l k) c.p.launchId c.p.asid c.frame)

theorem Ctx.claimOp_posted (c : Ctx) (k : Nat) (pend : List PendOp) (ms : List Msg) (marks : List Nat) (l : Nat) (t : DWord)
    (dests : List Dest) :
    ∃ marks', (c.posted c.s k pend ms marks).claimOp l t dests =
      c.posted c.s (k + 2) (joined c pend (c.claimRes k l t dests)) (ms ++ [c.claimMsg k l t]) marks' := by
  obtain ⟨marks', hop⟩ := c.addOp_posted c.s k pend ms marks (c.claimRes k l t dests)
  refine ⟨marks', (congrArg (fun x : Ctx => x.sendNow l (ticketHome t) (c.claimBody t (c.claimer l k))) hop).trans ?_⟩
  rw [Ctx.sendNow, State.post_posted (ReadFrom.refl c.s)]
  rfl

/-- The lanes whose tickets are null. -/
abbrev Ctx.nullLanes (c : Ctx) (a : Nat) : List Nat := c.act.filter (fun l => decide (c.v64 a l = 0))

/-- Those whose tickets are not. -/
abbrev Ctx.ticketLanes (c : Ctx) (a : Nat) : List Nat := c.act.filter (fun l => decide (c.v64 a l ≠ 0))

theorem Ctx.laneTickets_null (c : Ctx) (a : Nat) :
    ((c.laneTickets a).filter (fun e => decide (e.2 = 0))).map (fun e => e.1) = c.nullLanes a := by
  rw [Ctx.laneTickets, List.filter_map, List.map_map]
  exact List.map_id _

theorem Ctx.laneTickets_real (c : Ctx) (a : Nat) :
    (c.laneTickets a).filter (fun e => decide (e.2 ≠ 0)) = (c.ticketLanes a).map (fun l => (l, c.v64 a l)) := by
  rw [Ctx.laneTickets, List.filter_map]
  rfl

/-- The operation that gives lanes with the null ticket their zeros (R86): none where there is no such lane. -/
abbrev Ctx.zeroOps (c : Ctx) (a n : Nat) (dests : Nat → List Dest) : List PendOp :=
  if c.nullLanes a = [] then [] else
    [{ PendOp.mk' c false ((c.nullLanes a).flatMap dests) (List.replicate (n * (c.nullLanes a).length) 0) with
      lanes := maskOf (c.nullLanes a) }]

/-- Lanes with the null ticket receive zeros (R86). -/
theorem Ctx.zeros_posted (c : Ctx) (m : List Nat) (a n : Nat) (dests : Nat → List Dest) :
    ∃ m', (if (c.nullLanes a).isEmpty then c.withMarks m else (c.withMarks m).memOp (c.nullLanes a)
        ((c.nullLanes a).flatMap dests) (List.replicate (n * (c.nullLanes a).length) 0) false false) =
      c.posted c.s (c.s.keys + (c.zeroOps a n dests).length) ((c.zeroOps a n dests).foldl (joined c) c.p.pend) [] m' := by
  have hstart : c.withMarks m = c.posted c.s c.s.keys c.p.pend [] m := Ctx.posted_start (ReadFrom.refl c.s) m
  by_cases hnull : c.nullLanes a = []
  · rw [Ctx.zeroOps, if_pos hnull, hnull]
    exact ⟨m, hstart⟩
  · rw [Ctx.zeroOps, if_neg hnull, if_neg (by simpa using hnull), hstart]
    exact Ctx.addOp_posted ..

/-- The registers that `rdm` writes in a lane (R240). -/
abbrev rdmRegs (b : BitVec 6) : Nat := if b = 6 then 4 else if b = 5 then 2 else 1

abbrev Ctx.rdmDests (c : Ctx) (d b : BitVec 6) (l : Nat) : List Dest := (List.range (rdmRegs b)).map (fun i => c.dest d.toNat i l)

/-- The operands of `rdm`. -/
abbrev rdmArgs (d a b : BitVec 6) : List Arg :=
  [.pr a.toNat, if b = 6 then .qw d.toNat else if b = 5 then .pw d.toNat else .vw d.toNat,
    .need (decide (b = 4 ∨ b = 5 ∨ b = 6))]

/-- `rdm` of tickets that the core accepts: zeros for the null tickets, a claim for each other one (R91, R92, R240). -/
theorem exec_rdm_claims {s : State} {g : BitVec 4} {d a b : BitVec 6} {c : Ctx} (hi : Issues s g (rdmArgs d a b) c)
    (hown : ownTickets c a.toNat) :
    let zeros := c.zeroOps a.toNat (rdmRegs b) (c.rdmDests d b)
    let first := s.keys + zeros.length
    PostOutcome (.rdm g d a b) s c s
      (zeros ++ (c.ticketLanes a.toNat).zipIdx.map (fun e =>
        c.claimRes (first + 2 * e.2) e.1 (c.v64 a.toNat e.1) (c.rdmDests d b e.1)))
      ((c.ticketLanes a.toNat).zipIdx.map (fun e => c.claimMsg (first + 2 * e.2) e.1 (c.v64 a.toNat e.1))) := by
  intro zeros first
  obtain rfl : c.s = s := issueCtx_s hi.1
  have hexec := exec_rdm g d a b c.s
  rw [execRdm] at hexec
  refine issue_posts hexec hi (Ctx.foreignLanes_go hown) fun m => ?_
  obtain ⟨m1, hzero⟩ := c.zeros_posted m a.toNat (rdmRegs b) (c.rdmDests d b)
  obtain ⟨m2, hclaim⟩ := Ctx.foldl_posted (c := c) (t := c.s) (k := first)
    (op := fun e => c.claimRes (first + 2 * e.2) e.1 (c.v64 a.toNat e.1) (c.rdmDests d b e.1))
    (msg := fun e => some (c.claimMsg (first + 2 * e.2) e.1 (c.v64 a.toNat e.1)))
    (f := fun x l => x.claimOp l (c.v64 a.toNat l) (c.rdmDests d b l)) (c.ticketLanes a.toNat)
    (fun l _ i pend ms marks => c.claimOp_posted _ pend ms marks l (c.v64 a.toNat l) (c.rdmDests d b l))
    0 (zeros.foldl (joined c) c.p.pend) [] m1
  have hnull := (c.withMarks m).laneTickets_null a.toNat
  have hreal := (c.withMarks m).laneTickets_real a.toNat
  rw [List.filterMap_eq_map', List.nil_append, Nat.mul_zero, Nat.add_zero, Nat.zero_add] at hclaim
  refine ⟨m2, ?_⟩
  dsimp only
  rw [hnull, hreal, List.foldl_map, List.foldl_append, List.length_append, List.length_map, List.length_map, List.length_zipIdx]
  have hcount : c.s.keys + (zeros.length + (c.ticketLanes a.toNat).length) + (c.ticketLanes a.toNat).length =
      first + 2 * (c.ticketLanes a.toNat).length := by omega
  rw [hcount]
  exact congrArg Res.done ((congrArg (fun y => (c.ticketLanes a.toNat).foldl
    (fun (x : Ctx) l => x.claimOp l (c.v64 a.toNat l) (c.rdmDests d b l)) y) hzero).trans hclaim)

/-! ## The claim of a block (R93) -/

/-- The access of `rdmb`'s destination. -/
abbrev Ctx.rdmbAccess (c : Ctx) (d : Nat) : Acc := c.s.access c.core c.p.asid (c.sc d).toNat 1 false true

/-- A claim whose answer is there is not sent again, and the answer does not trap (R92). -/
theorem Ctx.askFor_claimed {c : Ctx} {t : DWord} {data : List Byte} (hans : Map.find c.b.ans 64 = some (.data data false))
    (f : DWord → Asker → MsgBody) (rest : Pre) : c.askFor [(64, t)] f rest = rest := by
  simp [Ctx.askFor, hans]

theorem Ctx.ansTraps_claimed {c : Ctx} {t : DWord} {data : List Byte} (hans : Map.find c.b.ans 64 = some (.data data false)) :
    c.ansTraps [(64, t)] = [] := by
  simp [Ctx.ansTraps, hans]

/-- A scratchpad destination of the core, aligned and within one granule, does not trap (R93). -/
theorem Ctx.rdmbTraps_nil {c : Ctx} {va n : Nat} {lf : Leaf} {x : Loc} (hown : x.isScratch = true ∧ c.s.isLocal c.core x = true)
    (halign : va % 16 = 0) (hone : oneGranule va n = true) : c.rdmbTraps va n (.ok lf x) = [] := by
  simp [Ctx.rdmbTraps, hown.1, hown.2, halign, hone]

/-- Only a scratchpad destination of the core does not trap (R93). -/
theorem Ctx.ok_of_rdmbTraps_nil {c : Ctx} {va n : Nat} {q : Acc} (hact : c.act ≠ []) (h : c.rdmbTraps va n q = []) :
    ∃ lf x, q = .ok lf x ∧ x.isScratch = true := by
  unfold Ctx.rdmbTraps at h
  rw [List.append_eq_nil_iff] at h
  obtain ⟨hdst, -⟩ := h
  have htrap (k : Nat) (a : DWord) : allTrap c.act k a ≠ [] := by simpa [allTrap] using hact
  cases q with
  | ok lf x =>
    refine ⟨lf, x, rfl, ?_⟩
    by_contra hno
    exact htrap cProtection (BitVec.ofNat 64 va) (by simpa [hno] using hdst)
  | _ => exact absurd hdst (htrap _ _)

theorem placeOf_of_ok {c : Ctx} {n va : Nat} {rd wr : Bool} {lf : Leaf} {x : Loc}
    (hok : c.s.access c.core c.p.asid va n rd wr = .ok lf x) (hwalk : c.walkDue va = false) (hteam : c.queuedTeam x = none) :
    placeOf c n rd wr va = some x := by
  rw [placeOf, hok]
  exact if_pos ⟨hwalk, hteam⟩

/-- The operation that awaits the write of a claimed block. -/
abbrev Ctx.blockOp (c : Ctx) : PendOp := { PendOp.mk' c false [] [] with late := true, ready := false }

/-- The write of a block. -/
abbrev Ctx.blockEff (c : Ctx) (x : Loc) (data : List Byte) : Eff :=
  ⟨maskOf c.act, sending (c.s.homeOf x) (.block x data c.s.keys false) none false false false⟩

/-- A ticket that is not null claims by a message or has claimed: `claimData` is that answer. -/
theorem ans_of_claimData {c : Ctx} {l : Nat} {t : DWord} {data : List Byte} (ht : t ≠ 0) (h : claimData c l t = some data) :
    Map.find c.b.ans l = some (.data data false) := by
  rw [claimData, if_neg ht] at h
  split at h
  next b hans => rw [hans, Option.some.inj h]
  next => cases h

/-- With its data there, `rdmb` sends the block to its destination (R93, R240). -/
theorem exec_rdmb_sends {s : State} {g : BitVec 4} {d a : BitVec 6} {c : Ctx} {x : Loc} {data : List Byte}
    (hi : Issues s g [.sr d.toNat, .hr a.toNat] c) (hacq : c.acqPending = false) (hnull : c.hd a.toNat ≠ 0)
    (hown : c.foreign (c.hd a.toNat) true = false) (hx : placeOf c 1 false true (c.sc d.toNat).toNat = some x)
    (hscratch : x.isScratch = true ∧ c.s.isLocal c.core x = true) (halign : (c.sc d.toNat).toNat % 16 = 0)
    (hans : Map.find c.b.ans 64 = some (.data data false))
    (hone : oneGranule (c.sc d.toNat).toNat (c.lenOf (c.hd a.toNat)) = true) :
    SendOutcome (.rdmb g d a) s c [c.blockEff x data] [c.blockOp] := by
  obtain ⟨lf, hok, hwalk, hteam⟩ := access_of_placed hx
  rw [SendOutcome, exec_rdmb, execRdmb]
  refine issue_sends hi ?checks fun m => ?effect
  case checks =>
    dsimp only
    rw [hok, if_neg nofun, if_neg nofun, hwalk, hown, if_neg Bool.false_ne_true]
    dsimp only
    rw [hteam]
    dsimp only
    rw [if_neg hnull, if_neg (by simp), Ctx.acqWait_of_clear hacq, Ctx.askLen,
      if_pos (.inr (.inr (by rw [hans]; rfl))), Ctx.rdmbTraps_nil hscratch halign hone, Ctx.askFor_claimed hans,
      Ctx.ansTraps_claimed hans]
    rfl
  case effect =>
    have hokm : (c.withMarks m).s.access (c.withMarks m).core (c.withMarks m).p.asid ((c.withMarks m).sc d.toNat).toNat 1 false
      true = .ok lf x := hok
    have hclaimed : (c.withMarks m).claimed 64 = (data, false) := by
      have hansm : Map.find (c.withMarks m).b.ans 64 = some (.data data false) := hans
      rw [Ctx.claimed, hansm]
    have hnullm : (c.withMarks m).hd a.toNat ≠ 0 := hnull
    dsimp only
    rw [hokm, hclaimed, decide_eq_false hnullm, if_neg (fun h => Bool.false_ne_true h.1)]
    dsimp only
    rw [if_neg Bool.false_ne_true, Ctx.lateOp, Ctx.addOp_late rfl]
    rfl

/-- Where `rdmb` of the null ticket writes its zeros: nowhere where that would trap (R86, log 35). -/
def Ctx.nullPlace (c : Ctx) (d : Nat) : Option Loc :=
  if c.rdmbTraps (c.sc d).toNat (c.s.nullLen (c.sc d).toNat) (c.rdmbAccess d) = [] then
    placeOf c 1 false true (c.sc d).toNat
  else none

/-- It writes in scratchpads only (R93). -/
theorem Ctx.nullPlace_cases {c : Ctx} {d : Nat} (hact : c.act ≠ []) :
    c.nullPlace d = none ∨
      ∃ x, placeOf c 1 false true (c.sc d).toNat = some x ∧ x.isScratch = true ∧ c.nullPlace d = some x := by
  unfold Ctx.nullPlace
  split
  next htraps =>
    obtain ⟨lf, x, hok, hscratch⟩ := Ctx.ok_of_rdmbTraps_nil hact htraps
    cases hx : placeOf c 1 false true (c.sc d).toNat with
    | none => exact .inl rfl
    | some y =>
      obtain ⟨_, hok', -⟩ := access_of_placed hx
      cases hok.symm.trans hok'
      exact .inr ⟨x, rfl, hscratch, rfl⟩
  next => exact .inl rfl

/-- `rdmb` of the null ticket writes zeros where its destination allows them, and never traps (R86, R240, log 35). -/
theorem exec_rdmb_null {s : State} {g : BitVec 4} {d a : BitVec 6} {c : Ctx}
    (hi : Issues s g [.sr d.toNat, .hr a.toNat] c) (hacq : c.acqPending = false) (hnull : c.hd a.toNat = 0)
    (hans : Map.find c.b.ans 64 = none) (hpage : c.rdmbAccess d.toNat ≠ .page) (hwait : c.rdmbAccess d.toNat ≠ .wait)
    (hwalk : c.walkDue (c.sc d.toNat).toNat = false)
    (hteam : ∀ f x, c.rdmbAccess d.toNat = .ok f x → c.queuedTeam x = none) :
    let es := (c.nullPlace d.toNat).toList.map (fun x => c.blockEff x (List.replicate (c.s.nullLen (c.sc d.toNat).toNat) 0))
    let ops := (c.nullPlace d.toNat).toList.map (fun _ => c.blockOp)
    ∃ c' : Ctx, exec (.rdmb g d a) s = .next c'.advance ∧ c' = { c with
      s := { c.s with keys := c.s.keys + ops.length, free := c.s.free + 1 },
      p := { c.p with pend := ops.foldl (joined c) c.p.pend },
      r := { c.r with eff := c.r.eff ++ es, ov := { c.r.ov with marks := c'.r.ov.marks } } } := by
  intro es ops
  have hexec := exec_rdmb g d a s
  rw [execRdmb] at hexec
  have hmark := markLast_eq c [.sr d.toNat, .hr a.toNat]
  generalize (c.markLast [.sr d.toNat, .hr a.toNat]).r.ov.marks = m at hmark
  refine ⟨{ c.withMarks m with
    s := { c.s with keys := c.s.keys + ops.length, free := c.s.free + 1 },
    p := { c.p with pend := ops.foldl (joined c) c.p.pend },
    r := { (c.withMarks m).r with eff := c.r.eff ++ es } }, hexec.trans (issue_done hi ?checks ?effect), rfl⟩
  case checks =>
    refine Eq.trans (b := c.acqWait) ?_ (Ctx.acqWait_of_clear hacq)
    dsimp only
    rw [if_neg hpage, if_neg hwait, hwalk, if_neg Bool.false_ne_true]
    split
    next k hk =>
      split at hk
      next lf y hok => exact absurd ((hteam lf y hok).symm.trans hk) nofun
      next => cases hk
    next => exact if_pos hnull
  case effect =>
    have hnullm : (c.withMarks m).hd a.toNat = 0 := hnull
    have hclaimed : (c.withMarks m).claimed 64 = ([], false) := by
      have hansm : Map.find (c.withMarks m).b.ans 64 = none := hans
      rw [Ctx.claimed, hansm]
    rw [hmark]
    dsimp only
    rw [decide_eq_true hnullm, if_pos rfl, if_pos rfl, hclaimed, List.length_replicate]
    by_cases htraps : c.rdmbTraps (c.sc d.toNat).toNat (c.s.nullLen (c.sc d.toNat).toNat) (c.rdmbAccess d.toNat) = []
    case neg =>
      have hnone : c.nullPlace d.toNat = none := if_neg htraps
      simp only [es, ops, hnone, Option.toList_none, List.map_nil, List.append_nil]
      exact if_pos ⟨trivial, htraps⟩
    case pos =>
      obtain ⟨lf, x, hok, -⟩ := Ctx.ok_of_rdmbTraps_nil (act_ne_nil hi) htraps
      have hplace : c.nullPlace d.toNat = some x := (if_pos htraps).trans (placeOf_of_ok hok hwalk (hteam lf x hok))
      have hokm : (c.withMarks m).s.access (c.withMarks m).core (c.withMarks m).p.asid ((c.withMarks m).sc d.toNat).toNat 1 false
        true = .ok lf x := hok
      simp only [es, ops, hplace, Option.toList_some, List.map_cons, List.map_nil]
      refine (if_neg fun h => h.2 htraps).trans ?_
      rw [hokm]
      dsimp only
      rw [Ctx.lateOp, Ctx.addOp_late rfl]
      rfl

/-! ## Tests and releases (R94, R95) -/

/-- The release of a ticket. -/
abbrev Ctx.trelEff (c : Ctx) (m : DWord) (t : DWord) : Eff :=
  ⟨m, sending (ticketHome t) (.trel t c.p.launchId) none false true false⟩

/-- A test that has brought its answer, or that tests the null ticket, has the answer that the word pushes (R86, R94). -/
theorem Ctx.tested_of_testAnswer {c : Ctx} {l : Nat} {t : DWord} (h : (testAnswer c l t).isSome = true) :
    c.tested l t = (testAnswer c l t).getD false := by
  unfold testAnswer at h ⊢
  unfold Ctx.tested
  by_cases ht : t = 0
  · simp only [ht, if_true] at h ⊢
    split at h
    next hans => rw [if_pos hans]; rfl
    next => cases h
  · simp only [ht, if_false] at h ⊢
    split at h
    next => rfl
    next => cases h

/-- Such tests need not be sent, and their answers do not trap. -/
theorem Ctx.askFor_tested {c : Ctx} {ts : List (Nat × DWord)} (h : ∀ e ∈ ts, (testAnswer c e.1 e.2).isSome = true)
    (f : DWord → Asker → MsgBody) (rest : Pre) : c.askFor ts f rest = rest := by
  have hnone : ts.filter (fun e => decide (e.2 ≠ 0) && (Map.find c.b.ans e.1).isNone) = [] := by
    refine List.filter_eq_nil_iff.mpr fun e he hopen => ?_
    obtain ⟨hreal, hans⟩ := Bool.and_eq_true_iff.mp hopen
    have hsome := h e he
    rw [testAnswer, if_neg (of_decide_eq_true hreal), Option.isNone_iff_eq_none.mp hans] at hsome
    cases hsome
  rw [Ctx.askFor, hnone]
  rfl

theorem Ctx.ansTraps_tested {c : Ctx} {ts : List (Nat × DWord)} (h : ∀ e ∈ ts, (testAnswer c e.1 e.2).isSome = true) :
    c.ansTraps ts = [] := by
  refine List.filterMap_eq_nil_iff.mpr fun e he => ?_
  have hsome := h e he
  unfold testAnswer at hsome
  split
  next k a hans => rw [hans] at hsome; revert hsome; split <;> exact nofun
  next => rfl

section
variable {s : State} {g : BitVec 4} {a : BitVec 6} {c : Ctx}

/-- `trel` posts a release for each lane whose ticket is not null (R86, R95). -/
theorem exec_trel_posts (hi : Issues s g [.pr a.toNat] c) (hown : ownTickets c a.toNat) (hacq : c.acqPending = false) :
    EffOutcome (.trel g a) s c ((c.ticketLanes a.toNat).map (fun l => c.trelEff (maskOf [l]) (c.v64 a.toNat l))) := by
  refine effOutcome_of_send ?_
  rw [SendOutcome, exec_trel, execTrel]
  refine issue_sends hi ?checks fun m => congrArg Res.done ?effect
  case checks =>
    rw [Ctx.acqWait_of_clear hacq, Ctx.foreignLanes_go hown]
    rfl
  case effect =>
    have heffs := Ctx.foldl_effects (f := fun (x : Ctx) (e : Nat × DWord) => if e.2 = 0 then x else
        x.effectOf e.1 ((c.withMarks m).trelDraft e.2))
      (e := fun e => if e.2 = 0 then none else some (c.trelEff (maskOf [e.1]) e.2)) (fun y e => by
        split
        next => rw [Option.toList_none, List.append_nil]
        next => rfl) ((c.withMarks m).laneTickets a.toNat) (c.withMarks m)
    have hlist : (c.laneTickets a.toNat).filterMap (fun e => if e.2 = 0 then none else some (c.trelEff (maskOf [e.1]) e.2)) =
        (c.ticketLanes a.toNat).map (fun l => c.trelEff (maskOf [l]) (c.v64 a.toNat l)) := by
      rw [Ctx.laneTickets, List.filterMap_map, ← List.filterMap_eq_map, List.filterMap_filter]
      refine List.filterMap_congr fun l _ => ?_
      by_cases h : c.v64 a.toNat l = 0 <;> simp [h]
    exact heffs.trans (congrArg (fun es => (c.withMarks m).sent c.s.keys c.p.pend (c.r.eff ++ es)) hlist)

/-- `ttest` pushes each lane's answer (R94). -/
theorem exec_ttest_pushes (hi : Issues s g [.pr a.toNat] c) (hown : ownTickets c a.toNat)
    (hans : ∀ l ∈ c.act, (testAnswer c l (c.v64 a.toNat l)).isSome = true) :
    LaneOutcome (.ttest g a) s c noWrites (pushed c (fun l => (testAnswer c l (c.v64 a.toNat l)).getD false)) noFlags := by
  have hall : ∀ e ∈ c.laneTickets a.toNat, (testAnswer c e.1 e.2).isSome = true := fun e he => by
    obtain ⟨l, hl, rfl⟩ := List.mem_map.mp he
    exact hans l hl
  rw [LaneOutcome, exec_ttest, execTtest]
  simp only [Ctx.laneTickets, List.foldl_map]
  refine issue_lanes hi ?checks (f := fun x y l => y.push l (x.tested l (x.v64 a.toNat l))) fun m y l hl _ hag => ?_
  case checks =>
    exact (congrArg (Pre.then · _) (Ctx.foreignLanes_go hown)).trans ((Ctx.askFor_tested hall _ _).trans
      (congrArg Pre.ofTraps (Ctx.ansTraps_tested hall)))
  have htested : (c.withMarks m).tested l ((c.withMarks m).v64 a.toNat l) = (testAnswer c l (c.v64 a.toNat l)).getD false :=
    Ctx.tested_of_testAnswer (hans l hl)
  have hpush := LaneStep.push y l ((testAnswer c l (c.v64 a.toNat l)).getD false)
  rw [hag.preds, pushBit_eq] at hpush
  rw [htested]
  exact hpush

/-- `trelb` posts one release, and none for the null ticket (R86, R95). -/
theorem exec_trelb_posts (hi : Issues s g [.hr a.toNat] c) (hown : c.foreign (c.hd a.toNat) true = false)
    (hacq : c.acqPending = false) :
    EffOutcome (.trelb g a) s c (if c.hd a.toNat = 0 then [] else [c.trelEff (maskOf c.act) (c.hd a.toNat)]) := by
  refine effOutcome_of_send ?_
  rw [SendOutcome, exec_trelb, execTrelb]
  refine issue_sends hi ?checks fun m => congrArg Res.done ?effect
  case checks =>
    rw [Ctx.acqWait_of_clear hacq, hown]
    rfl
  case effect =>
    by_cases hnull : c.hd a.toNat = 0
    · rw [if_pos hnull, List.append_nil]
      exact if_pos hnull
    · rw [if_neg hnull]
      exact if_neg hnull

/-- `ttestb` pushes the one answer in every lane (R94). -/
theorem exec_ttestb_pushes (hi : Issues s g [.hr a.toNat] c) (hown : c.foreign (c.hd a.toNat) true = false)
    (hans : (testAnswer c 64 (c.hd a.toNat)).isSome = true) :
    LaneOutcome (.ttestb g a) s c noWrites (pushed c (fun _ => (testAnswer c 64 (c.hd a.toNat)).getD false)) noFlags := by
  have hall : ∀ e ∈ [(64, c.hd a.toNat)], (testAnswer c e.1 e.2).isSome = true := by simpa using hans
  rw [LaneOutcome, exec_ttestb, execTtestb]
  refine issue_lanes hi ?checks (f := fun x y l => y.push l (x.tested 64 (x.hd a.toNat))) fun m y l _ _ hag => ?_
  case checks =>
    dsimp only
    rw [hown, if_neg Bool.false_ne_true, Ctx.askFor_tested hall, Ctx.ansTraps_tested hall]
    rfl
  have htested : (c.withMarks m).tested 64 ((c.withMarks m).hd a.toNat) = (testAnswer c 64 (c.hd a.toNat)).getD false :=
    Ctx.tested_of_testAnswer hans
  have hpush := LaneStep.push y l ((testAnswer c 64 (c.hd a.toNat)).getD false)
  rw [hag.preds, pushBit_eq] at hpush
  rw [htested]
  exact hpush

end

end Sys2Proof.Machine

namespace Sys2Proof.Proofs

open Sys2Proof Sys2Proof.Machine Sys2Proof.Safety

/-- Settles O45: `rdm` by the zeros and claims that its lanes leave in order, `rdmb` by whether its destination can take the
block, tests by their answers, releases by the messages left for the commit. -/
theorem ticketUses : Obligations.TicketUses := by
  intro s g d a b c n posted
  refine ⟨fun hi hown => ?rdm, fun hi hacq hnull hown => ?rdmb, fun hi hacq hnull hans hpage hwait hwalk hteam => ?null,
    fun hi hown => ?lanes, fun hi hown => ?block⟩
  case rdm =>
    obtain rfl : c.s = s := issueCtx_s hi.1
    exact exec_rdm_claims hi hown
  case rdmb =>
    intro va x hx hscratch hlocal halign data hdata hone
    obtain rfl : c.s = s := issueCtx_s hi.1
    exact exec_rdmb_sends hi hacq hnull hown (Option.mem_toList.mp hx) ⟨hscratch, hlocal⟩ halign
      (ans_of_claimData hnull (Option.mem_toList.mp hdata)) hone
  case null =>
    obtain rfl : c.s = s := issueCtx_s hi.1
    obtain ⟨c', hexec, hc'⟩ := exec_rdmb_null hi hacq hnull hans hpage hwait hwalk hteam
    refine ⟨c', _, _, hexec, ?_, hc'⟩
    rcases Ctx.nullPlace_cases (d := d.toNat) (act_ne_nil hi) with hnone | ⟨x, hx, hscratch, hplace⟩
    · rw [hnone]
      exact .inl ⟨rfl, rfl⟩
    · rw [hplace]
      exact .inr ⟨x, _, hx, hscratch, rfl, rfl⟩
  case lanes => exact ⟨exec_trel_posts hi hown, exec_ttest_pushes hi hown⟩
  case block => exact ⟨exec_trelb_posts hi hown, exec_ttestb_pushes hi hown⟩

end Sys2Proof.Proofs

namespace Sys2Proof.Machine

open Host Sys2Proof.Safety

/-! # Tickets at their homes (R85 to R97, R239) -/

/-! ## Entries -/

theorem State.ticket_setTicket {s : State} (hsort : Map.sorted s.tickets = true) (key j : Nat) (x : Ticket) :
    (s.setTicket key x).ticket j = if j = key then x else s.ticket j :=
  Map.getD_put s.tickets key j x Ticket.init hsort

theorem State.ticket_setTicket_same {s : State} (hsort : Map.sorted s.tickets = true) (key : Nat) (x : Ticket) :
    (s.setTicket key x).ticket key = x :=
  (State.ticket_setTicket hsort key key x).trans (if_pos rfl)

theorem State.setTicket_sorted {s : State} (hsort : Map.sorted s.tickets = true) (key : Nat) (x : Ticket) :
    Map.sorted (s.setTicket key x).tickets = true := Map.sorted_put hsort key x Ticket.init

/-- Entries are read from the ticket table alone. -/
theorem State.ticket_congr {s t : State} (h : t.tickets = s.tickets) (key : Nat) : t.ticket key = s.ticket key :=
  congrArg (fun m => Map.getD m key Ticket.init) h

/-- The entry found free is one of the slice's 4096 (R87). -/
theorem State.freeEntry_lt {s : State} {slice n p i : Nat} (h : s.freeEntry slice n p = some i) : i < 4096 := by
  induction n generalizing p with
  | zero => cases h
  | succ n ih =>
    unfold State.freeEntry at h
    split at h
    next =>
      cases h
      exact Nat.mod_lt p (by decide)
    next => exact ih h

/-! ## What removing a message leaves -/

theorem State.dropMsg_tickets (s : State) (id : Nat) : (s.dropMsg id).tickets = s.tickets := by
  obtain ⟨_, _, _, _, h⟩ := s.dropMsg_fields id
  rw [h]

theorem State.dropMsg_mem (s : State) (id : Nat) : (s.dropMsg id).mem = s.mem := by
  obtain ⟨_, _, _, _, h⟩ := s.dropMsg_fields id
  rw [h]

theorem State.dropMsg_dropped (s : State) (id : Nat) : (s.dropMsg id).dropped = s.dropped := by
  obtain ⟨_, _, _, _, h⟩ := s.dropMsg_fields id
  rw [h]

/-- The other messages stay, and none waits for the one removed. -/
theorem State.dropMsg_net (s : State) (id : Nat) :
    (s.dropMsg id).net =
      (s.net.filter (fun m => decide (m.id ≠ id))).map (fun m => { m with after := m.after.filter (· ≠ id) }) := by
  unfold State.dropMsg
  split
  · rfl
  · split <;> rfl

/-- Removing a message leaves the operations of each party. -/
theorem State.dropMsg_findOp {α : Type} (s : State) (id : Nat) (f : Nat → List PendOp → Option α) :
    (s.dropMsg id).parties.findSome? (fun e => f e.1 e.2.pend) = s.parties.findSome? (fun e => f e.1 e.2.pend) := by
  unfold State.dropMsg
  split
  · exact List.findSome?_map ..
  · split <;> exact List.findSome?_map ..

/-- An arriving message has the number it was asked by. -/
theorem State.arriving_id {s : State} {msg : Nat} {m : Msg} (h : s.arriving msg = some m) : m.id = msg := by
  unfold State.arriving at h
  split at h
  next => cases h
  next x hx =>
    obtain ⟨-, rfl⟩ : _ ∧ x = m := by simpa only [Option.ite_none_right_eq_some, Option.some.injEq] using h
    have hid : decide (x.id = msg) = true := List.find?_some (p := fun m : Msg => decide (m.id = msg)) hx
    exact of_decide_eq_true hid

/-! ## The read and the atomic operation of a request -/

/-- A read leaves what stores keep for tests of `protected` sets and frames: none where there was none. -/
theorem State.load_unshadowed {s : State} (hu : Unshadowed s) (who : Who) (pa n : Nat) : Unshadowed (s.load who pa n).2 := by
  let marks := fun t : State => t.grids.map (fun e => (e.2.undo, e.2.prot))
  have hobserve : ∀ (t : State) (g : Nat), marks (t.observe who g) = marks t := by
    intro t g
    simp only [marks, State.observe, List.map_map]
    refine List.map_congr_left fun e _ => ?_
    dsimp only [Function.comp]
    split <;> rfl
  have htouch : ∀ t : State, marks (t.touch pa) = marks t := by
    intro t
    unfold State.touch
    split <;> rfl
  have hload : marks (s.load who pa n).2 = marks s := (htouch _).trans (foldl_keeps marks hobserve (granules pa n) s)
  intro e he
  have hmem : (e.2.undo, e.2.prot) ∈ marks s := hload ▸ List.mem_map_of_mem he
  obtain ⟨x, hx, heq⟩ := List.mem_map.mp hmem
  obtain ⟨hundo, hprot⟩ := Prod.mk.inj heq
  exact hundo ▸ hprot ▸ hu x hx

theorem leBytes_length (n x : Nat) : (leBytes n x).length = n := by
  induction n generalizing x with
  | zero => rfl
  | succ n ih => exact congrArg Nat.succ (ih _)

/-- An atomic operation gives the value that was there (R84). -/
theorem State.applyAtomic_value (s : State) (who : Who) (x : Loc) (op : AtomOp) (dbl : Bool) (a b : DWord) :
    (s.applyAtomic who x op dbl a b).1 = memNat s.mem x.pa (if dbl then 8 else 4) := by
  unfold State.applyAtomic
  dsimp only
  split <;> rfl

theorem State.applyAtomic_beyond (s : State) (who : Who) (x : Loc) (op : AtomOp) (dbl : Bool) (a b : DWord) :
    (s.applyAtomic who x op dbl a b).2.beyond = s.beyond := by
  unfold State.applyAtomic
  dsimp only
  split
  · exact (State.store_beyond ..).trans (State.load_beyond ..)
  · exact State.load_beyond ..

/-- The new value that an atomic operation stores, unless it stores none (R84, R124). -/
abbrev atomResult (s : State) (x : Loc) (op : AtomOp) (dbl : Bool) (a b : DWord) : Option Nat :=
  let n := if dbl then 8 else 4
  atomStep op (8 * n) (memNat s.mem x.pa n) (a.toNat % 2 ^ (8 * n)) (b.toNat % 2 ^ (8 * n))

theorem State.applyAtomic_stores {s : State} (hm : MemOk s) (hu : Unshadowed s) {who : Who} {x : Loc} {op : AtomOp} {dbl : Bool}
    {a b : DWord} {v : Nat} (hv : atomResult s x op dbl a b = some v) :
    Stored s (s.applyAtomic who x op dbl a b).2 x.pa (leBytes (if dbl then 8 else 4) v) := by
  have hmem : (s.applyAtomic who x op dbl a b).2.mem = memPuts s.mem x.pa (leBytes (if dbl then 8 else 4) v) := by
    unfold State.applyAtomic
    dsimp only
    rw [show atomStep _ _ _ _ _ = some v from hv]
    exact (State.store_mem_of_unshadowed (State.load_unshadowed hu _ _ _) _ _ _).trans
      (congrArg (fun mem => memPuts mem _ _) (State.load_mem ..))
  exact stored_of_mem hm hmem

theorem State.applyAtomic_keeps {s : State} {who : Who} {x : Loc} {op : AtomOp} {dbl : Bool} {a b : DWord}
    (hv : atomResult s x op dbl a b = none) : (s.applyAtomic who x op dbl a b).2.mem = s.mem := by
  unfold State.applyAtomic
  dsimp only
  rw [show atomStep _ _ _ _ _ = none from hv]
  exact State.load_mem ..

/-! ## Service of requests (R87 to R89) -/

/-- The entry that a served request is given. -/
abbrev State.granted (s : State) (m : Msg) (f : Fetch) (frame : DWord) (key : Nat) : Ticket :=
  { s.ticket key with
    st := .ready, launch := f.launch, asid := f.asid, frame := frame, deadline := s.ns + f.lease, remain := 0,
    len := f.held, block := f.block, data := [], claim := none, poison := false, src := none,
    team := m.team, grid := m.grid, since := s.steps }

/-- The state that has given it. -/
abbrev State.allotted (s : State) (m : Msg) (f : Fetch) (slice : Nat) (frame : DWord) (i : Nat) : State :=
  { s.setTicket (slice * 4096 + i) (s.granted m f frame (slice * 4096 + i)) with
    ticketPtr := Map.put s.ticketPtr slice ((i + 1) % 4096) 0 }

theorem State.allocTicket_eq {s : State} {m : Msg} {f : Fetch} {slice i : Nat} {frame : DWord}
    (hunits : s.unitsUsed slice + ticketUnits f.block f.held ≤ 16384)
    (hfree : s.freeEntry slice 4096 (Map.getD s.ticketPtr slice 0) = some i) :
    s.allocTicket m slice f f.held [] false none frame = some (i, s.allotted m f slice frame i) := by
  rw [State.allocTicket, if_neg (Nat.not_lt.mpr hunits), hfree]
  rfl

/-- What the service of a request leaves: memory as its step leaves it, its entry READY with the data, and its ticket on the
way to the core that asked (R87 to R89). -/
theorem State.serve_gives {s : State} {m : Msg} {f : Fetch} {slice i : Nat} {frame : DWord} {step : State → List Byte × State}
    (hsort : Map.sorted s.tickets = true) (hold : m.id < s.keys)
    (hunits : s.unitsUsed slice + ticketUnits f.block f.held ≤ 16384)
    (hfree : s.freeEntry slice 4096 (Map.getD s.ticketPtr slice 0) = some i)
    (hstep : (step (s.allotted m f slice frame i)).2.beyond = (s.allotted m f slice frame i).beyond) :
    let key := slice * 4096 + i
    let r := step (s.allotted m f slice frame i)
    let t := s.serve m f slice frame step
    t.mem = r.2.mem ∧ (∀ e ∈ t.net, e.id ≠ m.id) ∧
      t.ticket key = { s.granted m f frame key with data := r.1, poison := s.poisoned f.loc.pa f.len } ∧
      ∃ v ∈ t.net, v.dst = .core m.srcDev m.src ∧
        v.body = .ticketValue f.op m.party (mkTicket s.devId slice i (s.ticket key).gen f.block f.launch f.asid) := by
  intro key r t
  have hi := State.freeEntry_lt hfree
  have htickets : r.2.tickets = (s.allotted m f slice frame i).tickets := (congrArg State.tickets hstep :)
  have hnet : r.2.net = s.net := (congrArg State.net hstep :)
  have hkeys : r.2.keys = s.keys := (congrArg State.keys hstep :)
  have hdev : r.2.devId = s.devId := (congrArg State.devId hstep :)
  have hsorted : Map.sorted r.2.tickets = true := htickets ▸ State.setTicket_sorted hsort key (s.granted m f frame key)
  have hgrant : r.2.ticket key = s.granted m f frame key :=
    (State.ticket_congr htickets key).trans (State.ticket_setTicket_same hsort key (s.granted m f frame key) :)
  generalize hx : ({ s.granted m f frame key with data := r.1, poison := s.poisoned f.loc.pa f.len } : Ticket) = x
  have hserve : t = ((r.2.setTicket key x).returnTicket m f key).dropMsg m.id := by
    rw [← hx, ← hgrant]
    simp only [t, State.serve, State.allocTicket_eq hunits hfree]
    rfl
  have hentry : (r.2.setTicket key x).ticket key = x := State.ticket_setTicket_same hsorted key x
  have hvalue : (r.2.setTicket key x).ticketOf key =
      mkTicket s.devId slice i (s.ticket key).gen f.block f.launch f.asid := by
    rw [State.ticketOf, hentry, ← hx, show key / 4096 = slice by omega, show key % 4096 = i by omega]
    exact congrArg (fun dev => mkTicket dev slice i (s.ticket key).gen f.block f.launch f.asid) hdev
  rw [hserve]
  refine ⟨State.dropMsg_mem .., ?others, ?entry, ?value⟩
  case others =>
    intro e he
    rw [State.dropMsg_net, List.mem_map] at he
    obtain ⟨y, hy, rfl⟩ := he
    exact of_decide_eq_true (List.mem_filter.mp hy).2
  case entry => exact (State.ticket_congr (State.dropMsg_tickets ..) key).trans hentry
  case value =>
    have hpost : ((r.2.setTicket key x).returnTicket m f key).net = s.net ++ [{ m with
        id := s.keys, srcDev := s.devId, src := m.core, dst := .core m.srcDev m.src, after := [], applied := false, sent := false,
        orig := 0, asked := false, body := .ticketValue f.op m.party ((r.2.setTicket key x).ticketOf key) }] := by
      rw [← hnet, ← hkeys, ← hdev]
      rfl
    rw [State.dropMsg_net, hpost, hvalue]
    refine ⟨_, List.mem_map_of_mem (List.mem_filter.mpr ⟨List.mem_append_right s.net List.mem_cons_self, ?_⟩), rfl, rfl⟩
    exact decide_eq_true hold.ne'

/-- The read of a request (R87). -/
abbrev readStep (m : Msg) (f : Fetch) (s : State) : List Byte × State :=
  (entryData f (s.bound f.frame f.loc.pa (s.load m.who f.loc.pa f.len).1), (s.load m.who f.loc.pa f.len).2)

/-- The atomic operation of a request (R237). -/
abbrev atomicStep (m : Msg) (f : Fetch) (op : AtomOp) (dbl : Bool) (x y : DWord) (s : State) : List Byte × State :=
  (leBytes f.len (s.applyAtomic m.who f.loc op dbl x y).1, (s.applyAtomic m.who f.loc op dbl x y).2)

theorem atomicStep_data (m : Msg) (f : Fetch) (op : AtomOp) (dbl : Bool) (x y : DWord) (s : State) :
    (atomicStep m f op dbl x y s).1 = leBytes f.len (memNat s.mem f.loc.pa (if dbl then 8 else 4)) :=
  congrArg (leBytes f.len) (State.applyAtomic_value ..)

/-- It stores its result, and nothing else, whatever entry its request has been given (R84). -/
theorem atomicStep_stores {s t : State} (hsame : t.mem = s.mem ∧ t.grids = s.grids) (hm : MemOk s) (hu : Unshadowed s) (m : Msg)
    {f : Fetch} {op : AtomOp} {dbl : Bool} {x y : DWord} {v : Nat} (hv : atomResult s f.loc op dbl x y = some v) (a : Nat) :
    let n := if dbl then 8 else 4
    let mem := (atomicStep m f op dbl x y t).2.mem
    (f.loc.pa ≤ a ∧ a < f.loc.pa + n → memByte mem a = (leBytes n v).getD (a - f.loc.pa) 0) ∧
      (¬(f.loc.pa ≤ a ∧ a < f.loc.pa + n) → memByte mem a = memByte s.mem a) := by
  obtain ⟨hmem, hgrids⟩ := hsame
  have hmt : MemOk t := (congrArg (fun mem => Memory.wf mem = true) hmem).mpr hm
  have hvt : atomResult t f.loc op dbl x y = some v := by rwa [atomResult, hmem]
  have hstored := State.applyAtomic_stores hmt (unshadowed_of_grids hgrids hu) (who := m.who) hvt a
  rwa [leBytes_length, hmem] at hstored

theorem atomicStep_keeps {s t : State} (hmem : t.mem = s.mem) (m : Msg) {f : Fetch} {op : AtomOp} {dbl : Bool} {x y : DWord}
    (hv : atomResult s f.loc op dbl x y = none) : (atomicStep m f op dbl x y t).2.mem = s.mem := by
  have hvt : atomResult t f.loc op dbl x y = none := by rwa [atomResult, hmem]
  exact (State.applyAtomic_keeps hvt).trans hmem

theorem exec_ticketService {s : State} {msg : Nat} {m : Msg} (hm : s.arriving msg = some m) (hsent : m.sent = false)
    (hlock : s.msgLocked m = false) {dev : BitVec 20} {c : Nat} (hdst : m.dst = .core dev c) :
    (∀ f, m.body = .fetch f →
      exec (.ticketService msg) s = .next (s.serve m f (s.tableSlice f.loc) f.frame (readStep m f))) ∧
    (∀ f op dbl x y, m.body = .att f op dbl x y →
      exec (.ticketService msg) s = .next (s.serve m f (s.tableSlice f.loc) 0 (atomicStep m f op dbl x y))) := by
  constructor
  · intro f hb
    unfold exec execTicketService
    simp only [hm, hsent, hlock, hb, hdst]
    rfl
  · intro f op dbl x y hb
    unfold exec execTicketService
    simp only [hm, hsent, hlock, hb, hdst]
    rfl

/-! ## Reads of host windows (R90, R239) -/

/-- The request that holds an entry while its read at a host port is outstanding (R239). -/
def State.requestOf (s : State) (key : Nat) : Option Msg :=
  s.net.find? (fun m => m.sent && (match m.body with
    | .fetch f => decide (f.op = key)
    | .att f _ _ _ _ => decide (f.op = key)
    | _ => false))

/-- The read of a host window is made: its entry is READY with the data, or FREE where its generation has ended (R90). -/
theorem exec_ticketFetchComplete {s : State} {slice entry : Nat} {m : Msg} {f : Fetch} {data : List Byte} (hmem : MemOk s)
    (hreq : s.requestOf (slice * 4096 + entry) = some m) (hb : m.body = .fetch f) (hfront : s.deliverable m = true)
    (hlen : f.len ≤ data.length) :
    ∃ t : State, t.tickets = s.tickets ∧ exec (.ticketFetchComplete slice entry data) s =
      .next (t.fetchDone (slice * 4096 + entry) (entryData f (data.take f.len))) := by
  have htake : (data.take f.len).length = f.len := List.length_take_of_le hlen
  have hbytes : memBytes (memPuts s.mem f.loc.pa (data.take f.len)) f.loc.pa f.len = data.take f.len := by
    have hread := memBytes_memPuts s.mem f.loc.pa (data.take f.len) hmem
    rwa [htake] at hread
  let s1 : State := { s with mem := memPuts s.mem f.loc.pa (data.take f.len) }
  refine ⟨((s1.load m.who f.loc.pa f.len).2).dropMsg m.id,
    (State.dropMsg_tickets ..).trans (congrArg State.tickets (State.load_beyond s1 m.who f.loc.pa f.len) :), ?_⟩
  unfold exec execTicketFetchComplete
  dsimp only
  split
  next hnone => exact absurd (hreq.symm.trans hnone) nofun
  next x hx =>
    cases hreq.symm.trans hx
    simp only [hfront, hb, State.load_bytes, hbytes]
    rfl

theorem State.fetchDone_pending {s : State} {key : Nat} (hsort : Map.sorted s.tickets = true) (hst : (s.ticket key).st = .pending)
    (hclaim : (s.ticket key).claim = none) (data : List Byte) :
    (s.fetchDone key data).ticket key = { s.ticket key with st := .ready, src := none, data := data } := by
  unfold State.fetchDone
  simp only [hst, hclaim]
  exact State.ticket_setTicket_same hsort key _

theorem State.fetchDone_orphaned {s : State} {key : Nat} (hsort : Map.sorted s.tickets = true)
    (hst : (s.ticket key).st = .orphaned) (data : List Byte) :
    (s.fetchDone key data).ticket key = { s.ticket key with st := .free, src := none, len := 0, block := false, data := [] } := by
  unfold State.fetchDone
  simp only [hst]
  exact State.ticket_setTicket_same hsort key _

end Sys2Proof.Machine

namespace Sys2Proof.Machine

open Host Sys2Proof.Safety

/-! ## Ticket values (R88, R28, R98) -/

/-- The operation that awaits a result, with its party. -/
def State.opOf (s : State) (op : Nat) : Option (Nat × PendOp) :=
  s.parties.findSome? (fun e => (e.2.pend.find? (fun o => decide (o.id = op))).map (fun o => (e.1, o)))

theorem State.opOf_dropMsg (s : State) (id op : Nat) : (s.dropMsg id).opOf op = s.opOf op :=
  State.dropMsg_findOp s id (fun pid l => (l.find? (fun o : PendOp => decide (o.id = op))).map (fun o => (pid, o)))

theorem State.opOf_eq_none {s : State} {op : Nat} (h : ∀ e ∈ s.parties, ∀ o ∈ e.2.pend, o.id ≠ op) :
    s.opOf op = none := by
  refine List.findSome?_eq_none_iff.mpr fun e he => Option.map_eq_none_iff.mpr (List.find?_eq_none.mpr fun o ho => ?_)
  simpa using h e he o ho

section
variable {s : State} {msg op party : Nat} {m : Msg} {v : DWord}

/-- A ticket value reaches its operation; the run of a late or committed one no longer keeps it for release (R28, R88). -/
theorem exec_ticketValueReturn_reaches (hm : s.arriving msg = some m) (hb : m.body = .ticketValue op party v)
    {pid : Nat} {o : PendOp} (hop : s.opOf op = some (pid, o)) (ho : o.late = true ∨ o.committed = true) :
    exec (.ticketValueReturn msg) s = .next (((s.dropMsg msg).noteGiven m.team v).opValue op (o.valsOf v) false) := by
  unfold exec execTicketValueReturn
  simp only [hm, hb]
  split
  next pid' o' hop' =>
    cases hop.symm.trans ((State.opOf_dropMsg s msg op).symm.trans hop')
    rw [if_neg]
    rcases ho with h | h <;> simp [h]
  next hnone => exact absurd (hop.symm.trans ((State.opOf_dropMsg s msg op).symm.trans hnone)) nofun

/-- One whose run was abandoned is released, one whose party has ended is unreferenced (R28, R98). -/
theorem exec_ticketValueReturn_dropped (hm : s.arriving msg = some m) (hb : m.body = .ticketValue op party v)
    (hop : s.opOf op = none) :
    (∀ x, s.dropped.find? (fun y => decide (y.1 = op)) = some x → ticketGen v ≠ 0 →
      exec (.ticketValueReturn msg) s = .next (State.postPart
        { s.dropMsg msg with dropped := s.dropped.filter (fun y => decide (y ≠ x)) } m.core (ticketHome v) (.trel v x.2))) ∧
    (s.dropped.find? (fun y => decide (y.1 = op)) = none → exec (.ticketValueReturn msg) s = .next (s.dropMsg msg)) := by
  have hnone : (s.dropMsg msg).opOf op = none := (State.opOf_dropMsg s msg op).trans hop
  constructor
  · intro x hx hgen
    unfold exec execTicketValueReturn
    simp only [hm, hb, State.dropMsg_dropped, hx, if_neg hgen]
    split
    next hop' => exact absurd (hnone.symm.trans hop') nofun
    next => rfl
  · intro hx
    unfold exec execTicketValueReturn
    simp only [hm, hb, State.dropMsg_dropped, hx]
    split
    next hop' => exact absurd (hnone.symm.trans hop') nofun
    next => rfl

end

/-! ## Claims, tests and releases at the home (R91, R94 to R96) -/

/-- No deadline takes effect before the message is applied (R96). -/
theorem State.lapse_of_due {s : State} {key : Nat}
    (h : ((s.ticket key).leased && s.clkPast (key / 4096) (s.ticket key).deadline) = false) : s.lapse key = s := by
  unfold State.lapse
  refine if_neg fun hdue => ?_
  simp only [Bool.and_eq_true] at hdue
  obtain ⟨⟨hleased, -⟩, hpast⟩ := hdue
  rw [hleased, hpast] at h
  cases h

section
variable {s : State} {msg : Nat} {m : Msg} {v : DWord} (hm : s.atHome msg = some m)
  (hdue : ((s.ticket (ticketKey v)).leased && s.clkPast (ticketKey v / 4096) (s.ticket (ticketKey v)).deadline) = false)
include hm hdue

/-- A claim that is next for an unclaimed entry is applied there (R91, R96). -/
theorem exec_claimAtHome_claims {who : Asker} {launch : BitVec 32} {asid : BitVec 16} {frame : DWord}
    (hb : m.body = .claim v who launch asid frame) (hclaim : (s.ticket (ticketKey v)).claim = none)
    (hnext : s.nextFor m (ticketKey v) = true) :
    exec (.claimAtHome msg) s = .next (s.claimAt m v who launch asid frame) := by
  unfold exec execClaimAtHome
  simp only [hm, hb, State.lapse_of_due hdue, hclaim, hnext]
  rfl

/-- A test that passes its checks is answered with whether the data is there for a claim (R94). -/
theorem exec_claimAtHome_tests {who : Asker} {launch : BitVec 32} {asid : BitVec 16} {frame : DWord}
    (hb : m.body = .test v who launch asid frame)
    (htrap : (s.ticket (ticketKey v)).claimTrap v launch asid frame = none) :
    exec (.claimAtHome msg) s = .next (s.answerClaim m who v
      (some [if (s.ticket (ticketKey v)).st = .ready ∧ (s.ticket (ticketKey v)).claim = none then 1 else 0]) 258 false) := by
  unfold exec execClaimAtHome
  simp only [hm, hb, State.lapse_of_due hdue, htrap, Option.isNone_iff_eq_none]

/-- A release of an unclaimed entry ends its generation (R95). -/
theorem exec_trelAtHome_ends {launch : BitVec 32} (hb : m.body = .trel v launch)
    (hgen : (s.ticket (ticketKey v)).gen = ticketGen v) (hlaunch : (s.ticket (ticketKey v)).launch = launch)
    (hst : (s.ticket (ticketKey v)).st = .pending ∨ (s.ticket (ticketKey v)).st = .ready)
    (hclaim : (s.ticket (ticketKey v)).claim = none) (hnext : s.nextFor m (ticketKey v) = true) :
    exec (.trelAtHome msg) s = .next ((s.dropMsg msg).setTicket (ticketKey v) ((s.ticket (ticketKey v)).finish .released)) := by
  have hlive : ¬ ((s.ticket (ticketKey v)).gen ≠ ticketGen v ∨ (s.ticket (ticketKey v)).launch ≠ launch ∨
      ((s.ticket (ticketKey v)).st ≠ .pending ∧ (s.ticket (ticketKey v)).st ≠ .ready)) := by
    rintro (h | h | ⟨hpending, hready⟩)
    · exact h hgen
    · exact h hlaunch
    · exact hst.elim hpending hready
  unfold exec execTrelAtHome
  simp only [hm, hb, State.lapse_of_due hdue, if_neg hlive, hclaim, hnext]
  rfl

end

section
variable {s : State} {m : Msg} {v : DWord} {who : Asker} {launch : BitVec 32} {asid : BitVec 16} {frame : DWord}

/-- A claim that fails its checks is answered with the trap (R91). -/
theorem State.claimAt_traps {k : Nat} (h : (s.ticket (ticketKey v)).claimTrap v launch asid frame = some k) :
    s.claimAt m v who launch asid frame = s.answerClaim m who v none k false := by
  rw [State.claimAt, h]

variable (h : (s.ticket (ticketKey v)).claimTrap v launch asid frame = none)
include h

/-- One that passes them takes the entry, and is answered when the data is there (R91). -/
theorem State.claimAt_ready (hst : (s.ticket (ticketKey v)).st = .ready) :
    s.claimAt m v who launch asid frame = (s.setTicket (ticketKey v) { s.ticket (ticketKey v) with
      claim := some who, remain := (s.ticket (ticketKey v)).deadline - s.ns }).answerClaim m who v
        (some (s.ticket (ticketKey v)).data) 0 (s.ticket (ticketKey v)).poison := by
  rw [State.claimAt, h]
  exact if_pos hst

theorem State.claimAt_pending (hst : (s.ticket (ticketKey v)).st = .pending) :
    s.claimAt m v who launch asid frame = (s.setTicket (ticketKey v) { s.ticket (ticketKey v) with
      claim := some who, remain := (s.ticket (ticketKey v)).deadline - s.ns }).waitAtHome m.id := by
  rw [State.claimAt, h]
  exact if_neg (by rw [hst]; nofun)

end

/-! ## Confirmations, cancellations and deadlines (R90, R91, R97) -/

section
variable {s : State} {msg : Nat} {m : Msg} {v : DWord} {who : Asker} (hm : s.arriving msg = some m)
  (hclaim : (s.ticket (ticketKey v)).claim = some who) (hgen : (s.ticket (ticketKey v)).gen = ticketGen v)
include hm hclaim hgen

/-- A confirmed claim ends the generation (R90, R337). -/
theorem exec_claimConfirm_ends (hb : m.body = .confirm v who) :
    exec (.claimConfirm msg) s = .next (((s.dropMsg msg).handOut (s.ticket (ticketKey v)) m).setTicket (ticketKey v)
      ((s.ticket (ticketKey v)).finish .redeemed)) := by
  unfold exec execClaimConfirm
  simp only [hm, hb]
  rw [if_pos ⟨hclaim, hgen⟩]

/-- A cancelled one leaves the entry unclaimed with the time that remained (R91, R97). -/
theorem exec_claimCancel_returns (hb : m.body = .cancel v who) :
    ∃ t : State, t.tickets = s.tickets ∧ exec (.claimCancel msg) s = .next (t.setTicket (ticketKey v)
      { s.ticket (ticketKey v) with claim := none, deadline := s.ns + (s.ticket (ticketKey v)).remain, remain := 0 }) := by
  unfold exec execClaimCancel
  simp only [hm, hb, if_pos (And.intro hclaim hgen)]
  refine ⟨_, ?_, rfl⟩
  split
  · exact (State.dropMsg_tickets ..).trans (State.dropMsg_tickets ..)
  · exact State.dropMsg_tickets ..

end

/-- The deadline of an unclaimed entry for which no claim waits reclaims it (R96, R97). -/
theorem exec_ticketDeadline_reclaims {s : State} {slice entry : Nat}
    (hst : (s.ticket (slice * 4096 + entry)).st = .pending ∨ (s.ticket (slice * 4096 + entry)).st = .ready)
    (hclaim : (s.ticket (slice * 4096 + entry)).claim = none) (hwait : s.waitingFor (slice * 4096 + entry) = [])
    (hmode : s.regs.funcMode.getLsbD 3 = false)
    (hdue : s.clkPast slice (s.ticket (slice * 4096 + entry)).deadline = true ∨
      (s.clkCome slice (s.ticket (slice * 4096 + entry)).deadline = true ∧ s.claimsDue (slice * 4096 + entry) = false)) :
    exec (.ticketDeadline slice entry) s = .next (s.reclaim (slice * 4096 + entry)) := by
  have hleased : (s.ticket (slice * 4096 + entry)).leased = true := by
    rw [Ticket.leased, hclaim]
    rcases hst with h | h <;> simp [h]
  have hexpire : s.expireTicket (slice * 4096 + entry) = s.reclaim (slice * 4096 + entry) := by
    rw [State.expireTicket, hmode]
    rfl
  unfold exec execTicketDeadline
  dsimp only
  rw [if_pos, hexpire]
  rw [hleased, hwait]
  rcases hdue with hpast | ⟨hcome, hnone⟩
  · simp [hpast]
  · simp [hcome, hnone]

theorem State.ticket_reclaim {s : State} (hsort : Map.sorted s.tickets = true) (key j : Nat) :
    (s.reclaim key).ticket j = if j = key then (s.ticket key).finish .reclaimed else s.ticket j :=
  State.ticket_setTicket hsort key j _

/-! ## Answers at the core that asked (R54, R91, R92, R94, R274) -/

section
variable {s : State} {msg : Nat} {m : Msg} {who : Asker} {v : DWord} (hm : s.arriving msg = some m)
include hm

section
variable {pid : Nat} {o : PendOp} (hop : (s.dropMsg msg).claimOp? who = some (pid, o))
include hop

theorem exec_claimAnswer_data {data : List Byte} {bad : Bool} (hb : m.body = .claimAns who v (some data) 0 bad) :
    exec (.claimAnswer msg) s = .next (((s.dropMsg msg).opValue o.id
      (wordsOf o.dests.length (leNat (data.take (4 * o.dests.length)))) bad).addEff pid o.bundle o.lanes
      (sending (ticketHome v) (.confirm v who) none false false false)).recheck := by
  unfold exec execClaimAnswer
  simp only [hm, hb, hop]
  rfl

theorem exec_claimAnswer_frame {b : List Byte} {bad : Bool} (hb : m.body = .claimAns who v (some b) 261 bad) :
    exec (.claimAnswer msg) s = .next (((s.dropMsg msg).opValue o.id (if (b.headD 0).toNat = 0 then [v.toNat] else []) false).addEff
      pid o.bundle o.lanes (sending (frameHome v)
        (.frameConfirm (b.headD 0).toNat v (BitVec.ofNat 64 (leNat (b.drop 1))) who)
        (if (b.headD 0).toNat = 1 then some 3 else none) false false false)).recheck := by
  unfold exec execClaimAnswer
  simp only [hm, hb, hop]
  rfl

theorem exec_claimAnswer_opTrap {k : Nat} {bad : Bool} (hb : m.body = .claimAns who v none k bad) :
    exec (.claimAnswer msg) s = .next ((s.dropMsg msg).opTrap o.id k).recheck := by
  unfold exec execClaimAnswer
  simp only [hm, hb, hop]

end

variable (hop : (s.dropMsg msg).claimOp? who = none)
include hop

theorem exec_claimAnswer_accepted {data : List Byte} {bad : Bool} (hb : m.body = .claimAns who v (some data) 0 bad) :
    exec (.claimAnswer msg) s = .next ((s.dropMsg msg).accepted who (.data data bad) m.lanes (ticketHome v) (.confirm v who)
      (.cancel v who) none).recheck := by
  unfold exec execClaimAnswer
  simp only [hm, hb, hop]

theorem exec_claimAnswer_flag {b : Byte} {bad : Bool} (hb : m.body = .claimAns who v (some [b]) 258 bad) :
    exec (.claimAnswer msg) s = .next ((s.dropMsg msg).answer who (.flag (decide (b ≠ 0)))).recheck := by
  unfold exec execClaimAnswer
  simp only [hm, hb, hop]
  rfl

theorem exec_claimAnswer_value {b : Option (List Byte)} {bad : Bool} (hb : m.body = .claimAns who v b 260 bad)
    (hlane : who.lane ≠ 65) :
    exec (.claimAnswer msg) s = .next ((s.dropMsg msg).answer who (.val v)).recheck := by
  unfold exec execClaimAnswer
  simp only [hm, hb, hop, if_neg hlane]

theorem exec_claimAnswer_go {bad : Bool} (hb : m.body = .claimAns who v none 256 bad) :
    exec (.claimAnswer msg) s = .next ((s.dropMsg msg).releaseBundle m.core who .go) := by
  unfold exec execClaimAnswer
  simp only [hm, hb, hop]

theorem exec_claimAnswer_trap {k : Nat} {bad : Bool} (hb : m.body = .claimAns who v none k bad) (hk : 1 ≤ k ∧ k ≤ 255) :
    exec (.claimAnswer msg) s = .next (((s.dropMsg msg).answer who (.trap k 0)).releaseBundle m.core who (.trap k 0)).recheck := by
  unfold exec execClaimAnswer
  simp only [hm, hb, hop]
  split
  case h_3 hsome _ _ => cases hsome
  case h_14 => rfl
  all_goals omega

end

end Sys2Proof.Machine

namespace Sys2Proof.Proofs

open Sys2Proof Sys2Proof.Machine Sys2Proof.Safety

/-- Settles O55: each event at the home of a ticket by what it leaves in the entry, each answer by the case of its code. -/
theorem ticketHomes : Obligations.TicketHomes := by
  refine ⟨fun s hsort => ⟨fun msg i c m dev hm hsent hlock hdst hold => ?service, fun slice entry m f data hmem => ?fetched,
    fun msg op party m v hm hb => ?value, fun msg m v hm => ?home, fun msg m v who hm => ?ended, fun slice entry => ?deadline⟩,
    fun s msg m who v hm => ⟨fun pid o hop => ?operation, fun hop => ?bundle⟩⟩
  case service =>
    intro given
    obtain rfl := State.arriving_id hm
    obtain ⟨hfetch, hatt⟩ := exec_ticketService hm hsent hlock hdst
    refine ⟨fun f hb => ?fetch, fun f op dbl x y hb hmem hu => ?att⟩
    case fetch =>
      intro hunits hfree
      obtain ⟨hmem, hothers, hentry, r, hr, hcore, hbody⟩ := State.serve_gives (frame := f.frame) (step := readStep m f)
        hsort hold hunits hfree (State.load_beyond ..)
      exact ⟨_, r, hfetch f hb, hmem.trans (State.load_mem ..), hothers, hentry, hr, hcore, hbody⟩
    case att =>
      intro n old hunits hfree
      obtain ⟨hmemT, hothers, hentry, r, hr, hcore, hbody⟩ := State.serve_gives (frame := 0)
        (step := atomicStep m f op dbl x y) hsort hold hunits hfree (State.applyAtomic_beyond ..)
      rw [atomicStep_data] at hentry
      refine ⟨_, r, hatt f op dbl x y hb, ?_, hothers, hentry, hr, hcore, hbody⟩
      rw [hmemT]
      dsimp only
      split
      next v hv => exact atomicStep_stores (t := s.allotted m f (s.tableSlice f.loc) 0 i) ⟨rfl, rfl⟩ hmem hu m hv
      next hv => exact atomicStep_keeps rfl m hv
  case fetched =>
    intro key e hreq hb hfront hlen hclaim
    obtain ⟨t, htickets, hexec⟩ := exec_ticketFetchComplete hmem hreq hb hfront hlen
    have hentry : t.ticket key = e := State.ticket_congr htickets key
    have hsorted : Map.sorted t.tickets = true := htickets ▸ hsort
    refine ⟨_, hexec, fun hst => ?_, fun hst => ?_⟩
    · rw [State.fetchDone_pending hsorted (hentry ▸ hst) (hentry ▸ hclaim), hentry]
    · rw [State.fetchDone_orphaned hsorted (hentry ▸ hst), hentry]
  case value =>
    exact ⟨fun pid o hop ho => exec_ticketValueReturn_reaches hm hb hop ho,
      fun hnone => exec_ticketValueReturn_dropped hm hb (State.opOf_eq_none hnone)⟩
  case home =>
    intro key e hdue
    refine ⟨fun who launch asid frame hb hclaim hnext => ?claim, fun who launch asid frame hb htrap => ?test,
      fun launch hb hgen hlaunch hst hclaim hnext => ?release⟩
    case claim =>
      have hexec := exec_claimAtHome_claims hm hdue hb hclaim hnext
      exact ⟨fun k hk => hexec.trans (congrArg Host.Outcome.next (State.claimAt_traps hk)),
        fun htrap hst => hexec.trans (congrArg Host.Outcome.next (State.claimAt_ready htrap hst)),
        fun htrap hst => hexec.trans (congrArg Host.Outcome.next (State.claimAt_pending htrap hst))⟩
    case test => exact exec_claimAtHome_tests hm hdue hb htrap
    case release => exact exec_trelAtHome_ends hm hdue hb hgen hlaunch hst hclaim hnext
  case ended =>
    intro key e hclaim hgen
    refine ⟨exec_claimConfirm_ends hm hclaim hgen, fun hb => ?_⟩
    obtain ⟨t, htickets, hexec⟩ := exec_claimCancel_returns hm hclaim hgen hb
    have hsorted : Map.sorted t.tickets = true := htickets ▸ hsort
    exact ⟨_, hexec, State.ticket_setTicket_same hsorted key _, fun j hj =>
      (State.ticket_setTicket hsorted key j _).trans ((if_neg hj).trans (State.ticket_congr htickets j))⟩
  case deadline =>
    intro key e hst hclaim hwait hmode hdue
    exact ⟨_, exec_ticketDeadline_reclaims hst hclaim hwait hmode hdue, (State.ticket_reclaim hsort key key).trans (if_pos rfl),
      rfl, rfl, fun j hj => (State.ticket_reclaim hsort key j).trans (if_neg hj)⟩
  case operation =>
    exact ⟨fun data bad hb => exec_claimAnswer_data hm hop hb, fun b bad hb => exec_claimAnswer_frame hm hop hb,
      fun k bad hb _ => exec_claimAnswer_opTrap hm hop hb⟩
  case bundle =>
    refine ⟨fun data bad hb => ?data, fun b bad hb => exec_claimAnswer_flag hm hop hb,
      fun b bad hb hlane => exec_claimAnswer_value hm hop hb hlane, fun bad hb => exec_claimAnswer_go hm hop hb,
      fun k bad hb hpos hmax => exec_claimAnswer_trap hm hop hb ⟨hpos, hmax⟩⟩
    case data =>
      have hexec := exec_claimAnswer_accepted hm hop hb
      refine ⟨fun hwait => hexec.trans ?_, fun hgone => hexec.trans ?_⟩
      · rw [State.accepted, if_pos hwait]
        rfl
      · rw [State.accepted, hgone]
        rfl

end Sys2Proof.Proofs

/-! # The state after reset -/

namespace Sys2Proof.Machine

open Host Sys2Proof.Safety

theorem reset_settled : Settled State.reset := ⟨rfl, fun _ he => absurd he List.not_mem_nil⟩

theorem reset_memOk : MemOk State.reset := rfl

theorem reset_modeOk : ModeOk State.reset := show State.reset.mode.toNat ≤ 3 by decide

theorem reset_ticket (k : Nat) : State.reset.ticket k = Ticket.init := rfl

theorem reset_frameEnt (k : Nat) : State.reset.frameEnt k = FrameEnt.init := rfl

end Sys2Proof.Machine

namespace Sys2Proof.Proofs

open Sys2Proof Sys2Proof.Machine Sys2Proof.Safety

/-- Settles O27: each value is the one that `State.reset` writes down, or the initial value of a map that lists nothing. -/
theorem resetState : Obligations.ResetState :=
  ⟨⟨reset_settled, reset_memOk, reset_modeOk⟩, reset_ticket, rfl, rfl, reset_frameEnt, rfl, rfl, rfl, rfl, rfl, rfl, rfl, rfl,
    rfl, rfl, rfl, rfl, rfl, rfl, rfl, rfl, rfl⟩

end Sys2Proof.Proofs

/-! # Words whose effect comes with the commit (R108, R167 to R169, R174) -/

namespace Sys2Proof.Machine

open Host Sys2Proof.Safety

theorem exec_nop (g : BitVec 4) (s : State) : exec (.nop g) s = partywise s g [] (fun c => c) := rfl

theorem exec_yield (g : BitVec 4) (s : State) : exec (.yield g) s = partywise s g [] (fun c => c.effect .yield) := rfl

theorem exec_exit (g : BitVec 4) (s : State) : exec (.exit g) s = partywise s g [] (fun c => c.effect .exit) := rfl

theorem exec_fence (g : BitVec 4) (s : State) : exec (.fence g) s =
    partywise s g [] (fun c => c.effect (.fence (if c.mods.order = 0 then 3 else c.mods.order) c.mods.scope)) := rfl

theorem exec_fend (g : BitVec 4) (s : State) : exec (.fend g) s =
    issue s g [] (fun c => Pre.ofTraps (allTrap (c.divided (fun _ => 0)) cBoundSplit 0)) (fun c => .done (c.effect .fend)) := rfl

theorem exec_tretRetry (g : BitVec 4) (s : State) :
    exec (.tretRetry g) s = issue s g [] Ctx.checkTret (fun c => .done (c.effect (.tret false))) := rfl

theorem exec_tretSkip (g : BitVec 4) (s : State) :
    exec (.tretSkip g) s = issue s g [] Ctx.checkTret (fun c => .done (c.effect (.tret true))) := rfl

/-- A word without checks that leaves one effect of its active lanes (R28). -/
theorem effOutcome_of_partywise {s : State} {g : BitVec 4} {c : Ctx} {i : Instr} {f : Ctx → EffItem}
    (hx : exec i s = partywise s g [] (fun d => d.effect (f d))) (hi : Issues s g [] c) (hf : ∀ m, f (c.withMarks m) = f c) :
    EffOutcome i s c [⟨maskOf c.act, f c⟩] := by
  rw [EffOutcome, hx]
  exact issue_effect hi rfl fun m => congrArg (fun e => Res.done ((c.withMarks m).effect e)) (hf m)

/-- A word whose checks let it go ahead and that leaves one effect of its active lanes. -/
theorem effOutcome_of_issue {s : State} {g : BitVec 4} {c : Ctx} {i : Instr} {pre : Ctx → Pre} {e : EffItem}
    (hx : exec i s = issue s g [] pre (fun d => .done (d.effect e))) (hi : Issues s g [] c) (hp : pre c = .go) :
    EffOutcome i s c [⟨maskOf c.act, e⟩] := by
  rw [EffOutcome, hx]
  exact issue_effect hi hp fun _ => rfl

/-- `nop` only moves its run to the next word (R108). -/
theorem plainOutcome_nop {s : State} {g : BitVec 4} {c : Ctx} (hi : Issues s g [] c) : PlainOutcome (.nop g) s c := by
  rw [PlainOutcome, EffOutcome, exec_nop]
  exact ⟨_, issue_done hi rfl (congrArg Res.done (markLast_eq c [])), executed_of hi.1 rfl (.inl rfl),
    ⟨by rw [List.append_nil]⟩⟩

/-- A trap party may return where all its lanes are active, each at the window base of the record (R174). -/
theorem Ctx.checkTret_go {c : Ctx} {r : TrapRec} (hr : c.p.trap = some r) (hall : maskOf c.act = c.p.mask)
    (hb : ∀ l ∈ c.act, c.wbOf l = r.baseOf l) : c.checkTret = .go := by
  simpa [Ctx.checkTret, hr, hall, allTrap, Pre.ofTraps] using hb

end Sys2Proof.Machine

namespace Sys2Proof.Proofs

open Sys2Proof Sys2Proof.Machine Sys2Proof.Safety

/-- Settles O34: each word passes its checks, and its execution adds its effect, or nothing, to those of the run. -/
theorem commitWords : Obligations.CommitWords := by
  intro s g c hi
  refine ⟨plainOutcome_nop hi, effOutcome_of_partywise (exec_yield g s) hi fun _ => rfl,
    effOutcome_of_partywise (exec_exit g s) hi fun _ => rfl,
    effOutcome_of_partywise (exec_fence g s) hi fun _ => rfl, fun hd => ?_, fun r hr hall hb => ?_⟩
  · exact effOutcome_of_issue (exec_fend g s) hi (by rw [hd]; rfl)
  · have hgo := Ctx.checkTret_go hr hall hb
    exact ⟨effOutcome_of_issue (exec_tretRetry g s) hi hgo, effOutcome_of_issue (exec_tretSkip g s) hi hgo⟩

end Sys2Proof.Proofs

namespace Sys2Proof.Machine

/-! # Memory keeps its canonical form (R103, R118; log 4)

A function of the model either leaves memory alone, and then a lemma named after it with `_mem` says so, or it writes
memory, and then its lemma ends in `_wf`: what it leaves is canonical where what it began with was. The lemmas follow
the model's definitions from the parts of a step up to `step`. -/

open Host Sys2Proof.Safety

/-! ## What leaves memory alone -/

/-- A fold of steps that each leave what `π` reads leaves it. -/
theorem foldl_leaves {σ α β : Type} (π : σ → β) {f : σ → α → σ} (hf : ∀ b a, π (f b a) = π b) (l : List α) (b : σ) :
    π (l.foldl f b) = π b := by
  induction l generalizing b with
  | nil => rfl
  | cons a l ih => rw [List.foldl_cons, ih, hf]

theorem foldl_ctx_mem {α : Type} {f : Ctx → α → Ctx} (hf : ∀ c a, (f c a).s.mem = c.s.mem) (l : List α) (c : Ctx) :
    (l.foldl f c).s.mem = c.s.mem :=
  foldl_leaves (fun c => c.s.mem) hf l c

theorem foldl_seqCtx_mem {α : Type} {f : SeqCtx → α → SeqCtx} (hf : ∀ c a,
    (f c a).s.mem = c.s.mem) (l : List α) (c : SeqCtx) :
    (l.foldl f c).s.mem = c.s.mem :=
  foldl_leaves (fun c => c.s.mem) hf l c

theorem ite_mem {p : Prop} [Decidable p] {s t : State} {m : List Host.Cell} (hs : s.mem = m) (ht : t.mem = m) :
    (if p then s else t).mem = m := by
  split
  · exact hs
  · exact ht

@[simp] theorem Ctx.stall_mem (c : Ctx) : c.stall.mem = c.s.mem := by
  unfold Ctx.stall
  split <;> rfl

@[simp] theorem Ctx.addFp_mem (c : Ctx) (l : Nat) (f : BitVec 16) : (c.addFp l f).s.mem = c.s.mem := by
  unfold Ctx.addFp
  split <;> rfl

@[simp] theorem Ctx.cutLate_mem (c : Ctx) (f : Dest → Bool) : (c.cutLate f).s.mem = c.s.mem := rfl

@[simp] theorem Ctx.addOp_mem (c : Ctx) (o : PendOp) : (c.addOp o).s.mem = c.s.mem := rfl

@[simp] theorem Ctx.save_mem (c : Ctx) : c.save.mem = c.s.mem := rfl

@[simp] theorem Ctx.advance_mem (c : Ctx) : c.advance.mem = c.s.mem := rfl

@[simp] theorem Ctx.again_mem (c : Ctx) : c.again.mem = c.s.mem := rfl

@[simp] theorem State.post_mem (s : State) (p : Party) (pid core : Nat) (lanes : DWord) (after : List Nat)
    (dst : Home) (body : MsgBody) :
    (s.post p pid core lanes after dst body).mem = s.mem := rfl

@[simp] theorem Ctx.ask_mem (c : Ctx) (l : Nat) (h : Home) (f : Asker → MsgBody) :
    (c.ask l h f).s.mem = c.s.mem := rfl

@[simp] theorem State.observe_mem (s : State) (who : Who) (g : Nat) : (s.observe who g).mem = s.mem := rfl

@[simp] theorem Ctx.seen_mem (c : Ctx) (t : Tgt) (n : Nat) : (c.seen t n).s.mem = c.s.mem := by
  unfold Ctx.seen
  (repeat' split) <;> simp [State.load_mem]

@[simp] theorem Ctx.asyncOp_mem (c : Ctx) (lanes : List Nat) (dests : List Dest) (acquire : Bool) :
    (c.asyncOp lanes dests acquire).s.mem = c.s.mem := rfl

@[simp] theorem Ctx.holdPage_mem (c : Ctx) (va : Nat) : (c.holdPage va).mem = c.s.mem := rfl

@[simp] theorem Ctx.joinQueue_mem (c : Ctx) (team : Nat) : (c.joinQueue team).mem = c.s.mem := by
  unfold Ctx.joinQueue
  (repeat' split) <;> simp

@[simp] theorem Ctx.holdParked_mem (c : Ctx) (va : Nat) : (c.holdParked va).mem = c.s.mem := by
  unfold Ctx.holdParked
  split <;> simp

@[simp] theorem State.askFetch_mem (s : State) (pid : Nat) (p : Party) (b : Bundle) (va : Nat) :
    (s.askFetch pid p b va).mem = s.mem := by
  unfold State.askFetch
  (repeat' split) <;> rfl

@[simp] theorem Ctx.sendNow_mem (c : Ctx) (l : Nat) (h : Home) (body : MsgBody) :
    (c.sendNow l h body).s.mem = c.s.mem := rfl

@[simp] theorem Ctx.claimOp_mem (c : Ctx) (l : Nat) (t : DWord) (dests : List Dest) :
    (c.claimOp l t dests).s.mem = c.s.mem := rfl

@[simp] theorem State.forkChildren_mem (s : State) (pid : Nat) (es : List Eff) :
    (s.forkChildren pid es).mem = s.mem := by
  unfold State.forkChildren
  grind [State.bump_mem, State.setParty_mem, foldl_mem]

@[simp] theorem State.postPart_mem (s : State) (core : Nat) (dst : Home) (body : MsgBody) :
    (s.postPart core dst body).mem = s.mem := rfl

@[simp] theorem State.publish_mem (s : State) (t : Nat) : (s.publish t).mem = s.mem := rfl

@[simp] theorem State.publishOf_mem (s : State) (p : Party) : (s.publishOf p).mem = s.mem := rfl

@[simp] theorem State.pushTile_mem (s : State) (p : Party) (slot : Nat) (t : Tile) :
    (s.pushTile p slot t).mem = s.mem := by
  unfold State.pushTile
  (repeat' split) <;> rfl

@[simp] theorem State.logGranule_mem (s : State) (who : Who) (g : Nat) : (s.logGranule who g).mem = s.mem := rfl

@[simp] theorem State.dropTlb_mem (s : State) (f : Leaf → Bool) : (s.dropTlb f).mem = s.mem := rfl

@[simp] theorem State.wakeWatchers_mem (s : State) (pa n : Nat) : (s.wakeWatchers pa n).mem = s.mem := rfl

@[simp] theorem State.postLike_mem (s : State) (m : Msg) (src : Nat) (dst : Home) (body : MsgBody) :
    (s.postLike m src dst body).mem = s.mem := rfl

@[simp] theorem State.seePlanes_mem (s : State) (who : Who) (ys : List Loc) : (s.seePlanes who ys).mem = s.mem := by
  simp [State.seePlanes, State.see_mem, foldl_mem]

@[simp] theorem State.dropReads_mem (s : State) (who : Reader) : (s.dropReads who).mem = s.mem := rfl

@[simp] theorem State.opValue_mem (s : State) (op : Nat) (vals : List Nat) (poison : Bool) :
    (s.opValue op vals poison).mem = s.mem := rfl

@[simp] theorem State.sendPacket_mem (s : State) (dev : BitVec 20) (dst src : Nat) (cls : PClass) (len tag : Nat)
    (body : PktBody) :
    (s.sendPacket dev dst src cls len tag body).mem = s.mem := rfl

@[simp] theorem State.returnVals_mem (s : State) (m : Msg) (op : Nat) (vals : List Nat) (poison : Bool) :
    (s.returnVals m op vals poison).mem = s.mem := by
  unfold State.returnVals
  split <;> rfl

@[simp] theorem State.sendFence_mem (s : State) (pid order scope : Nat) :
    (s.sendFence pid order scope).mem = s.mem := by
  unfold State.sendFence
  (repeat' split) <;> rfl

@[simp] theorem State.dropPlace_mem (s : State) (p : Party) (pid core slot : Nat) :
    (s.dropPlace p pid core slot).mem = s.mem := by
  unfold State.dropPlace
  split <;> rfl

@[simp] theorem State.awayDone_mem (s : State) (core : Nat) (o : EngOp) : (s.awayDone core o).mem = s.mem := by
  unfold State.awayDone
  dsimp only
  (repeat' split) <;> simp

@[simp] theorem State.unlockFar_mem (s : State) (core owner : Nat) : (s.unlockFar core owner).mem = s.mem := by
  unfold State.unlockFar
  grind [State.postPart_mem, foldl_mem]

@[simp] theorem State.withdrawEngine_mem (s : State) (eng seq : Nat) : (s.withdrawEngine eng seq).mem = s.mem := by
  simp [State.withdrawEngine, foldl_mem]

@[simp] theorem State.undoEff_mem (s : State) (p : Party) (pid core : Nat) (e : Eff) :
    (s.undoEff p pid core e).mem = s.mem := by
  unfold State.undoEff
  (repeat' split) <;> simp

@[simp] theorem State.undoOp_mem (s : State) (p : Party) (pid core : Nat) (o : PendOp) :
    (s.undoOp p pid core o).mem = s.mem := by
  unfold State.undoOp
  (repeat' split) <;> rfl

@[simp] theorem State.abandon_mem (s : State) (pid bid : Nat) (m : DWord) : (s.abandon pid bid m).mem = s.mem := by
  unfold State.abandon
  split
  · rfl
  · split
    · rfl
    · split
      · rfl
      · dsimp only
        rw [State.setParty_mem, foldl_mem _ fun _ _ => by simp]
        split
        · rw [State.dropPlace_mem, foldl_mem _ fun _ _ => by simp, foldl_mem _ fun _ _ => by simp]
          split <;> try split
          all_goals simp
        · rw [foldl_mem _ fun _ _ => by simp, foldl_mem _ fun _ _ => by simp]
          split <;> try split
          all_goals simp

@[simp] theorem State.countMsg_mem (s : State) (p : Party) (pid core : Nat) (d : ℤ) :
    (s.countMsg p pid core d).mem = s.mem := by
  unfold State.countMsg
  split <;> rfl

@[simp] theorem State.heldBy_mem (s : State) (key : Nat) (d : ℤ) : (s.heldBy key d).mem = s.mem := by
  unfold State.heldBy
  dsimp only
  (repeat' split) <;> simp

@[simp] theorem State.holdSlot_mem (s : State) (p : Party) (pid core : Nat) (d : ℤ) :
    (s.holdSlot p pid core d).mem = s.mem := by
  unfold State.holdSlot
  (repeat' split) <;> simp

@[simp] theorem State.holdIf_mem (s : State) (p : Party) (pid core : Nat) (d : ℤ) :
    (s.holdIf p pid core d).mem = s.mem := by
  unfold State.holdIf
  split <;> simp

@[simp] theorem State.endParty_mem (s : State) (pid : Nat) : (s.endParty pid).mem = s.mem := by
  unfold State.endParty
  dsimp only
  (repeat' split) <;> simp [foldl_mem]

@[simp] theorem Ctx.consumeAt_mem (c : Ctx) (lanes : List Nat) (pa va : Nat) :
    (c.consumeAt lanes pa va).mem = c.s.mem := rfl

@[simp] theorem Ctx.consume_mem (c : Ctx) (lanes : List Nat) : (c.consume lanes).mem = c.s.mem := rfl

@[simp] theorem State.form_mem (s : State) (core : Nat) (p : Party) : (s.form core p).mem = s.mem := by
  unfold State.form
  dsimp only
  (repeat' split) <;> simp

@[simp] theorem State.departSplit_mem (s : State) (pid : Nat) (bids : List Nat) (whole : Bool) (live : BitVec 56)
    (groups : List (Home × Nat × List Nat)) :
    (s.departSplit pid bids whole live groups).mem = s.mem := by
  have hleave {f : State × List Nat → Home × Nat × List Nat → State × List Nat} (hf : ∀ a g, (f a g).1.mem = a.1.mem)
      (l : List (Home × Nat × List Nat)) (a : State × List Nat) : (l.foldl f a).1.mem = a.1.mem :=
    foldl_leaves (fun a : State × List Nat => a.1.mem) hf l a
  unfold State.departSplit
  split
  · rfl
  · dsimp only
    split
    · split
      · split
        · simp
        · rw [hleave fun _ _ => by simp]
          simp
      · rw [hleave fun _ _ => by simp]
        simp
    · rw [hleave fun _ _ => by simp]
      dsimp only
      split <;> simp

@[simp] theorem Ctx.setReg_mem (c : Ctx) (reg l : Nat) (x : Word) : (c.setReg reg l x).s.mem = c.s.mem := rfl

@[simp] theorem Ctx.setV_mem (c : Ctx) (n l : Nat) (x : Word) : (c.setV n l x).s.mem = c.s.mem := by
  unfold Ctx.setV
  split <;> rfl

@[simp] theorem Ctx.draw_mem (c : Ctx) (l : Nat) : (c.draw l).1.s.mem = c.s.mem := by
  unfold Ctx.draw
  split <;> rfl

@[simp] theorem Ctx.each_mem {c : Ctx} {f : Ctx → Nat → Ctx} (hf : ∀ c l, (f c l).s.mem = c.s.mem) :
    (c.each f).s.mem = c.s.mem := foldl_ctx_mem hf _ _

@[simp] theorem Ctx.effect_mem (c : Ctx) (i : EffItem) : (c.effect i).s.mem = c.s.mem := rfl

@[simp] theorem Ctx.effectOf_mem (c : Ctx) (l : Nat) (i : EffItem) : (c.effectOf l i).s.mem = c.s.mem := rfl

@[simp] theorem Ctx.lateOp_mem (c : Ctx) (lanes : List Nat) (dests : List Dest) (acquire : Bool) :
    (c.lateOp lanes dests acquire).s.mem = c.s.mem := rfl

@[simp] theorem Ctx.memOp_mem (c : Ctx) (lanes : List Nat) (dests : List Dest) (vals : List Nat)
    (poison acquire : Bool) :
    (c.memOp lanes dests vals poison acquire).s.mem = c.s.mem := rfl

@[simp] theorem Ctx.noteAddr_mem (c : Ctx) (op va : Nat) (x : Option Loc) :
    (c.noteAddr op va x).s.mem = c.s.mem := rfl

@[simp] theorem Ctx.seenPlanes_mem (c : Ctx) (ys : List Loc) : (c.seenPlanes ys).s.mem = c.s.mem := by
  simp [Ctx.seenPlanes]

@[simp] theorem Ctx.elemRead_mem (c : Ctx) (t : ETgt) (dest : Dest) : (c.elemRead t dest).s.mem = c.s.mem := by
  unfold Ctx.elemRead
  dsimp only
  (repeat' split) <;> simp

@[simp] theorem Ctx.elemWrite_mem (c : Ctx) (t : ETgt) (x : Word) : (c.elemWrite t x).s.mem = c.s.mem := by
  unfold Ctx.elemWrite
  split <;> simp

@[simp] theorem Ctx.fillLane_mem (c : Ctx) (l w : Nat) : (c.fillLane l w).s.mem = c.s.mem := by
  unfold Ctx.fillLane
  dsimp only
  split
  all_goals
    split
    · exact foldl_ctx_mem (fun _ _ => by split <;> simp) _ _
    · split
      · rw [foldl_ctx_mem fun _ _ => by simp, foldl_ctx_mem fun _ _ => by split <;> simp]
      · rw [Ctx.noteAddr_mem, Ctx.memOp_mem, foldl_ctx_mem fun _ _ => by split <;> simp]

@[simp] theorem Ctx.frameClaim_mem (c : Ctx) (kind : Nat) (id arg : DWord) (dests : List Dest) :
    (c.frameClaim kind id arg dests).s.mem = c.s.mem := rfl

@[simp] theorem Ctx.holdOn_mem (c : Ctx) (w : Why) (ts : List Tgt) (n : Nat) (cmp : Nat → Nat) :
    (c.holdOn w ts n cmp).mem = c.s.mem := rfl

@[simp] theorem Ctx.pwriteBy_mem (c : Ctx) (lanes : List Nat) (i : PItem) :
    (c.pwriteBy lanes i).s.mem = c.s.mem := rfl

@[simp] theorem Ctx.pwrite_mem (c : Ctx) (i : PItem) : (c.pwrite i).s.mem = c.s.mem := rfl

@[simp] theorem Ctx.setH_mem (c : Ctx) (n : Nat) (x : DWord) : (c.setH n x).s.mem = c.s.mem := rfl

@[simp] theorem Ctx.issueCopy_mem (c : Ctx) (d : Nat) (q : CopyReq) : (c.issueCopy d q).s.mem = c.s.mem := by
  unfold Ctx.issueCopy
  split <;> rfl

@[simp] theorem Ctx.long_mem (c : Ctx) (dests : List Dest) (vals : List Nat) :
    (c.long dests vals).s.mem = c.s.mem := rfl

@[simp] theorem Ctx.markLast_mem (c : Ctx) (args : List Arg) : (c.markLast args).s.mem = c.s.mem := by
  unfold Ctx.markLast
  split <;> rfl

@[simp] theorem Ctx.noteSr_mem (c : Ctx) (n : Nat) (x : DWord) : (c.noteSr n x).s.mem = c.s.mem := rfl

@[simp] theorem Ctx.useLive_mem (c : Ctx) : c.useLive.s.mem = c.s.mem := rfl

@[simp] theorem Ctx.passLive_mem (c : Ctx) : c.passLive.s.mem = c.s.mem := by
  unfold Ctx.passLive
  split <;> rfl

@[simp] theorem Ctx.pastHint_mem (c : Ctx) : c.pastHint.mem = c.s.mem := rfl

@[simp] theorem Ctx.setPreds_mem (c : Ctx) (l : Nat) (x : BitVec 16) : (c.setPreds l x).s.mem = c.s.mem := rfl

@[simp] theorem Ctx.push_mem (c : Ctx) (l : Nat) (v : Bool) : (c.push l v).s.mem = c.s.mem := rfl

@[simp] theorem Ctx.setV64_mem (c : Ctx) (n l : Nat) (x : DWord) : (c.setV64 n l x).s.mem = c.s.mem := by
  unfold Ctx.setV64
  split <;> simp

@[simp] theorem Ctx.setOp_mem (c : Ctx) (w n l x : Nat) : (c.setOp w n l x).s.mem = c.s.mem := by
  unfold Ctx.setOp
  split <;> simp

@[simp] theorem Ctx.putInt_mem (c : Ctx) (w : Nat) (signed sats : Bool) (n l : Nat) (x : ℤ) :
    (c.putInt w signed sats n l x).s.mem = c.s.mem := by
  simp [Ctx.putInt]

@[simp] theorem Ctx.readOne_mem (c : Ctx) (lanes : List Nat) (t : Tgt) (n wcode : Nat) (dests : List Dest)
    (acq : Bool) :
    (c.readOne lanes t n wcode dests acq).s.mem = c.s.mem := by
  unfold Ctx.readOne
  dsimp only
  (repeat' split) <;> simp

@[simp] theorem Ctx.readAll_mem (c : Ctx) (ts : List Tgt) (n wcode : Nat) (dests : Nat → List Dest) (acq : Bool) :
    (c.readAll ts n wcode dests acq).s.mem = c.s.mem := by
  unfold Ctx.readAll
  dsimp only
  rw [foldl_ctx_mem fun _ _ => by simp]
  split
  · rfl
  · simp [foldl_ctx_mem]

@[simp] theorem Ctx.splitOff_mem (c : Ctx) : c.splitOff.mem = c.s.mem := by
  simp [Ctx.splitOff]

@[simp] theorem State.freeSeqr_mem (s : State) (team : Nat) : (s.freeSeqr team).mem = s.mem := by
  unfold State.freeSeqr
  (repeat' split) <;> rfl

@[simp] theorem State.releaseBundle_mem (s : State) (core : Nat) (who : Asker) (a : Answer) :
    (s.releaseBundle core who a).mem = s.mem := by
  unfold State.releaseBundle
  split <;> rfl

@[simp] theorem State.releaseArr_mem (s : State) (core : Nat) (x : Answer) (a : Arrival) :
    (s.releaseArr core x a).mem = s.mem := by
  unfold State.releaseArr
  split <;> simp

@[simp] theorem State.setBar_mem (s : State) (b : BarRef) (x : Barrier) : (s.setBar b x).mem = s.mem := by
  unfold State.setBar
  (repeat' split) <;> rfl

@[simp] theorem State.expireBar_mem (s : State) (b : BarRef) : (s.expireBar b).mem = s.mem := by
  simp [State.expireBar, foldl_mem]

@[simp] theorem State.closeRejoin_mem (s : State) (b : BarRef) (r : RejoinRound) :
    (s.closeRejoin b r).mem = s.mem := by
  unfold State.closeRejoin
  dsimp only
  (repeat' split) <;> simp

@[simp] theorem State.mergeRejoin_mem (s : State) (core : Nat) (r : RejoinRound) :
    (s.mergeRejoin core r).mem = s.mem := by
  unfold State.mergeRejoin
  grind [State.countMsg_mem, State.dropParty_mem, State.holdSlot_mem, State.setLineage_mem, State.setParty_mem,
      foldl_mem]

@[simp] theorem State.checkRejoin_mem (s : State) (b : BarRef) : (s.checkRejoin b).mem = s.mem := by
  unfold State.checkRejoin
  (repeat' split) <;> simp

@[simp] theorem State.releaseRejoin_mem (s : State) (pid : Nat) : (s.releaseRejoin pid).mem = s.mem := by
  unfold State.releaseRejoin
  split <;> rfl

@[simp] theorem State.beginInterval_mem (s : State) (key : Nat) : (s.beginInterval key).mem = s.mem := by
  unfold State.beginInterval
  dsimp only
  (repeat' split) <;> simp

@[simp] theorem State.completeRound_mem (s : State) (b : BarRef) : (s.completeRound b).mem = s.mem := by
  unfold State.completeRound
  dsimp only
  (repeat' split) <;> simp [foldl_mem]

@[simp] theorem State.tellPhase_mem (s : State) (core : Nat) (dev : BitVec 20) (dst party op : Nat) (x : DWord) :
    (s.tellPhase core dev dst party op x).mem = s.mem := by
  unfold State.tellPhase
  split <;> rfl

@[simp] theorem State.countArrival_mem (s : State) (b : BarRef) (h : HeldArr) : (s.countArrival b h).mem = s.mem := by
  unfold State.countArrival
  dsimp only
  (repeat' split) <;> simp

@[simp] theorem settleBar_mem (b : BarRef) (n : Nat) (s : State) : (settleBar b n s).mem = s.mem := by
  induction n generalizing s with
  | zero => rfl
  | succ n ih =>
    unfold settleBar
    dsimp only
    split
    · rfl
    · split
      · rfl
      · rw [ih]; simp

@[simp] theorem State.expireRejoin_mem (s : State) (b : BarRef) : (s.expireRejoin b).mem = s.mem := by
  unfold State.expireRejoin
  dsimp only
  (repeat' split) <;> simp [foldl_mem]

@[simp] theorem State.lapseBar_mem (s : State) (b : BarRef) : (s.lapseBar b).mem = s.mem := by
  unfold State.lapseBar
  dsimp only
  (repeat' split) <;> simp

@[simp] theorem State.arriveAt_mem (s : State) (b : BarRef) (h : HeldArr) : (s.arriveAt b h).mem = s.mem := by
  simp [State.arriveAt]

@[simp] theorem State.arriveRejoin_mem (s : State) (pid core n : Nat) (timed : Bool) (timeout : DWord) :
    (s.arriveRejoin pid core n timed timeout).mem = s.mem := by
  unfold State.arriveRejoin
  split <;> simp

@[simp] theorem Ctx.roundCall_mem (c : Ctx) (l : Nat) (f : Word → Nat × BitVec 16) :
    (c.roundCall l f).1.s.mem = c.s.mem := by
  simp [Ctx.roundCall]

@[simp] theorem Ctx.seenAll_mem (c : Ctx) (ts : List Tgt) (n : Nat) :
    (c.seenAll ts n).s.mem = c.s.mem := foldl_ctx_mem (fun _ _ => by simp) _ _

@[simp] theorem Ctx.seenRange_mem (c : Ctx) (va n : Nat) :
    (c.seenRange va n).s.mem = c.s.mem := foldl_ctx_mem (fun c e => by
  split
  · split
    · rfl
    · exact State.load_mem ..
  · rfl) _ _

@[simp] theorem Ctx.sendArrival_mem (c : Ctx) (b : BarRef) (kind : ArrKind) (count : Nat) (timeout : DWord) :
    (c.sendArrival b kind count timeout).mem = c.s.mem := by
  unfold Ctx.sendArrival
  (repeat' split) <;> rfl

@[simp] theorem Ctx.sendFetch_mem (c : Ctx) (lanes : List Nat) (x : Loc) (len wcode : Nat) (block : Bool)
    (dests : List Dest) :
    (c.sendFetch lanes x len wcode block dests).s.mem = c.s.mem := by
  unfold Ctx.sendFetch
  dsimp only
  (repeat' split) <;> simp

@[simp] theorem Ctx.sendMso_mem (c : Ctx) (d l : Nat) (x : Loc) (k : MsoKind) (len results : Nat) :
    (c.sendMso d l x k len results).s.mem = c.s.mem := by
  unfold Ctx.sendMso
  (repeat' split) <;> rfl

@[simp] theorem Ctx.setBase_mem (c : Ctx) (l w : Nat) : (c.setBase l w).s.mem = c.s.mem := rfl

@[simp] theorem Ctx.setLimbFlags_mem (c : Ctx) (i : Nat) (carry ovf : Bool) :
    (c.setLimbFlags i carry ovf).s.mem = c.s.mem := rfl

@[simp] theorem Ctx.setS_mem (c : Ctx) (n : Nat) (x : DWord) : (c.setS n x).s.mem = c.s.mem := by
  unfold Ctx.setS
  split <;> rfl

@[simp] theorem Ctx.take_mem (c : Ctx) (l tgt : Nat) : (c.take l tgt).s.mem = c.s.mem := rfl

@[simp] theorem Ctx.writeDraft_mem (c : Ctx) (lanes : List Nat) (x : Loc) (data : List Byte) (rel : Bool) :
    (c.writeDraft lanes x data rel).s.mem = c.s.mem := rfl

@[simp] theorem Ctx.writeSr_mem (c : Ctx) (n : Nat) (x : DWord) : (c.writeSr n x).s.mem = c.s.mem := by
  unfold Ctx.writeSr
  dsimp only
  (repeat' split) <;> simp

@[simp] theorem SeqCtx.put_mem (c : SeqCtx) (q : Seqr) : (c.put q).mem = c.s.mem := rfl

@[simp] theorem SeqCtx.goto_mem (c : SeqCtx) (pc : DWord) : (c.goto pc).mem = c.s.mem := rfl

@[simp] theorem SeqCtx.next_mem (c : SeqCtx) : c.next.mem = c.s.mem := rfl

@[simp] theorem SeqCtx.afterSync_mem (c : SeqCtx) : c.afterSync.mem = c.s.mem := by
  unfold SeqCtx.afterSync
  split <;> rfl

@[simp] theorem SeqCtx.atStep_mem (c : SeqCtx) (p k : Nat) : (c.atStep p k).s.mem = c.s.mem := rfl

@[simp] theorem State.farRead_mem (s : State) (who : Reader) (core : Nat) (l : Loc) (n : Nat) :
    (s.farRead who core l n).2.mem = s.mem := by
  unfold State.farRead
  split <;> rfl

@[simp] theorem SeqCtx.await_mem (c : SeqCtx) : c.await.mem = c.s.mem := by
  unfold SeqCtx.await
  (repeat' split) <;> simp

@[simp] theorem SeqCtx.consumed_mem (c : SeqCtx) (pas : List Nat) : (c.consumed pas).s.mem = c.s.mem := by
  unfold SeqCtx.consumed
  split <;> rfl

@[simp] theorem SeqCtx.halt_mem (c : SeqCtx) (st : SeqState) : (c.halt st).s.mem = c.s.mem := rfl

@[simp] theorem SeqCtx.endSeq_mem (c : SeqCtx) : c.endSeq.mem = c.s.mem := rfl

@[simp] theorem State.noteLeaf_mem (s : State) (core : Nat) (l : Leaf) : (s.noteLeaf core l).mem = s.mem := by
  unfold State.noteLeaf
  dsimp only
  (repeat' split) <;> simp

@[simp] theorem State.noteWalk_mem (t s : State) (core : Nat) (asid : BitVec 16) (va : Nat) :
    (t.noteWalk s core asid va).mem = t.mem := by
  unfold State.noteWalk
  split <;> simp

@[simp] theorem SeqCtx.fetched_mem (c : SeqCtx) (t : State) : (c.fetched t).mem = t.mem := by
  unfold SeqCtx.fetched
  dsimp only
  split
  · split <;> simp
  · simp

@[simp] theorem SeqCtx.post_mem (c : SeqCtx) (p : Nat) (steps : ℤ) : (c.post p steps).s.mem = c.s.mem := by
  unfold SeqCtx.post
  dsimp only
  (repeat' split) <;> simp

@[simp] theorem SeqCtx.stop_mem (c : SeqCtx) (code : Nat) : (c.stop code).mem = c.s.mem := by
  simp [SeqCtx.stop, foldl_mem]

@[simp] theorem SeqCtx.take_mem (c : SeqCtx) (a : Opnd) : (c.take a).s.mem = c.s.mem := by
  unfold SeqCtx.take
  split <;> rfl

@[simp] theorem SeqCtx.work_mem (c : SeqCtx) (ls : List Lock) (fin : Bool) (w : Nat → MWord) :
    (c.work ls fin w).s.mem = c.s.mem := by
  unfold SeqCtx.work
  dsimp only
  (repeat' split) <;> simp

@[simp] theorem SeqCtx.mmaStep_mem (c : SeqCtx) (acc : Nat) (a b : Opnd) (z : Bool) (krep : Nat) (ta tb : Bool) :
    (c.mmaStep acc a b z krep ta tb).mem = c.s.mem := by
  unfold SeqCtx.mmaStep
  split
  · simp
  · dsimp only
    split
    · simp
    · refine ite_mem rfl ?_
      refine ite_mem ?_ ?_
      · rw [SeqCtx.put_mem, apply_ite SeqCtx.s, apply_ite State.mem, SeqCtx.take_mem, SeqCtx.take_mem,
          SeqCtx.take_mem, ite_self,
          SeqCtx.work_mem, SeqCtx.consumed_mem]
      · rw [SeqCtx.next_mem, foldl_seqCtx_mem fun _ _ => SeqCtx.post_mem .., apply_ite SeqCtx.s, apply_ite State.mem,
          SeqCtx.take_mem, SeqCtx.take_mem,
          SeqCtx.take_mem, ite_self, SeqCtx.work_mem, SeqCtx.consumed_mem]

@[simp] theorem SeqCtx.onTile_mem {c : SeqCtx} {acc : Nat} {f : State} (hf : f.mem = c.s.mem) :
    (c.onTile acc f).mem = c.s.mem := by
  unfold SeqCtx.onTile
  split
  · simp
  · exact hf

@[simp] theorem State.askVa_mem (s : State) (who : Reader) (core : Nat) (asid : BitVec 16) (va n : Nat) :
    (s.askVa who core asid va n).mem = s.mem := by
  unfold State.askVa
  grind [State.farRead_mem, foldl_mem]

@[simp] theorem State.seeVa_mem (s : State) (w : Who) (core : Nat) (asid : BitVec 16) (va n : Nat) :
    (s.seeVa w core asid va n).mem = s.mem := by
  unfold State.seeVa
  grind [State.load_mem, foldl_mem]

@[simp] theorem SeqCtx.param_mem {c : SeqCtx} {off n : Nat} {f : SeqCtx → List Byte → State}
    (hf : ∀ d b, (f d b).mem = d.s.mem) :
    (c.param off n f).mem = c.s.mem := by
  unfold SeqCtx.param
  dsimp only
  split <;> simp [hf]

@[simp] theorem SeqCtx.setM_mem (c : SeqCtx) (m : BitVec 4) (x : DWord) : (c.setM m x).mem = c.s.mem := rfl

@[simp] theorem State.acceptGrid_mem (s : State) (r : LaunchRec) (lin : Nat) (seed : Bool) (asid : BitVec 16)
    (depth party : Nat) (dict : List Word) (entry : DWord) :
    (s.acceptGrid r lin seed asid depth party dict entry).mem = s.mem := rfl

@[simp] theorem State.addEff_mem (s : State) (pid bid : Nat) (lanes : DWord) (i : EffItem) :
    (s.addEff pid bid lanes i).mem = s.mem := by
  unfold State.addEff
  split <;> rfl

@[simp] theorem State.answer_mem (s : State) (who : Asker) (a : Answer) : (s.answer who a).mem = s.mem := rfl

@[simp] theorem State.accepted_mem (s : State) (who : Asker) (a : Answer) (lanes : DWord) (h : Home)
    (ok no : MsgBody) (release : Option Nat) :
    (s.accepted who a lanes h ok no release).mem = s.mem := by
  unfold State.accepted
  split <;> simp

@[simp] theorem State.stopIdle_mem (s : State) : s.stopIdle.mem = s.mem := by
  unfold State.stopIdle
  split <;> rfl

@[simp] theorem State.answerClaim_mem (s : State) (m : Msg) (who : Asker) (t : DWord) (ans : Option (List Byte))
    (code : Nat) (poison : Bool) :
    (s.answerClaim m who t ans code poison).mem = s.mem := by
  simp [State.answerClaim, State.dropMsg_mem]

@[simp] theorem State.answerHandles_mem (s : State) : s.answerHandles.mem = s.mem := by
  unfold State.answerHandles
  grind [State.answerClaim_mem, foldl_mem]

@[simp] theorem State.wakeHandle_mem (s : State) (h : DWord → Bool) : (s.wakeHandle h).mem = s.mem := rfl

@[simp] theorem State.engDone_mem (s : State) (eng seq count : Nat) : (s.engDone eng seq count).mem = s.mem := by
  simp [State.engDone]

@[simp] theorem State.engRead_mem (s : State) (o : EngOp) (va n : Nat) : (s.engRead o va n).2.2.mem = s.mem := by
  unfold State.engRead
  refine foldl_leaves (fun a : List Byte × List Bool × State => a.2.2.mem) (fun a p => ?_) _ _
  dsimp only
  split
  · rfl
  · split
    · refine foldl_leaves (fun a : List Byte × List Bool × State => a.2.2.mem) (fun _ _ => ?_) _ _
      rfl
    · exact State.load_mem ..

@[simp] theorem State.engSent_mem (s : State) (eng : Nat) (o : EngOp) (k : Nat) :
    (s.engSent eng o k).mem = s.mem := rfl

@[simp] theorem State.setFrame_mem (s : State) (no : Nat) (e : FrameEnt) : (s.setFrame no e).mem = s.mem := rfl

@[simp] theorem State.frameFree_mem (s : State) (no : Nat) : (s.frameFree no).mem = s.mem := by
  unfold State.frameFree
  dsimp only
  (repeat' split) <;> simp

@[simp] theorem State.frameDrop_mem (s : State) (no : Nat) : (s.frameDrop no).mem = s.mem := by
  simp [State.frameDrop]

@[simp] theorem State.dropFrames_mem (s : State) (dev : BitVec 20) (grid : BitVec 32) :
    (s.dropFrames dev grid).mem = s.mem := by
  simp [State.dropFrames, foldl_mem]

@[simp] theorem State.closeFrames_mem (s : State) (g : Grid) : (s.closeFrames g).mem = s.mem := by
  unfold State.closeFrames
  grind [State.dropFrames_mem, State.postPart_mem, foldl_mem]

@[simp] theorem State.freeFrameAt_mem (s : State) (f : Nat) : (s.freeFrameAt f).mem = s.mem := by
  unfold State.freeFrameAt
  dsimp only
  (repeat' split) <;> simp

@[simp] theorem State.launchOver_mem (s : State) (lin : Nat) : (s.launchOver lin).mem = s.mem := by
  unfold State.launchOver
  split <;> rfl

@[simp] theorem State.setTicket_mem (s : State) (key : Nat) (x : Ticket) : (s.setTicket key x).mem = s.mem := rfl

@[simp] theorem State.bumpTel_mem (s : State) (key n : Nat) : (s.bumpTel key n).mem = s.mem := rfl

@[simp] theorem State.tally_mem (s : State) (item inst : Nat) : (s.tally item inst).mem = s.mem := rfl

@[simp] theorem State.reclaim_mem (s : State) (key : Nat) : (s.reclaim key).mem = s.mem := rfl

@[simp] theorem State.reclaimLaunch_mem (s : State) (launch : BitVec 32) (asid : BitVec 16) :
    (s.reclaimLaunch launch asid).mem = s.mem := by
  unfold State.reclaimLaunch
  grind [State.answerClaim_mem, State.reclaim_mem, foldl_mem]

@[simp] theorem State.applyModes_mem (s : State) : s.applyModes.mem = s.mem := by
  unfold State.applyModes
  dsimp only
  (repeat' split) <;> simp

@[simp] theorem State.removeGrid_mem (s : State) (g : Grid) : (s.removeGrid g).mem = s.mem := by
  unfold State.removeGrid
  dsimp only
  (repeat' split) <;> simp [foldl_mem]

@[simp] theorem State.settleShadows_mem (s : State) (g : Grid) : (s.settleShadows g).mem = s.mem := by
  unfold State.settleShadows
  (repeat' split) <;> rfl

@[simp] theorem State.dropRecord_mem (s : State) (pid : Nat) : (s.dropRecord pid).mem = s.mem := by
  unfold State.dropRecord
  split <;> simp [State.dropMsg_mem]

@[simp] theorem State.logC_mem (s : State) (type count core : Nat) (launch team : BitVec 32) (addr : Nat) :
    (s.logC type count core launch team addr).mem = s.mem := by
  unfold State.logC
  (repeat' split) <;> rfl

@[simp] theorem State.logK_mem (s : State) (k : Consume) (type count : Nat) : (s.logK k type count).mem = s.mem := by
  simp [State.logK]

@[simp] theorem State.recordOutcome_mem (s : State) (grid : BitVec 32) (core o : Nat) :
    (s.recordOutcome grid core o).mem = s.mem := by
  unfold State.recordOutcome
  (repeat' split) <;> rfl

@[simp] theorem State.endSeed_mem (s : State) (key : Nat) : (s.endSeed key).mem = s.mem := by
  simp [State.endSeed, foldl_mem]

@[simp] theorem State.failOf_mem (s : State) (p : Party) (pid core o : Nat) :
    (s.failOf p pid core o).mem = s.mem := by
  unfold State.failOf
  split <;> simp

@[simp] theorem State.faultSeed_mem (s : State) (slot key cause : Nat) (addr : DWord) :
    (s.faultSeed slot key cause addr).mem = s.mem := by
  unfold State.faultSeed
  dsimp only
  (repeat' split) <;> simp

@[simp] theorem State.waitSlot_mem (s : State) (pid : Nat) (p : Party) (b : Bundle) (why : Why)
    (cause lanes addr pc : DWord) :
    (s.waitSlot pid p b why cause lanes addr pc).mem = s.mem := by
  unfold State.waitSlot
  split <;> rfl

@[simp] theorem State.doneConsume_mem (s : State) (k : Consume) : (s.doneConsume k).mem = s.mem := rfl

@[simp] theorem State.enqueue_mem (s : State) (pid core : Nat) : (s.enqueue pid core).mem = s.mem := by
  unfold State.enqueue
  (repeat' split) <;> rfl

@[simp] theorem State.leaveCore_mem (s : State) (pid : Nat) : (s.leaveCore pid).mem = s.mem := rfl

@[simp] theorem State.restoreLineages_mem (s : State) (iv : Machine.Interval) :
    (s.restoreLineages iv).mem = s.mem := by
  unfold State.restoreLineages
  grind [State.setLineage_mem, foldl_mem]

@[simp] theorem State.unsend_mem (s : State) (key : Nat) : (s.unsend key).mem = s.mem := by
  simp [State.unsend, State.dropMsg_mem, foldl_mem]

@[simp] theorem State.setSeed_mem (s : State) (k : Nat) (x : Seed) : (s.setSeed k x).mem = s.mem := rfl

@[simp] theorem State.placeNew_mem (s : State) (g : Grid) (cl : Nat) : (s.placeNew g cl).mem = s.mem := by
  simp [State.placeNew, foldl_mem]

@[simp] theorem State.repoint_mem (s : State) (f : Loc → Loc) : (s.repoint f).mem = s.mem := rfl

@[simp] theorem State.settle_mem (s : State) : s.settle.mem = s.mem := rfl

@[simp] theorem State.noSpace_mem (s : State) : s.noSpace.mem = s.mem := by
  unfold State.noSpace
  grind [State.enqueue_mem, foldl_mem]

theorem State.allocTicket_mem {s t : State} {m : Msg} {slice len i : Nat} {f : Fetch} {data : List Byte}
    {poison : Bool} {src : Option Loc} {frame : DWord}
    (h : s.allocTicket m slice f len data poison src frame = some (i, t)) :
    t.mem = s.mem := by
  unfold State.allocTicket at h
  split at h
  · cases h
  · split at h
    · cases h
    · cases h; rfl

@[simp] theorem State.answerRead_mem (s : State) (who : Asker) (b : List Byte) (poison : Bool) :
    (s.answerRead who b poison).mem = s.mem := by
  unfold State.answerRead
  split <;> rfl

@[simp] theorem State.setRoute_mem (s : State) (d : BitVec 20) (x : Route) : (s.setRoute d x).mem = s.mem := rfl

@[simp] theorem State.answeredBy_mem (s : State) (d : BitVec 20) : (s.answeredBy d).mem = s.mem := rfl

@[simp] theorem State.askImage_mem (s : State) (who : Reader) (core : Nat) (r : LaunchRec) :
    (s.askImage who core r).mem = s.mem := by
  unfold State.askImage
  split <;> simp

@[simp] theorem State.askPlanes_mem (s : State) (who : Reader) (core : Nat) (ys : List Loc) :
    (s.askPlanes who core ys).2.mem = s.mem := by
  refine foldl_leaves (fun a : Bool × State => a.2.mem) (fun _ _ => ?_) _ _
  simp

@[simp] theorem State.askSlots_mem (s : State) (pid bid : Nat) (pages : List Nat) :
    (s.askSlots pid bid pages).mem = s.mem := by
  unfold State.askSlots
  grind [State.post_mem, State.setParty_mem, foldl_mem]

@[simp] theorem State.askWithdraw_mem (s : State) (pid : Nat) (p : Party) (b : Bundle) (x : BarRef) (q : Nat) :
    (s.askWithdraw pid p b x q).mem = s.mem := rfl

@[simp] theorem State.awayBy_mem (s : State) (grid : BitVec 32) (dev : BitVec 20) (frame : Bool) (d : ℤ) :
    (s.awayBy grid dev frame d).mem = s.mem := by
  unfold State.awayBy
  split <;> rfl

@[simp] theorem State.badResp_mem (s : State) : s.badResp.mem = s.mem := rfl

theorem State.ctx?_mem {s : State} {c : Ctx} (h : s.ctx? = some c) :
    c.s.mem = s.mem := congrArg State.mem (ctx?_eq h).1

@[simp] theorem State.beginWait_mem (s : State) (m : Msg) : (s.beginWait m).mem = s.mem := by
  unfold State.beginWait
  split <;> rfl

@[simp] theorem State.releasePage_mem (s : State) (asid : BitVec 16) (va : Nat) :
    (s.releasePage asid va).mem = s.mem := rfl

@[simp] theorem State.markApplied_mem (s : State) (id : Nat) : (s.markApplied id).mem = s.mem := rfl

@[simp] theorem State.waitAtHome_mem (s : State) (id : Nat) : (s.waitAtHome id).mem = s.mem := rfl

@[simp] theorem State.claimAt_mem (s : State) (m : Msg) (t : DWord) (who : Asker) (launch : BitVec 32)
    (asid : BitVec 16) (frame : DWord) :
    (s.claimAt m t who launch asid frame).mem = s.mem := by
  unfold State.claimAt
  dsimp only
  (repeat' split) <;> simp

@[simp] theorem State.divideRun_mem (s : State) (pid bid : Nat) (m : DWord) :
    (s.divideRun pid bid m).mem = s.mem := by
  unfold State.divideRun
  (repeat' split) <;> rfl

@[simp] theorem State.trapReturn_mem (s : State) (pid : Nat) (skip : Bool) : (s.trapReturn pid skip).mem = s.mem := by
  unfold State.trapReturn
  (repeat' split) <;> simp

@[simp] theorem State.corrected_mem (s : State) (pa : Nat) : (s.corrected pa).mem = s.mem := by
  unfold State.corrected
  split <;> rfl

@[simp] theorem State.countChanged_mem (s : State) (core key : Nat) (d : ℤ) :
    (s.countChanged core key d).mem = s.mem := by
  unfold State.countChanged
  grind [State.checkRejoin_mem, State.lapseBar_mem, State.postPart_mem, State.setLineage_mem, settleBar_mem,
      foldl_mem]

@[simp] theorem State.forget_mem (s : State) (p : Msg → Bool) : (s.forget p).mem = s.mem := rfl

@[simp] theorem State.markSent_mem (s : State) (id : Nat) : (s.markSent id).mem = s.mem := rfl

@[simp] theorem State.noteSite_mem (s : State) (q : Party) (dev : BitVec 20) : (s.noteSite q dev).mem = s.mem := by
  unfold State.noteSite
  split <;> rfl

@[simp] theorem State.setLink_mem (s : State) (p : Nat) (x : Link) : (s.setLink p x).mem = s.mem := rfl

@[simp] theorem State.giveBack_mem (s : State) (port chan n : Nat) : (s.giveBack port chan n).mem = s.mem := by
  unfold State.giveBack
  split <;> rfl

@[simp] theorem State.refill_mem (s : State) (port : Nat) : (s.refill port).mem = s.mem := by
  simp [State.refill, foldl_mem]

@[simp] theorem State.reportAt_mem (s : State) (port fseq : Nat) : (s.reportAt port fseq).mem = s.mem := by
  unfold State.reportAt
  dsimp only
  (repeat' split) <;> simp

@[simp] theorem State.disableLink_mem (s : State) (port : Nat) : (s.disableLink port).mem = s.mem := by
  unfold State.disableLink
  dsimp only
  (repeat' split) <;> simp

@[simp] theorem State.endLaunch_mem (s : State) (msg : Nat) : (s.endLaunch msg).mem = s.mem := by
  simp [State.endLaunch, State.dropMsg_mem]

@[simp] theorem State.dropLaunch_mem (s : State) (msg : Nat) : (s.dropLaunch msg).mem = s.mem := by
  simp [State.dropLaunch]

@[simp] theorem State.tallyHist_mem (s : State) (item inst x : Nat) : (s.tallyHist item inst x).mem = s.mem := rfl

@[simp] theorem State.withdrawn_mem (s : State) (who : Asker) : (s.withdrawn who).mem = s.mem := by
  unfold State.withdrawn
  dsimp only
  (repeat' split) <;> simp

@[simp] theorem State.tellWithdrawn_mem (s : State) (core : Nat) (who : Asker) (req : Nat) :
    (s.tellWithdrawn core who req).mem = s.mem := by
  unfold State.tellWithdrawn
  (repeat' split) <;> simp

@[simp] theorem State.withdrawFrom_mem (s : State) (b : BarRef) (who : Asker) :
    (s.withdrawFrom b who).mem = s.mem := by
  simp [State.withdrawFrom]

@[simp] theorem State.opTrap_mem (s : State) (op k : Nat) : (s.opTrap op k).mem = s.mem := rfl

@[simp] theorem State.setRoundCount_mem (s : State) (core n key count : Nat) :
    (s.setRoundCount core n key count).mem = s.mem := by
  unfold State.setRoundCount
  dsimp only
  (repeat' split) <;> simp

@[simp] theorem State.keepWaiting_mem (s : State) (m : Msg) : (s.keepWaiting m).mem = s.mem := by
  unfold State.keepWaiting
  split <;> rfl

@[simp] theorem State.handOut_mem (s : State) (e : Ticket) (m : Msg) : (s.handOut e m).mem = s.mem := by
  unfold State.handOut
  (repeat' split) <;> rfl

@[simp] theorem State.frameAccept_mem (s : State) (m : Msg) (who : Asker) (kind : Nat) (id arg : DWord) :
    (s.frameAccept m who kind id arg).mem = s.mem := by
  simp [State.frameAccept]

@[simp] theorem State.elemReady_mem (s : State) (m : Msg) : (s.elemReady m).2.mem = s.mem := by
  unfold State.elemReady
  dsimp only
  (repeat' split) <;> simp [State.load_mem]

@[simp] theorem State.keepRecord_mem (s : State) (msg : Nat) (b : List Byte) : (s.keepRecord msg b).mem = s.mem := by
  unfold State.keepRecord
  split <;> rfl

@[simp] theorem State.returnTicket_mem (s : State) (m : Msg) (f : Fetch) (key : Nat) :
    (s.returnTicket m f key).mem = s.mem := rfl

@[simp] theorem State.reserveAt_mem (s : State) (id at_ : Nat) : (s.reserveAt id at_).mem = s.mem := rfl

@[simp] theorem State.handleAsked_mem (s : State) (m : Msg) (h : DWord) (who : Asker) (launch : BitVec 32)
    (wait : Bool) :
    (s.handleAsked m h who launch wait).mem = s.mem := by
  unfold State.handleAsked
  (repeat' split) <;> simp

@[simp] theorem State.lockFor_mem (s : State) (m : Msg) (k : Lock) : (s.lockFor m k).mem = s.mem := by
  unfold State.lockFor
  split <;> simp [State.dropMsg_mem]

@[simp] theorem State.tileAsked_mem (s : State) (m : Msg) (team slot : Nat) (who : Asker) :
    (s.tileAsked m team slot who).mem = s.mem := by
  unfold State.tileAsked
  (repeat' split) <;> simp

@[simp] theorem State.unbook_mem (s : State) (team slot : Nat) (ts : List Tile) :
    (s.unbook team slot ts).mem = s.mem := by
  unfold State.unbook
  (repeat' split) <;> rfl

@[simp] theorem State.fetchDone_mem (s : State) (key : Nat) (data : List Byte) :
    (s.fetchDone key data).mem = s.mem := by
  unfold State.fetchDone
  dsimp only
  (repeat' split) <;> simp

@[simp] theorem State.servePort_mem (s : State) (m : Msg) (f : Fetch) (frame : DWord) :
    (s.servePort m f frame).mem = s.mem := by
  unfold State.servePort
  dsimp only
  split
  · rfl
  · next h => simp [State.allocTicket_mem h]

@[simp] theorem State.noteGiven_mem (s : State) (team : Nat) (t : DWord) : (s.noteGiven team t).mem = s.mem := by
  unfold State.noteGiven
  split <;> rfl

@[simp] theorem State.packQueue_mem (s : State) (core : Nat) : (s.packQueue core).mem = s.mem := rfl

@[simp] theorem State.shrinkQueue_mem (s : State) (core : Nat) : (s.shrinkQueue core).mem = s.mem := by
  unfold State.shrinkQueue
  dsimp only
  (repeat' split) <;> simp

@[simp] theorem State.setLinks_mem (s : State) (lo hi : Nat) (x : Link) : (s.setLinks lo hi x).mem = s.mem := rfl

@[simp] theorem State.toRecovery_mem (s : State) (n : Nat) : (s.toRecovery n).mem = s.mem := rfl

@[simp] theorem State.setBootEnt_mem (s : State) (n : Nat) (e : BootEnt) : (s.setBootEnt n e).mem = s.mem := by
  unfold State.setBootEnt
  split <;> rfl

@[simp] theorem State.stepDone_mem (s : State) (n : Nat) (m : Option Nat) (inp : BootInput) :
    (s.stepDone n m inp).mem = s.mem := by
  unfold State.stepDone
  grind [State.setLinks_mem, State.setStk_mem, foldl_mem]

@[simp] theorem State.skipStep_mem (s : State) (n : Nat) (inp : BootInput) : (s.skipStep n inp).mem = s.mem := by
  simp [State.skipStep]

@[simp] theorem State.markAbsent_mem (s : State) (k : Nat) (m : BitVec 32) : (s.markAbsent k m).mem = s.mem := rfl

@[simp] theorem State.markDead_mem (s : State) (k : Nat) (m : BitVec 32) : (s.markDead k m).mem = s.mem := by
  unfold State.markDead
  grind [State.markAbsent_mem, State.setCore_mem, foldl_mem]

@[simp] theorem State.stepWork_mem (s : State) (n m : Nat) (inp : BootInput) : (s.stepWork n m inp).mem = s.mem := by
  unfold State.stepWork
  grind [State.markAbsent_mem, State.markDead_mem, foldl_mem]

@[simp] theorem State.spdm_mem (s : State) (code : Nat) (body : List Nat) : (s.spdm code body).mem = s.mem := rfl

@[simp] theorem State.spdmSigned_mem (s : State) (code : Nat) (body : List Nat) :
    (s.spdmSigned code body).mem = s.mem := rfl

@[simp] theorem State.pldm_mem (s : State) (code : Nat) (body : List Nat) : (s.pldm code body).mem = s.mem := rfl

@[simp] theorem State.formRecord_mem (s : State) (pid : Nat) (p : Party) (b : Bundle) (h : Home) :
    (s.formRecord pid p b h).mem = s.mem := rfl

@[simp] theorem State.setShadow_mem (s : State) (u : Nat) (x : ShadowUnit) : (s.setShadow u x).mem = s.mem := rfl

@[simp] theorem State.setClock_mem (s : State) (c mhz : Nat) : (s.setClock c mhz).mem = s.mem := by
  unfold State.setClock
  split <;> rfl

@[simp] theorem State.retune_mem (s : State) (c : Nat) : (s.retune c).mem = s.mem := by
  simp [State.retune]

@[simp] theorem State.setUnitClock_mem (s : State) (u mhz : Nat) : (s.setUnitClock u mhz).mem = s.mem := by
  unfold State.setUnitClock
  split <;> simp

@[simp] theorem State.endWindow_mem (s : State) (unit : Nat) : (s.endWindow unit).mem = s.mem := by
  unfold State.endWindow
  dsimp only
  split
  · rfl
  · split
    · split <;> simp
    · split <;> simp

@[simp] theorem State.respond_mem {s : State} {val : DWord} {action : Nat}
    {f : State → EvSubject → Nat → Option State} (hf : ∀ t e n u, f t e n = some u → u.mem = t.mem) :
    (s.respond val action f).mem = s.mem := by
  unfold State.respond
  dsimp only
  split
  · simp
  · split
    · rfl
    · split
      · simp
      · split
        · simp
        · next h => exact (hf _ _ _ _ h :)

theorem State.reserveHead_mem {s t : State} {m : Msg} {core : Nat} (h : s.reserveHead m core = some t) :
    t.mem = s.mem := by
  unfold State.reserveHead at h
  obtain ⟨n, -, h⟩ := Option.bind_eq_some_iff.mp h
  obtain ⟨i, -, rfl⟩ := Option.map_eq_some_iff.mp h
  split <;> simp

@[simp] theorem State.reserveHeads_mem (core n : Nat) (s : State) : (State.reserveHeads core n s).mem = s.mem := by
  induction n generalizing s with
  | zero => rfl
  | succ n ih =>
    unfold State.reserveHeads
    split
    · next h =>
      obtain ⟨m, -, hm⟩ := List.exists_of_findSome?_eq_some h
      rw [ih]
      split at hm
      · exact State.reserveHead_mem hm
      · cases hm
    · rfl

theorem State.enlarge_mem {s t : State} {k : Nat} (h : s.enlarge k = some t) : t.mem = s.mem := by
  unfold State.enlarge at h
  dsimp only at h
  split at h
  · cases h
  · split at h
    · cases h
    · cases h
      simp

@[simp] theorem State.queueAnswered_mem (s : State) (k : Nat) : (s.queueAnswered k).mem = s.mem := rfl

@[simp] theorem State.parkOldest_mem (s : State) (k : Nat) : (s.parkOldest k).mem = s.mem := by
  unfold State.parkOldest
  dsimp only
  (repeat' split) <;> simp

@[simp] theorem State.wantParkOf_mem (s : State) (pid : Nat) : (s.wantParkOf pid).mem = s.mem := by
  unfold State.wantParkOf
  split <;> rfl

@[simp] theorem State.wantSaveOf_mem (s : State) (key : Nat) : (s.wantSaveOf key).mem = s.mem := by
  unfold State.wantSaveOf
  grind [State.wantParkOf_mem, foldl_mem]

@[simp] theorem State.startMove_mem (s : State) (k key named : Nat) : (s.startMove k key named).mem = s.mem := by
  unfold State.startMove
  dsimp only
  (repeat' split) <;> simp

@[simp] theorem State.pageResume_mem (s : State) (pid bid : Nat) : (s.pageResume pid bid).mem = s.mem := by
  unfold State.pageResume
  split <;> rfl

@[simp] theorem State.stepDown_mem (s : State) (port : Nat) (remote : BitVec 16) (rspeed : Nat) :
    (s.stepDown port remote rspeed).mem = s.mem := by
  unfold State.stepDown
  dsimp only
  (repeat' split) <;> simp

@[simp] theorem State.setPort_mem (s : State) (p : Nat) (x : Port) : (s.setPort p x).mem = s.mem := rfl

@[simp] theorem State.hostFault_mem (s : State) (p hpa : Nat) : (s.hostFault p hpa).mem = s.mem := rfl

@[simp] theorem State.hostBad_mem (s : State) (p : Nat) (a : HostAcc) : (s.hostBad p a).mem = s.mem := rfl

@[simp] theorem State.farWrite_mem (s : State) (who : Reader) (core : Nat) (l : Loc) (data : List Byte) :
    (s.farWrite who core l data).2.mem = s.mem := by
  unfold State.farWrite
  split <;> rfl

@[simp] theorem State.markOld_mem (s : State) : s.markOld.mem = s.mem := rfl

@[simp] theorem State.wakeAll_mem (s : State) : s.wakeAll.mem = s.mem := rfl

@[simp] theorem State.invalidate_mem (s : State) (val : DWord) (f : Leaf → Bool) :
    (s.invalidate val f).mem = s.mem := by
  unfold State.invalidate
  split <;> rfl

@[simp] theorem State.sample_mem (s : State) (port : Nat) (time : BitVec 32) : (s.sample port time).mem = s.mem := by
  unfold State.sample
  split <;> rfl

theorem State.seqCtx?_mem {s : State} {c : SeqCtx} (h : s.seqCtx? = some c) : c.s.mem = s.mem := by
  unfold State.seqCtx? at h
  split at h
  · split at h
    · cases h
    · split at h
      · cases h
      · split at h
        · cases h
        · cases h; rfl
  · cases h

@[simp] theorem State.saveTel_mem (s : State) : s.saveTel.mem = s.mem := rfl

theorem State.leaveBy_mem {s t : State} {port : Nat} {p : Packet} {src chan : Nat}
    (h : s.leaveBy port p src chan = some t) :
    t.mem = s.mem := by
  unfold State.leaveBy at h
  dsimp only at h
  split at h
  · split at h
    · cases h
    · cases h; simp
  · cases h; simp

@[simp] theorem State.failPark_mem (s : State) (pid : Nat) : (s.failPark pid).mem = s.mem := by
  unfold State.failPark
  dsimp only
  (repeat' split) <;> simp

@[simp] theorem State.toBoundary_mem (s : State) (pid : Nat) (p : Party) : (s.toBoundary pid p).mem = s.mem := by
  unfold State.toBoundary
  dsimp only
  (repeat' split) <;> simp [foldl_mem]

@[simp] theorem State.stewardsToo_mem (s : State) (pid new core : Nat) :
    (s.stewardsToo pid new core).mem = s.mem := rfl

@[simp] theorem State.ownParks_mem (s : State) : s.ownParks.mem = s.mem := rfl

@[simp] theorem State.preStart_mem {s : State} {val : DWord} {action : Nat} {f : State → State}
    (hf : ∀ t, (f t).mem = t.mem) :
    (s.preStart val action f).mem = s.mem := by
  unfold State.preStart
  dsimp only
  split
  · rfl
  · split
    · rw [hf]
    · rfl

@[simp] theorem State.poolWrite_mem (s : State) (off : Nat) (val : DWord) : (s.poolWrite off val).mem = s.mem := by
  unfold State.poolWrite
  split <;> rfl

@[simp] theorem State.seedWrite_mem (s : State) (slot off : Nat) (val : DWord) :
    (s.seedWrite slot off val).mem = s.mem := rfl

@[simp] theorem State.markRejoin_mem (s : State) (like : Party) (m : DWord) (h : Home) (r : RejoinPend) :
    (s.markRejoin like m h r).mem = s.mem := rfl

@[simp] theorem State.relieve_mem (s : State) (k : Nat) : (s.relieve k).mem = s.mem := by
  unfold State.relieve
  cases h : s.enlarge k with
  | none => simp
  | some t => exact State.enlarge_mem h

@[simp] theorem State.noteWalks_mem (t s : State) (i : Instr) : (t.noteWalks s i).mem = t.mem := by
  unfold State.noteWalks
  split
  · rfl
  · dsimp only
    split
    · rw [foldl_mem _ fun _ _ => by simp, foldl_mem _ fun _ _ => by simp]
    · rfl

@[simp] theorem State.matrixFault_mem (s : State) (code : Nat) : (s.matrixFault code).mem = s.mem := by
  unfold State.matrixFault
  split
  · rfl
  · next h =>
    split
    · rw [SeqCtx.stop_mem, State.seqCtx?_mem h]
    · rfl

@[simp] theorem State.stampBlocked_mem (s : State) : s.stampBlocked.mem = s.mem := rfl

@[simp] theorem State.reissue_mem (s : State) (pid : Nat) (p : Party) (b : Bundle) :
    (s.reissue pid p b).mem = s.mem := by
  unfold State.reissue
  (repeat' split) <;> simp

@[simp] theorem State.noteHeads_mem (s : State) : s.noteHeads.mem = s.mem := rfl

@[simp] theorem State.preDone_mem (s : State) : s.preDone.mem = s.mem := by
  unfold State.preDone
  split <;> rfl

@[simp] theorem State.returnBlocks_mem (s old : State) :
    (s.returnBlocks old).mem = s.mem := foldl_mem _ (fun _ _ => by simp) _ _

@[simp] theorem State.trimQueues_mem (s : State) : s.trimQueues.mem = s.mem := rfl

@[simp] theorem State.unnamed_mem (s : State) (mctp : Bool) (code : Nat) : (s.unnamed mctp code).mem = s.mem := by
  unfold State.unnamed
  (repeat' split) <;> rfl

@[simp] theorem State.update_mem (s : State) (x : Image) : (s.update x).mem = s.mem := rfl

/-! ## What writes memory -/

/-- A fold of steps that each keep the canonical form keeps it. -/
theorem foldl_wf {α : Type} {f : State → α → State}
    (hf : ∀ s a, Memory.wf s.mem = true → Memory.wf (f s a).mem = true)
        (l : List α) {s : State} (h : Memory.wf s.mem = true) :
    Memory.wf (l.foldl f s).mem = true :=
  List.foldlRecOn (motive := fun s : State => Memory.wf s.mem = true) l f h fun s hs a _ => hf s a hs

theorem Map.sortedFrom_filter {α : Type} (p : Nat × α → Bool) {m : Map α} {a : Nat} (h : Map.sortedFrom a m = true) :
    Map.sortedFrom a (m.filter p) = true := by
  induction m generalizing a with
  | nil => rfl
  | cons e m ih =>
    obtain ⟨k, x⟩ := e
    simp only [Map.sortedFrom, Bool.and_eq_true, decide_eq_true_eq] at h
    rw [List.filter_cons]
    split
    · simp only [Map.sortedFrom, Bool.and_eq_true, decide_eq_true_eq]
      exact ⟨h.1, ih h.2⟩
    · exact Map.sortedFrom_mono (by omega) (ih h.2)

/-- A frame without its bytes leaves memory in its canonical form. -/
theorem zeroFrame_wf (m : List Host.Cell) (f : Nat) (h : Memory.wf m = true) : Memory.wf (zeroFrame m f) = true := by
  simp only [Memory.wf, Map.canon, Map.sorted, Bool.and_eq_true, List.all_eq_true] at h ⊢
  exact ⟨Map.sortedFrom_filter _ h.1, fun e he => h.2 e (List.mem_of_mem_filter he)⟩

/-- The state that an answer leaves, where it leaves one, has memory in its canonical form. -/
def OptWf : Option State → Prop
  | some t => Memory.wf t.mem = true
  | none => True

theorem OptWf.of_eq {o : Option State} {t : State} (ho : OptWf o) (h : o = some t) : Memory.wf t.mem = true := by
  rwa [h] at ho

/-- The state that an access of a host leaves has memory in its canonical form. -/
def HostRes.Wf : HostRes → Prop
  | .done t => Memory.wf t.mem = true
  | .held t => Memory.wf t.mem = true

/-- The state that a spill leaves has memory in its canonical form. -/
def SpillRes.Wf : SpillRes → Prop
  | .done t => Memory.wf t.mem = true
  | .fault _ => True

/-- The state that checks leave, where the word is held, has memory in its canonical form. -/
def Pre.Wf : Pre → Prop
  | .hold t => Memory.wf t.mem = true
  | _ => True

/-- The checks of addresses keep the canonical form where they stop. -/
def Chk.Wf : Chk → Prop
  | .ok _ => True
  | .stop p => p.Wf

/-- The state that a word's effect leaves has memory in its canonical form. -/
def Res.Wf : Res → Prop
  | .done c => Memory.wf c.s.mem = true
  | .stay t => Memory.wf t.mem = true

/-- The next state, where there is one, has memory in its canonical form. -/
def OutWf : Outcome State Fault Refusal → Prop
  | .next t => Memory.wf t.mem = true
  | _ => True

@[simp] theorem optWf_some (t : State) : OptWf (some t) ↔ Memory.wf t.mem = true := Iff.rfl
@[simp] theorem optWf_none : OptWf none := trivial
@[simp] theorem HostRes.wf_done (t : State) : (HostRes.done t).Wf ↔ Memory.wf t.mem = true := Iff.rfl
@[simp] theorem HostRes.wf_held (t : State) : (HostRes.held t).Wf ↔ Memory.wf t.mem = true := Iff.rfl
@[simp] theorem SpillRes.wf_done (t : State) : (SpillRes.done t).Wf ↔ Memory.wf t.mem = true := Iff.rfl
@[simp] theorem SpillRes.wf_fault (va : Nat) : (SpillRes.fault va).Wf := trivial
@[simp] theorem Pre.wf_go : Pre.go.Wf := trivial
@[simp] theorem Pre.wf_traps (l : List Trap) : (Pre.traps l).Wf := trivial
@[simp] theorem Pre.wf_hold (t : State) : (Pre.hold t).Wf ↔ Memory.wf t.mem = true := Iff.rfl
@[simp] theorem Chk.wf_ok (l : List Tgt) : (Chk.ok l).Wf := trivial
@[simp] theorem Chk.wf_stop (p : Pre) : (Chk.stop p).Wf ↔ p.Wf := Iff.rfl
@[simp] theorem Res.wf_done (c : Ctx) : (Res.done c).Wf ↔ Memory.wf c.s.mem = true := Iff.rfl
@[simp] theorem Res.wf_stay (t : State) : (Res.stay t).Wf ↔ Memory.wf t.mem = true := Iff.rfl
theorem OutWf.of_next {r : Outcome State Fault Refusal} {t : State} (hr : OutWf r) (h : r = .next t) :
    Memory.wf t.mem = true := by
  rwa [h] at hr

@[simp] theorem outWf_next (t : State) : OutWf (.next t) ↔ Memory.wf t.mem = true := Iff.rfl
@[simp] theorem outWf_fault (f : Fault) : OutWf (.fault f) := trivial

theorem OptWf.bind {α : Type} {o : Option α} {f : α → Option State} (hf : ∀ a, OptWf (f a)) : OptWf (o.bind f) := by
  cases o with
  | none => trivial
  | some a => exact hf a

theorem OptWf.map {o : Option State} {f : State → State} (ho : OptWf o) (hf : ∀ t, (f t).mem = t.mem) :
    OptWf (o.map f) := by
  cases o with
  | none => trivial
  | some t => exact (congrArg (Memory.wf ·) (hf t)).trans ho

theorem OptWf.getD {o : Option State} {s : State} (ho : OptWf o) (h : Memory.wf s.mem = true) :
    Memory.wf (o.getD s).mem = true := by
  cases o with
  | none => exact h
  | some t => exact ho

theorem ite_wf {p : Prop} [Decidable p] {s t : State} (hs : Memory.wf s.mem = true) (ht : Memory.wf t.mem = true) :
    Memory.wf (if p then s else t).mem = true := by
  split
  · exact hs
  · exact ht

@[simp] theorem State.attachFrame_wf (s : State) (key page : Nat) (h : Memory.wf s.mem = true) :
    OptWf (s.attachFrame key page) := by
  unfold State.attachFrame
  grind [OptWf, zeroFrame_wf, State.setStk_mem]

@[simp] theorem State.putByte_wf (s : State) (lvl pa : Nat) (x : Byte) (h : Memory.wf s.mem = true) :
    Memory.wf (s.putByte lvl pa x).mem = true := by
  unfold State.putByte
  (repeat' split) <;> simp [memPut_wf, h]

@[simp] theorem State.applyAtomic_wf (s : State) (who : Who) (l : Loc) (op : AtomOp) (dbl : Bool) (x y : DWord)
    (h : Memory.wf s.mem = true) :
    Memory.wf (s.applyAtomic who l op dbl x y).2.mem = true := by
  unfold State.applyAtomic
  dsimp only
  (repeat' split) <;> simp [State.load_mem, State.store_wf, h]

@[simp] theorem State.applyWrite_wf (s : State) (who : Who) (l : Loc) (data mask : List Byte)
    (h : Memory.wf s.mem = true) :
    Memory.wf (s.applyWrite who l data mask).mem = true := by
  unfold State.applyWrite
  split <;> simp [State.store_wf, h]

@[simp] theorem State.applyElem_wf (s : State) (m : Msg) (e : ElemRef) (x : Word) (mode : Nat) (sat : Bool)
    (draw : Word) (h : Memory.wf s.mem = true) :
    Memory.wf (s.applyElem m e x mode sat draw).mem = true := by
  unfold State.applyElem
  dsimp only
  (repeat' split) <;> simp [h]

@[simp] theorem State.applyBody_wf (s : State) (m : Msg) (h : Memory.wf s.mem = true) : OptWf (s.applyBody m) := by
  unfold State.applyBody
  grind [OptWf, State.applyWrite_wf, State.applyElem_wf, State.dropReads_mem, State.applyAtomic_wf,
      State.returnVals_mem, State.load_mem, State.seePlanes_mem]

@[simp] theorem State.sendDraft_wf (s : State) (pid bid : Nat) (lanes : DWord) (d : Draft)
    (h : Memory.wf s.mem = true) :
    Memory.wf (s.sendDraft pid bid lanes d).mem = true := by
  unfold State.sendDraft
  split
  · exact h
  next p _ =>
  extract_lets core s1 tell s2 waits id body s3 s4 here now
  have h1 : Memory.wf s1.mem = true := ite_wf (by simpa using h) h
  have h2 : Memory.wf s2.mem = true := by
    have htell (frame : Bool) : Memory.wf (tell frame).mem = true := ite_wf h1 (by simpa using h1)
    subst s2
    split
    · exact htell _
    · exact htell _
    · exact h1
  have h4 : Memory.wf s4.mem = true := by
    have h3 : Memory.wf s3.mem = true := by simpa [s3] using h2
    exact ite_wf h3 h3
  have hnow : OptWf now := by
    subst now
    split
    · split
      · exact (s2.applyBody_wf _ h2).map fun _ => State.bump_mem _
      · trivial
    · trivial
  clear_value now s4
  cases now with
  | some t => exact hnow
  | none =>
    dsimp only
    split <;> simp [h4]

@[simp] theorem State.sendEffects_wf (s : State) (pid bid : Nat) (es : List Eff) (h : Memory.wf s.mem = true) :
    Memory.wf (s.sendEffects pid bid es).mem = true := by
  unfold State.sendEffects
  grind [State.post_mem, State.postPart_mem, State.publishOf_mem, State.pushTile_mem, State.sendDraft_wf,
      State.sendFence_mem, foldl_mem, foldl_wf]

@[simp] theorem State.commitWrites_wf (s : State) (pid bid : Nat) (h : Memory.wf s.mem = true) :
    Memory.wf (s.commitWrites pid bid).mem = true := by
  unfold State.commitWrites
  (repeat' split) <;> simp [h]

@[simp] theorem State.continueAt_wf (s : State) (pid bid : Nat) (h : Memory.wf s.mem = true) :
    Memory.wf (s.continueAt pid bid).mem = true := by
  unfold State.continueAt
  dsimp only
  (repeat' split) <;> simp [h]

@[simp] theorem flushEvents_wf (n : Nat) (s : State) (h : Memory.wf s.mem = true) :
    Memory.wf (flushEvents n s).mem = true := by
  fun_induction flushEvents n s <;> grind [State.store_wf]

@[simp] theorem State.raiseEvent_wf (s : State) (e : Event) (h : Memory.wf s.mem = true) :
    Memory.wf (s.raiseEvent e).mem = true := by
  simp [State.raiseEvent, h]

@[simp] theorem State.tierFault_wf (s : State) (asid : BitVec 16) (va core : Nat) (h : Memory.wf s.mem = true) :
    Memory.wf (s.tierFault asid va core).mem = true := by
  unfold State.tierFault
  dsimp only
  (repeat' split) <;> simp [h]

@[simp] theorem Ctx.holdTier_wf (c : Ctx) (va : Nat) (h : Memory.wf c.s.mem = true) :
    Memory.wf (c.holdTier va).mem = true := by
  unfold Ctx.holdTier
  split <;> simp [h]

@[simp] theorem Ctx.pastBarrier_wf (c : Ctx) (h : Memory.wf c.s.mem = true) : Memory.wf c.pastBarrier.mem = true := by
  unfold Ctx.pastBarrier
  split <;> simp [h]

@[simp] theorem State.acceptAt_wf (s : State) (no slice : Nat) (h : Memory.wf s.mem = true) :
    Memory.wf (s.acceptAt no slice).mem = true := by
  unfold State.acceptAt
  grind [State.store_wf, foldl_wf]

@[simp] theorem State.afterUnit_wf {s : State} {g : Grid} {f : State → State} (hf : Memory.wf (f s).mem = true) :
    Memory.wf (s.afterUnit g f).mem = true := by
  unfold State.afterUnit
  split
  · exact hf
  · exact State.syncVheld_wf _ _ hf

@[simp] theorem State.engWrite_wf (s : State) (o : EngOp) (core va : Nat) (data : List Byte) (bad : List Bool)
    (h : Memory.wf s.mem = true) :
    Memory.wf (s.engWrite o core va data bad).mem = true := by
  unfold State.engWrite
  grind [State.postPart_mem, State.publish_mem, State.setPoison_mem, State.store_wf, foldl_mem, foldl_wf]

@[simp] theorem State.engRow_wf (s : State) (o : EngOp) (core src dst n : Nat) (h : Memory.wf s.mem = true) :
    Memory.wf (s.engRow o core src dst n).mem = true := by
  unfold State.engRow
  split <;> simp [h]

@[simp] theorem State.engRows_wf (s : State) (o : EngOp) (core : Nat) (a : List ((Nat × Nat) × (Nat × Nat)))
    (left : Nat) (h : Memory.wf s.mem = true) :
    Memory.wf (s.engRows o core a left).mem = true := by
  fun_induction State.engRows s o core a left <;> grind [State.engRow_wf]

@[simp] theorem State.dropVersions_wf (s : State) (f : Version → Bool) (h : Memory.wf s.mem = true) :
    Memory.wf (s.dropVersions f).mem = true := by
  simp [State.dropVersions, State.syncVheld_wf, h]

@[simp] theorem State.askPage_wf (s : State) (asid : BitVec 16) (va core : Nat) (h : Memory.wf s.mem = true) :
    Memory.wf (s.askPage asid va core).mem = true := by
  unfold State.askPage
  dsimp only
  (repeat' split) <;> simp [h]

@[simp] theorem State.restoreGranules_wf (s : State) (g : Grid) (h : Memory.wf s.mem = true) :
    Memory.wf (s.restoreGranules g).mem = true := by
  unfold State.restoreGranules
  grind [State.putByte_wf, State.setPoison_mem, foldl_mem, foldl_wf]

@[simp] theorem State.writeCompl_wf (s : State) (core : Nat) (asid : BitVec 16) (va w : Nat)
    (h : Memory.wf s.mem = true) :
    Memory.wf (s.writeCompl core asid va w).mem = true := by
  have hs := OptWf.getD (OptWf.bind (o := s.wstackTeam asid va) fun k => s.attachFrame_wf k (va / 65536) h) h
  unfold State.writeCompl
  extract_lets loc s1
  have hs1 : Memory.wf s1.mem = true := by
    subst s1
    split
    · exact h
    · exact hs
  split
  · exact hs1
  · simp [hs1]

@[simp] theorem State.askContain_wf (s : State) (k : Consume) (h : Memory.wf s.mem = true) :
    Memory.wf (s.askContain k).mem = true := by
  simp [State.askContain, h]

@[simp] theorem State.freeSlotOf_wf (s : State) (k i : Nat) (h : Memory.wf s.mem = true) :
    Memory.wf (s.freeSlotOf k i).mem = true := by
  simp [State.freeSlotOf, State.store_wf, h]

@[simp] theorem State.endGrid_wf (s : State) (g : Grid) (h : Memory.wf s.mem = true) :
    Memory.wf (s.endGrid g).mem = true := by
  unfold State.endGrid
  grind [State.dropFrames_mem, State.dropMsg_mem, State.dropRecord_mem, State.endParty_mem, State.freeSlotOf_wf,
      State.postPart_mem, State.reclaimLaunch_mem, foldl_mem, foldl_wf]

@[simp] theorem State.endUnit_wf (s : State) (u : BitVec 32) (again : Bool) (h : Memory.wf s.mem = true) :
    Memory.wf (s.endUnit u again).mem = true := by
  unfold State.endUnit
  grind [State.endGrid_wf, State.frameDrop_mem, foldl_wf]

@[simp] theorem State.raise_wf (s : State) (pid bid : Nat) (ts : List Trap) (pc : DWord) (force : Bool)
    (h : Memory.wf s.mem = true) :
    Memory.wf (s.raise pid bid ts pc force).mem = true := by
  unfold State.raise
  split
  · exact h
  next p _ =>
  split
  · exact h
  next b _ =>
  extract_lets core clk ctl start lanes
  split
  · exact h
  next cause _ =>
  extract_lets +onlyGivenNames topL lowL addr rec0 assisted
  refine ite_wf ?_ (ite_wf (by simpa using h) (ite_wf (by simpa using h) ?_))
  · split <;> simp [h]
  · refine ite_wf (State.raiseEvent_wf _ _ ?_) ?_
    · split <;> simp [apply_ite State.mem, foldl_mem, h]
    · simp [apply_ite State.mem, foldl_mem, h]

@[simp] theorem State.trapConsumer_wf (s : State) (k : Consume) (h : Memory.wf s.mem = true) :
    Memory.wf (s.trapConsumer k).mem = true := by
  unfold State.trapConsumer
  grind [State.raise_wf, foldl_wf]

@[simp] theorem State.containIn_wf (s : State) (n : Nat) (k : Consume) (h : Memory.wf s.mem = true) :
    Memory.wf (s.containIn n k).mem = true := by
  fun_induction State.containIn s n k <;> simp_all

@[simp] theorem State.contain_wf (s : State) (k : Consume) (rollbacks : Option Nat) (h : Memory.wf s.mem = true) :
    Memory.wf (s.contain k rollbacks).mem = true := by
  simp [State.contain, h]

@[simp] theorem State.erase_wf (s : State) (pid : Nat) (h : Memory.wf s.mem = true) :
    Memory.wf (s.erase pid).mem = true := by
  unfold State.erase
  dsimp only
  (repeat' split) <;> simp [foldl_mem, h]

@[simp] theorem State.rollback_wf (s : State) (key : Nat) (t : Team) (iv : Machine.Interval) (k : Consume)
    (h : Memory.wf s.mem = true) :
    Memory.wf (s.rollback key t iv k).mem = true := by
  unfold State.rollback
  grind [State.enqueue_mem, State.erase_wf, State.logK_mem, State.postPart_mem, State.restoreLineages_mem,
      State.setParty_mem, State.unsend_mem, memPuts_wf, foldl_wf]

@[simp] theorem State.consumeOne_wf (s : State) (idx : Nat) (h : Memory.wf s.mem = true) :
    Memory.wf (s.consumeOne idx).mem = true := by
  unfold State.consumeOne
  (repeat' split) <;> simp [h]

@[simp] theorem State.unpark_wf (s : State) (pid core : Nat) (h : Memory.wf s.mem = true) :
    Memory.wf (s.unpark pid core).mem = true := by
  unfold State.unpark
  (repeat' split) <;> simp [h]

@[simp] theorem State.copyFrameOf_wf (s old : State) (src dst : Nat) (h : Memory.wf s.mem = true) :
    Memory.wf (s.copyFrameOf old src dst).mem = true :=
  List.foldlRecOn (motive :=
    fun m : List Host.Cell => Memory.wf m = true) _ _ (zeroFrame_wf _ _ h) fun m hm _ _ => memPut_wf m _ _ hm

@[simp] theorem State.copyFrame_wf (s : State) (src dst : Nat) (h : Memory.wf s.mem = true) :
    Memory.wf (s.copyFrame src dst).mem = true := s.copyFrameOf_wf s src dst h

@[simp] theorem State.freeSave_wf (s : State) (t : Team) (h : Memory.wf s.mem = true) :
    Memory.wf (s.freeSave t).mem = true := by
  unfold State.freeSave
  grind [State.setStk_mem, State.store_wf, foldl_wf]

@[simp] theorem State.moveFrame_wf (s : State) (k f : Nat) (h : Memory.wf s.mem = true) :
    Memory.wf (s.moveFrame k f).2.mem = true := by
  unfold State.moveFrame
  split <;> simp [h]

@[simp] theorem State.moveFrames_wf (s : State) (k : Nat) (a : Map Nat) (h : Memory.wf s.mem = true) :
    Memory.wf (s.moveFrames k a).2.mem = true := by
  fun_induction State.moveFrames s k a <;> grind [State.moveFrame_wf]

@[simp] theorem State.restoreTeam_wf (s : State) (key cl : Nat) (h : Memory.wf s.mem = true) :
    Memory.wf (s.restoreTeam key cl).mem = true := by
  unfold State.restoreTeam
  grind [State.copyFrame_wf, State.freeSave_wf, State.moveFrames_wf, State.settle_mem, State.unpark_wf, foldl_wf]

@[simp] theorem State.place_wf (s : State) (w : Waiting) (cl : Nat) (h : Memory.wf s.mem = true) :
    Memory.wf (s.place w cl).mem = true := by
  unfold State.place
  split <;> simp [h]

@[simp] theorem State.saveSeqr_wf (s : State) (t : Team) (at_ : Nat) (h : Memory.wf s.mem = true) :
    Memory.wf (s.saveSeqr t at_).mem = true := by
  unfold State.saveSeqr
  split <;> simp [memPuts_wf, h]

@[simp] theorem State.expireTicket_wf (s : State) (key : Nat) (h : Memory.wf s.mem = true) :
    Memory.wf (s.expireTicket key).mem = true := by
  unfold State.expireTicket
  split <;> simp [h]

@[simp] theorem State.attachFor_wf (s : State) (x : Loc) (h : Memory.wf s.mem = true) :
    Memory.wf (s.attachFor x).mem = true := by
  unfold State.attachFor
  grind [OptWf.bind, OptWf.getD, State.attachFrame_wf]

@[simp] theorem State.badWord_wf (s : State) (h : Memory.wf s.mem = true) : Memory.wf s.badWord.mem = true := by
  unfold State.badWord
  grind [State.raise_wf, State.ctx?_mem, Ctx.advance_mem]

@[simp] theorem State.setEntry_wf (s : State) (a : Nat) (l : Leaf) (x : Nat) (h : Memory.wf s.mem = true) :
    Memory.wf (s.setEntry a l x).mem = true := by
  unfold State.setEntry
  split <;> simp [memPuts_wf, h]

@[simp] theorem State.setEntries_wf (s : State) (es : List (Nat × Leaf)) (x : Nat → Nat)
    (h : Memory.wf s.mem = true) :
    Memory.wf (s.setEntries es x).mem = true := by
  unfold State.setEntries
  grind [State.setEntry_wf, foldl_wf]

@[simp] theorem State.bringIn_wf (s : State) (asid : BitVec 16) (va k page f : Nat) (out : Option Resident)
    (h : Memory.wf s.mem = true) :
    Memory.wf (s.bringIn asid va k page f out).mem = true := by
  unfold State.bringIn
  generalize tierBase + k * 2 ^ 37 + page * 65536 = far
  have hcopy := s.copyFrame_wf far f h
  cases out with
  | none => simp [hcopy]
  | some p =>
    have hback := (s.copyFrame far f).copyFrameOf_wf s f far hcopy
    simp [hback]

@[simp] theorem State.cold_wf (s : State) : Memory.wf s.cold.mem = true := rfl

@[simp] theorem State.commitPart_wf (s : State) (pid bid : Nat) (m : DWord) (h : Memory.wf s.mem = true) :
    Memory.wf (s.commitPart pid bid m).mem = true := by
  unfold State.commitPart
  dsimp only
  (repeat' split) <;> simp [h]

@[simp] theorem State.finishRun_wf (s : State) (pid bid : Nat) (h : Memory.wf s.mem = true) :
    Memory.wf (s.finishRun pid bid).mem = true := by
  unfold State.finishRun
  dsimp only
  (repeat' split) <;> simp [h]

@[simp] theorem State.commitSome_wf (s : State) (pid bid : Nat) (m : DWord) (h : Memory.wf s.mem = true) :
    Memory.wf (s.commitSome pid bid m).mem = true := by
  unfold State.commitSome
  dsimp only
  (repeat' split) <;> simp [h]

@[simp] theorem State.containDeliver_wf (s : State) (grid : BitVec 32) (idx : Nat) (h : Memory.wf s.mem = true) :
    Memory.wf (s.containDeliver grid idx).mem = true := by
  unfold State.containDeliver
  dsimp only
  split
  · exact h
  · split
    · split <;> simp [h]
    · simp [h]

@[simp] theorem State.containResume_wf (s : State) (grid : BitVec 32) (idx : Nat) (h : Memory.wf s.mem = true) :
    Memory.wf (s.containResume grid idx).mem = true := by
  unfold State.containResume
  split <;> simp [h]

@[simp] theorem State.takeIn_wf (s : State) (m : Msg) (h : Memory.wf s.mem = true) :
    Memory.wf (s.takeIn m).mem = true := by
  unfold State.takeIn
  split <;> simp [h]

@[simp] theorem State.deliver_wf (s : State) (p : Packet) (h : Memory.wf s.mem = true) :
    Memory.wf (s.deliver p).mem = true := by
  unfold State.deliver
  dsimp only
  (repeat' split) <;> simp [State.dropMsg_mem, h]

@[simp] theorem State.drain_wf (s : State) (n : Nat) (h : Memory.wf s.mem = true) :
    Memory.wf (s.drain n).mem = true := by
  fun_induction State.drain s n <;> simp_all

@[simp] theorem State.lapse_wf (s : State) (key : Nat) (h : Memory.wf s.mem = true) :
    Memory.wf (s.lapse key).mem = true := by
  unfold State.lapse
  dsimp only
  (repeat' split) <;> simp [h]

@[simp] theorem State.hostFresh_wf (s : State) (m : Msg) (fresh : List Byte) (h : Memory.wf s.mem = true) :
    Memory.wf (s.hostFresh m fresh).mem = true := by
  unfold State.hostFresh
  (repeat' split) <;> simp [memPuts_wf, h]

@[simp] theorem State.swapAt_wf (s : State) (m : Msg) (x : Loc) (old new : List DWord) (h : Memory.wf s.mem = true) :
    Memory.wf (s.swapAt m x old new).2.mem = true := by
  unfold State.swapAt
  dsimp only
  (repeat' split) <;> simp [State.load_mem, State.store_wf, h]

@[simp] theorem State.msoStep_wf (s : State) (m : Msg) (x : Loc) (k : MsoKind) (h : Memory.wf s.mem = true) :
    Memory.wf (s.msoStep m x k).2.mem = true := by
  unfold State.msoStep
  dsimp only
  (repeat' split) <;> simp [foldl_mem, State.load_mem, State.store_wf, h]

@[simp] theorem State.msoServe_wf (s : State) (m : Msg) (x : Loc) (k : MsoKind) (f : Fetch) (f2 : Option Fetch)
    (h : Memory.wf s.mem = true) :
    Memory.wf (s.msoServe m x k f f2).mem = true := by
  unfold State.msoServe
  dsimp only
  split
  · exact h
  next h1 =>
  have h1 := State.allocTicket_mem h1
  split
  · simp [State.dropMsg_mem, h1, h]
  · split
    · exact h
    next h2 =>
    have h2 := State.allocTicket_mem h2
    simp [State.dropMsg_mem, h1, h2, h]

@[simp] theorem State.undoVisit_wf (s : State) (key : Nat) (h : Memory.wf s.mem = true) :
    Memory.wf (s.undoVisit key).mem = true := by
  unfold State.undoVisit
  grind [State.erase_wf, State.unsend_mem, foldl_wf]

@[simp] theorem State.recordVersion_wf (s : State) (no : Nat) (x : Loc) (pos : Nat) (data : List Byte)
    (h : Memory.wf s.mem = true) :
    Memory.wf (s.recordVersion no x pos data).mem = true := by
  unfold State.recordVersion
  dsimp only
  (repeat' split) <;> simp [State.seeWatched_mem, State.syncVheld_wf, h]

@[simp] theorem State.raiseClaims_wf (s : State) (pid bid : Nat) (h : Memory.wf s.mem = true) :
    OptWf (s.raiseClaims pid bid) := by
  unfold State.raiseClaims
  cases (s.party? pid).bind fun p => p.claimTraps bid with
  | none => trivial
  | some e => exact State.raise_wf _ _ _ _ _ _ h

@[simp] theorem bootFrom_wf (f : Nat) (s : State) (n : Nat) (given : Option Nat) (pass : List Bool) (inp : BootInput)
    (h : Memory.wf s.mem = true) :
    Memory.wf (bootFrom f s n given pass inp).mem = true := by
  fun_induction bootFrom f s n given pass inp <;>
    grind [State.cold_wf, State.skipStep_mem, State.stepWork_mem, State.setBootEnt_mem, State.stepDone_mem,
        State.toRecovery_mem]

@[simp] theorem State.spillReg_wf (s : State) (pid : Nat) (p : Party) (m : DWord) (core r : Nat)
    (h : Memory.wf s.mem = true) :
    (s.spillReg pid p m core r).Wf := by
  unfold State.spillReg
  extract_lets va ls data mask bad after slotLoc s1
  have hafter (t : State) (ht : Memory.wf t.mem = true) : Memory.wf (after t).mem = true := by
    subst after
    dsimp only
    split <;> simp [ht]
  have hs1 : OptWf s1 := by
    subst s1
    split
    · exact h
    · exact OptWf.bind fun k => s.attachFrame_wf k _ h
  clear_value s1
  split
  · split
    · trivial
    · exact hafter _ (by simpa using h)
  · cases s1 with
    | none => trivial
    | some t =>
      dsimp only
      split
      · trivial
      · exact hafter _ (by simpa using hs1)

@[simp] theorem State.spillAll_wf (s : State) (pid : Nat) (m : DWord) (core wb n : Nat) (h : Memory.wf s.mem = true) :
    Memory.wf (s.spillAll pid m core wb n).1.mem = true := by
  fun_induction State.spillAll s pid m core wb n <;> grind [State.spillReg_wf, SpillRes.Wf, State.setParty_mem]

@[simp] theorem State.pageDeliver_wf (s : State) (pid bid : Nat) (h : Memory.wf s.mem = true) :
    Memory.wf (s.pageDeliver pid bid).mem = true := by
  unfold State.pageDeliver
  (repeat' split) <;> simp [h]

@[simp] theorem State.placeAt_wf (s : State) (grid : BitVec 32) (team cl : Nat) (h : Memory.wf s.mem = true) :
    Memory.wf (s.placeAt grid team cl).mem = true := by
  unfold State.placeAt
  (repeat' split) <;> simp [h]

@[simp] theorem State.hostFar_wf (s : State) (p : Nat) (a : HostAcc) (x : Loc) (h : Memory.wf s.mem = true) :
    (s.hostFar p a x).Wf := by
  unfold State.hostFar
  grind [HostRes.Wf, State.farWrite_mem, State.farRead_mem, State.hostBad_mem, State.dropReads_mem]

@[simp] theorem State.hostAt_wf (s : State) (p : Nat) (a : HostAcc) (x : Loc) (h : Memory.wf s.mem = true) :
    (s.hostAt p a x).Wf := by
  unfold State.hostAt
  grind [HostRes.Wf, State.hostFar_wf, State.store_wf, State.load_mem, State.hostBad_mem]

@[simp] theorem State.hostAccess_wf (s : State) (p : Nat) (a : HostAcc) (h : Memory.wf s.mem = true) :
    (s.hostAccess p a).Wf := by
  unfold State.hostAccess
  split
  · simp [h]
  next va asid _ =>
  split
  · simp [h]
  · simp [h]
  · exact h
  · simp [h]
  next l _ =>
  split
  · simp [h]
  · split
    · exact s.hostAt_wf p a _ h
    · split
      · exact h
      · split
        · simp [h]
        next t ht =>
        have ht := (OptWf.bind fun k => s.attachFrame_wf k _ h).of_eq ht
        split
        · split
          · exact t.hostAt_wf p a _ ht
          · simp [ht]
        · simp [ht]

@[simp] theorem State.hostMem_wf (s : State) (p : Nat) (a : HostAcc) (h : Memory.wf s.mem = true) :
    Memory.wf (s.hostMem p a).mem = true := by
  unfold State.hostMem
  grind [HostRes.Wf, State.hostAccess_wf, State.setPort_mem]

@[simp] theorem State.forwardIn_wf (s : State) (src : Nat) (p : Packet) (h : Memory.wf s.mem = true) :
    OptWf (s.forwardIn src p) := by
  unfold State.forwardIn
  split
  · simp [h]
  · refine OptWf.bind fun port => ?_
    cases hl : s.leaveBy port _ src p.chan with
    | none => trivial
    | some t => exact (congrArg (Memory.wf ·) (State.leaveBy_mem hl)).trans h

@[simp] theorem State.forwardOwn_wf (s : State) (p : Packet) (h : Memory.wf s.mem = true) :
    OptWf (s.forwardOwn p) := by
  have hleave {u : State} {port : Nat} {q : Packet} (hu : Memory.wf u.mem = true) : OptWf (u.leaveBy port q allPorts
      0) := by
    cases hl : u.leaveBy port q allPorts 0 with
    | none => trivial
    | some t => exact (congrArg (Memory.wf ·) (State.leaveBy_mem hl)).trans hu
  unfold State.forwardOwn
  split
  · simp [h]
  · split
    · dsimp only
      split
      · split
        · trivial
        · exact hleave (by simpa using h)
      · exact OptWf.bind fun e => hleave (by simpa using h)
    · exact OptWf.bind fun e => hleave h

@[simp] theorem State.spillBundles_wf (s : State) (pid core : Nat) (bs : List Bundle) (h : Memory.wf s.mem = true) :
    Memory.wf (s.spillBundles pid core bs).1.mem = true := by
  fun_induction State.spillBundles s pid core bs <;> grind [State.spillAll_wf]

@[simp] theorem State.writeRecord_wf (s : State) (pid : Nat) (p : Party) (b : Bundle) (i : Nat)
    (h : Memory.wf s.mem = true) :
    Memory.wf (s.writeRecord pid p b i).mem = true := by
  simp [State.writeRecord, State.store_wf, h]

@[simp] theorem State.writeRecords_wf (s : State) (pid : Nat) (p : Party) (bs : List Bundle)
    (h : Memory.wf s.mem = true) :
    Memory.wf (s.writeRecords pid p bs).mem = true := by
  fun_induction State.writeRecords s pid p bs <;>
    grind [State.shrinkQueue_mem, State.leaveCore_mem, State.bump_mem, State.stewardsToo_mem, State.writeRecord_wf]

@[simp] theorem State.noHeader_wf (s : State) (pid bid : Nat) (page : Bool) (h : Memory.wf s.mem = true) :
    Memory.wf (s.noHeader pid bid page).mem = true := by
  unfold State.noHeader
  (repeat' split) <;> simp [h]

@[simp] theorem State.elapse_wf (s : State) (n : Nat) (h : Memory.wf s.mem = true) :
    Memory.wf (s.elapse n).mem = true := by
  simp [State.elapse, h]

@[simp] theorem State.wake_wf (s : State) (h : Memory.wf s.mem = true) : Memory.wf s.wake.mem = true := by
  simp [State.wake, h]

/-- An answer whose step keeps the canonical form keeps it (R321). -/
theorem State.respond_wf {s : State} {val : DWord} {action : Nat} {f : State → EvSubject → Nat → Option State}
    (hf : ∀ t e n, Memory.wf t.mem = true → OptWf (f t e n)) (h : Memory.wf s.mem = true) :
    Memory.wf (s.respond val action f).mem = true := by
  unfold State.respond
  dsimp only
  split
  · simp [h]
  · split
    · exact h
    · split
      · simp [h]
      · split
        · simp [h]
        next ht =>
        refine OptWf.of_eq (hf _ _ _ ?_) ht
        exact h

theorem State.releaseHalt_wf {s : State} {f : State → Ctx → State}
    (hf : ∀ t c, Memory.wf t.mem = true → Memory.wf c.s.mem = true → Memory.wf (f t c).mem = true)
        (h : Memory.wf s.mem = true) :
    Memory.wf (s.releaseHalt f).mem = true := by
  unfold State.releaseHalt
  split
  · exact h
  · dsimp only
    split
    · exact h
    · split
      · exact h
      · split
        · exact h
        next c hc => exact hf _ c h (by rw [State.ctx?_mem hc]; exact h)

theorem State.preStart_wf {s : State} {val : DWord} {action : Nat} {f : State → State}
    (hf : ∀ t, Memory.wf t.mem = true → Memory.wf (f t).mem = true) (h : Memory.wf s.mem = true) :
    Memory.wf (s.preStart val action f).mem = true := by
  unfold State.preStart
  dsimp only
  split
  · exact h
  · split
    · exact hf _ h
    · exact h

theorem State.serve_wf {s : State} {m : Msg} {f : Fetch} {slice : Nat} {frame : DWord} {step : State →
    List Byte × State}
    (hf : ∀ t, Memory.wf t.mem = true → Memory.wf (step t).2.mem = true) (h : Memory.wf s.mem = true) :
    Memory.wf (s.serve m f slice frame step).mem = true := by
  unfold State.serve
  split
  · exact h
  next t ht =>
  have ht : Memory.wf t.mem = true := by rwa [State.allocTicket_mem ht]
  simp [State.dropMsg_mem, hf t ht]

/-! ## The checks of a word and the shapes that words share -/

@[simp] theorem Chk.bind_wf {k : Chk} {f : List Tgt → Pre} (hk : k.Wf) (hf : ∀ ts, (f ts).Wf) : (k.bind f).Wf := by
  cases k with
  | ok l => exact hf l
  | stop p => exact hk

@[simp] theorem Ctx.acqWait_wf (c : Ctx) (h : Memory.wf c.s.mem = true) : c.acqWait.Wf := by
  unfold Ctx.acqWait
  split <;> simp [h]

@[simp] theorem Ctx.alsoAlign_wf {c : Ctx} {k : Chk} {bad : Bool} {va : Nat} {f : List Tgt → Pre} (hk : k.Wf)
    (hf : ∀ ts, (f ts).Wf) :
    (c.alsoAlign k bad va f).Wf := by
  unfold Ctx.alsoAlign
  cases k with
  | ok ts =>
    dsimp only
    split
    · trivial
    · exact hf ts
  | stop p =>
    cases p with
    | go => trivial
    | traps l => trivial
    | hold t => exact hk

@[simp] theorem Ctx.askElem_wf (c : Ctx) (ts : List ETgt) (h : Memory.wf c.s.mem = true) : (c.askElem ts).Wf := by
  unfold Ctx.askElem
  dsimp only
  split
  · simp [h]
  · split
    · trivial
    · rw [Pre.wf_hold, Ctx.save_mem, foldl_ctx_mem fun _ _ => by simp, foldl_ctx_mem fun _ _ => by split <;> simp]
      exact h

@[simp] theorem Ctx.askFor_wf {c : Ctx} {ts : List (Nat × DWord)} {f : DWord → Asker → MsgBody} {rest : Pre}
    (hr : rest.Wf) (h : Memory.wf c.s.mem = true) :
    (c.askFor ts f rest).Wf := by
  unfold Ctx.askFor
  dsimp only
  split
  · exact hr
  · rw [Pre.wf_hold, Ctx.save_mem, foldl_ctx_mem fun _ _ => by simp]
    exact h

@[simp] theorem Ctx.askLen_wf {c : Ctx} {t : DWord} {rest : Pre} (hr : rest.Wf) (h : Memory.wf c.s.mem = true) :
    (c.askLen t rest).Wf := by
  unfold Ctx.askLen
  split <;> simp [hr, h]

@[simp] theorem Ctx.askPhase_wf (c : Ctx) (b : BarRef) (phase : DWord) (h : Memory.wf c.s.mem = true) :
    (c.askPhase b phase).Wf := by
  unfold Ctx.askPhase
  split <;> simp [h]

@[simp] theorem Ctx.askTeam_wf {c : Ctx} {slot : Nat} {rest : Pre} (hr : rest.Wf) (h : Memory.wf c.s.mem = true) :
    (c.askTeam slot rest).Wf := by
  unfold Ctx.askTeam
  split <;> simp [hr, h]

@[simp] theorem Ctx.needFmt_wf (c : Ctx) (ok : Bool) : (c.needFmt ok).Wf := by
  unfold Ctx.needFmt
  split <;> simp

@[simp] theorem Ctx.atomFmt_wf (c : Ctx) (w : Nat) : (c.atomFmt w).Wf := by
  unfold Ctx.atomFmt
  simp

@[simp] theorem Ctx.barChecks_wf {c : Ctx} {id : DWord} {count : Option DWord} {f : BarRef → Pre}
    (hf : ∀ b, (f b).Wf) :
    (c.barChecks id count f).Wf := by
  unfold Ctx.barChecks
  grind [Pre.Wf]

@[simp] theorem Ctx.check_wf (c : Ctx) (n : Nat) (rd wr : Bool) (vas : List (Nat × Nat))
    (h : Memory.wf c.s.mem = true) :
    (c.check n rd wr vas).Wf := by
  unfold Ctx.check
  dsimp only
  split
  · simp [h]
  · split
    · simp [h]
    · split
      · simp [h]
      · split
        · simp [h]
        · split
          · trivial
          · split
            · next ht => exact (OptWf.bind fun k => c.s.attachFrame_wf k _ h).of_eq ht
            · trivial
          · trivial

@[simp] theorem Ctx.bookChk_wf (c : Ctx) (a : Nat) (h : Memory.wf c.s.mem = true) : (c.bookChk a).Wf := by
  unfold Ctx.bookChk
  simp [h]

@[simp] theorem Ctx.cbWait_wf (c : Ctx) (h : Memory.wf c.s.mem = true) : c.cbWait.Wf := by
  unfold Ctx.cbWait
  split <;> simp [h]

@[simp] theorem Ctx.checkMem_wf (c : Ctx) (n : Nat) (rd wr : Bool) (vas : List (Nat × Nat))
    (h : Memory.wf c.s.mem = true) :
    (c.checkMem n rd wr vas).Wf := by
  unfold Ctx.checkMem
  (repeat' split) <;> simp [h]

@[simp] theorem Pre.ofTraps_wf (l : List Trap) : (Pre.ofTraps l).Wf := by
  unfold Pre.ofTraps
  split <;> trivial

@[simp] theorem Ctx.checkTargets_wf (c : Ctx) (tgt : Nat → Nat) (h : Memory.wf c.s.mem = true) :
    (c.checkTargets tgt).Wf := by
  unfold Ctx.checkTargets
  dsimp only
  (repeat' split) <;> simp [h]

@[simp] theorem Ctx.checkTret_wf (c : Ctx) : c.checkTret.Wf := by
  unfold Ctx.checkTret
  (repeat' split) <;> simp

@[simp] theorem Ctx.commitTo_wf (c : Ctx) (h : Memory.wf c.s.mem = true) : c.commitTo.Wf := by
  unfold Ctx.commitTo
  split <;> simp [h]

@[simp] theorem Ctx.cvtFmt_wf (c : Ctx) : c.cvtFmt.Wf := by
  unfold Ctx.cvtFmt
  simp

@[simp] theorem Ctx.depart_wf (c : Ctx) (dest : Nat → Option Home) (h : Memory.wf c.s.mem = true) :
    (c.depart dest).Wf := by
  unfold Ctx.depart
  dsimp only
  (repeat' split) <;> simp [h]

@[simp] theorem Ctx.departFor_wf (c : Ctx) (ts : List Tgt) (h : Memory.wf c.s.mem = true) : (c.departFor ts).Wf := by
  have hd := c.depart_wf (fun l => (tgtOf ts l).bind c.away) h
  unfold Ctx.departFor
  dsimp only
  split
  · split
    · trivial
    · exact hd
  · exact hd

@[simp] theorem Ctx.descChk_wf (c : Ctx) (base : Nat) (h : Memory.wf c.s.mem = true) : (c.descChk base).Wf := by
  unfold Ctx.descChk
  simp [h]

@[simp] theorem Ctx.dropChk_wf (c : Ctx) (t : Table) (a : Nat) (h : Memory.wf c.s.mem = true) :
    (c.dropChk t a).Wf := by
  unfold Ctx.dropChk
  split <;> simp [h]

@[simp] theorem Ctx.elemLocks_wf (c : Ctx) (wr : Bool) (ts : List ETgt) : (c.elemLocks wr ts).Wf := by
  unfold Ctx.elemLocks
  simp

@[simp] theorem Ctx.elemPre_wf {c : Ctx} {rs : List (Nat × EAcc)} {f : List ETgt → Pre} (hf : ∀ ts, (f ts).Wf)
    (h : Memory.wf c.s.mem = true) :
    (c.elemPre rs f).Wf := by
  unfold Ctx.elemPre
  split
  · simp [h]
  · split
    · simp [h]
    · split
      · simp [h]
      · split
        · simp [h]
        · dsimp only
          split
          · trivial
          · split
            · split
              · next ht => exact (OptWf.bind fun k => c.s.attachFrame_wf k _ h).of_eq ht
              · trivial
            · exact hf _

@[simp] theorem Ctx.ranges_wf {c : Ctx} {src dst : List (Nat × Nat)} {rmw : Bool} {f : List Leaf → Pre}
    (hf : ∀ ls, (f ls).Wf) (h : Memory.wf c.s.mem = true) :
    (c.ranges src dst rmw f).Wf := by
  unfold Ctx.ranges
  dsimp only
  split
  · simp [h]
  · split
    · simp [h]
    · split
      · simp [h]
      · split
        · trivial
        · split
          · split
            · next ht => exact (OptWf.bind fun k => c.s.attachFrame_wf k _ h).of_eq ht
            · trivial
          · exact hf _

@[simp] theorem Pre.then_wf {p q : Pre} (hp : p.Wf) (hq : q.Wf) : (p.then q).Wf := by
  cases p with
  | go => exact hq
  | traps l => exact hp
  | hold s => exact hp

@[simp] theorem Ctx.engineChecks_wf (c : Ctx) (q : CopyReq) (h : Memory.wf c.s.mem = true) :
    (c.engineChecks q).Wf := by
  unfold Ctx.engineChecks
  dsimp only
  (repeat' split) <;> simp [h]

@[simp] theorem Ctx.fetchChecks_wf {c : Ctx} {k : Chk} {f : List Tgt → Pre} (hk : k.Wf) (hf : ∀ ts, (f ts).Wf)
    (h : Memory.wf c.s.mem = true) :
    (c.fetchChecks k f).Wf := by
  refine Chk.bind_wf hk fun ts => ?_
  split
  · exact hf ts
  · split
    · next ht => exact (OptWf.bind fun k => c.s.attachFrame_wf k _ h).of_eq ht
    · trivial

@[simp] theorem Ctx.foreignLanes_wf (c : Ctx) (ts : List (Nat × DWord)) : (c.foreignLanes ts).Wf := by
  unfold Ctx.foreignLanes
  simp

@[simp] theorem Ctx.limbChecks_wf (c : Ctx) : c.limbChecks.Wf := by
  unfold Ctx.limbChecks
  split <;> simp

@[simp] theorem Ctx.limits_wf (c : Ctx) (ok : Bool) : (c.limits ok).Wf := by
  unfold Ctx.limits
  split <;> simp

@[simp] theorem Ctx.lockTraps_wf (c : Ctx) (n : Nat) (wr : Bool) (ts : List Tgt) : (c.lockTraps n wr ts).Wf := by
  unfold Ctx.lockTraps
  simp

@[simp] theorem Ctx.needBook_wf (c : Ctx) (fmt : Nat) (h : Memory.wf c.s.mem = true) : (c.needBook fmt).Wf := by
  unfold Ctx.needBook
  split <;> simp [h]

@[simp] theorem Ctx.notBehind_wf {c : Ctx} {ts : List Tgt} {p : Pre} (hp : p.Wf) (h : Memory.wf c.s.mem = true) :
    (c.notBehind ts p).Wf := by
  unfold Ctx.notBehind
  split <;> simp [hp, h]

@[simp] theorem Ctx.onHandle_wf {c : Ctx} {hd : DWord} {wait : Bool} {f : HandleRes → Pre} (hf : ∀ r, (f r).Wf)
    (h : Memory.wf c.s.mem = true) :
    (c.onHandle hd wait f).Wf := by
  unfold Ctx.onHandle
  grind [Pre.Wf, Ctx.save_mem, Ctx.ask_mem]

@[simp] theorem Ctx.orderWait_wf (c : Ctx) (ts : List Tgt) (h : Memory.wf c.s.mem = true) : (c.orderWait ts).Wf := by
  unfold Ctx.orderWait
  split <;> simp [h]

@[simp] theorem Ctx.planeOrder_wf (c : Ctx) (ts : List ETgt) (h : Memory.wf c.s.mem = true) :
    (c.planeOrder ts).Wf := by
  unfold Ctx.planeOrder
  (repeat' split) <;> simp [h]

@[simp] theorem Ctx.postChecks_wf {c : Ctx} {k : Chk} (hk : k.Wf) (h : Memory.wf c.s.mem = true) :
    (c.postChecks k).Wf := Pre.then_wf (c.acqWait_wf h) (Chk.bind_wf hk fun _ => trivial)

@[simp] theorem Ctx.readWait_wf (c : Ctx) (h : Memory.wf c.s.mem = true) : c.readWait.Wf := by
  unfold Ctx.readWait
  split <;> simp [h]

@[simp] theorem Ctx.readChecks_wf {c : Ctx} {n : Nat} {k : Chk} (hk : k.Wf) (h : Memory.wf c.s.mem = true) :
    (c.readChecks n k).Wf := Pre.then_wf (c.readWait_wf h) (Chk.bind_wf hk fun ts =>
    Pre.then_wf (c.departFor_wf ts h) (Pre.then_wf (Pre.ofTraps_wf _) (c.orderWait_wf ts h)))

@[simp] theorem Ctx.readRange_wf {c : Ctx} {va n : Nat} {f : List Byte → Pre} (hf : ∀ b, (f b).Wf)
    (h : Memory.wf c.s.mem = true) :
    (c.readRange va n f).Wf := by
  unfold Ctx.readRange
  refine Ctx.ranges_wf (fun _ => ?_) h
  dsimp only
  split
  · simp [h]
  · split
    · split
      · simp [h]
      · exact hf _
    · split
      · simp [h]
      · rw [Pre.wf_hold, Ctx.save_mem, foldl_ctx_mem fun _ _ => by simp]
        exact h

@[simp] theorem Ctx.readSync_wf {c : Ctx} {bound : Bool} {t : Tgt} {n : Nat} {f : List Byte → Bool → Pre}
    (hf : ∀ b p, (f b p).Wf) (h : Memory.wf c.s.mem = true) :
    (c.readSync bound t n f).Wf := by
  unfold Ctx.readSync
  grind [Pre.Wf, Ctx.save_mem, Ctx.ask_mem, Ctx.stall_mem]

@[simp] theorem Ctx.recordChk_wf (c : Ctx) (a : Nat) (h : Memory.wf c.s.mem = true) : (c.recordChk a).Wf := by
  unfold Ctx.recordChk
  simp [h]

@[simp] theorem Ctx.rejoinHere_wf (c : Ctx) (n : Nat) (timed : Bool) (timeout : DWord)
    (h : Memory.wf c.s.mem = true) :
    (c.rejoinHere n timed timeout).Wf := by
  unfold Ctx.rejoinHere
  (repeat' split) <;> simp [h]

@[simp] theorem Ctx.rowChecks_wf (c : Ctx) (t : Table) (a : Nat) (h : Memory.wf c.s.mem = true) :
    (c.rowChecks t a).Wf := by
  have hd := c.dropChk_wf t a h
  have hc := c.check_wf t.bytes true false (c.rowAddrs t a) h
  unfold Ctx.rowChecks
  split
  next s hs => rwa [hs] at hd
  · trivial
  · split
    next s hs => rwa [hs] at hc
    · trivial
    · trivial
  · exact Ctx.fetchChecks_wf hc (fun _ => trivial) h

@[simp] theorem Ctx.stxFrame_wf (c : Ctx) (ts : List Tgt) : (c.stxFrame ts).Wf := by
  unfold Ctx.stxFrame
  split <;> simp

@[simp] theorem Ctx.watchLocks_wf (c : Ctx) (ts : List Tgt) : (c.watchLocks ts).Wf := by
  unfold Ctx.watchLocks
  simp

@[simp] theorem Ctx.watchAt_wf (c : Ctx) (d b : Nat) (ts : List Tgt) (h : Memory.wf c.s.mem = true) :
    (c.watchAt d b ts).Wf := by
  unfold Ctx.watchAt
  dsimp only
  (repeat' split) <;> simp [h]

@[simp] theorem Ctx.wordChk_wf (c : Ctx) (a : Nat) (h : Memory.wf c.s.mem = true) : (c.wordChk a).Wf := by
  unfold Ctx.wordChk
  simp [h]

@[simp] theorem Ctx.writeChecks_wf {c : Ctx} {n : Nat} {k : Chk} (hk : k.Wf) (h : Memory.wf c.s.mem = true) :
    (c.writeChecks n k).Wf :=
  Pre.then_wf (c.acqWait_wf h) (Chk.bind_wf hk fun ts => Pre.then_wf (c.departFor_wf ts h) (Pre.ofTraps_wf _))

theorem issue_wf {s : State} {g : BitVec 4} {args : List Arg} {pre : Ctx → Pre} {eff : Ctx → Res}
    (hp : ∀ c, Memory.wf c.s.mem = true → (pre c).Wf) (he : ∀ c, Memory.wf c.s.mem = true → (eff c).Wf)
    (h : Memory.wf s.mem = true) :
    OutWf (issue s g args pre eff) := by
  unfold issue
  split
  · trivial
  next c0 hc0 =>
  have hc0 : Memory.wf c0.s.mem = true := by rwa [State.ctx?_mem hc0]
  have hpre (act : List Nat) : (pre { c0 with act := act }).Wf := hp _ hc0
  have heff (act : List Nat) : (eff (Ctx.markLast { c0 with act := act } args)).Wf := he _ (by simpa using hc0)
  split
  · exact h
  · split
    · simpa using hc0
    · dsimp only
      split
      · simp [h]
      · split
        · simp [h]
        · split
          · simpa using hc0
          · split
            · simpa using hc0
            · split
              · simp [h]
              · next t ht =>
                split at ht
                · cases ht
                · have hgo := hpre (c0.guarded (c0.word.govr.getD g))
                  rwa [ht] at hgo
              · split
                · simpa using hc0
                · split
                  · next c' hc' =>
                    have hd := heff (c0.guarded (c0.word.govr.getD g))
                    rw [hc'] at hd
                    simpa using hd
                  · next t ht =>
                    have hd := heff (c0.guarded (c0.word.govr.getD g))
                    rwa [ht] at hd

theorem issueBy_wf {s : State} {g : BitVec 4} {args : Ctx → List Arg} {pre : Ctx → Pre} {eff : Ctx → Res}
    (hp : ∀ c, Memory.wf c.s.mem = true → (pre c).Wf) (he : ∀ c, Memory.wf c.s.mem = true → (eff c).Wf)
    (h : Memory.wf s.mem = true) :
    OutWf (issueBy s g args pre eff) := issue_wf hp he h

theorem intOp_wf {s : State} {g : BitVec 4} {dflt : Nat} {args : Nat → List Arg} {f : Nat → Bool → Ctx → Nat → Ctx}
    (hf : ∀ w sg c l, (f w sg c l).s.mem = c.s.mem) (h : Memory.wf s.mem = true) :
    OutWf (intOp s g dflt args f) :=
  issueBy_wf (fun c _ => c.needFmt_wf _) (fun _ hc => (congrArg (Memory.wf ·) (Ctx.each_mem (hf _ _))).trans hc) h

@[simp] theorem intSat_wf (s : State) (g : BitVec 4) (d a b : BitVec 6) (f : ℤ → ℤ → ℤ) (h : Memory.wf s.mem = true) :
    OutWf (intSat s g d a b f) := intOp_wf (fun w sg c l => by simp) h

@[simp] theorem intBin_wf (s : State) (g : BitVec 4) (d a b : BitVec 6) (f : Nat → Nat → Nat → Nat)
    (h : Memory.wf s.mem = true) :
    OutWf (intBin s g d a b f) := intOp_wf (fun w sg c l => by simp) h

@[simp] theorem immBit_wf (s : State) (g : BitVec 4) (d a : BitVec 6) (i : BitVec 10) (f : Nat → Nat → Nat)
    (h : Memory.wf s.mem = true) :
    OutWf (immBit s g d a i f) := intOp_wf (fun w sg c l => by simp) h

@[simp] theorem barWait_wf (s : State) (g : BitVec 4) (args : List Arg) (a b : BitVec 6) (kind : ArrKind)
    (timeout : Ctx → DWord) (h : Memory.wf s.mem = true) :
    OutWf (barWait s g args a b kind timeout) := by
  unfold barWait
  refine issue_wf (fun c hc => ?_) (fun c hc => ?_) h
  · (repeat' split) <;> simp [hc]
  · grind [Pre.Wf, Chk.Wf, Res.Wf, Ctx.barChecks_wf, Ctx.each_mem, Ctx.pastBarrier_wf, Ctx.push_mem,
      Ctx.sendArrival_mem, Ctx.stall_mem, State.continueAt_wf]

@[simp] theorem shuffle_wf (s : State) (g : BitVec 4) (d a : BitVec 6) (more : List Arg) (src : Ctx → Nat → Nat)
    (h : Memory.wf s.mem = true) :
    OutWf (shuffle s g d a more src) := by
  unfold shuffle
  refine issueBy_wf (fun c hc => ?_) (fun c hc => ?_) h
  · trivial
  · trivial

theorem lanewise_wf {s : State} {g : BitVec 4} {args : List Arg} {f : Ctx → Nat → Ctx}
    (hf : ∀ c l, (f c l).s.mem = c.s.mem) (h : Memory.wf s.mem = true) :
    OutWf (lanewise s g args f) :=
  issue_wf (fun _ _ => trivial) (fun _ hc => (congrArg (Memory.wf ·) (Ctx.each_mem hf)).trans hc) h

@[simp] theorem widen_wf (s : State) (g : BitVec 4) (d a : BitVec 6) (fmt : Nat) (h : Memory.wf s.mem = true) :
    OutWf (widen s g d a fmt) := lanewise_wf (fun c l => by simp) h

@[simp] theorem branch_wf (s : State) (g : BitVec 4) (args : List Arg) (link : Bool) (tgt : Ctx → Nat → Nat)
    (h : Memory.wf s.mem = true) :
    OutWf (branch s g args link tgt) := by
  unfold branch
  refine issue_wf (fun c hc => ?_) (fun c hc => ?_) h
  · simp [hc]
  · grind [Pre.Wf, Chk.Wf, Res.Wf, Ctx.checkTargets_wf, Ctx.each_mem, Ctx.setV64_mem, Ctx.take_mem]

@[simp] theorem intUn_wf (s : State) (g : BitVec 4) (d a : BitVec 6) (f : Nat → Nat → Nat)
    (h : Memory.wf s.mem = true) :
    OutWf (intUn s g d a f) := intOp_wf (fun w sg c l => by simp) h

@[simp] theorem cbOp_wf (s : State) (g : BitVec 4) (d a : BitVec 6) (f : BitVec 256 → Word → Nat × BitVec 16)
    (h : Memory.wf s.mem = true) :
    OutWf (cbOp s g d a f) := by
  unfold cbOp
  refine issue_wf (fun c hc => ?_) (fun c hc => ?_) h
  · simp [hc]
  · simp [hc]

@[simp] theorem divOp_wf (s : State) (g : BitVec 4) (dflt : Nat) (d a b : BitVec 6)
    (f : Nat → Bool → Nat → Nat → Nat) (h : Memory.wf s.mem = true) :
    OutWf (divOp s g dflt d a b f) := by
  unfold divOp
  refine issueBy_wf (fun c hc => ?_) (fun c hc => ?_) h
  · simp
  · trivial

theorem partywise_wf {s : State} {g : BitVec 4} {args : List Arg} {f : Ctx → Ctx} (hf : ∀ c, (f c).s.mem = c.s.mem)
    (h : Memory.wf s.mem = true) :
    OutWf (partywise s g args f) :=
  issue_wf (fun _ _ => trivial) (fun c hc => (congrArg (Memory.wf ·) (hf c)).trans hc) h

theorem narrow_wf {s : State} {g : BitVec 4} {d a : BitVec 6} {extra : List Arg} {pre : Ctx → Pre} {draws : Bool}
    {f : Ctx → Word → Word → Nat × BitVec 16} (hp : ∀ c, Memory.wf c.s.mem = true → (pre c).Wf)
    (h : Memory.wf s.mem = true) :
    OutWf (narrow s g d a extra pre draws f) :=
  issueBy_wf hp (fun c hc => (congrArg (Memory.wf ·)
    (Ctx.each_mem fun c l => by dsimp only; split <;> simp)).trans hc) h

@[simp] theorem fromFloat_wf (s : State) (g : BitVec 4) (d a b : BitVec 6) (signed trunc : Bool)
    (h : Memory.wf s.mem = true) :
    OutWf (fromFloat s g d a b signed trunc) := by
  unfold fromFloat
  refine issueBy_wf (fun c hc => ?_) (fun c hc => ?_) h
  · simp
  · split <;> simp [hc]

@[simp] theorem fpPlain_wf (s : State) (g : BitVec 4) (d a b : BitVec 6) (two : Bool)
    (f : Word → Word → Nat × BitVec 16) (h : Memory.wf s.mem = true) :
    OutWf (fpPlain s g d a b two f) := by
  unfold fpPlain
  refine issue_wf (fun c hc => ?_) (fun c hc => ?_) h
  · simp
  · simp [hc]

@[simp] theorem fpRound_wf (s : State) (g : BitVec 4) (d a b : BitVec 6) (two acc isLong : Bool)
    (f : RMode → Bool → Word → Val → Val → Val → Nat × BitVec 16) (h : Memory.wf s.mem = true) :
    OutWf (fpRound s g d a b two acc isLong f) := by
  refine issueBy_wf (fun c hc => by simp) (fun c hc => ?_) h
  dsimp only
  split
  · rw [Res.wf_done, Ctx.long_mem, foldl_leaves (fun x : Ctx × List Nat => x.1.s.mem) fun _ _ => by simp]
    exact hc
  · simp [hc]

@[simp] theorem rngOp_wf (s : State) (g : BitVec 4) (d a : BitVec 6) (f : Word → Nat) (h : Memory.wf s.mem = true) :
    OutWf (rngOp s g d a f) := by
  unfold rngOp
  refine issue_wf (fun c hc => ?_) (fun c hc => ?_) h
  · trivial
  · trivial

@[simp] theorem halfRound_wf (s : State) (g : BitVec 4) (fmt : Nat) (d a b : BitVec 6) (acc : Bool)
    (f : RMode → Bool → Word → Val → Val → Val → Nat × BitVec 16) (h : Memory.wf s.mem = true) :
    OutWf (halfRound s g fmt d a b acc f) := by
  unfold halfRound
  refine issueBy_wf (fun c hc => ?_) (fun c hc => ?_) h
  · trivial
  · simp [hc]

@[simp] theorem halfDot_wf (s : State) (g : BitVec 4) (fmt : Nat) (d a b : BitVec 6) (h : Memory.wf s.mem = true) :
    OutWf (halfDot s g fmt d a b) := by
  unfold halfDot
  refine issueBy_wf (fun c hc => ?_) (fun c hc => ?_) h
  · trivial
  · simp [hc]

@[simp] theorem halfMinMax_wf (s : State) (g : BitVec 4) (fmt : Nat) (d a b : BitVec 6) (wantMax : Bool)
    (h : Memory.wf s.mem = true) :
    OutWf (halfMinMax s g fmt d a b wantMax) := lanewise_wf (fun c l => by simp) h

@[simp] theorem toFloat_wf (s : State) (g : BitVec 4) (d a b : BitVec 6) (signed : Bool)
    (h : Memory.wf s.mem = true) :
    OutWf (toFloat s g d a b signed) := by
  unfold toFloat
  refine issueBy_wf (fun c hc => ?_) (fun c hc => ?_) h
  · simp
  · simp [hc]

@[simp] theorem hint_wf (s : State) (f : Run → Option Run) (h : Memory.wf s.mem = true) : OutWf (hint s f) := by
  unfold hint
  split
  · trivial
  next c hc =>
  have hc : Memory.wf c.s.mem = true := by rwa [State.ctx?_mem hc]
  split
  · exact h
  · split
    · split
      · simpa using hc
      · simp [h]
    · simpa using hc

@[simp] theorem limbOp_wf (s : State) (g : BitVec 4) (args : List Arg) (d : Nat) (more : Ctx → List Trap)
    (f : Ctx → Nat → LimbRes) (h : Memory.wf s.mem = true) :
    OutWf (limbOp s g args d more f) := by
  unfold limbOp
  refine issue_wf (fun c hc => ?_) (fun c hc => ?_) h
  · grind [Pre.Wf, Chk.Wf, Res.Wf, Ctx.limbChecks_wf, Ctx.long_mem, Ctx.setLimbFlags_mem, Pre.ofTraps_wf,
      foldl_ctx_mem]
  · grind [Pre.Wf, Chk.Wf, Res.Wf, Ctx.limbChecks_wf, Ctx.long_mem, Ctx.setLimbFlags_mem, Pre.ofTraps_wf,
      foldl_ctx_mem]

@[simp] theorem limbShift_wf (s : State) (g : BitVec 4) (d a b : BitVec 6) (f : Nat → Nat → Nat → LimbRes)
    (h : Memory.wf s.mem = true) :
    OutWf (limbShift s g d a b f) := limbOp_wf _ _ _ _ _ _ h

theorem matrixOp_wf {s : State} {f : SeqCtx → State}
    (hf : ∀ c, Memory.wf c.s.mem = true → Memory.wf (f c).mem = true) (h : Memory.wf s.mem = true) :
    OutWf (matrixOp s f) := by
  unfold matrixOp
  split
  · trivial
  next c hc =>
  split
  · exact hf c (by rwa [State.seqCtx?_mem hc])
  · exact h

@[simp] theorem msoOp_wf (s : State) (g : BitVec 4) (d a : BitVec 6) (args : List Arg) (n group len results : Nat)
    (kind : Ctx → Nat → MsoKind) (h : Memory.wf s.mem = true) :
    OutWf (msoOp s g d a args n group len results kind) := by
  unfold msoOp
  refine issue_wf (fun c hc => ?_) (fun c hc => ?_) h
  · grind [Pre.Wf, Chk.Wf, Res.Wf, Chk.bind_wf, Ctx.acqWait_wf, Ctx.checkMem_wf, Ctx.sendMso_mem, Pre.then_wf,
      foldl_ctx_mem]
  · grind [Pre.Wf, Chk.Wf, Res.Wf, Chk.bind_wf, Ctx.acqWait_wf, Ctx.checkMem_wf, Ctx.sendMso_mem, Pre.then_wf,
      foldl_ctx_mem]

@[simp] theorem combine_wf (s : State) (g : BitVec 4) (d a b : BitVec 6) (scan : Bool)
    (f : Nat → Nat → List Nat → List Nat × BitVec 16) (h : Memory.wf s.mem = true) :
    OutWf (combine s g d a b scan f) := by
  unfold combine
  refine issue_wf (fun c hc => ?_) (fun c hc => ?_) h
  · trivial
  · simp [hc]

@[simp] theorem rejoinOp_wf (s : State) (g : BitVec 4) (args : List Arg) (a : BitVec 6) (timed : Bool)
    (timeout : Ctx → DWord) (h : Memory.wf s.mem = true) :
    OutWf (rejoinOp s g args a timed timeout) := by
  unfold rejoinOp
  refine issue_wf (fun c hc => ?_) (fun c hc => ?_) h
  · grind [Pre.Wf, Chk.Wf, Res.Wf, Ctx.depart_wf, Ctx.each_mem, Ctx.push_mem, Ctx.rejoinHere_wf, Ctx.useLive_mem,
      State.markRejoin_mem]
  · grind [Pre.Wf, Chk.Wf, Res.Wf, Ctx.depart_wf, Ctx.each_mem, Ctx.push_mem, Ctx.rejoinHere_wf, Ctx.useLive_mem,
      State.markRejoin_mem]

theorem saluOp_wf {s : State} {g : BitVec 4} {d a b : BitVec 6} {f : Ctx → Bool → Nat → Nat → Ctx}
    (hf : ∀ c sg x y, (f c sg x y).s.mem = c.s.mem) (h : Memory.wf s.mem = true) :
    OutWf (saluOp s g d a b f) :=
  issue_wf (fun c _ => c.needFmt_wf _) (fun _ hc => (congrArg (Memory.wf ·) (hf _ _ _ _)).trans hc) h

@[simp] theorem saluSat_wf (s : State) (g : BitVec 4) (d a b : BitVec 6) (f : ℤ → ℤ → ℤ)
    (h : Memory.wf s.mem = true) :
    OutWf (saluSat s g d a b f) := saluOp_wf (fun c sg x y => by simp) h

@[simp] theorem saluBin_wf (s : State) (g : BitVec 4) (d a b : BitVec 6) (f : Nat → Nat → Nat)
    (h : Memory.wf s.mem = true) :
    OutWf (saluBin s g d a b f) := saluOp_wf (fun c sg x y => by simp) h

@[simp] theorem closeFrame_wf (s : State) (g : BitVec 4) (d a : BitVec 6) (args : List Arg) (isDrop : Bool)
    (n : Ctx → DWord) (h : Memory.wf s.mem = true) :
    OutWf (closeFrame s g d a args isDrop n) := by
  unfold closeFrame
  refine issue_wf (fun c hc => ?_) (fun c hc => ?_) h
  · split <;> simp [hc]
  · trivial

/-! ## Words and events -/

theorem firstOf_wf {same : Packet → Packet → Bool} {f : Packet → Option State} (hf : ∀ p,
    OptWf (f p)) {seen l r : List Packet}
    {t : State} (h : firstOf same f seen l = some (r, t)) : Memory.wf t.mem = true := by
  induction l generalizing seen with
  | nil => cases h
  | cons p l ih =>
    unfold firstOf at h
    split at h
    · exact ih h
    · split at h
      next hp => cases h; exact (hf p).of_eq hp
      · exact ih h

theorem outWf_ite {p : Prop} [Decidable p] {a b : Outcome State Fault Refusal} (ha : OutWf a) (hb : OutWf b) :
    OutWf (if p then a else b) := by
  split
  · exact ha
  · exact hb

theorem execBarwExpiry_wf (bar : BarRef) (s : State) (h : Memory.wf s.mem = true) : OutWf (execBarwExpiry bar s) := by
  unfold execBarwExpiry
  dsimp only
  (repeat' split) <;> simp [h]

theorem execDbgStopDrained_wf (s : State) (h : Memory.wf s.mem = true) : OutWf (execDbgStopDrained s) := by
  unfold execDbgStopDrained
  dsimp only
  (repeat' split) <;> simp [h]

theorem execEngineComplete_wf (eng : Nat) (s : State) (h : Memory.wf s.mem = true) :
    OutWf (execEngineComplete eng s) := by
  unfold execEngineComplete
  dsimp only
  (repeat' split) <;> simp [foldl_mem, h]

theorem execEngineStart_wf (eng : Nat) (s : State) (h : Memory.wf s.mem = true) : OutWf (execEngineStart eng s) := by
  unfold execEngineStart
  dsimp only
  (repeat' split) <;> simp [h]

theorem execFramePrepare_wf (frame slice : Nat) (s : State) (h : Memory.wf s.mem = true) :
    OutWf (execFramePrepare frame slice s) := by
  unfold execFramePrepare
  dsimp only
  (repeat' split) <;> simp [h]

theorem execFramePrepareAnswer_wf (frame slice : Nat) (s : State) (h : Memory.wf s.mem = true) :
    OutWf (execFramePrepareAnswer frame slice s) := by
  unfold execFramePrepareAnswer
  dsimp only
  (repeat' split) <;> simp [h]

theorem execFrameStepApply_wf (frame slice : Nat) (s : State) (h : Memory.wf s.mem = true) :
    OutWf (execFrameStepApply frame slice s) := by
  unfold execFrameStepApply
  dsimp only
  (repeat' split) <;> simp [h]

theorem execGridRetire_wf (grid : BitVec 32) (s : State) (h : Memory.wf s.mem = true) :
    OutWf (execGridRetire grid s) := by
  unfold execGridRetire
  grind [OutWf, State.afterUnit_wf, State.askPage_wf, State.closeFrames_mem, State.freeFrameAt_mem,
      State.launchOver_mem, State.reclaimLaunch_mem, State.removeGrid_mem, State.restoreGranules_wf,
      State.settleShadows_mem, State.writeCompl_wf, foldl_wf]

theorem execInvalComplete_wf (s : State) (h : Memory.wf s.mem = true) : OutWf (execInvalComplete s) := by
  unfold execInvalComplete
  split <;> simp [h]

theorem execMatrixWordComplete_wf (team : Nat) (s : State) (h : Memory.wf s.mem = true) :
    OutWf (execMatrixWordComplete team s) := by
  unfold execMatrixWordComplete
  grind [OutWf, State.publish_mem, State.store_wf, foldl_wf]

theorem execPoisonConsume_wf (idx : Nat) (s : State) (h : Memory.wf s.mem = true) :
    OutWf (execPoisonConsume idx s) := by
  unfold execPoisonConsume
  simp [h]

theorem execRejoinExpiry_wf (core bar : Nat) (s : State) (h : Memory.wf s.mem = true) :
    OutWf (execRejoinExpiry core bar s) := by
  unfold execRejoinExpiry
  dsimp only
  (repeat' split) <;> simp [h]

theorem execSeedAccept_wf (slot : Nat) (s : State) (h : Memory.wf s.mem = true) : OutWf (execSeedAccept slot s) := by
  unfold execSeedAccept
  dsimp only
  (repeat' split) <;> simp [h]

theorem execStewardResume_wf (stack : Nat) (s : State) (h : Memory.wf s.mem = true) :
    OutWf (execStewardResume stack s) := by
  unfold execStewardResume
  dsimp only
  (repeat' split) <;> simp [h]

theorem execTeamPlace_wf (s : State) (h : Memory.wf s.mem = true) : OutWf (execTeamPlace s) := by
  unfold execTeamPlace
  (repeat' split) <;> simp [h]

theorem execTeamRetire_wf (team : Nat) (s : State) (h : Memory.wf s.mem = true) : OutWf (execTeamRetire team s) := by
  unfold execTeamRetire
  (repeat' split) <;> simp [h]

theorem execTeamSave_wf (team : Nat) (s : State) (h : Memory.wf s.mem = true) : OutWf (execTeamSave team s) := by
  unfold execTeamSave
  split
  · exact h
  · dsimp only
    split
    · exact h
    · split
      · simp [h]
      · rw [outWf_next]
        dsimp only [State.setStk_mem]
        simp only [State.repoint_mem]
        exact State.saveSeqr_wf _ _ _ (foldl_wf (fun t _ ht => memPuts_wf _ _ _ ht) _
          (foldl_wf (fun t _ ht => t.copyFrame_wf _ _ ht) _ h))

theorem execTicketDeadline_wf (slice entry : Nat) (s : State) (h : Memory.wf s.mem = true) :
    OutWf (execTicketDeadline slice entry s) := by
  unfold execTicketDeadline
  dsimp only
  (repeat' split) <;> simp [h]

theorem execAckReceive_wf (msg : Nat) (s : State) (h : Memory.wf s.mem = true) : OutWf (execAckReceive msg s) := by
  unfold execAckReceive
  (repeat' split) <;> simp [State.dropMsg_mem, h]

theorem execArrivalAccept_wf (msg : Nat) (s : State) (h : Memory.wf s.mem = true) :
    OutWf (execArrivalAccept msg s) := by
  unfold execArrivalAccept
  (repeat' split) <;> simp [State.dropMsg_mem, h]

theorem execBarrierArrival_wf (msg : Nat) (s : State) (h : Memory.wf s.mem = true) :
    OutWf (execBarrierArrival msg s) := by
  unfold execBarrierArrival
  (repeat' split) <;> simp [State.dropMsg_mem, h]

theorem execCancelArrive_wf (msg written : Nat) (s : State) (h : Memory.wf s.mem = true) :
    OutWf (execCancelArrive msg written s) := by
  unfold execCancelArrive
  dsimp only
  (repeat' split) <;> simp [State.dropMsg_mem, h]

theorem execClaimAnswer_wf (msg : Nat) (s : State) (h : Memory.wf s.mem = true) : OutWf (execClaimAnswer msg s) := by
  unfold execClaimAnswer
  dsimp only
  (repeat' split) <;> simp [State.dropMsg_mem, h]

theorem execClaimAtHome_wf (msg : Nat) (s : State) (h : Memory.wf s.mem = true) : OutWf (execClaimAtHome msg s) := by
  unfold execClaimAtHome
  dsimp only
  (repeat' split) <;> simp [h]

theorem execClaimCancel_wf (msg : Nat) (s : State) (h : Memory.wf s.mem = true) : OutWf (execClaimCancel msg s) := by
  unfold execClaimCancel
  dsimp only
  (repeat' split) <;> simp [State.dropMsg_mem, h]

theorem execClaimConfirm_wf (msg : Nat) (s : State) (h : Memory.wf s.mem = true) :
    OutWf (execClaimConfirm msg s) := by
  unfold execClaimConfirm
  dsimp only
  (repeat' split) <;> simp [State.dropMsg_mem, h]

theorem execFrameClaim_wf (msg : Nat) (s : State) (h : Memory.wf s.mem = true) : OutWf (execFrameClaim msg s) := by
  unfold execFrameClaim
  dsimp only
  (repeat' split) <;> simp [h]

theorem execFrameClaimCancel_wf (msg : Nat) (s : State) (h : Memory.wf s.mem = true) :
    OutWf (execFrameClaimCancel msg s) := by
  unfold execFrameClaimCancel
  dsimp only
  (repeat' split) <;> simp [State.dropMsg_mem, h]

theorem execFrameClaimConfirm_wf (msg : Nat) (s : State) (h : Memory.wf s.mem = true) :
    OutWf (execFrameClaimConfirm msg s) := by
  unfold execFrameClaimConfirm
  dsimp only
  (repeat' split) <;> simp [State.dropMsg_mem, h]

theorem execHostWindowResponse_wf (msg : Nat) (fresh : List Byte) (s : State) (h : Memory.wf s.mem = true) :
    OutWf (execHostWindowResponse msg fresh s) := by
  unfold execHostWindowResponse
  split
  · exact h
  next m _ =>
  split
  · exact h
  · have hs := s.hostFresh_wf m fresh h
    dsimp only
    split
    · split <;> simp [State.load_mem, State.dropMsg_mem, hs]
    · rw [outWf_next]
      split
      · exact OptWf.getD (OptWf.map (State.applyBody_wf _ m (by simpa using hs)) fun t => by simp) h
      · simpa using hs

theorem execLaunchValidate_wf (msg : Nat) (s : State) (h : Memory.wf s.mem = true) :
    OutWf (execLaunchValidate msg s) := by
  unfold execLaunchValidate
  dsimp only
  (repeat' split) <;> simp [h]

theorem execLineageCountMsg_wf (msg : Nat) (s : State) (h : Memory.wf s.mem = true) :
    OutWf (execLineageCountMsg msg s) := by
  unfold execLineageCountMsg
  (repeat' split) <;> simp [State.dropMsg_mem, h]

theorem execMsoApply_wf (msg : Nat) (s : State) (h : Memory.wf s.mem = true) : OutWf (execMsoApply msg s) := by
  unfold execMsoApply
  (repeat' split) <;> simp [h]

theorem execOutboxHeadSend_wf (msg : Nat) (s : State) (h : Memory.wf s.mem = true) :
    OutWf (execOutboxHeadSend msg s) := by
  unfold execOutboxHeadSend
  dsimp only
  (repeat' split) <;> simp [State.dropMsg_mem, h]

theorem execPostedOpApply_wf (msg : Nat) (s : State) (h : Memory.wf s.mem = true) :
    OutWf (execPostedOpApply msg s) := by
  unfold execPostedOpApply
  split
  · exact h
  next m _ =>
  split
  · exact h
  next core _ =>
  have hat (va : Nat) : Memory.wf (((s.wstackTeam m.asid va).bind (fun k => s.attachFrame k (va / 65536))).getD
      s).mem = true :=
    OptWf.getD (OptWf.bind fun k => s.attachFrame_wf k _ h) h
  split
  · simp [State.dropMsg_mem, h]
  · simp [h]
  · simp [State.dropMsg_mem, h]
  · simp [State.dropMsg_mem, h]
  · simp [State.dropMsg_mem, h]
  · simp [State.dropMsg_mem, h]
  · simp [h]
  · simp [State.dropMsg_mem, h]
  · simp [State.dropMsg_mem, h]
  · split <;> simp [h]
  · simp [h]
  · simp [h]
  · simp [State.dropMsg_mem, h]
  · simp [State.dropMsg_mem, h]
  · simp [State.dropMsg_mem, h]
  · simp [h]
  · split
    · exact h
    · simp [State.load_mem, h]
  · split <;> simp [State.dropMsg_mem, State.load_mem, h]
  · rw [outWf_next, State.answerClaim_mem]
    split
    · exact h
    · exact hat _
  next va _ _ _ _ =>
    have hs : Memory.wf (State.mem (match s.farSlot core m.asid va with
        | some _ => s
        | none => ((s.wstackTeam m.asid va).bind (fun k => s.attachFrame k (va / 65536))).getD s)) = true := by
      split
      · exact h
      · exact hat va
    dsimp only
    split
    · rw [outWf_next, State.dropMsg_mem]
      exact hs
    · exact OptWf.getD (OptWf.map (State.applyBody_wf _ _ hs) fun t => State.dropMsg_mem t _) hs
  · have hs : Memory.wf (s.elemReady m).2.mem = true := by simpa using h
    rw [outWf_next]
    split
    · exact OptWf.getD (OptWf.map (State.applyBody_wf _ m hs) fun t => by simp) hs
    · exact hs

theorem execStxVersionApply_wf (msg : Nat) (s : State) (h : Memory.wf s.mem = true) :
    OutWf (execStxVersionApply msg s) := by
  unfold execStxVersionApply
  dsimp only
  (repeat' split) <;> simp [h]

theorem execTicketFetchComplete_wf (slice entry : Nat) (data : List Byte) (s : State) (h : Memory.wf s.mem = true) :
    OutWf (execTicketFetchComplete slice entry data s) := by
  unfold execTicketFetchComplete
  dsimp only
  split
  · exact h
  · split
    · exact h
    · split <;> simp [State.load_mem, State.dropMsg_mem, memPuts_wf, h]

theorem execTicketService_wf (msg : Nat) (s : State) (h : Memory.wf s.mem = true) :
    OutWf (execTicketService msg s) := by
  unfold execTicketService
  split
  · exact h
  next m _ =>
  split
  · exact h
  · split
    · split
      · simp [h]
      · exact State.serve_wf (fun t ht => by simpa [State.load_mem] using ht) h
    · split
      · simp [h]
      · exact State.serve_wf (fun t ht => t.applyAtomic_wf _ _ _ _ _ _ ht) h
    · exact h

theorem execTicketValueReturn_wf (msg : Nat) (s : State) (h : Memory.wf s.mem = true) :
    OutWf (execTicketValueReturn msg s) := by
  unfold execTicketValueReturn
  dsimp only
  (repeat' split) <;> simp [State.dropMsg_mem, h]

theorem execTrelAtHome_wf (msg : Nat) (s : State) (h : Memory.wf s.mem = true) : OutWf (execTrelAtHome msg s) := by
  unfold execTrelAtHome
  dsimp only
  (repeat' split) <;> simp [State.dropMsg_mem, h]

theorem execActiveSetFill_wf (core : Nat) (s : State) (h : Memory.wf s.mem = true) :
    OutWf (execActiveSetFill core s) := by
  unfold execActiveSetFill
  dsimp only
  (repeat' split) <;> simp [h]

theorem execArrivalAdmit_wf (core : Nat) (s : State) (h : Memory.wf s.mem = true) :
    OutWf (execArrivalAdmit core s) := by
  unfold execArrivalAdmit
  (repeat' split) <;> simp [h]

theorem execRegroupingPass_wf (core : Nat) (s : State) (h : Memory.wf s.mem = true) :
    OutWf (execRegroupingPass core s) := by
  unfold execRegroupingPass
  simp [h]

theorem execArgmax_wf (g : BitVec 4) (d a : BitVec 6) (s : State) (h : Memory.wf s.mem = true) :
    OutWf (execArgmax g d a s) := by
  unfold execArgmax
  refine issue_wf (fun c hc => ?_) (fun c hc => ?_) h
  · simp
  · simp [hc]

theorem execArrive_wf (g : BitVec 4) (d a b : BitVec 6) (s : State) (h : Memory.wf s.mem = true) :
    OutWf (execArrive g d a b s) := by
  unfold execArrive
  refine issue_wf (fun c hc => ?_) (fun c hc => ?_) h
  · grind [Pre.Wf, Ctx.askPhase_wf, Ctx.barChecks_wf]
  · split <;> simp [hc]

theorem execAtom_wf (g : BitVec 4) (d a : BitVec 6) (sb : BitVec 5) (w : BitVec 3) (s : State)
    (h : Memory.wf s.mem = true) :
    OutWf (execAtom g d a sb w s) := by
  unfold execAtom
  refine issueBy_wf (fun c hc => ?_) (fun c hc => ?_) h
  · grind [Ctx.atomFmt_wf, Ctx.check_wf, Ctx.writeChecks_wf, Pre.then_wf]
  · grind [Res.Wf, Ctx.effectOf_mem, Ctx.lateOp_mem, Ctx.useLive_mem, foldl_ctx_mem]

theorem execAtp_wf (g : BitVec 4) (d a : BitVec 6) (sb : BitVec 5) (w : BitVec 3) (s : State)
    (h : Memory.wf s.mem = true) :
    OutWf (execAtp g d a sb w s) := by
  unfold execAtp
  refine issueBy_wf (fun c hc => ?_) (fun c hc => ?_) h
  · grind [Ctx.atomFmt_wf, Ctx.check_wf, Ctx.postChecks_wf, Pre.then_wf]
  · grind [Res.Wf, Ctx.effectOf_mem, foldl_ctx_mem]

theorem execAtt_wf (g : BitVec 4) (d a : BitVec 6) (sb : BitVec 5) (w : BitVec 3) (s : State)
    (h : Memory.wf s.mem = true) :
    OutWf (execAtt g d a sb w s) := by
  unfold execAtt
  refine issueBy_wf (fun c hc => ?_) (fun c hc => ?_) h
  · grind [Ctx.atomFmt_wf, Ctx.check_wf, Ctx.postChecks_wf, Pre.then_wf]
  · grind [Res.Wf, Ctx.effectOf_mem, Ctx.lateOp_mem, foldl_ctx_mem]

theorem execBallot_wf (g : BitVec 4) (d a : BitVec 6) (s : State) (h : Memory.wf s.mem = true) :
    OutWf (execBallot g d a s) := by
  unfold execBallot
  refine issue_wf (fun c hc => ?_) (fun c hc => ?_) h
  · trivial
  · trivial

theorem execBarq_wf (g : BitVec 4) (a b : BitVec 6) (s : State) (h : Memory.wf s.mem = true) :
    OutWf (execBarq g a b s) := by
  unfold execBarq
  refine issue_wf (fun c hc => ?_) (fun c hc => ?_) h
  · grind [Pre.Wf, Ctx.askPhase_wf, Ctx.barChecks_wf, Ctx.commitTo_wf, Ctx.readWait_wf, Pre.then_wf]
  · grind [Res.Wf, Ctx.each_mem, Ctx.effect_mem, Ctx.lateOp_mem, Ctx.push_mem]

theorem execBootEnterRecovery_wf (s : State) (h : Memory.wf s.mem = true) : OutWf (execBootEnterRecovery s) := by
  unfold execBootEnterRecovery
  split <;> simp [h]

theorem execBootNextAlternate_wf (inp : BootInput) (s : State) (h : Memory.wf s.mem = true) :
    OutWf (execBootNextAlternate inp s) := by
  unfold execBootNextAlternate
  (repeat' split) <;> simp [h]

theorem execBootRetry_wf (inp : BootInput) (s : State) (h : Memory.wf s.mem = true) :
    OutWf (execBootRetry inp s) := by
  unfold execBootRetry
  split <;> simp [h]

theorem execBootSkip_wf (inp : BootInput) (s : State) (h : Memory.wf s.mem = true) : OutWf (execBootSkip inp s) := by
  unfold execBootSkip
  (repeat' split) <;> simp [h]

theorem execCancel_wf (g : BitVec 4) (a : BitVec 6) (s : State) (h : Memory.wf s.mem = true) :
    OutWf (execCancel g a s) := by
  unfold execCancel
  refine issue_wf (fun c hc => ?_) (fun c hc => ?_) h
  · dsimp only
    (repeat' split) <;> simp [hc]
  · dsimp only
    (repeat' split) <;> simp [hc]

theorem execCbld_wf (g : BitVec 4) (a : BitVec 6) (s : State) (h : Memory.wf s.mem = true) :
    OutWf (execCbld g a s) := by
  unfold execCbld
  refine issue_wf (fun c hc => ?_) (fun c hc => ?_) h
  · grind [Pre.Wf, Chk.bind_wf, Ctx.bookChk_wf, Ctx.cbWait_wf, Ctx.orderWait_wf, Ctx.readWait_wf, Ctx.stall_mem,
      Pre.then_wf]
  · (repeat' split) <;> simp [hc]

theorem execChallenge_wf (slot : Nat) (s : State) (h : Memory.wf s.mem = true) : OutWf (execChallenge slot s) := by
  unfold execChallenge
  split <;> simp [h]

theorem execClearBootRecord_wf (s : State) (h : Memory.wf s.mem = true) : OutWf (execClearBootRecord s) := by
  unfold execClearBootRecord
  split <;> simp [h]

theorem execCpy_wf (g : BitVec 4) (d a : BitVec 6) (s : State) (h : Memory.wf s.mem = true) :
    OutWf (execCpy g d a s) := by
  unfold execCpy
  refine issue_wf (fun c hc => ?_) (fun c hc => ?_) h
  · simp [hc]
  · simp [hc]

theorem execCpyg_wf (g : BitVec 4) (d a : BitVec 6) (s : State) (h : Memory.wf s.mem = true) :
    OutWf (execCpyg g d a s) := by
  unfold execCpyg
  refine issue_wf (fun c hc => ?_) (fun c hc => ?_) h
  · grind [Ctx.engineChecks_wf, Ctx.limits_wf, Ctx.readRange_wf, Ctx.readWait_wf, Pre.then_wf]
  · simp [hc]

theorem execCpyr_wf (g : BitVec 4) (d a : BitVec 6) (s : State) (h : Memory.wf s.mem = true) :
    OutWf (execCpyr g d a s) := by
  unfold execCpyr
  refine issue_wf (fun c hc => ?_) (fun c hc => ?_) h
  · grind [Ctx.engineChecks_wf, Ctx.limits_wf, Ctx.needFmt_wf, Pre.then_wf]
  · simp [hc]

theorem execCpys_wf (g : BitVec 4) (d a : BitVec 6) (s : State) (h : Memory.wf s.mem = true) :
    OutWf (execCpys g d a s) := by
  unfold execCpys
  refine issue_wf (fun c hc => ?_) (fun c hc => ?_) h
  · grind [Ctx.engineChecks_wf, Ctx.limits_wf, Ctx.readRange_wf, Ctx.readWait_wf, Pre.then_wf]
  · split <;> simp [hc]

theorem execCxlCacheRequest_wf (port : Nat) (s : State) (h : Memory.wf s.mem = true) :
    OutWf (execCxlCacheRequest port s) := by
  unfold execCxlCacheRequest
  split <;> simp [h]

theorem execDbgMemRead_wf (val : DWord) (s : State) (h : Memory.wf s.mem = true) : OutWf (execDbgMemRead val s) := by
  unfold execDbgMemRead
  dsimp only
  (repeat' split) <;> simp [State.load_mem, h]

theorem execDbgMemWrite_wf (val : DWord) (s : State) (h : Memory.wf s.mem = true) :
    OutWf (execDbgMemWrite val s) := by
  unfold execDbgMemWrite
  dsimp only
  (repeat' split) <;> simp [State.store_wf, h]

theorem execDbgStart_wf (val : DWord) (s : State) (h : Memory.wf s.mem = true) : OutWf (execDbgStart val s) := by
  unfold execDbgStart
  grind [OutWf, State.recheck_mem, State.setCore_mem, State.setParty_mem, foldl_wf]

theorem execDbgStop_wf (val : DWord) (s : State) (h : Memory.wf s.mem = true) : OutWf (execDbgStop val s) := by
  unfold execDbgStop
  split <;> simp [h]

theorem execDepartRecord_wf (pid : Nat) (s : State) (h : Memory.wf s.mem = true) :
    OutWf (execDepartRecord pid s) := by
  unfold execDepartRecord
  split
  · exact h
  next p _ =>
  split
  next b _ =>
    split
    · split
      · exact h
      · split
        · simp [h]
        · have hs := s.spillAll_wf pid p.mask p.core b.wb (b.wb + 1) h
          dsimp only
          split
          next s1 va hsp =>
            rw [hsp] at hs
            exact State.raise_wf _ _ _ _ _ _ (by split <;> simpa using hs)
          next s1 hsp =>
            rw [hsp] at hs
            split
            · exact hs
            · split
              · exact hs
              · simpa using hs
    · exact h
  · exact h

theorem execDerateWindowEnd_wf (unit : Nat) (s : State) (h : Memory.wf s.mem = true) :
    OutWf (execDerateWindowEnd unit s) := by
  unfold execDerateWindowEnd
  split <;> simp [h]

theorem execEgath_wf (g : BitVec 4) (d a : BitVec 6) (sb : BitVec 5) (s : State) (h : Memory.wf s.mem = true) :
    OutWf (execEgath g d a sb s) := by
  unfold execEgath
  refine issue_wf (fun c hc => ?_) (fun c hc => ?_) h
  · refine Pre.then_wf (c.readWait_wf hc) (Chk.bind_wf (c.descChk_wf _ hc) fun ts => ?_)
    split
    · trivial
    · refine Ctx.notBehind_wf (Ctx.readSync_wf (fun b p => ?_) hc) hc
      split
      · simp [hc]
      · split
        · trivial
        · exact c.rowChecks_wf _ _ hc
  · split
    · exact hc
    · split
      · exact hc
      · dsimp only
        rw [Res.wf_done, foldl_ctx_mem fun _ _ => by split <;> simp]
        split
        · rw [foldl_ctx_mem fun _ _ => by split <;> simp]
          simpa using hc
        · rw [Ctx.memOp_mem, foldl_ctx_mem fun _ _ => by split <;> simp]
          simpa using hc

theorem execEnter_wf (g : BitVec 4) (n : BitVec 6) (s : State) (h : Memory.wf s.mem = true) :
    OutWf (execEnter g n s) := by
  unfold execEnter
  refine issue_wf (fun c hc => ?_) (fun c hc => ?_) h
  · exact Pre.ofTraps_wf _
  · grind [Res.Wf, Ctx.each_mem, Ctx.setBase_mem]

theorem execEvBadRespClear_wf (val : DWord) (s : State) (h : Memory.wf s.mem = true) :
    OutWf (execEvBadRespClear val s) := by
  unfold execEvBadRespClear
  simp [h]

theorem execEvDefer_wf (val : DWord) (s : State) (h : Memory.wf s.mem = true) : OutWf (execEvDefer val s) := by
  unfold execEvDefer
  grind [OutWf, State.disableLink_mem, State.respond_mem]

theorem execEvEnlarge_wf (val : DWord) (s : State) (h : Memory.wf s.mem = true) :
    OutWf (execEvEnlarge val s) := State.respond_wf (fun t e n ht => by
  split
  · refine OptWf.getD (s := t.queueAnswered _) ?_ (by simpa using ht)
    cases he : (t.queueAnswered _).enlarge _ with
    | none => trivial
    | some u => simpa [State.enlarge_mem he] using ht
  · trivial) h

theorem execEvNone_wf (val : DWord) (s : State) (h : Memory.wf s.mem = true) : OutWf (execEvNone val s) := by
  unfold execEvNone
  grind [OutWf, State.queueAnswered_mem, State.respond_mem]

theorem execEvParkOldest_wf (val : DWord) (s : State) (h : Memory.wf s.mem = true) :
    OutWf (execEvParkOldest val s) := by
  unfold execEvParkOldest
  grind [OutWf, State.parkOldest_mem, State.queueAnswered_mem, State.respond_mem]

theorem execEvPlace_wf (val : DWord) (s : State) (h : Memory.wf s.mem = true) :
    OutWf (execEvPlace val s) := State.respond_wf (fun t e n ht => by
  split
  · simp [ht]
  · split
    · simpa using ht
    · simp [apply_ite State.mem, ht]
  · trivial) h

theorem execEvReclaim_wf (val : DWord) (s : State) (h : Memory.wf s.mem = true) : OutWf (execEvReclaim val s) := by
  unfold execEvReclaim
  grind [OutWf, State.reclaim_mem, State.respond_mem]

theorem execEvqHeadWrite_wf (val : DWord) (s : State) (h : Memory.wf s.mem = true) :
    OutWf (execEvqHeadWrite val s) := by
  unfold execEvqHeadWrite
  simp [h]

theorem execFend_wf (g : BitVec 4) (s : State) (h : Memory.wf s.mem = true) : OutWf (execFend g s) := by
  unfold execFend
  refine issue_wf (fun c hc => ?_) (fun c hc => ?_) h
  · exact Pre.ofTraps_wf _
  · trivial

theorem execFork_wf (g : BitVec 4) (d a : BitVec 6) (s : State) (h : Memory.wf s.mem = true) :
    OutWf (execFork g d a s) := by
  unfold execFork
  refine issue_wf (fun c hc => ?_) (fun c hc => ?_) h
  · (repeat' split) <;> simp [hc]
  · grind [Res.Wf, Ctx.effectOf_mem, Ctx.memOp_mem, foldl_ctx_mem]

theorem execFuncApply_wf (val : DWord) (s : State) (h : Memory.wf s.mem = true) : OutWf (execFuncApply val s) := by
  unfold execFuncApply
  dsimp only
  (repeat' split) <;> simp [h]

theorem execGetCapabilities_wf (s : State) (h : Memory.wf s.mem = true) : OutWf (execGetCapabilities s) := by
  unfold execGetCapabilities
  split <;> simp [h]

theorem execGetCertificate_wf (slot off len : Nat) (s : State) (h : Memory.wf s.mem = true) :
    OutWf (execGetCertificate slot off len s) := by
  unfold execGetCertificate
  split <;> simp [h]

theorem execGetDigests_wf (s : State) (h : Memory.wf s.mem = true) : OutWf (execGetDigests s) := by
  unfold execGetDigests
  simp [h]

theorem execGetMeasurements_wf (idx : Nat) (s : State) (h : Memory.wf s.mem = true) :
    OutWf (execGetMeasurements idx s) := by
  unfold execGetMeasurements
  (repeat' split) <;> simp [h]

theorem execGetSnapshot_wf (s : State) (h : Memory.wf s.mem = true) : OutWf (execGetSnapshot s) := by
  unfold execGetSnapshot
  simp [h]

theorem execGetVersion_wf (s : State) (h : Memory.wf s.mem = true) : OutWf (execGetVersion s) := by
  unfold execGetVersion
  simp [h]

theorem execGridq_wf (g : BitVec 4) (d a : BitVec 6) (s : State) (h : Memory.wf s.mem = true) :
    OutWf (execGridq g d a s) := by
  unfold execGridq
  refine issue_wf (fun c hc => ?_) (fun c hc => ?_) h
  · grind [Pre.Wf, Chk.bind_wf, Ctx.readSync_wf, Ctx.readWait_wf, Ctx.wordChk_wf, Pre.then_wf]
  · grind [Res.Wf, Ctx.each_mem, Ctx.effect_mem, Ctx.lateOp_mem, Ctx.memOp_mem, Ctx.noteAddr_mem, Ctx.push_mem,
      Ctx.seen_mem]

theorem execGridwait_wf (g : BitVec 4) (d a : BitVec 6) (s : State) (h : Memory.wf s.mem = true) :
    OutWf (execGridwait g d a s) := by
  unfold execGridwait
  refine issue_wf (fun c hc => ?_) (fun c hc => ?_) h
  · grind [Pre.Wf, Chk.bind_wf, Ctx.again_mem, Ctx.holdOn_mem, Ctx.notBehind_wf, Ctx.readSync_wf, Ctx.readWait_wf,
      Ctx.seenAll_mem, Ctx.wordChk_wf, Pre.then_wf]
  · split <;> simp [hc]

theorem execHalt_wf (g : BitVec 4) (s : State) (h : Memory.wf s.mem = true) : OutWf (execHalt g s) := by
  unfold execHalt
  refine issue_wf (fun c hc => ?_) (fun c hc => ?_) h
  · split <;> simp [hc]
  · trivial

theorem execHdmWindowWrite_wf (port win dword : Nat) (val : DWord) (s : State) (h : Memory.wf s.mem = true) :
    OutWf (execHdmWindowWrite port win dword val s) := by
  unfold execHdmWindowWrite
  split <;> simp [h]

theorem execHostMemRead_wf (port tag hpa : Nat) (s : State) (h : Memory.wf s.mem = true) :
    OutWf (execHostMemRead port tag hpa s) := by
  unfold execHostMemRead
  simp [h]

theorem execHostMemWrite_wf (port tag hpa : Nat) (data : List Byte) (s : State) (h : Memory.wf s.mem = true) :
    OutWf (execHostMemWrite port tag hpa data s) := by
  unfold execHostMemWrite
  simp [h]

theorem execInvalAll_wf (val : DWord) (s : State) (h : Memory.wf s.mem = true) : OutWf (execInvalAll val s) := by
  unfold execInvalAll
  split <;> simp [h]

theorem execInvalAsid_wf (val : DWord) (s : State) (h : Memory.wf s.mem = true) : OutWf (execInvalAsid val s) := by
  unfold execInvalAsid
  split <;> simp [h]

theorem execInvalPage_wf (val : DWord) (s : State) (h : Memory.wf s.mem = true) : OutWf (execInvalPage val s) := by
  unfold execInvalPage
  split <;> simp [h]

theorem execKth_wf (g : BitVec 4) (d a b : BitVec 6) (s : State) (h : Memory.wf s.mem = true) :
    OutWf (execKth g d a b s) := by
  unfold execKth
  refine issue_wf (fun c hc => ?_) (fun c hc => ?_) h
  · simp
  · simp [hc]

theorem execLaneLoss_wf (port lane : Nat) (s : State) (h : Memory.wf s.mem = true) :
    OutWf (execLaneLoss port lane s) := by
  unfold execLaneLoss
  dsimp only
  (repeat' split) <;> simp [h]

theorem execLaunch_wf (g : BitVec 4) (a : BitVec 6) (s : State) (h : Memory.wf s.mem = true) :
    OutWf (execLaunch g a s) := by
  unfold execLaunch
  refine issue_wf (fun c hc => ?_) (fun c hc => ?_) h
  · grind [Pre.Wf, Chk.bind_wf, Ctx.acqWait_wf, Ctx.recordChk_wf, Pre.then_wf]
  · trivial

theorem execLbind_wf (g : BitVec 4) (n : BitVec 6) (s : State) (h : Memory.wf s.mem = true) :
    OutWf (execLbind g n s) := by
  unfold execLbind
  refine issue_wf (fun c hc => ?_) (fun c hc => ?_) h
  · dsimp only
    (repeat' split) <;> simp
  · trivial

theorem execLcarry_wf (g : BitVec 4) (d : BitVec 6) (s : State) (h : Memory.wf s.mem = true) :
    OutWf (execLcarry g d s) := by
  unfold execLcarry
  refine issue_wf (fun c hc => ?_) (fun c hc => ?_) h
  · simp
  · simp [hc]

theorem execLcmp_wf (g : BitVec 4) (k a b : BitVec 6) (s : State) (h : Memory.wf s.mem = true) :
    OutWf (execLcmp g k a b s) := by
  unfold execLcmp
  refine issue_wf (fun c hc => ?_) (fun c hc => ?_) h
  · simp
  · grind [Pre.Wf, Chk.Wf, Res.Wf, Ctx.limbChecks_wf, Ctx.long_mem, Ctx.push_mem, foldl_ctx_mem]

theorem execLd_wf (g : BitVec 4) (d a : BitVec 6) (sb : BitVec 5) (w : BitVec 3) (o : BitVec 2) (s : State)
    (h : Memory.wf s.mem = true) :
    OutWf (execLd g d a sb w o s) := by
  unfold execLd
  refine issue_wf (fun c hc => ?_) (fun c hc => ?_) h
  · grind [Ctx.askElem_wf, Ctx.cbWait_wf, Ctx.check_wf, Ctx.departFor_wf, Ctx.elemLocks_wf, Ctx.elemPre_wf,
      Ctx.orderWait_wf, Ctx.planeOrder_wf, Ctx.readChecks_wf, Ctx.readWait_wf, Pre.then_wf]
  · grind [Res.Wf, Ctx.elemRead_mem, Ctx.readAll_mem, Ctx.useLive_mem, foldl_ctx_mem]

theorem execLdt_wf (g : BitVec 4) (d a : BitVec 6) (sb : BitVec 5) (w : BitVec 3) (o : BitVec 2) (s : State)
    (h : Memory.wf s.mem = true) :
    OutWf (execLdt g d a sb w o s) := by
  unfold execLdt
  refine issue_wf (fun c hc => ?_) (fun c hc => ?_) h
  · grind [Pre.Wf, Ctx.check_wf, Ctx.fetchChecks_wf, Ctx.readWait_wf, Pre.then_wf]
  · grind [Res.Wf, Ctx.sendFetch_mem, foldl_ctx_mem]

theorem execLdtb_wf (g : BitVec 4) (d a : BitVec 6) (sb : BitVec 5) (o : BitVec 2) (s : State)
    (h : Memory.wf s.mem = true) :
    OutWf (execLdtb g d a sb o s) := by
  unfold execLdtb
  refine issue_wf (fun c hc => ?_) (fun c hc => ?_) h
  · grind [Pre.Wf, Chk.Wf, Ctx.alsoAlign_wf, Ctx.check_wf, Ctx.fetchChecks_wf, Ctx.readWait_wf, Pre.then_wf]
  · dsimp only
    (repeat' split) <;> simp [hc]

theorem execLeave_wf (g : BitVec 4) (n : BitVec 6) (s : State) (h : Memory.wf s.mem = true) :
    OutWf (execLeave g n s) := by
  unfold execLeave
  refine issue_wf (fun c hc => ?_) (fun c hc => ?_) h
  · dsimp only
    (repeat' split) <;> simp [hc]
  · simp [hc]

theorem execLinkFrameReceive_wf (port : Nat) (fr : LinkFrame) (s : State) (h : Memory.wf s.mem = true) :
    OutWf (execLinkFrameReceive port fr s) := by
  unfold execLinkFrameReceive
  dsimp only
  (repeat' split) <;> simp [h]

theorem execLinkFrameSend_wf (port : Nat) (s : State) (h : Memory.wf s.mem = true) :
    OutWf (execLinkFrameSend port s) := by
  unfold execLinkFrameSend
  dsimp only
  (repeat' split) <;> simp [foldl_mem, h]

theorem execLinkReportReceive_wf (port fseq : Nat) (s : State) (h : Memory.wf s.mem = true) :
    OutWf (execLinkReportReceive port fseq s) := by
  unfold execLinkReportReceive
  simp [h]

theorem execLmac_wf (g : BitVec 4) (d a b : BitVec 6) (s : State) (h : Memory.wf s.mem = true) :
    OutWf (execLmac g d a b s) := by
  unfold execLmac
  refine issue_wf (fun c hc => ?_) (fun c hc => ?_) h
  · simp
  · grind [Pre.Wf, Chk.Wf, Res.Wf, Ctx.limbChecks_wf, Ctx.long_mem, Ctx.setLimbFlags_mem, foldl_ctx_mem]

theorem execLongOpComplete_wf (pid op : Nat) (s : State) (h : Memory.wf s.mem = true) :
    OutWf (execLongOpComplete pid op s) := by
  unfold execLongOpComplete
  (repeat' split) <;> simp [h]

theorem execLunbind_wf (g : BitVec 4) (s : State) (h : Memory.wf s.mem = true) : OutWf (execLunbind g s) := by
  unfold execLunbind
  refine issue_wf (fun c hc => ?_) (fun c hc => ?_) h
  · split <;> simp
  · split <;> simp [hc]

theorem execMfs_wf (g : BitVec 4) (d a b : BitVec 6) (s : State) (h : Memory.wf s.mem = true) :
    OutWf (execMfs g d a b s) := by
  unfold execMfs
  refine issue_wf (fun c hc => ?_) (fun c hc => ?_) h
  · split <;> simp
  · simp [hc]

theorem execMget_wf (g : BitVec 4) (d a : BitVec 6) (s : State) (h : Memory.wf s.mem = true) :
    OutWf (execMget g d a s) := by
  unfold execMget
  refine issue_wf (fun c hc => ?_) (fun c hc => ?_) h
  · (repeat' split) <;> simp [hc]
  · split <;> simp [hc]

theorem execMlda_wf (acc : BitVec 10) (p : BitVec 3) (s : State) (h : Memory.wf s.mem = true) :
    OutWf (execMlda acc p s) := by
  unfold execMlda
  refine matrixOp_wf (fun c hc => ?_) h
  dsimp only
  (repeat' split) <;> simp [hc]

theorem execMloop_wf (n : BitVec 20) (s : State) (h : Memory.wf s.mem = true) : OutWf (execMloop n s) := by
  unfold execMloop
  refine matrixOp_wf (fun c hc => ?_) h
  split <;> simp [hc]

theorem execMma_wf (acc : BitVec 10) (a b : BitVec 4) (z : BitVec 1) (krep : BitVec 3) (ta tb : BitVec 1) (s : State)
    (h : Memory.wf s.mem = true) :
    OutWf (execMma acc a b z krep ta tb s) := by
  unfold execMma
  refine matrixOp_wf (fun c hc => ?_) h
  dsimp only
  (repeat' split) <;> simp [hc]

theorem execMnext_wf (s : State) (h : Memory.wf s.mem = true) : OutWf (execMnext s) := by
  unfold execMnext
  refine matrixOp_wf (fun c hc => ?_) h
  (repeat' split) <;> simp [hc]

theorem execMovhi_wf (g : BitVec 4) (d : BitVec 6) (i : BitVec 10) (s : State) (h : Memory.wf s.mem = true) :
    OutWf (execMovhi g d i s) := by
  unfold execMovhi
  refine issueBy_wf (fun c hc => ?_) (fun c hc => ?_) h
  · simp
  · simp [hc]

theorem execMput_wf (g : BitVec 4) (a : BitVec 6) (s : State) (h : Memory.wf s.mem = true) :
    OutWf (execMput g a s) := by
  unfold execMput
  refine issueBy_wf (fun c hc => ?_) (fun c hc => ?_) h
  · dsimp only
    (repeat' split) <;> simp [hc]
  · trivial

theorem execMset_wf (m : BitVec 4) (v : BitVec 20) (s : State) (h : Memory.wf s.mem = true) :
    OutWf (execMset m v s) := by
  unfold execMset
  refine matrixOp_wf (fun c hc => ?_) h
  grind [SeqCtx.param_mem, SeqCtx.setM_mem]

theorem execMsetCb_wf (v : BitVec 20) (s : State) (h : Memory.wf s.mem = true) : OutWf (execMsetCb v s) := by
  unfold execMsetCb
  refine matrixOp_wf (fun c hc => ?_) h
  grind [SeqCtx.next_mem, SeqCtx.param_mem, SeqCtx.stop_mem]

theorem execMsig_wf (b : BitVec 4) (n : BitVec 16) (s : State) (h : Memory.wf s.mem = true) :
    OutWf (execMsig b n s) := by
  unfold execMsig
  refine matrixOp_wf (fun c hc => ?_) h
  grind [SeqCtx.next_mem, State.arriveAt_mem]

theorem execMsoChase_wf (g : BitVec 4) (d a : BitVec 6) (s : State) (h : Memory.wf s.mem = true) :
    OutWf (execMsoChase g d a s) := by
  unfold execMsoChase
  refine issue_wf (fun c hc => ?_) (fun c hc => ?_) h
  · grind [Pre.Wf, Chk.Wf, Ctx.acqWait_wf, Ctx.checkMem_wf, Ctx.fetchChecks_wf, Pre.ofTraps_wf, Pre.then_wf]
  · grind [Res.Wf, Ctx.addOp_mem, Ctx.sendMso_mem, foldl_ctx_mem]

theorem execMsoRowput_wf (g : BitVec 4) (a : BitVec 6) (s : State) (h : Memory.wf s.mem = true) :
    OutWf (execMsoRowput g a s) := by
  unfold execMsoRowput
  refine issue_wf (fun c hc => ?_) (fun c hc => ?_) h
  · grind [Pre.Wf, Chk.Wf, Ctx.acqWait_wf, Ctx.checkMem_wf, Pre.ofTraps_wf, Pre.then_wf]
  · grind [Res.Wf, Ctx.sendMso_mem, foldl_ctx_mem]

theorem execMsta_wf (acc : BitVec 10) (p : BitVec 3) (sat : BitVec 1) (s : State) (h : Memory.wf s.mem = true) :
    OutWf (execMsta acc p sat s) := by
  unfold execMsta
  refine matrixOp_wf (fun c hc => ?_) h
  dsimp only
  (repeat' split) <;> simp [hc]

theorem execMsync_wf (b : BitVec 4) (n : BitVec 16) (s : State) (h : Memory.wf s.mem = true) :
    OutWf (execMsync b n s) := by
  unfold execMsync
  refine matrixOp_wf (fun c hc => ?_) h
  split <;> simp [hc]

theorem execMts_wf (g : BitVec 4) (d a b : BitVec 6) (s : State) (h : Memory.wf s.mem = true) :
    OutWf (execMts g d a b s) := by
  unfold execMts
  refine issue_wf (fun c hc => ?_) (fun c hc => ?_) h
  · split <;> simp
  · simp [hc]

theorem execMxdq_wf (g : BitVec 4) (d a b : BitVec 6) (s : State) (h : Memory.wf s.mem = true) :
    OutWf (execMxdq g d a b s) := by
  unfold execMxdq
  refine issue_wf (fun c hc => ?_) (fun c hc => ?_) h
  · simp
  · simp [hc]

theorem execMxpack_wf (g : BitVec 4) (d a b : BitVec 6) (s : State) (h : Memory.wf s.mem = true) :
    OutWf (execMxpack g d a b s) := by
  unfold execMxpack
  refine issueBy_wf (fun c hc => ?_) (fun c hc => ?_) h
  · simp
  · trivial

theorem execMxq_wf (g : BitVec 4) (d a b : BitVec 6) (s : State) (h : Memory.wf s.mem = true) :
    OutWf (execMxq g d a b s) := by
  unfold execMxq
  refine issueBy_wf (fun c hc => ?_) (fun c hc => ?_) h
  · simp
  · simp [hc]

theorem execMxscale_wf (g : BitVec 4) (d a : BitVec 6) (s : State) (h : Memory.wf s.mem = true) :
    OutWf (execMxscale g d a s) := by
  unfold execMxscale
  refine issue_wf (fun c hc => ?_) (fun c hc => ?_) h
  · simp
  · trivial

theorem execMxunp_wf (g : BitVec 4) (d a b : BitVec 6) (s : State) (h : Memory.wf s.mem = true) :
    OutWf (execMxunp g d a b s) := by
  unfold execMxunp
  refine issueBy_wf (fun c hc => ?_) (fun c hc => ?_) h
  · simp
  · trivial

theorem execMzero_wf (acc : BitVec 10) (s : State) (h : Memory.wf s.mem = true) : OutWf (execMzero acc s) := by
  unfold execMzero
  refine matrixOp_wf (fun c hc => ?_) h
  grind [SeqCtx.next_mem, SeqCtx.onTile_mem, SeqCtx.work_mem]

theorem execN2f_wf (g : BitVec 4) (d a b : BitVec 6) (s : State) (h : Memory.wf s.mem = true) :
    OutWf (execN2f g d a b s) := by
  unfold execN2f
  refine issue_wf (fun c hc => ?_) (fun c hc => ?_) h
  · simp [hc]
  · simp [hc]

theorem execNegotiateAlgorithms_wf (s : State) (h : Memory.wf s.mem = true) : OutWf (execNegotiateAlgorithms s) := by
  unfold execNegotiateAlgorithms
  dsimp only
  (repeat' split) <;> simp [h]

theorem execOrderlyPowerDown_wf (s : State) : OutWf (execOrderlyPowerDown s) := by
  unfold execOrderlyPowerDown
  simp

theorem execPacketForward_wf (port : Nat) (s : State) (h : Memory.wf s.mem = true) :
    OutWf (execPacketForward port s) := by
  unfold execPacketForward
  split
  · split
    · exact h
    next hf => simpa using firstOf_wf (fun p => s.forwardIn_wf port p h) hf
  · split
    · split
      · exact h
      next hf => 
        refine firstOf_wf (fun p => ?_) hf
        exact State.forwardOwn_wf _ p h
    · dsimp only
      generalize port - allPorts - 1 = q
      split
      · exact h
      · refine outWf_ite h ?_
        split
        · exact h
        · split
          · exact h
          · next ht => simpa [State.leaveBy_mem ht] using h

theorem execPageIn_wf (asid : BitVec 16) (va frame : Nat) (s : State) (h : Memory.wf s.mem = true) :
    OutWf (execPageIn asid va frame s) := by
  unfold execPageIn
  dsimp only
  (repeat' split) <;> simp [h]

theorem execParkWrite_wf (pid : Nat) (s : State) (h : Memory.wf s.mem = true) : OutWf (execParkWrite pid s) := by
  unfold execParkWrite
  split
  · exact h
  next p _ =>
  split
  · simp [h]
  · split
    · exact h
    · split
      · simp [h]
      · split
        · exact h
        · split
          · simp [h]
          · dsimp only
            split
            · rw [outWf_next, foldl_mem _ fun t e => by simp]
              exact h
            · have hs := s.spillBundles_wf pid p.core p.bundles h
              split
              next s1 hsp => 
                rw [hsp] at hs
                simpa using hs
              next s1 hsp =>
                rw [hsp] at hs
                split
                · exact hs
                · split
                  · exact hs
                  · split
                    · exact State.writeRecords_wf _ _ _ _ hs
                    · simpa [apply_ite State.mem] using hs

theorem execPermb_wf (g : BitVec 4) (d a b : BitVec 6) (s : State) (h : Memory.wf s.mem = true) :
    OutWf (execPermb g d a b s) := by
  unfold execPermb
  refine issue_wf (fun c hc => ?_) (fun c hc => ?_) h
  · trivial
  · trivial

theorem execPowerLimitEnforce_wf (watts : Nat) (s : State) (h : Memory.wf s.mem = true) :
    OutWf (execPowerLimitEnforce watts s) := by
  unfold execPowerLimitEnforce
  split
  · exact h
  · extract_lets s1 s2
    have h1 : s1.mem = s.mem :=
      foldl_mem (fun t k => t.setStk k ((t.stk k).stepCap _)) (fun t k => t.setStk_mem k _) (List.range 16) s
    clear_value s1
    have h2 : s2.mem = s1.mem := foldl_mem State.retune State.retune_mem (List.range 512) s1
    clear_value s2
    simpa [h2, h1] using h

theorem execPowerLoss_wf (s : State) : OutWf (execPowerLoss s) := by
  unfold execPowerLoss
  simp

theorem execPowerOn_wf (inp : BootInput) (s : State) : OutWf (execPowerOn inp s) := by
  unfold execPowerOn
  grind [OutWf, State.cold_wf, bootFrom_wf]

theorem execPreemptEnd_wf (val : DWord) (s : State) (h : Memory.wf s.mem = true) :
    OutWf (execPreemptEnd val s) := State.preStart_wf (fun t ht => by
  dsimp only
  rw [foldl_mem _ fun t id => by split <;> rfl]
  exact foldl_wf (fun t g ht => t.endGrid_wf g ht) _ ht) h

theorem execPreemptPark_wf (val : DWord) (s : State) (h : Memory.wf s.mem = true) :
    OutWf (execPreemptPark val s) := by
  unfold execPreemptPark
  dsimp only
  (repeat' split) <;> simp [foldl_mem, h]

theorem execPriorityAging_wf (pid : Nat) (s : State) (h : Memory.wf s.mem = true) :
    OutWf (execPriorityAging pid s) := by
  unfold execPriorityAging
  split <;> simp [h]

theorem execRdm_wf (g : BitVec 4) (d a b : BitVec 6) (s : State) (h : Memory.wf s.mem = true) :
    OutWf (execRdm g d a b s) := by
  unfold execRdm
  refine issue_wf (fun c hc => ?_) (fun c hc => ?_) h
  · exact Pre.ofTraps_wf _
  · grind [Res.Wf, Ctx.claimOp_mem, Ctx.memOp_mem, foldl_ctx_mem]

theorem execRdmb_wf (g : BitVec 4) (d a : BitVec 6) (s : State) (h : Memory.wf s.mem = true) :
    OutWf (execRdmb g d a s) := by
  unfold execRdmb
  refine issue_wf (fun c hc => ?_) (fun c hc => ?_) h
  · grind [Pre.Wf, Ctx.acqWait_wf, Ctx.askFor_wf, Ctx.askLen_wf, Ctx.holdPage_mem, Ctx.holdParked_mem,
      Ctx.joinQueue_mem, Ctx.stall_mem, Pre.ofTraps_wf, Pre.then_wf]
  · dsimp only
    (repeat' split) <;> simp [hc]

theorem execReadSnapshot_wf (id off len : Nat) (s : State) (h : Memory.wf s.mem = true) :
    OutWf (execReadSnapshot id off len s) := by
  unfold execReadSnapshot
  (repeat' split) <;> simp [h]

theorem execReferenceSweep_wf (stack : Nat) (s : State) (h : Memory.wf s.mem = true) :
    OutWf (execReferenceSweep stack s) := by
  unfold execReferenceSweep
  dsimp only
  (repeat' split) <;> simp [h]

theorem execRegisterWrite_wf (off : Nat) (val : DWord) (s : State) (h : Memory.wf s.mem = true) :
    OutWf (execRegisterWrite off val s) :=
  outWf_ite h (outWf_ite h (outWf_ite (ite_wf h h) (outWf_ite h (outWf_ite (ite_wf h h) (outWf_ite h (outWf_ite h
    (outWf_ite (by simpa using h) (outWf_ite (ite_wf h h)
        (outWf_ite h (outWf_ite h (outWf_ite h (outWf_ite h (outWf_ite (ite_wf h h)
      (outWf_ite (by simpa using h) h))))))))))))))

theorem execRouteReevaluate_wf (dst : BitVec 20) (s : State) (h : Memory.wf s.mem = true) :
    OutWf (execRouteReevaluate dst s) := by
  unfold execRouteReevaluate
  dsimp only
  (repeat' split) <;> simp [h]

theorem execRunBegin_wf (pid bid : Nat) (s : State) (h : Memory.wf s.mem = true) :
    OutWf (execRunBegin pid bid s) := by
  unfold execRunBegin
  dsimp only
  (repeat' split) <;> simp [h]

theorem execRunCommit_wf (pid bid : Nat) (s : State) (h : Memory.wf s.mem = true) :
    OutWf (execRunCommit pid bid s) := by
  unfold execRunCommit
  split
  · exact h
  next p _ =>
  split
  · exact h
  next b _ =>
  split
  · exact h
  · split
    · split
      next ht => exact (s.raiseClaims_wf pid bid h).of_eq ht
      · split
        · simp [h]
        · split <;> simp [h]
    · simp [h]

theorem execRunHeader_wf (l : BitVec 5) (c : BitVec 1) (w : BitVec 12) (a b : BitVec 4) (s : State)
    (h : Memory.wf s.mem = true) :
    OutWf (execRunHeader l c w a b s) := by
  unfold execRunHeader
  dsimp only
  (repeat' split) <;> simp [h]

theorem execSeedSubmit_wf (slot : Nat) (val : DWord) (s : State) (h : Memory.wf s.mem = true) :
    OutWf (execSeedSubmit slot val s) := by
  unfold execSeedSubmit
  dsimp only
  (repeat' split) <;> simp [h]

theorem execSensorRead_wf (id : Nat) (s : State) (h : Memory.wf s.mem = true) : OutWf (execSensorRead id s) := by
  unfold execSensorRead
  dsimp only
  (repeat' split) <;> simp [h]

theorem execSetPowerLimit_wf (watts : Nat) (s : State) (h : Memory.wf s.mem = true) :
    OutWf (execSetPowerLimit watts s) := by
  unfold execSetPowerLimit
  split <;> simp [h]

theorem execSetSliceRetire_wf (stack : Nat) (mask : BitVec 32) (s : State) (h : Memory.wf s.mem = true) :
    OutWf (execSetSliceRetire stack mask s) := by
  unfold execSetSliceRetire
  (repeat' split) <;> simp [h]

theorem execShadowLatchEvent_wf (unit : Nat) (s : State) (h : Memory.wf s.mem = true) :
    OutWf (execShadowLatchEvent unit s) := by
  unfold execShadowLatchEvent
  grind [OutWf, State.endWindow_mem, State.setShadow_mem, State.tally_mem]

theorem execShi_wf (g : BitVec 4) (d a : BitVec 6) (o : BitVec 2) (n : BitVec 5) (s : State)
    (h : Memory.wf s.mem = true) :
    OutWf (execShi g d a o n s) := by
  unfold execShi
  refine issueBy_wf (fun c hc => ?_) (fun c hc => ?_) h
  · trivial
  · simp [hc]

theorem execSld_wf (g : BitVec 4) (d a : BitVec 6) (sb : BitVec 5) (w : BitVec 3) (o : BitVec 2) (s : State)
    (h : Memory.wf s.mem = true) :
    OutWf (execSld g d a sb w o s) := by
  unfold execSld
  refine issue_wf (fun c hc => ?_) (fun c hc => ?_) h
  · simp [hc]
  · split <;> simp [hc]

theorem execSpbind_wf (g : BitVec 4) (a : BitVec 6) (s : State) (h : Memory.wf s.mem = true) :
    OutWf (execSpbind g a s) := by
  unfold execSpbind
  refine issue_wf (fun c hc => ?_) (fun c hc => ?_) h
  · split <;> simp
  · trivial

theorem execSpdmUnsupported_wf (code : Nat) (s : State) (h : Memory.wf s.mem = true) :
    OutWf (execSpdmUnsupported code s) := by
  unfold execSpdmUnsupported
  simp [h]

theorem execSpopen_wf (g : BitVec 4) (d a : BitVec 6) (s : State) (h : Memory.wf s.mem = true) :
    OutWf (execSpopen g d a s) := by
  unfold execSpopen
  refine issue_wf (fun c hc => ?_) (fun c hc => ?_) h
  · simp [hc]
  · trivial

theorem execSst_wf (g : BitVec 4) (d a : BitVec 6) (sb : BitVec 5) (w : BitVec 3) (o : BitVec 2) (s : State)
    (h : Memory.wf s.mem = true) :
    OutWf (execSst g d a sb w o s) := by
  unfold execSst
  refine issue_wf (fun c hc => ?_) (fun c hc => ?_) h
  · simp [hc]
  · (repeat' split) <;> simp [hc]

theorem execSt_wf (g : BitVec 4) (d a : BitVec 6) (sb : BitVec 5) (w : BitVec 3) (o : BitVec 2) (s : State)
    (h : Memory.wf s.mem = true) :
    OutWf (execSt g d a sb w o s) := by
  unfold execSt
  refine issueBy_wf (fun c hc => ?_) (fun c hc => ?_) h
  · grind [Ctx.acqWait_wf, Ctx.cbWait_wf, Ctx.check_wf, Ctx.departFor_wf, Ctx.elemLocks_wf, Ctx.elemPre_wf,
      Ctx.planeOrder_wf, Ctx.writeChecks_wf, Pre.then_wf]
  · grind [Res.Wf, Ctx.elemWrite_mem, Ctx.useLive_mem, Ctx.writeDraft_mem, foldl_ctx_mem]

theorem execStallBlock_wf (pid : Nat) (s : State) (h : Memory.wf s.mem = true) : OutWf (execStallBlock pid s) := by
  unfold execStallBlock
  (repeat' split) <;> simp [h]

theorem execStarvationMark_wf (pid : Nat) (s : State) (h : Memory.wf s.mem = true) :
    OutWf (execStarvationMark pid s) := by
  unfold execStarvationMark
  split <;> simp [h]

theorem execStewardEvaluation_wf (stack : Nat) (s : State) (h : Memory.wf s.mem = true) :
    OutWf (execStewardEvaluation stack s) := by
  unfold execStewardEvaluation
  dsimp only
  (repeat' split) <;> simp [h]

theorem execStov_wf (g : BitVec 4) (d a : BitVec 6) (s : State) (h : Memory.wf s.mem = true) :
    OutWf (execStov g d a s) := by
  unfold execStov
  refine issueBy_wf (fun c hc => ?_) (fun c hc => ?_) h
  · simp
  · trivial

theorem execStp_wf (g : BitVec 4) (d a : BitVec 6) (sb : BitVec 5) (w : BitVec 3) (s : State)
    (h : Memory.wf s.mem = true) :
    OutWf (execStp g d a sb w s) := by
  unfold execStp
  refine issue_wf (fun c hc => ?_) (fun c hc => ?_) h
  · simp [hc]
  · grind [Res.Wf, Ctx.effectOf_mem, foldl_ctx_mem]

theorem execStx_wf (g : BitVec 4) (d a b : BitVec 6) (s : State) (h : Memory.wf s.mem = true) :
    OutWf (execStx g d a b s) := by
  unfold execStx
  refine issueBy_wf (fun c hc => ?_) (fun c hc => ?_) h
  · grind [Chk.bind_wf, Ctx.acqWait_wf, Ctx.check_wf, Ctx.needFmt_wf, Ctx.stxFrame_wf, Pre.then_wf]
  · grind [Res.Wf, Ctx.effectOf_mem, foldl_ctx_mem]

theorem execTelemetrySave_wf (s : State) (h : Memory.wf s.mem = true) : OutWf (execTelemetrySave s) := by
  unfold execTelemetrySave
  split <;> simp [h]

theorem execTest_wf (g : BitVec 4) (a : BitVec 6) (s : State) (h : Memory.wf s.mem = true) :
    OutWf (execTest g a s) := by
  unfold execTest
  refine issue_wf (fun c hc => ?_) (fun c hc => ?_) h
  · simp [hc]
  · grind [Res.Wf, Ctx.each_mem, Ctx.push_mem]

theorem execThermalHot_wf (stack celsius team : Nat) (s : State) (h : Memory.wf s.mem = true) :
    OutWf (execThermalHot stack celsius team s) := by
  unfold execThermalHot
  dsimp only
  (repeat' split) <;> simp [h]

theorem execTrainingExchange_wf (port : Nat) (mine remote : BitVec 16) (rspeed : Nat) (s : State)
    (h : Memory.wf s.mem = true) :
    OutWf (execTrainingExchange port mine remote rspeed s) := by
  unfold execTrainingExchange
  grind [OutWf, State.disableLink_mem, State.raiseEvent_wf, State.setLink_mem, State.stepDown_mem, State.tally_mem,
      foldl_wf]

theorem execTrap_wf (g : BitVec 4) (k : BitVec 6) (s : State) (h : Memory.wf s.mem = true) :
    OutWf (execTrap g k s) := by
  unfold execTrap
  refine issue_wf (fun c hc => ?_) (fun c hc => ?_) h
  · trivial
  · trivial

theorem execTrel_wf (g : BitVec 4) (a : BitVec 6) (s : State) (h : Memory.wf s.mem = true) :
    OutWf (execTrel g a s) := by
  unfold execTrel
  refine issue_wf (fun c hc => ?_) (fun c hc => ?_) h
  · simp [hc]
  · grind [Res.Wf, Ctx.effectOf_mem, foldl_ctx_mem]

theorem execTrelb_wf (g : BitVec 4) (a : BitVec 6) (s : State) (h : Memory.wf s.mem = true) :
    OutWf (execTrelb g a s) := by
  unfold execTrelb
  refine issue_wf (fun c hc => ?_) (fun c hc => ?_) h
  · split <;> simp [hc]
  · split <;> simp [hc]

theorem execTretRetry_wf (g : BitVec 4) (s : State) (h : Memory.wf s.mem = true) : OutWf (execTretRetry g s) := by
  unfold execTretRetry
  refine issue_wf (fun c hc => ?_) (fun c hc => ?_) h
  · simp
  · trivial

theorem execTretSkip_wf (g : BitVec 4) (s : State) (h : Memory.wf s.mem = true) : OutWf (execTretSkip g s) := by
  unfold execTretSkip
  refine issue_wf (fun c hc => ?_) (fun c hc => ?_) h
  · simp
  · trivial

theorem execTtest_wf (g : BitVec 4) (a : BitVec 6) (s : State) (h : Memory.wf s.mem = true) :
    OutWf (execTtest g a s) := by
  unfold execTtest
  refine issue_wf (fun c hc => ?_) (fun c hc => ?_) h
  · simp [hc]
  · grind [Res.Wf, Ctx.push_mem, foldl_ctx_mem]

theorem execTtestb_wf (g : BitVec 4) (a : BitVec 6) (s : State) (h : Memory.wf s.mem = true) :
    OutWf (execTtestb g a s) := by
  unfold execTtestb
  refine issue_wf (fun c hc => ?_) (fun c hc => ?_) h
  · dsimp only
    (repeat' split) <;> simp [hc]
  · grind [Res.Wf, Ctx.each_mem, Ctx.push_mem]

theorem execUncorrectableDetect_wf (site : PoisonSite) (s : State) (h : Memory.wf s.mem = true) :
    OutWf (execUncorrectableDetect site s) := by
  unfold execUncorrectableDetect
  dsimp only
  (repeat' split) <;> simp [h]

theorem execVtos_wf (g : BitVec 4) (d a b : BitVec 6) (s : State) (h : Memory.wf s.mem = true) :
    OutWf (execVtos g d a b s) := by
  unfold execVtos
  refine issueBy_wf (fun c hc => ?_) (fun c hc => ?_) h
  · simp
  · trivial

theorem execWait_wf (g : BitVec 4) (d a : BitVec 6) (s : State) (h : Memory.wf s.mem = true) :
    OutWf (execWait g d a s) := by
  unfold execWait
  refine issue_wf (fun c hc => Ctx.onHandle_wf (fun r => ?_) hc) (fun c hc => ?_) h
  · cases r with
    | done x => trivial
    | pending => exact hc
    | bad => trivial
    | refused fr => trivial
  · cases c.handleRes (c.hd a.toNat) with
    | done x => simpa using hc
    | pending => exact hc
    | bad => exact hc
    | refused fr => exact hc

theorem execWatch_wf (g : BitVec 4) (d a : BitVec 6) (a' : BitVec 1) (b : BitVec 5) (s : State)
    (h : Memory.wf s.mem = true) :
    OutWf (execWatch g d a a' b s) := by
  unfold execWatch
  refine issueBy_wf (fun c hc => ?_) (fun c hc => ?_) h
  · grind [Chk.bind_wf, Ctx.checkMem_wf, Ctx.departFor_wf, Ctx.needFmt_wf, Ctx.notBehind_wf, Ctx.orderWait_wf,
      Ctx.readWait_wf, Ctx.watchAt_wf, Pre.then_wf]
  · dsimp only
    simp [foldl_ctx_mem, hc]

theorem execWatchTimeout_wf (pid bid : Nat) (s : State) (h : Memory.wf s.mem = true) :
    OutWf (execWatchTimeout pid bid s) := by
  unfold execWatchTimeout
  (repeat' split) <;> simp [h]

theorem execYieldExpiry_wf (pid bid : Nat) (s : State) (h : Memory.wf s.mem = true) :
    OutWf (execYieldExpiry pid bid s) := by
  unfold execYieldExpiry
  (repeat' split) <;> simp [h]

theorem exec_wf (i : Instr) (s : State) (h : Memory.wf s.mem = true) : OutWf (exec i s) := by
  cases i with
  | nop g => exact (partywise_wf (fun c => rfl) h : OutWf (execNop g s))
  | yield g => exact (partywise_wf (fun c => rfl) h : OutWf (execYield g s))
  | trap g k => exact execTrap_wf g k s h
  | tretRetry g => exact execTretRetry_wf g s h
  | tretSkip g => exact execTretSkip_wf g s h
  | mfs g d a b => exact execMfs_wf g d a b s h
  | mts g d a b => exact execMts_wf g d a b s h
  | tbr g a b => exact (branch_wf _ _ _ _ _ h : OutWf (execTbr g a b s))
  | halt g => exact execHalt_wf g s h
  | br g o => exact (branch_wf _ _ _ _ _ h : OutWf (execBr g o s))
  | call g o => exact (branch_wf _ _ _ _ _ h : OutWf (execCall g o s))
  | ret g a => exact (branch_wf _ _ _ _ _ h : OutWf (execRet g a s))
  | callr g a => exact (branch_wf _ _ _ _ _ h : OutWf (execCallr g a s))
  | brr g a => exact (branch_wf _ _ _ _ _ h : OutWf (execBrr g a s))
  | enter g n => exact execEnter_wf g n s h
  | leave g n => exact execLeave_wf g n s h
  | fork g d a => exact execFork_wf g d a s h
  | fend g => exact execFend_wf g s h
  | exit g => exact (partywise_wf (fun c => rfl) h : OutWf (execExit g s))
  | bar g a b => exact (barWait_wf _ _ _ _ _ _ _ h : OutWf (execBar g a b s))
  | barw g d a b => exact (barWait_wf _ _ _ _ _ _ _ h : OutWf (execBarw g d a b s))
  | rejoin g a => exact (rejoinOp_wf _ _ _ _ _ _ h : OutWf (execRejoin g a s))
  | rejoinw g a b => exact (rejoinOp_wf _ _ _ _ _ _ h : OutWf (execRejoinw g a b s))
  | arrive g d a b => exact execArrive_wf g d a b s h
  | barq g a b => exact execBarq_wf g a b s h
  | launch g a => exact execLaunch_wf g a s h
  | gridwait g d a => exact execGridwait_wf g d a s h
  | gridq g d a => exact execGridq_wf g d a s h
  | cmp g a b c => exact (lanewise_wf (fun c l => rfl) h : OutWf (execCmp g a b c s))
  | cmpD g a b c => exact (lanewise_wf (fun c l => rfl) h : OutWf (execCmpD g a b c s))
  | cmpi g c a im => exact (lanewise_wf (fun c l => rfl) h : OutWf (execCmpi g c a im s))
  | fcmp g f a b c => exact (lanewise_wf (fun c l => by simp) h : OutWf (execFcmp g f a b c s))
  | ppop g n => exact (lanewise_wf (fun c l => rfl) h : OutWf (execPpop g n s))
  | pdup g a => exact (lanewise_wf (fun c l => rfl) h : OutWf (execPdup g a s))
  | pand g a b => exact (lanewise_wf (fun c l => rfl) h : OutWf (execPand g a b s))
  | por g a b => exact (lanewise_wf (fun c l => rfl) h : OutWf (execPor g a b s))
  | pxor g a b => exact (lanewise_wf (fun c l => rfl) h : OutWf (execPxor g a b s))
  | pnot g a => exact (lanewise_wf (fun c l => rfl) h : OutWf (execPnot g a s))
  | pany g a => exact (partywise_wf (fun c => c.each_mem fun _ _ => by simp) h : OutWf (execPany g a s))
  | pall g a => exact (partywise_wf (fun c => c.each_mem fun _ _ => by simp) h : OutWf (execPall g a s))
  | pcnt g d a => exact (partywise_wf (fun c => rfl) h : OutWf (execPcnt g d a s))
  | pget g d => exact (lanewise_wf (fun c l => by simp) h : OutWf (execPget g d s))
  | pset g a => exact (lanewise_wf (fun c l => rfl) h : OutWf (execPset g a s))
  | pfirst g d a => exact (partywise_wf (fun c => c.each_mem fun _ _ => by simp) h : OutWf (execPfirst g d a s))
  | pswap g a b => exact (lanewise_wf (fun c l => rfl) h : OutWf (execPswap g a b s))
  | add g d a b => exact (intSat_wf _ _ _ _ _ _ h : OutWf (execAdd g d a b s))
  | sub g d a b => exact (intSat_wf _ _ _ _ _ _ h : OutWf (execSub g d a b s))
  | mul g d a b => exact (intSat_wf _ _ _ _ _ _ h : OutWf (execMul g d a b s))
  | mulh g d a b => exact (intBin_wf _ _ _ _ _ _ h : OutWf (execMulh g d a b s))
  | mulhu g d a b => exact (intBin_wf _ _ _ _ _ _ h : OutWf (execMulhu g d a b s))
  | and g d a b => exact (intBin_wf _ _ _ _ _ _ h : OutWf (execAnd g d a b s))
  | or g d a b => exact (intBin_wf _ _ _ _ _ _ h : OutWf (execOr g d a b s))
  | xor g d a b => exact (intBin_wf _ _ _ _ _ _ h : OutWf (execXor g d a b s))
  | shl g d a b => exact (intBin_wf _ _ _ _ _ _ h : OutWf (execShl g d a b s))
  | shr g d a b => exact (intBin_wf _ _ _ _ _ _ h : OutWf (execShr g d a b s))
  | sar g d a b => exact (intBin_wf _ _ _ _ _ _ h : OutWf (execSar g d a b s))
  | rot g d a b => exact (intBin_wf _ _ _ _ _ _ h : OutWf (execRot g d a b s))
  | min g d a b => exact (intBin_wf _ _ _ _ _ _ h : OutWf (execMin g d a b s))
  | max g d a b => exact (intBin_wf _ _ _ _ _ _ h : OutWf (execMax g d a b s))
  | minu g d a b => exact (intBin_wf _ _ _ _ _ _ h : OutWf (execMinu g d a b s))
  | maxu g d a b => exact (intBin_wf _ _ _ _ _ _ h : OutWf (execMaxu g d a b s))
  | addi g d a im => exact (intOp_wf (fun w sg c l => by simp) h : OutWf (execAddi g d a im s))
  | andi g d a im => exact (immBit_wf _ _ _ _ _ _ h : OutWf (execAndi g d a im s))
  | ori g d a im => exact (immBit_wf _ _ _ _ _ _ h : OutWf (execOri g d a im s))
  | xori g d a im => exact (immBit_wf _ _ _ _ _ _ h : OutWf (execXori g d a im s))
  | shi g d a o c => exact execShi_wf g d a o c s h
  | movi g d im => exact (intOp_wf (fun w sg c l => by simp) h : OutWf (execMovi g d im s))
  | movhi g d im => exact execMovhi_wf g d im s h
  | mad g d a b => exact (intOp_wf (fun w sg c l => by simp) h : OutWf (execMad g d a b s))
  | madh g d a b => exact (intOp_wf (fun w sg c l => by simp) h : OutWf (execMadh g d a b s))
  | abs g d a => exact (intOp_wf (fun w sg c l => by simp) h : OutWf (execAbs g d a s))
  | neg g d a => exact (intOp_wf (fun w sg c l => by simp) h : OutWf (execNeg g d a s))
  | clz g d a => exact (intUn_wf _ _ _ _ _ h : OutWf (execClz g d a s))
  | popc g d a => exact (intUn_wf _ _ _ _ _ h : OutWf (execPopc g d a s))
  | brev g d a => exact (intUn_wf _ _ _ _ _ h : OutWf (execBrev g d a s))
  | bfe g d a b => exact (intOp_wf (fun w sg c l => by simp) h : OutWf (execBfe g d a b s))
  | bfi g d a b => exact (intOp_wf (fun w sg c l => by simp) h : OutWf (execBfi g d a b s))
  | sel g d a b => exact (intOp_wf (fun w sg c l => by simp) h : OutWf (execSel g d a b s))
  | mov g d a => exact (intUn_wf _ _ _ _ _ h : OutWf (execMov g d a s))
  | addc g d a b => exact (intOp_wf (fun w sg c l => by simp) h : OutWf (execAddc g d a b s))
  | subb g d a b => exact (intOp_wf (fun w sg c l => by simp) h : OutWf (execSubb g d a b s))
  | divu g d a b => exact (divOp_wf _ _ _ _ _ _ _ h : OutWf (execDivu g d a b s))
  | divs g d a b => exact (divOp_wf _ _ _ _ _ _ _ h : OutWf (execDivs g d a b s))
  | rem g d a b => exact (divOp_wf _ _ _ _ _ _ _ h : OutWf (execRem g d a b s))
  | fadd g d a b => exact (fpRound_wf _ _ _ _ _ _ _ _ _ h : OutWf (execFadd g d a b s))
  | fsub g d a b => exact (fpRound_wf _ _ _ _ _ _ _ _ _ h : OutWf (execFsub g d a b s))
  | fmul g d a b => exact (fpRound_wf _ _ _ _ _ _ _ _ _ h : OutWf (execFmul g d a b s))
  | ffma g d a b => exact (fpRound_wf _ _ _ _ _ _ _ _ _ h : OutWf (execFfma g d a b s))
  | fmin g d a b => exact (fpPlain_wf _ _ _ _ _ _ _ h : OutWf (execFmin g d a b s))
  | fmax g d a b => exact (fpPlain_wf _ _ _ _ _ _ _ h : OutWf (execFmax g d a b s))
  | fabs g d a => exact (fpPlain_wf _ _ _ _ _ _ _ h : OutWf (execFabs g d a s))
  | fneg g d a => exact (fpPlain_wf _ _ _ _ _ _ _ h : OutWf (execFneg g d a s))
  | frcp g d a => exact (fpRound_wf _ _ _ _ _ _ _ _ _ h : OutWf (execFrcp g d a s))
  | fsqrt g d a => exact (fpRound_wf _ _ _ _ _ _ _ _ _ h : OutWf (execFsqrt g d a s))
  | frsq g d a => exact (fpRound_wf _ _ _ _ _ _ _ _ _ h : OutWf (execFrsq g d a s))
  | fexp2 g d a => exact (fpRound_wf _ _ _ _ _ _ _ _ _ h : OutWf (execFexp2 g d a s))
  | flog2 g d a => exact (fpRound_wf _ _ _ _ _ _ _ _ _ h : OutWf (execFlog2 g d a s))
  | ftanh g d a => exact (fpRound_wf _ _ _ _ _ _ _ _ _ h : OutWf (execFtanh g d a s))
  | fdiv g d a b => exact (fpRound_wf _ _ _ _ _ _ _ _ _ h : OutWf (execFdiv g d a b s))
  | fcls g d a => exact (fpPlain_wf _ _ _ _ _ _ _ h : OutWf (execFcls g d a s))
  | haddBf16 g d a b => exact (halfRound_wf _ _ _ _ _ _ _ _ h : OutWf (execHaddBf16 g d a b s))
  | hsubBf16 g d a b => exact (halfRound_wf _ _ _ _ _ _ _ _ h : OutWf (execHsubBf16 g d a b s))
  | hmulBf16 g d a b => exact (halfRound_wf _ _ _ _ _ _ _ _ h : OutWf (execHmulBf16 g d a b s))
  | hfmaBf16 g d a b => exact (halfRound_wf _ _ _ _ _ _ _ _ h : OutWf (execHfmaBf16 g d a b s))
  | hminBf16 g d a b => exact (halfMinMax_wf _ _ _ _ _ _ _ h : OutWf (execHminBf16 g d a b s))
  | hmaxBf16 g d a b => exact (halfMinMax_wf _ _ _ _ _ _ _ h : OutWf (execHmaxBf16 g d a b s))
  | hdot2Bf16 g d a b => exact (halfDot_wf _ _ _ _ _ _ h : OutWf (execHdot2Bf16 g d a b s))
  | haddFp16 g d a b => exact (halfRound_wf _ _ _ _ _ _ _ _ h : OutWf (execHaddFp16 g d a b s))
  | hsubFp16 g d a b => exact (halfRound_wf _ _ _ _ _ _ _ _ h : OutWf (execHsubFp16 g d a b s))
  | hmulFp16 g d a b => exact (halfRound_wf _ _ _ _ _ _ _ _ h : OutWf (execHmulFp16 g d a b s))
  | hfmaFp16 g d a b => exact (halfRound_wf _ _ _ _ _ _ _ _ h : OutWf (execHfmaFp16 g d a b s))
  | hminFp16 g d a b => exact (halfMinMax_wf _ _ _ _ _ _ _ h : OutWf (execHminFp16 g d a b s))
  | hmaxFp16 g d a b => exact (halfMinMax_wf _ _ _ _ _ _ _ h : OutWf (execHmaxFp16 g d a b s))
  | hdot2Fp16 g d a b => exact (halfDot_wf _ _ _ _ _ _ h : OutWf (execHdot2Fp16 g d a b s))
  | i2f g d a b => exact (toFloat_wf _ _ _ _ _ _ h : OutWf (execI2f g d a b s))
  | u2f g d a b => exact (toFloat_wf _ _ _ _ _ _ h : OutWf (execU2f g d a b s))
  | f2i g d a b => exact (fromFloat_wf _ _ _ _ _ _ _ h : OutWf (execF2i g d a b s))
  | f2iz g d a b => exact (fromFloat_wf _ _ _ _ _ _ _ h : OutWf (execF2iz g d a b s))
  | f2u g d a b => exact (fromFloat_wf _ _ _ _ _ _ _ h : OutWf (execF2u g d a b s))
  | f2bf g d a => exact (narrow_wf (fun c hc => trivial) h : OutWf (execF2bf g d a s))
  | bf2f g d a => exact (widen_wf _ _ _ _ _ h : OutWf (execBf2f g d a s))
  | f2h g d a => exact (narrow_wf (fun c hc => trivial) h : OutWf (execF2h g d a s))
  | h2f g d a => exact (widen_wf _ _ _ _ _ h : OutWf (execH2f g d a s))
  | f2n g d a b => exact (narrow_wf (fun c hc => by simp [hc]) h : OutWf (execF2n g d a b s))
  | n2f g d a b => exact execN2f_wf g d a b s h
  | mxscale g d a => exact execMxscale_wf g d a s h
  | mxq g d a b => exact execMxq_wf g d a b s h
  | mxdq g d a b => exact execMxdq_wf g d a b s h
  | mxpack g d a b => exact execMxpack_wf g d a b s h
  | mxunp g d a b => exact execMxunp_wf g d a b s h
  | shfl g d a b => exact (shuffle_wf _ _ _ _ _ _ h : OutWf (execShfl g d a b s))
  | shfup g d a b => exact (shuffle_wf _ _ _ _ _ _ h : OutWf (execShfup g d a b s))
  | shfdn g d a b => exact (shuffle_wf _ _ _ _ _ _ h : OutWf (execShfdn g d a b s))
  | shfxor g d a b => exact (shuffle_wf _ _ _ _ _ _ h : OutWf (execShfxor g d a b s))
  | bcast g d a b => exact (shuffle_wf _ _ _ _ _ _ h : OutWf (execBcast g d a b s))
  | redlog g d a b => exact (combine_wf _ _ _ _ _ _ _ h : OutWf (execRedlog g d a b s))
  | scan g d a b => exact (combine_wf _ _ _ _ _ _ _ h : OutWf (execScan g d a b s))
  | argmax g d a => exact execArgmax_wf g d a s h
  | kth g d a b => exact execKth_wf g d a b s h
  | ballot g d a => exact execBallot_wf g d a s h
  | permb g d a b => exact execPermb_wf g d a b s h
  | vtos g d a b => exact execVtos_wf g d a b s h
  | stov g d a => exact execStov_wf g d a s h
  | cbld g a => exact execCbld_wf g a s h
  | cbdec g d a => exact (cbOp_wf _ _ _ _ _ h : OutWf (execCbdec g d a s))
  | cbenc g d a => exact (cbOp_wf _ _ _ _ _ h : OutWf (execCbenc g d a s))
  | cbrd g d a => exact (cbOp_wf _ _ _ _ _ h : OutWf (execCbrd g d a s))
  | lbind g n => exact execLbind_wf g n s h
  | lunbind g => exact execLunbind_wf g s h
  | ladd g d a b => exact (limbOp_wf _ _ _ _ _ _ h : OutWf (execLadd g d a b s))
  | lsub g d a b => exact (limbOp_wf _ _ _ _ _ _ h : OutWf (execLsub g d a b s))
  | lshl g d a b => exact (limbShift_wf _ _ _ _ _ _ h : OutWf (execLshl g d a b s))
  | lshr g d a b => exact (limbShift_wf _ _ _ _ _ _ h : OutWf (execLshr g d a b s))
  | lsar g d a b => exact (limbShift_wf _ _ _ _ _ _ h : OutWf (execLsar g d a b s))
  | lcmp g c a b => exact execLcmp_wf g c a b s h
  | lmac g d a b => exact execLmac_wf g d a b s h
  | lcarry g d => exact execLcarry_wf g d s h
  | lneg g d a => exact (limbOp_wf _ _ _ _ _ _ h : OutWf (execLneg g d a s))
  | sadd g d a b => exact (saluSat_wf _ _ _ _ _ _ h : OutWf (execSadd g d a b s))
  | ssub g d a b => exact (saluSat_wf _ _ _ _ _ _ h : OutWf (execSsub g d a b s))
  | smul g d a b => exact (saluSat_wf _ _ _ _ _ _ h : OutWf (execSmul g d a b s))
  | smulh g d a b => exact (saluBin_wf _ _ _ _ _ _ h : OutWf (execSmulh g d a b s))
  | smulhu g d a b => exact (saluBin_wf _ _ _ _ _ _ h : OutWf (execSmulhu g d a b s))
  | sand g d a b => exact (saluBin_wf _ _ _ _ _ _ h : OutWf (execSand g d a b s))
  | sor g d a b => exact (saluBin_wf _ _ _ _ _ _ h : OutWf (execSor g d a b s))
  | sxor g d a b => exact (saluBin_wf _ _ _ _ _ _ h : OutWf (execSxor g d a b s))
  | sshl g d a b => exact (saluBin_wf _ _ _ _ _ _ h : OutWf (execSshl g d a b s))
  | sshr g d a b => exact (saluBin_wf _ _ _ _ _ _ h : OutWf (execSshr g d a b s))
  | ssar g d a b => exact (saluBin_wf _ _ _ _ _ _ h : OutWf (execSsar g d a b s))
  | srot g d a b => exact (saluBin_wf _ _ _ _ _ _ h : OutWf (execSrot g d a b s))
  | smin g d a b => exact (saluBin_wf _ _ _ _ _ _ h : OutWf (execSmin g d a b s))
  | smax g d a b => exact (saluBin_wf _ _ _ _ _ _ h : OutWf (execSmax g d a b s))
  | sminu g d a b => exact (saluBin_wf _ _ _ _ _ _ h : OutWf (execSminu g d a b s))
  | smaxu g d a b => exact (saluBin_wf _ _ _ _ _ _ h : OutWf (execSmaxu g d a b s))
  | saddi g d a im => exact (partywise_wf (fun c => by simp) h : OutWf (execSaddi g d a im s))
  | smovi g d im => exact (partywise_wf (fun c => by simp) h : OutWf (execSmovi g d im s))
  | smov g d a => exact (partywise_wf (fun c => by simp) h : OutWf (execSmov g d a s))
  | hget g d a => exact (partywise_wf (fun c => by simp) h : OutWf (execHget g d a s))
  | hput g d a => exact (partywise_wf (fun c => rfl) h : OutWf (execHput g d a s))
  | hnull g d => exact (partywise_wf (fun c => rfl) h : OutWf (execHnull g d s))
  | scmp g a b c => exact (lanewise_wf (fun c l => rfl) h : OutWf (execScmp g a b c s))
  | ld g d a sb w o => exact execLd_wf g d a sb w o s h
  | st g d a sb w o => exact execSt_wf g d a sb w o s h
  | atom g d a sb w => exact execAtom_wf g d a sb w s h
  | ldt g d a sb w o => exact execLdt_wf g d a sb w o s h
  | ldtb g d a sb o => exact execLdtb_wf g d a sb o s h
  | att g d a sb w => exact execAtt_wf g d a sb w s h
  | rdm g d a b => exact execRdm_wf g d a b s h
  | rdmb g d a => exact execRdmb_wf g d a s h
  | trel g a => exact execTrel_wf g a s h
  | trelb g a => exact execTrelb_wf g a s h
  | ttest g a => exact execTtest_wf g a s h
  | ttestb g a => exact execTtestb_wf g a s h
  | stp g d a sb w => exact execStp_wf g d a sb w s h
  | atp g d a sb w => exact execAtp_wf g d a sb w s h
  | msoCas2 g d a => exact (msoOp_wf _ _ _ _ _ _ _ _ _ _ h : OutWf (execMsoCas2 g d a s))
  | msoCas4 g d a => exact (msoOp_wf _ _ _ _ _ _ _ _ _ _ h : OutWf (execMsoCas4 g d a s))
  | msoEnq g d a => exact (msoOp_wf _ _ _ _ _ _ _ _ _ _ h : OutWf (execMsoEnq g d a s))
  | msoChase g d a => exact execMsoChase_wf g d a s h
  | msoRowput g a => exact execMsoRowput_wf g a s h
  | egath g d a sb => exact execEgath_wf g d a sb s h
  | fence g => exact (partywise_wf (fun c => rfl) h : OutWf (execFence g s))
  | watch g d a o b => exact execWatch_wf g d a o b s h
  | cpy g d a => exact execCpy_wf g d a s h
  | cpys g d a => exact execCpys_wf g d a s h
  | cpyg g d a => exact execCpyg_wf g d a s h
  | cpyr g d a => exact execCpyr_wf g d a s h
  | wait g d a => exact execWait_wf g d a s h
  | test g a => exact execTest_wf g a s h
  | cancel g a => exact execCancel_wf g a s h
  | spopen g d a => exact execSpopen_wf g d a s h
  | stx g d a b => exact execStx_wf g d a b s h
  | spacc g d a b => exact (closeFrame_wf _ _ _ _ _ _ _ h : OutWf (execSpacc g d a b s))
  | spdrop g d a => exact (closeFrame_wf _ _ _ _ _ _ _ h : OutWf (execSpdrop g d a s))
  | spbind g a => exact execSpbind_wf g a s h
  | rngu g d a => exact (rngOp_wf _ _ _ _ _ h : OutWf (execRngu g d a s))
  | rngkey g a => exact (partywise_wf (fun c => rfl) h : OutWf (execRngkey g a s))
  | rngstrm g a => exact (partywise_wf (fun c => rfl) h : OutWf (execRngstrm g a s))
  | unif g d a => exact (rngOp_wf _ _ _ _ _ h : OutWf (execUnif g d a s))
  | gumb g d a => exact (rngOp_wf _ _ _ _ _ h : OutWf (execGumb g d a s))
  | sld g d a sb w o => exact execSld_wf g d a sb w o s h
  | sst g d a sb w o => exact execSst_wf g d a sb w o s h
  | mput g a => exact execMput_wf g a s h
  | mget g d a => exact execMget_wf g d a s h
  | imm p => exact (hint_wf _ _ h : OutWf (execImm p s))
  | live b m => exact (hint_wf _ _ h : OutWf (execLive b m s))
  | mod sb o r t f => exact (hint_wf _ _ h : OutWf (execMod sb o r t f s))
  | last c b a => exact (hint_wf _ _ h : OutWf (execLast c b a s))
  | runHeader l c w a b => exact execRunHeader_wf l c w a b s h
  | mma c a b z k t u => exact execMma_wf c a b z k t u s h
  | mzero c => exact execMzero_wf c s h
  | mlda c p => exact execMlda_wf c p s h
  | msta c p sb => exact execMsta_wf c p sb s h
  | msig b n => exact execMsig_wf b n s h
  | msync b n => exact execMsync_wf b n s h
  | mset m v => exact execMset_wf m v s h
  | msetAdd m v => exact (matrixOp_wf (fun c hc => by simp [hc]) h : OutWf (execMsetAdd m v s))
  | msetSet m v => exact (matrixOp_wf (fun c hc => by simp [hc]) h : OutWf (execMsetSet m v s))
  | msetCb v => exact execMsetCb_wf v s h
  | mloop n => exact execMloop_wf n s h
  | mnext => exact execMnext_wf s h
  | mend => exact (matrixOp_wf (fun c hc => by simp [hc]) h : OutWf (execMend s))
  | runBegin pid bid => exact execRunBegin_wf pid bid s h
  | runCommit pid bid => exact execRunCommit_wf pid bid s h
  | regroupingPass core => exact execRegroupingPass_wf core s h
  | activeSetFill core => exact execActiveSetFill_wf core s h
  | priorityAging pid => exact execPriorityAging_wf pid s h
  | starvationMark pid => exact execStarvationMark_wf pid s h
  | stallBlock pid => exact execStallBlock_wf pid s h
  | yieldExpiry pid bid => exact execYieldExpiry_wf pid bid s h
  | longOpComplete pid op => exact execLongOpComplete_wf pid op s h
  | departRecord pid => exact execDepartRecord_wf pid s h
  | outboxHeadSend msg => exact execOutboxHeadSend_wf msg s h
  | arrivalAccept msg => exact execArrivalAccept_wf msg s h
  | arrivalAdmit core => exact execArrivalAdmit_wf core s h
  | stewardEvaluation stack => exact execStewardEvaluation_wf stack s h
  | stewardResume stack => exact execStewardResume_wf stack s h
  | lineageCountMsg msg => exact execLineageCountMsg_wf msg s h
  | rejoinExpiry core bar => exact execRejoinExpiry_wf core bar s h
  | parkWrite pid => exact execParkWrite_wf pid s h
  | teamSave team => exact execTeamSave_wf team s h
  | postedOpApply msg => exact execPostedOpApply_wf msg s h
  | watchTimeout pid bid => exact execWatchTimeout_wf pid bid s h
  | ackReceive msg => exact execAckReceive_wf msg s h
  | ticketService msg => exact execTicketService_wf msg s h
  | ticketFetchComplete slice entry data => exact execTicketFetchComplete_wf slice entry data s h
  | ticketValueReturn msg => exact execTicketValueReturn_wf msg s h
  | claimAtHome msg => exact execClaimAtHome_wf msg s h
  | claimAnswer msg => exact execClaimAnswer_wf msg s h
  | claimConfirm msg => exact execClaimConfirm_wf msg s h
  | claimCancel msg => exact execClaimCancel_wf msg s h
  | trelAtHome msg => exact execTrelAtHome_wf msg s h
  | ticketDeadline slice entry => exact execTicketDeadline_wf slice entry s h
  | msoApply msg => exact execMsoApply_wf msg s h
  | pageIn asid va frame => exact execPageIn_wf asid va frame s h
  | referenceSweep stack => exact execReferenceSweep_wf stack s h
  | hostMemRead port tag hpa => exact execHostMemRead_wf port tag hpa s h
  | hostMemWrite port tag hpa data => exact execHostMemWrite_wf port tag hpa data s h
  | hostWindowResponse msg fresh => exact execHostWindowResponse_wf msg fresh s h
  | engineStart eng => exact execEngineStart_wf eng s h
  | engineComplete eng => exact execEngineComplete_wf eng s h
  | cancelArrive msg written => exact execCancelArrive_wf msg written s h
  | barrierArrival msg => exact execBarrierArrival_wf msg s h
  | barwExpiry bar => exact execBarwExpiry_wf bar s h
  | launchValidate msg => exact execLaunchValidate_wf msg s h
  | teamPlace => exact execTeamPlace_wf s h
  | teamRetire team => exact execTeamRetire_wf team s h
  | gridRetire grid => exact execGridRetire_wf grid s h
  | frameClaim msg => exact execFrameClaim_wf msg s h
  | stxVersionApply msg => exact execStxVersionApply_wf msg s h
  | framePrepare frame slice => exact execFramePrepare_wf frame slice s h
  | framePrepareAnswer frame slice => exact execFramePrepareAnswer_wf frame slice s h
  | frameStepApply frame slice => exact execFrameStepApply_wf frame slice s h
  | uncorrectableDetect site => exact execUncorrectableDetect_wf site s h
  | poisonConsume idx => exact execPoisonConsume_wf idx s h
  | shadowLatchEvent unit => exact execShadowLatchEvent_wf unit s h
  | derateWindowEnd unit => exact execDerateWindowEnd_wf unit s h
  | powerLimitEnforce watts => exact execPowerLimitEnforce_wf watts s h
  | thermalHot stack celsius team => exact execThermalHot_wf stack celsius team s h
  | hdmWindowWrite port win dword val => exact execHdmWindowWrite_wf port win dword val s h
  | seedSubmit slot val => exact execSeedSubmit_wf slot val s h
  | seedAccept slot => exact execSeedAccept_wf slot s h
  | invalPage val => exact execInvalPage_wf val s h
  | invalAsid val => exact execInvalAsid_wf val s h
  | invalAll val => exact execInvalAll_wf val s h
  | invalComplete => exact execInvalComplete_wf s h
  | funcApply val => exact execFuncApply_wf val s h
  | evqHeadWrite val => exact execEvqHeadWrite_wf val s h
  | evResume val => exact (State.respond_wf (fun t e n ht => by split <;> simp [apply_ite State.mem, ht]) h
      : OutWf (execEvResume val s))
  | evDeliver val => exact (State.respond_wf (fun t e n ht => by split <;> simp [ht]) h : OutWf (execEvDeliver val s))
  | evEnlarge val => exact execEvEnlarge_wf val s h
  | evParkOldest val => exact execEvParkOldest_wf val s h
  | evNone val => exact execEvNone_wf val s h
  | evReclaim val => exact execEvReclaim_wf val s h
  | evPlace val => exact execEvPlace_wf val s h
  | evDefer val => exact execEvDefer_wf val s h
  | evBadRespClear val => exact execEvBadRespClear_wf val s h
  | preemptPark val => exact execPreemptPark_wf val s h
  | preemptResume val => exact (State.preStart_wf (fun t ht => foldl_wf (fun t e ht => t.unpark_wf _ _ ht) _ ht) h :
      OutWf (execPreemptResume val s))
  | preemptEnd val => exact execPreemptEnd_wf val s h
  | dbgContinue => exact (State.releaseHalt_wf (fun t c _ hc => by simpa using hc) h : OutWf (execDbgContinue s))
  | dbgDeliverDebug => exact (State.releaseHalt_wf (fun t c ht _ => t.raise_wf _ _ _ _ _ ht) h
      : OutWf (execDbgDeliverDebug s))
  | dbgStop val => exact execDbgStop_wf val s h
  | dbgStopDrained => exact execDbgStopDrained_wf s h
  | dbgStart val => exact execDbgStart_wf val s h
  | dbgMemRead val => exact execDbgMemRead_wf val s h
  | dbgMemWrite val => exact execDbgMemWrite_wf val s h
  | registerWrite off val => exact execRegisterWrite_wf off val s h
  | powerOn inp => exact execPowerOn_wf inp s
  | bootRetry inp => exact execBootRetry_wf inp s h
  | bootNextAlternate inp => exact execBootNextAlternate_wf inp s h
  | bootSkip inp => exact execBootSkip_wf inp s h
  | bootEnterRecovery => exact execBootEnterRecovery_wf s h
  | getVersion => exact execGetVersion_wf s h
  | getCapabilities => exact execGetCapabilities_wf s h
  | negotiateAlgorithms => exact execNegotiateAlgorithms_wf s h
  | getDigests => exact execGetDigests_wf s h
  | getCertificate slot off len => exact execGetCertificate_wf slot off len s h
  | challenge slot => exact execChallenge_wf slot s h
  | getMeasurements idx => exact execGetMeasurements_wf idx s h
  | spdmUnsupported code => exact execSpdmUnsupported_wf code s h
  | getSnapshot => exact execGetSnapshot_wf s h
  | readSnapshot id off len => exact execReadSnapshot_wf id off len s h
  | clearBootRecord => exact execClearBootRecord_wf s h
  | setPowerLimit watts => exact execSetPowerLimit_wf watts s h
  | setSliceRetire stack mask => exact execSetSliceRetire_wf stack mask s h
  | sensorRead id => exact execSensorRead_wf id s h
  | telemetrySave => exact execTelemetrySave_wf s h
  | orderlyPowerDown => exact execOrderlyPowerDown_wf s
  | linkFrameReceive port fr => exact execLinkFrameReceive_wf port fr s h
  | linkFrameSend port => exact execLinkFrameSend_wf port s h
  | packetForward port => exact execPacketForward_wf port s h
  | laneLoss port lane => exact execLaneLoss_wf port lane s h
  | trainingExchange port mine remote rspeed => exact execTrainingExchange_wf port mine remote rspeed s h
  | linkReportReceive port fseq => exact execLinkReportReceive_wf port fseq s h
  | routeReevaluate dst => exact execRouteReevaluate_wf dst s h
  | frameClaimConfirm msg => exact execFrameClaimConfirm_wf msg s h
  | frameClaimCancel msg => exact execFrameClaimCancel_wf msg s h
  | matrixWordComplete team => exact execMatrixWordComplete_wf team s h
  | powerLoss => exact execPowerLoss_wf s
  | cxlCacheRequest port => exact execCxlCacheRequest_wf port s h

/-! ## The step

### Bundles and sequencers -/

theorem issueHeader_wf (s : State) (pid bid : Nat) (p : Party) (b : Bundle) (h : Memory.wf s.mem = true) :
    OutWf (issueHeader s pid bid p b) := by
  unfold issueHeader
  refine outWf_ite h ?_
  split
  · exact s.noHeader_wf pid bid true h
  · simp [h]
  · exact h
  · split
    next l c wt a bb _ =>
      have hx := exec_wf (.runHeader l c wt a bb) s h
      split
      next t ht => simpa using hx.of_next ht
      · exact hx
    · exact s.noHeader_wf pid bid false h

theorem issueWord_wf (s : State) (h : Memory.wf s.mem = true) : OutWf (issueWord s) := by
  unfold issueWord
  split
  · trivial
  · refine outWf_ite h ?_
    split
    next i _ =>
      have hx := exec_wf i s h
      split
      next t ht => simpa using hx.of_next ht
      · exact hx
    · exact outWf_ite (s.raise_wf _ _ _ _ _ h) (s.badWord_wf h)

theorem issueBundle_wf (s : State) (pid bid : Nat) (h : Memory.wf s.mem = true) : OutWf (issueBundle s pid bid) := by
  unfold issueBundle
  dsimp only
  split
  · exact h
  · split
    · exact h
    · split
      · exact issueHeader_wf { s with actor := .bundle pid bid } pid bid _ _ h
      · exact exec_wf (.runBegin pid bid) { s with actor := .bundle pid bid } h
      · refine outWf_ite (outWf_ite h h) ?_
        split
        next ht => exact (State.raiseClaims_wf { s with actor := .bundle pid bid } pid bid h).of_eq ht
        · exact issueWord_wf { s with actor := .bundle pid bid } h
      · exact exec_wf (.runCommit pid bid) { s with actor := .bundle pid bid } h
      · exact h
      · exact h

theorem issueFirst_wf (s : State) (l : List (Nat × Nat)) (h : Memory.wf s.mem = true) : OutWf (issueFirst s l) := by
  induction l with
  | nil => exact h
  | cons c l ih =>
    have hc := issueBundle_wf s c.1 c.2 h
    cases l with
    | nil => exact hc
    | cons d l =>
      unfold issueFirst
      split
      next t ht => exact outWf_ite ih (hc.of_next ht)
      · exact hc

theorem issueCore_wf (s : State) (core : Nat) (h : Memory.wf s.mem = true) : OutWf (issueCore s core) := by
  have hs := issueFirst_wf s (s.candidates core) h
  unfold issueCore
  split
  next t ht =>
    split
    · exact hs.of_next ht
    next c _ =>
      have hu := issueFirst_wf s (s.candidates c) h
      split
      next u hu' => exact issueFirst_wf u _ (hu.of_next hu')
      · exact hu
  · exact hs

theorem sequenceAt_wf (s : State) (c : SeqCtx) (h : Memory.wf s.mem = true) (hc : Memory.wf c.s.mem = true) :
    OutWf (sequenceAt s c) := by
  unfold sequenceAt
  refine outWf_ite h (outWf_ite (by simpa using hc) (outWf_ite (by simpa using hc) ?_))
  split
  · simp [h]
  · simp [hc]
  · exact hc
  · split
    · simp [h]
    next i _ =>
      refine outWf_ite ?_ (by simp [h])
      have hx := exec_wf i s h
      split
      next t ht => simpa using hx.of_next ht
      · exact hx

theorem sequenceTeam_wf (s : State) (team : Nat) (h : Memory.wf s.mem = true) : OutWf (sequenceTeam s team) := by
  unfold sequenceTeam
  dsimp only
  split
  · exact h
  next c hc => exact sequenceAt_wf { s with actor := .sequencer team } c h (by rw [State.seqCtx?_mem hc]; exact h)

/-! ### What the schedule leaves open (log 2) -/

/-- A meaning keeps memory in its canonical form. -/
def Meaning.Wf (m : Meaning) : Prop := ∀ s : State, Memory.wf s.mem = true → OutWf (m s)

/-- Every meaning of a list keeps memory in its canonical form. -/
def MovesWf (l : List Meaning) : Prop := ∀ m ∈ l, Meaning.Wf m

theorem MovesWf.cons {m : Meaning} {l : List Meaning} (hm : Meaning.Wf m) (hl : MovesWf l) : MovesWf (m :: l) := by
  intro x hx
  rcases List.mem_cons.mp hx with rfl | hx
  · exact hm
  · exact hl x hx

theorem MovesWf.nil : MovesWf [] := fun _ hm => absurd hm List.not_mem_nil

theorem MovesWf.one {m : Meaning} (hm : Meaning.Wf m) : MovesWf [m] := .cons hm .nil

theorem MovesWf.append {a b : List Meaning} (ha : MovesWf a) (hb : MovesWf b) : MovesWf (a ++ b) :=
  fun m hm => (List.mem_append.mp hm).elim (ha m) (hb m)

theorem MovesWf.map {α : Type} {f : α → Meaning} {l : List α} (hf : ∀ a, Meaning.Wf (f a)) : MovesWf (l.map f) := by
  intro m hm
  obtain ⟨a, -, rfl⟩ := List.mem_map.mp hm
  exact hf a

theorem MovesWf.flatMap {α : Type} {f : α → List Meaning} {l : List α} (hf : ∀ a, MovesWf (f a)) :
    MovesWf (l.flatMap f) := by
  intro m hm
  obtain ⟨a, -, ha⟩ := List.mem_flatMap.mp hm
  exact hf a m ha

theorem State.msgMove_wf (s : State) (m : Msg) : MovesWf (s.msgMove m) := by
  unfold State.msgMove
  split
  · exact .one (exec_wf (.ackReceive m.id))
  · split
    · split
      · split
        · exact .one (exec_wf (.ticketFetchComplete _ _ _))
        · exact .one (exec_wf (.ticketService m.id))
      · split
        · exact .one (exec_wf (.ticketFetchComplete _ _ _))
        · exact .one (exec_wf (.ticketService m.id))
      · exact .one (exec_wf (.hostWindowResponse m.id _))
    · split
      · exact .one (exec_wf (.outboxHeadSend m.id))
      · split
        · split
          · exact .one (exec_wf (.arrivalAccept m.id))
          · exact .one (exec_wf (.outboxHeadSend m.id))
        · exact .one (exec_wf (.outboxHeadSend m.id))
        · exact .one (exec_wf (.ticketService m.id))
        · exact .one (exec_wf (.ticketService m.id))
        · exact .one (exec_wf (.msoApply m.id))
        · exact .one (exec_wf (.claimAtHome m.id))
        · exact .one (exec_wf (.claimAtHome m.id))
        · exact .one (exec_wf (.claimConfirm m.id))
        · exact .one (exec_wf (.claimCancel m.id))
        · exact .one (exec_wf (.trelAtHome m.id))
        · exact .one (exec_wf (.barrierArrival m.id))
        · exact .one (exec_wf (.barrierArrival m.id))
        · exact .one (exec_wf (.barrierArrival m.id))
        · exact .one (exec_wf (.stxVersionApply m.id))
        · exact .one (exec_wf (.lineageCountMsg m.id))
        · exact .one (exec_wf (.lineageCountMsg m.id))
        · exact .one (exec_wf (.launchValidate m.id))
        · exact .one (exec_wf (.cancelArrive m.id 0))
        · exact .one (exec_wf (.frameClaim m.id))
        · exact .one (exec_wf (.frameClaimConfirm m.id))
        · exact .one (exec_wf (.frameClaimCancel m.id))
        · exact .one (exec_wf (.ticketValueReturn m.id))
        · exact .one (exec_wf (.claimAnswer m.id))
        · exact .one (exec_wf (.postedOpApply m.id))

theorem partyMoves_wf (pid : Nat) (p : Party) : MovesWf (partyMoves pid p) :=
  .append (.append (.map (fun o => exec_wf (.longOpComplete pid o.id)))
      (.cons (exec_wf (.departRecord pid)) (.cons (exec_wf (.parkWrite pid)) (.one (exec_wf (.stallBlock pid))))))
    (.flatMap (fun b => .cons (exec_wf (.yieldExpiry pid b.id)) (.one (exec_wf (.watchTimeout pid b.id)))))

theorem State.agentMoves_wf (s : State) : MovesWf s.agentMoves := by
  unfold State.agentMoves
  refine .append (.append (.append (.append (.append (.append (.append (.append (.append (.append (.append ?_ ?_) ?_)
      ?_) ?_)
    ?_) ?_) ?_) ?_) ?_) ?_) ?_
  · exact .map (fun e => exec_wf (.seedAccept e.1))
  · exact .flatMap (fun e => .cons (exec_wf (.engineStart e.1)) (.one (exec_wf (.engineComplete e.1))))
  · exact .flatMap (fun e => .append (.append (.map (fun k => exec_wf (.framePrepare e.1 k)))
      (.map (fun k => exec_wf (.framePrepareAnswer e.1 k)))) (.map (fun k => exec_wf (.frameStepApply e.1 k))))
  · exact .flatMap (fun e => .cons (exec_wf (.matrixWordComplete e.1))
      (.cons (exec_wf (.teamSave e.1)) (.one (exec_wf (.teamRetire e.1)))))
  · exact .one (exec_wf .teamPlace)
  · exact .map (fun e => exec_wf (.gridRetire e.2.id))
  · exact .map (fun i => exec_wf (.poisonConsume i))
  · exact .map (fun e => exec_wf (.ticketDeadline (e.1 / 4096) (e.1 % 4096)))
  · exact .flatMap (fun e => .cons (exec_wf (.barwExpiry (.named s.devId (e.1 / 512) (e.1 % 512))))
      (.one (exec_wf (.rejoinExpiry (e.1 / 512) (e.1 % 512)))))
  · exact .flatMap (fun e => .map (fun b => exec_wf (.barwExpiry (.team e.1 b.1))))
  · exact .map (fun k => exec_wf (.stewardResume k))
  · exact .cons (exec_wf .dbgStopDrained) (.one (exec_wf .invalComplete))

theorem State.dueMoves_wf (s : State) : MovesWf s.dueMoves := by
  unfold State.dueMoves
  refine .append (.append (.append (.append (.append ?_ ?_) s.agentMoves_wf) ?_) ?_) ?_
  · exact .flatMap s.msgMove_wf
  · exact .flatMap (fun e => partyMoves_wf e.1 e.2)
  · exact .flatMap (fun c => .cons (exec_wf (.regroupingPass c))
      (.cons (exec_wf (.arrivalAdmit c)) (.one (exec_wf (.activeSetFill c)))))
  · exact .map (fun c s h => issueCore_wf { s with turn := c + 1 } c h)
  · exact .map (fun e s h => sequenceTeam_wf s e.1 h)

theorem firstMove_wf (s : State) {l : List Meaning} (hl : MovesWf l) (h : Memory.wf s.mem = true) :
    OutWf (firstMove s l) := by
  induction l with
  | nil => exact h
  | cons m l ih =>
    have hm := hl m List.mem_cons_self s h
    unfold firstMove
    split
    next t ht => exact outWf_ite (ih fun x hx => hl x (List.mem_cons_of_mem m hx)) (hm.of_next ht)
    · exact hm

theorem freeStep_wf (s : State) (h : Memory.wf s.mem = true) : OutWf (freeStep s) :=
  firstMove_wf _ (s.elapse 1).dueMoves_wf (s.elapse_wf 1 h)

/-! ### The step -/

theorem perform_wf (s : State) (m : Move) (h : Memory.wf s.mem = true) : OutWf (perform s m) := by
  cases m with
  | event i => exact outWf_ite (exec_wf i s h) h
  | issue c => exact issueCore_wf s c h
  | sequence t => exact sequenceTeam_wf s t h
  | pass n => exact s.elapse_wf n h
  | peer r => exact h
  | foreign mctp code => simpa [perform] using h
  | update x => exact h
  | corrected pa => simpa [perform] using h

theorem State.takeSlot_wf (s : State) (w : SlotWait) (h : Memory.wf s.mem = true) :
    Memory.wf (s.takeSlot w).mem = true := by
  unfold State.takeSlot
  split
  · split
    · exact h
    · split
      · simpa using h
      · exact h
  · split
    · exact h
    next p _ =>
    split
    · exact h
    next b _ =>
    split
    · exact ite_wf (by simpa using h) (s.raise_wf _ _ _ _ _ h)
    · split
      next c _ =>
        dsimp only
        have hx (q : Party) := issueBundle_wf (s.setParty w.pid q) w.pid w.bid h
        split
        next t ht =>
          have ht := (hx _).of_next ht
          refine ite_wf (by simpa using h) ?_
          split
          · exact ite_wf ht ht
          · exact ht
        · simpa using h
      · simpa using h

theorem giveSlots_wf (n : Nat) (s : State) (h : Memory.wf s.mem = true) : Memory.wf (giveSlots n s).mem = true := by
  induction n generalizing s with
  | zero => exact h
  | succ n ih =>
    unfold giveSlots
    split
    · exact h
    next w _ => exact ih _ (s.takeSlot_wf w h)

theorem State.giveSlots_wf (s : State) (h : Memory.wf s.mem = true) : Memory.wf s.giveSlots.mem = true :=
  Machine.giveSlots_wf s.slotWaits.length s h

theorem State.follow_wf (s old : State) (h : Memory.wf s.mem = true) : Memory.wf (s.follow old).mem = true := by
  have hw := State.wake_wf s.giveSlots.stopIdle.recheck (by simpa using s.giveSlots_wf h)
  simpa [State.follow] using hw

theorem settle_wf (old : State) {r : Outcome State Fault Refusal} (hr : OutWf r) : OutWf (settle old r) := by
  cases r with
  | next t => exact t.follow_wf old hr
  | fault f => trivial
  | refused x => exact hr

theorem step_wf (s : State) (h : Memory.wf s.mem = true) : OutWf (step s) := by
  unfold step
  dsimp only
  split
  · exact settle_wf s (freeStep_wf { s with steps := s.steps + 1 } h)
  · exact settle_wf s (perform_wf { s with steps := s.steps + 1, schedule := _ } _ h)

end Sys2Proof.Machine

namespace Sys2Proof.Proofs

open Sys2Proof Sys2Proof.Machine Sys2Proof.Safety

/-- Settles O29: `step_wf`, the last of the lemmas that follow the model from the parts of a step up to the step. -/
theorem stepKeepsMemoryForm : Obligations.StepKeepsMemoryForm := fun s _ h ht => (step_wf s h).of_next ht

end Sys2Proof.Proofs

/-! # Boot, SPDM, telemetry and the fabric (R115, R116, R349 to R373, R375 to R380)

A boot is followed through its moves, one for each attempt. The answers and the events of a link are read off their definitions,
clause by clause. -/

namespace Sys2Proof.Machine

open Host Sys2Proof.Safety

/-! ## What the boot steps leave alone -/

/-- What no step of a boot touches that keeps its power: memory, the parties and the slices retired by the operator. -/
def State.bootBase (s : State) : List Host.Cell × Map Party × Map (BitVec 32) := (s.mem, s.parties, s.boot.retire)

theorem State.setStk_bootBase (s : State) (k : Nat) (x : Stack) : (s.setStk k x).bootBase = s.bootBase := rfl

theorem State.setCore_bootBase (s : State) (c : Nat) (x : Core) : (s.setCore c x).bootBase = s.bootBase := rfl

theorem State.markAbsent_bootBase (s : State) (k : Nat) (m : BitVec 32) : (s.markAbsent k m).bootBase = s.bootBase := rfl

theorem State.markDead_bootBase (s : State) (k : Nat) (m : BitVec 32) : (s.markDead k m).bootBase = s.bootBase := by
  rw [State.markDead, foldl_leaves State.bootBase fun t i => t.setCore_bootBase _ _, s.markAbsent_bootBase]

theorem State.setBootEnt_bootBase (s : State) (n : Nat) (e : BootEnt) : (s.setBootEnt n e).bootBase = s.bootBase := by
  unfold State.setBootEnt
  dsimp only
  split <;> rfl

theorem State.stepDone_bootBase (s : State) (n : Nat) (m : Option Nat) (inp : BootInput) :
    (s.stepDone n m inp).bootBase = s.bootBase := by
  unfold State.stepDone
  split
  · split <;> rfl
  · split
    · rfl
    · exact foldl_leaves State.bootBase (fun t k => t.setStk_bootBase k _) _ s
  all_goals rfl

theorem State.skipStep_bootBase (s : State) (n : Nat) (inp : BootInput) : (s.skipStep n inp).bootBase = s.bootBase := by
  rw [State.skipStep, State.stepDone_bootBase, State.setBootEnt_bootBase]

theorem State.stepWork_bootBase (s : State) (n m : Nat) (inp : BootInput) : (s.stepWork n m inp).bootBase = s.bootBase := by
  have hretired : ((List.range 16).foldl (fun s k => s.markAbsent k (Map.getD s.boot.retire k 0)) s).bootBase = s.bootBase :=
    foldl_leaves State.bootBase (fun t k => t.markAbsent_bootBase k _) _ s
  unfold State.stepWork
  dsimp only
  split
  · split
    · rw [foldl_leaves State.bootBase fun t e => t.markAbsent_bootBase _ _, hretired]
    · exact hretired
  · split
    · exact foldl_leaves State.bootBase (fun t e => t.markDead_bootBase _ _) _ s
    · rfl

/-- The state in which an attempt at a step with a method is judged: its work is done, and where the boot stands is written
down. -/
def State.attempt (s : State) (n m : Nat) (inp : BootInput) : State :=
  { s.stepWork n m inp with boot := { s.boot with step := n, method := m, waiting := false } }

theorem State.attempt_bootBase (s : State) (n m : Nat) (inp : BootInput) : (s.attempt n m inp).bootBase = s.bootBase := by
  have hmem : (s.stepWork n m inp).mem = s.mem := congrArg (·.1) (s.stepWork_bootBase n m inp)
  have hpar : (s.stepWork n m inp).parties = s.parties := congrArg (·.2.1) (s.stepWork_bootBase n m inp)
  simp only [State.bootBase, State.attempt, hmem, hpar]

theorem State.toRecovery_bootBase (s : State) (n : Nat) : (s.toRecovery n).bootBase = s.bootBase := rfl

/-! ## The moves of a boot -/

/-- What an attempt of a boot that keeps its power comes to (R349 to R354): the boot is over, goes on at the next step after a
skip, a pass or the failure of an optional step, tries the next alternate, stops for the host, or fails. -/
inductive BootMove (f : Nat) (s : State) (n : Nat) (given : Option Nat) (inp : BootInput) : State → Prop
  | served (h : 10 < n) : BootMove f s n given inp { s with mode := 0, boot := { s.boot with step := 10, waiting := false } }
  | skipped (h : n ≤ 10) (pass : List Bool) : BootMove f s n given inp (bootFrom f (s.skipStep n inp) (n + 1) none pass inp)
  | done (h : n ≤ 10) (m : Nat) (e : BootEnt) (k : Option Nat) (pass : List Bool) : BootMove f s n given inp
      (bootFrom f (((s.attempt n m inp).setBootEnt n e).stepDone n k inp) (n + 1) none pass inp)
  | again (h : n ≤ 10) (m : Nat) (pass : List Bool) (hm : given.getD 0 ≤ m) (ha : m < stepAlternates n) :
      BootMove f s n given inp (bootFrom f (s.attempt n m inp) n (some (m + 1)) pass inp)
  | stopped (m : Nat) (e : BootEnt) : BootMove f s n given inp { (s.attempt n m inp).setBootEnt n e with
      boot := { ((s.attempt n m inp).setBootEnt n e).boot with waiting := true } }
  | failed (m : Nat) (e : BootEnt) : BootMove f s n given inp (((s.attempt n m inp).setBootEnt n e).toRecovery n)

theorem bootFrom_move {inp : BootInput} (hp : inp.lost = 0) (f : Nat) (s : State) (n : Nat) (given : Option Nat)
    (pass : List Bool) : BootMove f s n given inp (bootFrom (f + 1) s n given pass inp) := by
  unfold bootFrom
  split
  next hn => exact .served hn
  next hn =>
    have hn : n ≤ 10 := Nat.not_lt.mp hn
    split
    next hlost => exact absurd (hp ▸ hlost.1).symm hlost.2
    · extract_lets e held m ok rest s1 plain s2 fails s3
      have hm : given.getD 0 ≤ m := by
        cases given with
        | none => exact Nat.zero_le _
        | some k => exact Nat.le_refl k
      split
      · exact .skipped hn _
      · split
        · exact .done hn m _ (some m) _
        · split
          next ha => exact .again hn m _ hm (of_decide_eq_true (Bool.and_eq_true_iff.mp ha).2)
          · split
            · exact .stopped m _
            · split
              · exact .done hn m _ none _
              · exact .failed m _

/-- A boot that keeps its power leaves memory, the parties and the retired slices alone. -/
theorem bootFrom_bootBase {inp : BootInput} (hp : inp.lost = 0) (f : Nat) (s : State) (n : Nat) (given : Option Nat)
    (pass : List Bool) : (bootFrom f s n given pass inp).bootBase = s.bootBase := by
  induction f generalizing s n given pass with
  | zero => rfl
  | succ f ih =>
    have hmove := bootFrom_move hp f s n given pass
    generalize bootFrom (f + 1) s n given pass inp = t at hmove
    cases hmove with
    | served => rfl
    | skipped => rw [ih, s.skipStep_bootBase]
    | done => rw [ih, State.stepDone_bootBase, State.setBootEnt_bootBase, State.attempt_bootBase]
    | again => rw [ih, State.attempt_bootBase]
    | stopped => exact (State.setBootEnt_bootBase _ _ _).trans (s.attempt_bootBase _ _ inp)
    | failed => rw [State.toRecovery_bootBase, State.setBootEnt_bootBase, State.attempt_bootBase]

/-! ## How a boot ends -/

/-- A boot is over: SERVICE, RECOVERY, or a stop for the host. -/
def State.BootOver (s : State) : Prop := s.mode = 0 ∨ s.mode = 3 ∨ s.boot.waiting = true

theorem stepAlternates_le (n : Nat) : stepAlternates n ≤ 2 := by
  unfold stepAlternates
  split <;> decide

/-- Three attempts for each step that is left suffice: no step has more than two alternates (R351). -/
theorem bootFrom_over {inp : BootInput} (hp : inp.lost = 0) (f : Nat) (s : State) (n : Nat) (given : Option Nat)
    (pass : List Bool) (hf : 3 * (11 - n) - min (given.getD 0) 2 < f) : (bootFrom f s n given pass inp).BootOver := by
  induction f generalizing s n given pass with
  | zero => omega
  | succ f ih =>
    have hnext (hn : n ≤ 10) : 3 * (11 - (n + 1)) - min ((none : Option Nat).getD 0) 2 < f := by
      rw [Option.getD_none]
      omega
    have halt := stepAlternates_le n
    have hmove := bootFrom_move hp f s n given pass
    generalize bootFrom (f + 1) s n given pass inp = t at hmove
    cases hmove with
    | served => exact .inl rfl
    | skipped hn => exact ih _ _ _ _ (hnext hn)
    | done hn => exact ih _ _ _ _ (hnext hn)
    | again hn m _ hm ha =>
      refine ih _ _ _ _ ?_
      rw [Option.getD_some]
      omega
    | stopped => exact .inr (.inr rfl)
    | failed => exact .inr (.inl rfl)

/-! ## A boot in which every attempt passes -/

/-- The entry of a step that passes with its first method (R350). -/
def BootEnt.passed : BootEnt := { result := 1, method := 0, fails := 0, skips := 0 }

/-- A boot in hardware mode stands before step `n`, the steps before it have passed, but perhaps that of the telemetry, and the
record holds nothing of the others. -/
structure CleanAt (s : State) (n : Nat) : Prop where
  auto   : s.boot.booted = false
  image  : s.imageOk 0 = true
  sorted : Map.sorted s.boot.ents = true
  passed : ∀ j, 1 ≤ j → j < n → j ≠ 9 → s.bootEnt j = BootEnt.passed
  blank  : ∀ j, n ≤ j → s.bootEnt j = BootEnt.init

theorem State.setBootEnt_boot (s : State) (n : Nat) (e : BootEnt) :
    (s.setBootEnt n e).boot = { s.boot with ents := Map.put s.boot.ents n e BootEnt.init } := by
  unfold State.setBootEnt
  dsimp only
  split <;> rfl

/-- What follows a step may choose the slot of the image, and nothing else of the boot's state (R355). -/
theorem State.stepDone_boot (s : State) (n : Nat) (m : Option Nat) (inp : BootInput) :
    ∃ v, (s.stepDone n m inp).boot = { s.boot with slot := v } := by
  refine ⟨(s.stepDone n m inp).boot.slot, ?_⟩
  unfold State.stepDone
  split
  · split <;> rfl
  · split
    · rfl
    · rw [foldl_leaves State.boot fun t k => t.setStk_boot k _]
  all_goals rfl

/-- A step leaves the next one before a clean boot when its entry says that it passed, or it is that of the telemetry. -/
theorem CleanAt.next {s : State} {n : Nat} (hc : CleanAt s n) {x : BootEnt} (hx : n ≠ 9 → x = BootEnt.passed) (k : Option Nat)
    (inp : BootInput) : CleanAt (((s.attempt n 0 inp).setBootEnt n x).stepDone n k inp) (n + 1) := by
  obtain ⟨hauto, himage, hsorted, hpassed, hblank⟩ := hc
  obtain ⟨v, hv⟩ := ((s.attempt n 0 inp).setBootEnt n x).stepDone_boot n k inp
  rw [State.setBootEnt_boot] at hv
  have hent (j : Nat) :
      (((s.attempt n 0 inp).setBootEnt n x).stepDone n k inp).bootEnt j = if j = n then x else s.bootEnt j := by
    rw [State.bootEnt, hv]
    exact Map.getD_put s.boot.ents n j x BootEnt.init hsorted
  refine ⟨by rw [hv]; exact hauto, by rw [State.imageOk, hv]; exact himage, ?_, fun j h1 hj h9 => ?_, fun j hj => ?_⟩
  · rw [hv]
    exact Map.sorted_put hsorted n x BootEnt.init
  · rw [hent]
    split
    next hjn => exact hx (hjn ▸ h9)
    next hjn => exact hpassed j h1 (by omega) h9
  · rw [hent, if_neg (by omega)]
    exact hblank j (by omega)

/-- In a clean boot each step is tried once, with its first method, and the boot goes on (R349, R351). -/
theorem bootFrom_clean_step {inp : BootInput} (hp : inp.lost = 0) (f : Nat) {s : State} {n : Nat} (hc : CleanAt s n)
    (hn : n ≤ 10) : ∃ t, CleanAt t (n + 1) ∧ bootFrom (f + 1) s n none [] inp = bootFrom f t (n + 1) none [] inp := by
  have hlost : ¬(inp.lost = n ∧ n ≠ 0) := fun h => h.2 (h.1.symm.trans hp)
  generalize hr : bootFrom (f + 1) s n none [] inp = r
  rw [bootFrom, if_neg (Nat.not_lt.mpr hn), if_neg hlost] at hr
  extract_lets e held m ok rest work boot s1 plain s2 fails s3 at hr
  have he : e = BootEnt.init := hc.blank n (Nat.le_refl n)
  have hheld : held = false := by simp [held, hc.auto]
  have hm : m = 0 := by simp [m, hheld, he, BootEnt.first, BootEnt.init]
  have hs1 : s1 = s.attempt n 0 inp := congrArg (s.attempt n · inp) hm
  have hs2 : s2 = s1.setBootEnt n BootEnt.passed := by simp [s2, plain, hm, BootEnt.passed]
  have hrest : rest = [] := ite_self _
  rw [if_neg (by simp [he, BootEnt.init])] at hr
  by_cases hok : ok = true
  · refine ⟨_, hc.next (fun _ => rfl) (some 0) inp, ?_⟩
    rw [← hr, if_pos hok, hs2, hs1, hm, hrest]
  · have h9 : n = 9 := by
      by_contra h9
      exact hok (by simp [ok, h9, hm, hc.image])
    refine ⟨_, hc.next (x := { result := 2, method := m, fails := fails, skips := 0 }) (fun h => absurd h9 h) none inp, ?_⟩
    rw [← hr, if_neg hok, if_neg (by simp [h9, stepAlternates]), if_neg (by simp [hheld]), if_pos (by simp [h9, stepOptional]),
      hrest, ← hs1]

/-- A clean boot ends in SERVICE with its record (R349, R350). -/
theorem bootFrom_clean {inp : BootInput} (hp : inp.lost = 0) (f : Nat) (s : State) (n : Nat) (hc : CleanAt s n) (hn : n ≤ 11)
    (hf : 11 - n < f) : (bootFrom f s n none [] inp).mode = 0 ∧ (bootFrom f s n none [] inp).boot.step = 10 ∧
      (bootFrom f s n none [] inp).boot.waiting = false ∧
      ∀ j, 1 ≤ j → j ≤ 10 → j ≠ 9 → (bootFrom f s n none [] inp).bootEnt j = BootEnt.passed := by
  induction f generalizing s n with
  | zero => omega
  | succ f ih =>
    by_cases h10 : n ≤ 10
    · obtain ⟨t, ht, heq⟩ := bootFrom_clean_step hp f hc h10
      rw [heq]
      exact ih t (n + 1) ht (by omega) (by omega)
    · rw [bootFrom, if_pos (Nat.lt_of_not_le h10)]
      exact ⟨rfl, rfl, rfl, fun j h1 hj h9 => hc.passed j h1 (by omega) h9⟩

/-! ## Power and the host's answers to a stopped boot (R115, R116, R352, R377) -/

theorem State.bootBase_eq {s t : State} (h : t.bootBase = s.bootBase) :
    t.mem = s.mem ∧ t.parties = s.parties ∧ t.boot.retire = s.boot.retire := by
  simpa [State.bootBase] using h

theorem exec_powerLoss (s : State) : exec .powerLoss s = .next s.cold := rfl

/-- Counts that have been taken up are not taken up again (R377). -/
theorem Telemetry.restore_of_restored {t : Telemetry} (h : t.restored = true) (m : Map Nat) : t.restore m = t := by
  rw [Telemetry.restore, if_pos h]

theorem exec_orderlyPowerDown_flash {s : State} (h : s.tel.restored = true) :
    ∃ t, exec .orderlyPowerDown s = .next t ∧ t.mem = [] ∧ t.tel.flash = (s.tel.live :: s.tel.flash).take 2 := by
  refine ⟨s.saveTel.cold, rfl, rfl, ?_⟩
  rw [State.saveTel, Telemetry.restore_of_restored h]
  rfl

/-- The state in which a boot after power-on begins: only what is in flash remains, and the boot is the host's where the last one
was (R116, R349). -/
def State.powered (s : State) : State := { s.cold with boot := { s.cold.boot with booted := s.cold.boot.host } }

theorem exec_powerOn (inp : BootInput) (s : State) :
    exec (.powerOn inp) s = .next (bootFrom 64 s.powered 1 none inp.pass inp) := rfl

theorem exec_powerOn_over {inp : BootInput} (hp : inp.lost = 0) (s : State) :
    ∃ t, exec (.powerOn inp) s = .next t ∧ t.mem = [] ∧ t.parties = [] ∧ t.boot.retire = s.boot.retire ∧ t.BootOver := by
  obtain ⟨hmem, hpar, hret⟩ := State.bootBase_eq (bootFrom_bootBase hp 64 s.powered 1 none inp.pass)
  exact ⟨_, exec_powerOn inp s, hmem, hpar, hret, bootFrom_over hp 64 s.powered 1 none inp.pass (by decide)⟩

/-- Power lost during the first step leaves what power lost at any time leaves (R116). -/
theorem exec_powerOn_lost {inp : BootInput} (hp : inp.lost = 1) (s : State) : exec (.powerOn inp) s = exec .powerLoss s := by
  rw [exec_powerOn, bootFrom, if_neg (by decide), if_pos ⟨hp, by decide⟩]
  rfl

theorem cleanAt_powered {s : State} (hents : s.boot.ents = []) (hhost : s.boot.host = false) (himg : s.imageOk 0 = true) :
    CleanAt s.powered 1 := by
  have hent (j : Nat) : s.powered.bootEnt j = BootEnt.init := by
    show Map.getD s.boot.ents j BootEnt.init = BootEnt.init
    rw [hents]
    rfl
  refine ⟨hhost, himg, ?_, fun j h1 hj => absurd h1 (by omega), fun j _ => hent j⟩
  show Map.sorted s.boot.ents = true
  rw [hents]
  rfl

theorem exec_powerOn_clean {s : State} {inp : BootInput} (hents : s.boot.ents = []) (hhost : s.boot.host = false)
    (hpass : inp.pass = []) (hp : inp.lost = 0) (himg : s.imageOk 0 = true) :
    ∃ t, exec (.powerOn inp) s = .next t ∧ t.mode = 0 ∧ t.boot.step = 10 ∧ t.boot.waiting = false ∧
      ∀ n ∈ [1, 2, 3, 4, 5, 6, 7, 8, 10], t.bootEnt n = { result := 1, method := 0, fails := 0, skips := 0 } := by
  obtain ⟨hmode, hstep, hwait, hents⟩ :=
    bootFrom_clean hp 64 s.powered 1 (cleanAt_powered hents hhost himg) (by decide) (by decide)
  refine ⟨_, by rw [exec_powerOn, hpass], hmode, hstep, hwait, fun n hn => ?_⟩
  have hrange : 1 ≤ n ∧ n ≤ 10 ∧ n ≠ 9 := by
    simp only [List.mem_cons, List.not_mem_nil, or_false] at hn
    omega
  exact hents n hrange.1 hrange.2.1 hrange.2.2

/-- A stopped boot waits for its host only while no launch is resident (R115; log 121). -/
theorem State.bootWaits_of_grid {s : State} (h : s.grids ≠ []) : s.bootWaits = false := by
  simp [State.bootWaits, h]

theorem State.bootWaits_of_idle {s : State} (hw : s.boot.waiting = true) (hg : s.grids = []) : s.bootWaits = true := by
  simp [State.bootWaits, hw, hg]

theorem exec_boot_held {s : State} (h : s.bootWaits = false) (inp : BootInput) :
    ∀ i ∈ [Instr.bootRetry inp, .bootNextAlternate inp, .bootSkip inp, .bootEnterRecovery], exec i s = .next s := by
  have hnot : (!s.bootWaits) = true := by rw [h]; rfl
  simp only [List.forall_mem_cons]
  exact ⟨if_pos hnot, if_pos hnot, if_pos hnot, if_pos hnot, fun _ hi => absurd hi List.not_mem_nil⟩

/-- A boot that the host resumes leaves memory alone and ends. -/
theorem bootFrom_resumed {inp : BootInput} (hp : inp.lost = 0) (s : State) (n : Nat) (given : Option Nat) :
    (bootFrom 64 s n given inp.pass inp).mem = s.mem ∧ (bootFrom 64 s n given inp.pass inp).BootOver :=
  ⟨(State.bootBase_eq (bootFrom_bootBase hp 64 s n given inp.pass)).1, bootFrom_over hp 64 s n given inp.pass (by omega)⟩

section

variable {s : State} (hw : s.bootWaits = true) (inp : BootInput)

include hw

theorem State.bootWaits_not : ¬(!s.bootWaits) = true := by
  rw [hw]
  decide

theorem exec_bootRetry : exec (.bootRetry inp) s = .next (bootFrom 64 s s.boot.step (some s.boot.method) inp.pass inp) :=
  if_neg (State.bootWaits_not hw)

theorem exec_bootEnterRecovery : exec .bootEnterRecovery s = .next (s.toRecovery s.boot.step) :=
  if_neg (State.bootWaits_not hw)

theorem exec_bootSkip_required (h : stepOptional s.boot.step = false) :
    exec (.bootSkip inp) s = .next (s.toRecovery s.boot.step) :=
  (if_neg (State.bootWaits_not hw)).trans (if_pos (by rw [h]; rfl))

theorem exec_bootSkip_optional (h : stepOptional s.boot.step = true) : exec (.bootSkip inp) s =
    .next (bootFrom 64 (s.skipStep s.boot.step inp) (s.boot.step + 1) none inp.pass inp) :=
  (if_neg (State.bootWaits_not hw)).trans (if_neg (by rw [h]; decide))

theorem exec_bootNextAlternate_none (h : stepAlternates s.boot.step ≤ s.boot.method) :
    exec (.bootNextAlternate inp) s = .next (s.toRecovery s.boot.step) :=
  (if_neg (State.bootWaits_not hw)).trans (if_pos h)

theorem exec_bootNextAlternate_some (h : s.boot.method < stepAlternates s.boot.step) : exec (.bootNextAlternate inp) s =
    .next (bootFrom 64 s s.boot.step (some (s.boot.method + 1)) inp.pass inp) :=
  (if_neg (State.bootWaits_not hw)).trans (if_neg (Nat.not_le.mpr h))

end

/-- Entering RECOVERY takes the links out of service and ends the wait for the host (R352; log 150). -/
theorem State.toRecovery_here (s : State) : s.toRecovery s.boot.step =
    { s with mode := 3, boot := { s.boot with waiting := false }, fab := (s.setLinks 0 allPorts (Link.boot 0 none)).fab } := rfl

/-! ## The answers of SPDM and PLDM (R353, R356, R357, R375 to R380) -/

theorem exec_getCapabilities_agreed {s : State} (h : s.boot.peer.version = 0x13) :
    exec .getCapabilities s = .next (s.spdm 0x61 [0x16]) := if_neg (not_not.mpr h)

theorem exec_getCapabilities_unknown {s : State} (h : s.boot.peer.version ≠ 0x13) :
    exec .getCapabilities s = .next (s.spdm 0x7F [0x41]) := if_pos h

theorem exec_negotiateAlgorithms_agreed {s : State} (h : s.boot.peer.version = 0x13) :
    exec .negotiateAlgorithms s = .next (s.spdm 0x63 [s.boot.peer.asym &&& 0x400, s.boot.peer.hash &&& 4]) :=
  if_neg (not_not.mpr h)

theorem exec_negotiateAlgorithms_unknown {s : State} (h : s.boot.peer.version ≠ 0x13) :
    exec .negotiateAlgorithms s = .next (s.spdm 0x7F [0x41]) := if_pos h

theorem exec_getCertificate_slot0 (s : State) (off len : Nat) :
    exec (.getCertificate 0 off len) s = .next (s.spdm 2 (0 :: fixedBytes off (len % 65536))) := rfl

theorem exec_challenge_slot0 (s : State) :
    exec (.challenge 0) s = .next (s.spdmSigned 3 (0 :: fixedBytes (2 ^ 40) 64)) := rfl

theorem exec_challenge_other {slot : Nat} (h : slot ≠ 0) (s : State) :
    exec (.challenge slot) s = .next (s.spdm 0x7F [1]) := if_pos h

theorem exec_getMeasurements_count (s : State) : exec (.getMeasurements 0) s = .next (s.spdmSigned 0x60 [4]) := rfl

theorem exec_getMeasurements_one {idx : Nat} (h1 : 1 ≤ idx) (h4 : idx ≤ 4) (s : State) :
    exec (.getMeasurements idx) s = .next (s.spdmSigned 0x60 (idx :: s.measurement idx)) :=
  (if_neg (Nat.one_le_iff_ne_zero.mp h1)).trans (if_pos h4)

/-- Bytes of the snapshot that the requester names (R379). -/
theorem exec_readSnapshot_held {s : State} {id ns : Nat} {m : Map Nat} (h : s.tel.snap = some (id, ns, m)) (off len : Nat) :
    exec (.readSnapshot id off len) s = .next (s.pldm 2 (0 :: (List.range (min (min len 1024) (snapLen - off))).map (fun i =>
      snapByte m telIds (off + i)))) := by
  show execReadSnapshot id off len s = _
  rw [execReadSnapshot, h]
  exact if_pos rfl

theorem exec_readSnapshot_other {s : State} {id : Nat} (h : ∀ ns m, s.tel.snap ≠ some (id, ns, m)) (off len : Nat) :
    exec (.readSnapshot id off len) s = .next (s.pldm 2 [0x80]) := by
  show execReadSnapshot id off len s = _
  unfold execReadSnapshot
  split
  next k ns m hsnap => exact if_neg fun hk : k = id => h ns m (hk ▸ hsnap)
  · rfl

theorem exec_clearBootRecord_idle {s : State} (h : s.boot.waiting = false) : exec .clearBootRecord s =
    .next ({ s with boot := { s.boot with ents := [] } }.pldm 3 [0]) := if_neg (by rw [h]; decide)

theorem exec_clearBootRecord_waiting {s : State} (h : s.boot.waiting = true) :
    exec .clearBootRecord s = .next (s.pldm 3 [0x82]) := if_pos h

theorem exec_setPowerLimit_inRange {w : Nat} (h1 : 1500 ≤ w) (h2 : w ≤ 3200) (s : State) : exec (.setPowerLimit w) s =
    .next ({ s with regs := { s.regs with powerLimit := w } }.pldm 4 [0]) := if_neg (by omega)

theorem exec_setPowerLimit_outOfRange {w : Nat} (h : w < 1500 ∨ 3200 < w) (s : State) :
    exec (.setPowerLimit w) s = .next (s.pldm 4 [0x81]) := if_pos h

theorem exec_setSliceRetire_some {k : Nat} {mask : BitVec 32} (hk : k < 16) (hm : mask ≠ 0xFFFFFFFF) (s : State) :
    exec (.setSliceRetire k mask) s =
      .next ({ s with boot := { s.boot with retire := Map.put s.boot.retire k mask 0 } }.pldm 5 [0]) :=
  (if_neg (Nat.not_le.mpr hk)).trans (if_neg hm)

theorem exec_setSliceRetire_all {k : Nat} {mask : BitVec 32} (hk : k < 16) (hm : mask = 0xFFFFFFFF) (s : State) :
    exec (.setSliceRetire k mask) s = .next (s.pldm 5 [0x83]) :=
  (if_neg (Nat.not_le.mpr hk)).trans (if_pos hm)

/-- The counts of an item are read by its number and place; item 8 has one for each port (R375, R378). -/
theorem exec_sensorRead_port {n : Nat} (hn : n < 1055) (s : State) :
    exec (.sensorRead (8 * 4096 + n)) s = .next (s.pldm 0x11 [0, Map.getD s.tel.live (telKey 8 n 32) 0]) := by
  have hitem : (8 * 4096 + n) / 4096 = 8 := by omega
  have hinst : (8 * 4096 + n) % 4096 = n := by omega
  show execSensorRead (8 * 4096 + n) s = _
  rw [execSensorRead, hitem, hinst]
  exact if_pos (by simpa [telItem] using hn)

theorem Telemetry.restore_flash (t : Telemetry) (m : Map Nat) : (t.restore m).flash = t.flash := by
  unfold Telemetry.restore
  dsimp only
  split <;> rfl

theorem State.saveTel_eq (s : State) : s.saveTel = { s with tel := { s.tel.restore (s.tel.flash.headD []) with
    flash := ((s.tel.restore (s.tel.flash.headD [])).live :: s.tel.flash).take 2, savedAt := s.ns } } := by
  rw [State.saveTel, Telemetry.restore_flash]

theorem exec_telemetrySave_due {s : State} (h : s.tel.savedAt + 600000000000 ≤ s.ns) :
    exec .telemetrySave s = .next s.saveTel := if_neg (Nat.not_lt.mpr h)

/-! ## Links (R361, R364, R365, R367 to R372) -/

theorem State.link_setLink {s : State} (hs : Map.sorted s.fab.links = true) (p q : Nat) (x : Link) :
    (s.setLink p x).link q = if q = p then x else s.link q := Map.getD_put s.fab.links p q x Link.init hs

theorem State.link_setLink_self {s : State} (hs : Map.sorted s.fab.links = true) (p : Nat) (x : Link) :
    (s.setLink p x).link p = x := by rw [State.link_setLink hs, if_pos rfl]

theorem State.setLink_sorted {s : State} (hs : Map.sorted s.fab.links = true) (p : Nat) (x : Link) :
    Map.sorted (s.setLink p x).fab.links = true := Map.sorted_put hs p x Link.init

/-- A port of R362 whose link is in the state that an event of the link asks for. -/
theorem acts_in_state {port : Nat} {x : Link} {st : LinkSt} (hport : port < 1055) (hst : x.st = st) :
    ¬(allPorts ≤ port ∨ x.st ≠ st) := by
  rw [not_or, not_not]
  exact ⟨Nat.not_le.mpr hport, hst⟩

/-! ### Frames that arrive (R369, R370) -/

section

variable {s : State} {port : Nat} {fr : LinkFrame} (hport : port < 1055) (hup : (s.link port).st = .up)

include hport hup

theorem exec_linkFrameReceive_damaged (hcrc : fr.crcOk = false) :
    exec (.linkFrameReceive port fr) s = .next (s.setLink port { s.link port with nak := true }) :=
  (if_neg (acts_in_state hport hup)).trans (if_pos (by rw [hcrc]; rfl))

/-- The link after a frame that is intact and next in order. -/
def Link.accepted (x : Link) (fr : LinkFrame) : Link :=
  { x.acknowledge fr with
    acc := fr.fseq, nak := false, inq := x.inq ++ fr.whole,
    credits := fr.credits.foldl (fun m e => Map.put m e.1 (Map.getD m e.1 0 - e.2) 0) x.credits }

theorem exec_linkFrameReceive_next (hcrc : fr.crcOk = true) (hseq : fr.fseq = ((s.link port).acc + 1) % 65536) :
    exec (.linkFrameReceive port fr) s =
      .next ((s.sample port fr.time).setLink port ((s.link port).accepted fr)) :=
  ((if_neg (acts_in_state hport hup)).trans (if_neg (by rw [hcrc]; decide))).trans (if_pos hseq)

theorem exec_linkFrameReceive_later (hcrc : fr.crcOk = true) (hseq : fr.fseq = ((s.link port).acc + 2) % 65536) :
    exec (.linkFrameReceive port fr) s =
      .next ((s.sample port fr.time).setLink port { (s.link port).acknowledge fr with nak := true }) := by
  have hgap : (((s.link port).acc + 1) % 65536 + 65536 - fr.fseq % 65536) % 65536 = 65535 := by omega
  refine ((if_neg (acts_in_state hport hup)).trans (if_neg (by rw [hcrc]; decide))).trans
    ((if_neg ?_).trans (if_neg ?_))
  · show ¬fr.fseq = ((s.link port).acc + 1) % 65536
    omega
  · show ¬(((s.link port).acc + 1) % 65536 + 65536 - fr.fseq % 65536) % 65536 ≤ 32768
    rw [hgap]
    decide

end

/-- Sampling the far end's time moves nothing but the slew (R361). -/
theorem State.sample_eq (s : State) (port : Nat) (time : BitVec 32) :
    ∃ v, s.sample port time = { s with fab := { s.fab with slew := v } } := by
  unfold State.sample
  split
  · exact ⟨s.fab.slew, rfl⟩
  · exact ⟨_, rfl⟩

/-- A link that a frame has changed is read back, the others as they were. -/
theorem State.link_sample_setLink {s : State} (hs : Map.sorted s.fab.links = true) (port : Nat) (time : BitVec 32) (x : Link)
    (q : Nat) : ((s.sample port time).setLink port x).link q = if q = port then x else s.link q := by
  obtain ⟨v, hv⟩ := s.sample_eq port time
  rw [hv]
  exact State.link_setLink (s := { s with fab := { s.fab with slew := v } }) hs port q x

theorem State.sample_setLink_outside (s : State) (port : Nat) (time : BitVec 32) (x : Link) :
    { (s.sample port time).setLink port x with fab := s.fab } = s := by
  obtain ⟨v, hv⟩ := s.sample_eq port time
  rw [hv]
  rfl

/-! ### Frames that leave (R361, R367, R370) -/

theorem nextFlit_lt {spent : Map Nat} {l : List OutPkt} {seen : List Nat} {i k : Nat}
    (h : nextFlit spent l seen i = some k) : k < i + l.length := by
  induction l generalizing seen i with
  | nil => cases h
  | cons o l ih =>
    unfold nextFlit at h
    dsimp only at h
    split at h
    · cases h
      simp
    · have := ih h
      rw [List.length_cons]
      omega

/-- A frame has as many flits as it is to have, empty ones where no packet may go (R367). -/
theorem takeFlits_length (n : Nat) (spent : Map Nat) (out : List OutPkt) : (takeFlits n spent out).1.length = n := by
  induction n generalizing spent out with
  | zero => rfl
  | succ n ih =>
    unfold takeFlits
    split
    · exact congrArg (· + 1) (ih spent out)
    next i hi =>
      have hlt : i < out.length := by simpa using nextFlit_lt hi
      rw [List.getElem?_eq_getElem hlt]
      exact congrArg (· + 1) (ih _ _)

/-- The buffers that a frame's packets leave, given back where they came from. -/
theorem State.giveBack_fab (s : State) (hs : Map.sorted s.fab.links = true) (p c n : Nat) :
    Map.sorted (s.giveBack p c n).fab.links = true ∧ (s.giveBack p c n).out = s.out ∧
      ∀ q, ∃ b, (s.giveBack p c n).link q = { s.link q with back := b } := by
  unfold State.giveBack
  split
  · exact ⟨hs, rfl, fun q => ⟨(s.link q).back, rfl⟩⟩
  · refine ⟨State.setLink_sorted hs _ _, rfl, fun q => ?_⟩
    dsimp only
    rw [State.link_setLink hs]
    split
    next hq =>
      rw [hq]
      exact ⟨_, rfl⟩
    · exact ⟨_, rfl⟩

theorem State.giveBacks_fab (l : List (Nat × Nat)) (s : State) (hs : Map.sorted s.fab.links = true) :
    let t := l.foldl (fun s e => s.giveBack e.1 e.2 1) s
    Map.sorted t.fab.links = true ∧ t.out = s.out ∧ ∀ q, ∃ b, t.link q = { s.link q with back := b } := by
  induction l generalizing s with
  | nil => exact ⟨hs, rfl, fun q => ⟨(s.link q).back, rfl⟩⟩
  | cons e l ih =>
    obtain ⟨hs1, hout1, hlink1⟩ := s.giveBack_fab hs e.1 e.2 1
    obtain ⟨hs2, hout2, hlink2⟩ := ih _ hs1
    refine ⟨hs2, hout2.trans hout1, fun q => ?_⟩
    obtain ⟨b1, hb1⟩ := hlink1 q
    obtain ⟨b2, hb2⟩ := hlink2 q
    exact ⟨b2, by rw [List.foldl_cons, hb2, hb1]⟩

/-- A new frame of a link (R361, R367). -/
def Link.newFrame (x : Link) (ns : Nat) : LinkFrame :=
  x.control ns {
    fseq := x.fseq, ack := 0, nak := false, train := false, good := x.good, speed := x.speed, credits := creditsNow x.back,
    time := 0, crcOk := true, flits := (takeFlits 15 x.credits x.out).1 }

/-- The link after a new frame has left. -/
def Link.afterNew (x : Link) (ns : Nat) : Link :=
  { x with
    fseq := (x.fseq + 1) % 65536, replay := x.replay ++ [x.newFrame ns], credits := (takeFlits 15 x.credits x.out).2.2.1,
    out := (takeFlits 15 x.credits x.out).2.2.2,
    back := (creditsNow x.back).foldl (fun m e => Map.put m e.1 (Map.getD m e.1 0 - e.2) 0) x.back }

theorem exec_linkFrameSend_new {s : State} {port : Nat} (hs : Map.sorted s.fab.links = true) (hport : port < 1055)
    (hup : (s.link port).st = .up) (hresend : (s.link port).resend = 0) (hroom : (s.link port).replay.length < 256) :
    ∃ t, exec (.linkFrameSend port) s = .next t ∧ t.out = s.out ++ [.frame port ((s.link port).newFrame s.ns)] ∧
      (t.link port).replay = (s.link port).replay ++ [(s.link port).newFrame s.ns] ∧
      (t.link port).fseq = ((s.link port).fseq + 1) % 65536 := by
  obtain ⟨-, hout, hlinks⟩ := State.giveBacks_fab (takeFlits 15 (s.link port).credits (s.link port).out).2.1
    (s.setLink port ((s.link port).afterNew s.ns)) (State.setLink_sorted hs _ _)
  obtain ⟨b, hb⟩ := hlinks port
  rw [State.link_setLink_self hs] at hb
  exact ⟨_, (if_neg (acts_in_state hport hup)).trans ((if_neg (not_not.mpr hresend)).trans (if_neg (Nat.not_le.mpr hroom))),
    congrArg (· ++ [Out.frame port ((s.link port).newFrame s.ns)]) hout, congrArg Link.replay hb, congrArg Link.fseq hb⟩

theorem exec_linkFrameSend_again {s : State} {port : Nat} {f : LinkFrame} (hport : port < 1055)
    (hup : (s.link port).st = .up) (hresend : (s.link port).resend ≠ 0)
    (hf : (s.link port).replay[(s.link port).replay.length - (s.link port).resend]? = some f) :
    exec (.linkFrameSend port) s = .next { s.setLink port { s.link port with resend := (s.link port).resend - 1 } with
      out := s.out ++ [.frame port ((s.link port).control s.ns f)] } := by
  refine (if_neg (acts_in_state hport hup)).trans ((if_pos hresend).trans ?_)
  rw [hf]
  rfl

/-! ### Lanes and training (R364, R365, R371) -/

/-- A lost lane sets the link to training without it (R364, R371). -/
theorem exec_laneLoss {s : State} {port lane : Nat} (hport : port < 1055)
    (hst : (s.link port).st = .up ∨ (s.link port).st = .training) (hgood : (s.link port).good.getLsbD lane = true) :
    exec (.laneLoss port lane) s = .next ((s.setLink port { s.link port with
      st := .training, good := (s.link port).good &&& ~~~((1 : BitVec 16) <<< lane), lanes := 0 }).tally 8 port) := by
  have hnot : ¬(allPorts ≤ port ∨ ((s.link port).st ≠ .up ∧ (s.link port).st ≠ .training) ∨
      (!(s.link port).good.getLsbD lane) = true) := by
    have hp : ¬allPorts ≤ port := Nat.not_le.mpr hport
    rcases hst with h | h <;> simp [hp, h, hgood]
  exact if_neg hnot

/-- Counting lost lanes moves nothing but the telemetry. -/
theorem State.tallies_eq (l : List Nat) (s : State) (port : Nat) :
    ∃ t, l.foldl (fun s _ => s.tally 8 port) s = { s with tel := t } := by
  induction l generalizing s with
  | nil => exact ⟨s.tel, rfl⟩
  | cons a l ih =>
    obtain ⟨t, ht⟩ := ih (s.tally 8 port)
    exact ⟨t, by rw [List.foldl_cons, ht]; rfl⟩

/-- The lanes of a link that the far end's offer leaves out (R364). -/
def Link.lost (x : Link) (mine : BitVec 16) : List Nat :=
  (List.range 16).filter (fun i => x.good.getLsbD i && !mine.getLsbD i)

/-- The link after an exchange that did not agree (R365). -/
def Link.disagreed (x : Link) (mine : BitVec 16) : Link := { x with good := x.good &&& mine, mism := x.mism + 1 }

/-- What a link sends while it trains with a far end that offers some lanes (R365). -/
def Link.offer (x : Link) (mine : BitVec 16) (ns : Nat) : LinkFrame := { x with good := x.good &&& mine }.trained ns

section

variable {s : State} {port : Nat} {mine remote : BitVec 16} {v : Nat} (hs : Map.sorted s.fab.links = true) (hport : port < 1055)
  (hst : (s.link port).st = .training)

include hs hport hst

theorem exec_trainingExchange_agreed (hmask : (s.link port).good &&& mine = remote) (hspeed : (s.link port).speed = v)
    {l : BitVec 16} (hl : chooseLanes remote = some l) :
    ∃ t, exec (.trainingExchange port mine remote v) s = .next t ∧
      t.link port = { s.link port with
        good := remote, st := .up, lanes := l, mism := 0, nak := false, resend := (s.link port).replay.length } ∧
      t.out = s.out ++ [.frame port ((s.link port).offer mine s.ns)] := by
  obtain ⟨tel, htel⟩ := State.tallies_eq ((s.link port).lost mine) s port
  have hexec : exec (.trainingExchange port mine remote v) s =
      .next (State.setLink { s with tel := tel, out := s.out ++ [.frame port ((s.link port).offer mine s.ns)] } port
        { s.link port with
          good := remote, st := .up, lanes := l, mism := 0, nak := false, resend := (s.link port).replay.length }) := by
    show execTrainingExchange port mine remote v s = _
    unfold execTrainingExchange
    rw [if_neg (acts_in_state hport hst)]
    dsimp only
    rw [← Link.lost, htel, if_pos ⟨hmask, hspeed⟩, Link.offer, hmask, hl]
  exact ⟨_, hexec, State.link_setLink_self hs port _, rfl⟩

theorem exec_trainingExchange_disagreed (hdiff : (s.link port).good &&& mine ≠ remote ∨ (s.link port).speed ≠ v)
    (hmism : (s.link port).mism < 2) (hmode : s.regs.funcMode.getLsbD 7 = false)
    (hlast : max (s.link port).speed v + 1 ≤ lastSpeed port) :
    ∃ t, exec (.trainingExchange port mine remote v) s = .next t ∧
      t.link port = { s.link port with
        st := .training, good := (s.link port).good &&& mine &&& remote, speed := max (s.link port).speed v + 1,
        mism := (s.link port).mism + 1 } := by
  obtain ⟨tel, htel⟩ := State.tallies_eq ((s.link port).lost mine) s port
  let sent : State := { s with tel := tel, out := s.out ++ [.frame port ((s.link port).offer mine s.ns)] }
  have hexec : exec (.trainingExchange port mine remote v) s =
      .next ((sent.setLink port ((s.link port).disagreed mine)).stepDown port remote v) := by
    show execTrainingExchange port mine remote v s = _
    unfold execTrainingExchange
    rw [if_neg (acts_in_state hport hst)]
    dsimp only
    rw [← Link.lost, htel, if_neg (by rw [not_and_or]; exact hdiff), if_neg (by omega), if_neg (by rw [hmode]; decide)]
    rfl
  have hs1 := State.setLink_sorted (s := sent) hs port ((s.link port).disagreed mine)
  refine ⟨_, hexec, ?_⟩
  have hx := State.link_setLink_self (s := sent) hs port ((s.link port).disagreed mine)
  rw [State.stepDown]
  dsimp only
  have hspeed : ¬lastSpeed port < max ((s.link port).disagreed mine).speed v + 1 := Nat.not_lt.mpr hlast
  rw [hx, if_neg hspeed, State.link_setLink_self hs1]
  rfl

end

/-! ### Reports (R369, R370) -/

/-- The first report of a disabled link that holds no frames only marks it reported. -/
theorem exec_linkReportReceive_empty {s : State} {port fseq : Nat} (hst : (s.link port).st = .disabled)
    (hrep : (s.link port).reported = false) (hempty : (s.link port).replay = []) :
    exec (.linkReportReceive port fseq) s =
      .next ((s.setLink port { s.link port with resend := 0, reported := true }).refill port) := by
  show Outcome.next (s.reportAt port fseq) = _
  simp [State.reportAt, hst, hrep, hempty]

/-! ## Packets and routes (R361, R372, R373) -/

/-- The first packet of a queue that may go leaves it. -/
theorem firstOf_head {same : Packet → Packet → Bool} {f : Packet → Option State} {p : Packet} {t : State} (h : f p = some t)
    (rest : List Packet) : firstOf same f [] (p :: rest) = some (rest, t) := by
  simp [firstOf, h]

/-- A packet that has come for this module is delivered, and its buffer given back (R361). -/
theorem exec_packetForward_here {s : State} {port : Nat} (hport : port < 1055) {p : Packet} {rest : List Packet}
    (hinq : (s.link port).inq = p :: rest) (hdst : p.dstDev = s.devId) :
    let t := (s.giveBack port p.chan p.len).deliver p
    exec (.packetForward port) s = .next (t.setLink port { t.link port with inq := rest }) := by
  have hin : s.forwardIn port p = some ((s.giveBack port p.chan p.len).deliver p) := if_pos hdst
  refine (if_pos hport).trans ?_
  rw [hinq, firstOf_head hin]

/-- A packet of this module for itself is delivered. -/
theorem exec_packetForward_own {s : State} {p : Packet} (hegress : s.fab.egress = [p]) (hdst : p.dstDev = s.devId) :
    exec (.packetForward 1055) s = .next (State.deliver { s with fab := { s.fab with egress := [] } } p) := by
  have hown : ({ s with fab := { s.fab with egress := s.fab.egress.erase p } } : State).forwardOwn p =
      some (State.deliver { s with fab := { s.fab with egress := [] } } p) := by
    rw [hegress, List.erase_cons_head]
    exact if_pos hdst
  have hhead := firstOf_head (same := fun p q => decide (p.dstDev = q.dstDev) && p.ordered && q.ordered)
    (f := fun p => State.forwardOwn { s with fab := { s.fab with egress := s.fab.egress.erase p } } p) hown []
  show execPacketForward 1055 s = _
  unfold execPacketForward
  rw [if_neg (by decide), if_pos (show 1055 = allPorts from rfl)]
  simp only [hegress] at hhead ⊢
  rw [hhead]

/-- Within its group a pair keeps its minimal route (R373). -/
theorem exec_routeReevaluate_group {s : State} {dst : BitVec 20} (hdst : dst ≠ s.devId)
    (hgroup : devGroup dst = devGroup s.devId)
    (hopen : (s.route dst).open_ = 0) (hat : (s.route dst).at_ = 0 ∨ (s.route dst).at_ + 10000 ≤ s.ns)
    (hmin : (s.route dst).valiant = false) :
    exec (.routeReevaluate dst) s =
      .next (State.setRoute { s with free := s.free + 3 } dst { s.route dst with at_ := s.ns }) := by
  have hnot : ¬(dst = s.devId ∨ (s.route dst).open_ ≠ 0 ∨ ((s.route dst).at_ ≠ 0 ∧ s.ns < (s.route dst).at_ + 10000)) := by
    rintro (h | h | ⟨h0, hsoon⟩)
    · exact hdst h
    · exact h hopen
    · omega
  have hchoice : s.chooseRoute dst = none := if_pos hgroup
  have hkeep : (if (s.chooseRoute dst).isSome = (s.route dst).valiant then s.route dst
      else (s.route dst).take (s.chooseRoute dst)) = s.route dst := by
    rw [hchoice, hmin]
    rfl
  refine (if_neg hnot).trans ?_
  dsimp only
  simp only [hkeep]

end Sys2Proof.Machine

namespace Sys2Proof.Proofs

open Sys2Proof Sys2Proof.Machine Sys2Proof.Safety

/-- Settles O60: a boot ends because its moves are bounded by three for each step that is left, and a clean one passes step by step;
the answers and the links' events are read off their definitions, with the links read back after each write. -/
theorem bootAndFabric : Obligations.BootAndFabric := by
  refine ⟨fun s inp => ?_, fun s => ?_, fun s hs => ⟨fun port hport => ?_, fun p hegress hdst => ?_, fun dst hdst hgroup => ?_⟩⟩
  · refine ⟨⟨_, exec_powerLoss s, rfl, rfl, rfl, rfl, rfl, rfl, rfl, rfl, rfl, rfl, rfl⟩, exec_orderlyPowerDown_flash,
      fun hp => exec_powerOn_over hp s, fun hp => exec_powerOn_lost hp s, exec_powerOn_clean,
      fun _ hg => exec_boot_held (State.bootWaits_of_grid hg) inp, fun hwait hg => ?_⟩
    have hw := State.bootWaits_of_idle hwait hg
    refine ⟨fun hp => ⟨_, exec_bootRetry hw inp, bootFrom_resumed hp s _ _⟩,
      (exec_bootEnterRecovery hw).trans (congrArg Host.Outcome.next s.toRecovery_here),
      fun h => (exec_bootSkip_required hw inp h).trans (congrArg Host.Outcome.next s.toRecovery_here), fun h hp => ?_,
      fun h => (exec_bootNextAlternate_none hw inp h).trans (congrArg Host.Outcome.next s.toRecovery_here),
      fun h hp => ⟨_, exec_bootNextAlternate_some hw inp h, bootFrom_resumed hp s _ _⟩⟩
    obtain ⟨hmem, hover⟩ := bootFrom_resumed hp (s.skipStep s.boot.step inp) (s.boot.step + 1) none
    exact ⟨_, exec_bootSkip_optional hw inp h, hmem.trans (s.skipStep_mem _ _), hover⟩
  · exact ⟨rfl, fun h => ⟨exec_getCapabilities_agreed h, exec_negotiateAlgorithms_agreed h⟩,
      fun h => ⟨exec_getCapabilities_unknown h, exec_negotiateAlgorithms_unknown h⟩, rfl, exec_getCertificate_slot0 s,
      exec_challenge_slot0 s, exec_getMeasurements_count s, fun idx h1 h4 => exec_getMeasurements_one h1 h4 s,
      fun slot h => exec_challenge_other h s, fun code => rfl, rfl,
      fun id off len => ⟨fun k ns m hsnap hk => exec_readSnapshot_held (hk ▸ hsnap) off len,
        fun h => exec_readSnapshot_other h off len⟩,
      exec_clearBootRecord_idle, exec_clearBootRecord_waiting, fun w h1 h2 => exec_setPowerLimit_inRange h1 h2 s,
      fun w h => exec_setPowerLimit_outOfRange h s,
      fun k mask hk => ⟨fun hm => exec_setSliceRetire_some hk hm s, fun hm => exec_setSliceRetire_all hk hm s⟩,
      fun n hn => exec_sensorRead_port hn s, 
      fun h => (exec_telemetrySave_due h).trans (congrArg Host.Outcome.next s.saveTel_eq)⟩
  · refine ⟨fun fr hup => ⟨exec_linkFrameReceive_damaged hport hup, fun hcrc hseq => ?_, fun hcrc hseq => ?_⟩,
      fun hup hresend hroom => ?_, fun f hup hresend hf => ?_, fun lane _ hst hgood => ?_, fun mine remote v hst => ⟨?_, ?_⟩,
      fun fseq => exec_linkReportReceive_empty, fun p rest => exec_packetForward_here hport⟩
    · have hlink := State.link_sample_setLink hs port fr.time ((s.link port).accepted fr)
      exact ⟨_, _, exec_linkFrameReceive_next hport hup hcrc hseq, (hlink port).trans (if_pos rfl), rfl, rfl, rfl, rfl,
        State.sample_setLink_outside s port fr.time _, fun j hj => (hlink j).trans (if_neg hj)⟩
    · have hlink := State.link_sample_setLink hs port fr.time { (s.link port).acknowledge fr with nak := true } port
      exact ⟨_, _, exec_linkFrameReceive_later hport hup hcrc hseq, hlink.trans (if_pos rfl), rfl, rfl, rfl⟩
    · obtain ⟨t, hexec, hout, hreplay, hfseq⟩ := exec_linkFrameSend_new hs hport hup hresend hroom
      exact ⟨t, _, hexec, hout, rfl, rfl, takeFlits_length 15 _ _, rfl, rfl, rfl, hreplay, hfseq⟩
    · exact ⟨_, _, exec_linkFrameSend_again hport hup hresend hf, rfl, rfl, rfl, State.link_setLink_self hs port _⟩
    · exact ⟨_, exec_laneLoss hport hst hgood, State.link_setLink_self hs port _, rfl⟩
    · intro hmask hspeed l hl
      obtain ⟨t, hexec, hlink, hout⟩ := exec_trainingExchange_agreed hs hport hst hmask hspeed hl
      exact ⟨t, _, hexec, hlink, hout, rfl, hmask, rfl, rfl⟩
    · exact exec_trainingExchange_disagreed hs hport hst
  · exact exec_packetForward_own hegress hdst
  · exact exec_routeReevaluate_group hdst hgroup

end Sys2Proof.Proofs
